-- ==== Sys2Proof/Word.lean ====
section
/-! DEFINITION. The word types of the part and their plainest arithmetic (spec R9, R11, R14, R71). -/

namespace Sys2Proof

/-- Eight bits, the addressable unit of every memory (R9). -/
abbrev Byte := BitVec 8
/-- A 32-bit vector register element, instruction word or memory word (R14, R47). -/
abbrev Word := BitVec 32
/-- A 64-bit scalar register (R14). -/
abbrev DWord := BitVec 64
/-- One bit per lane of a warp, W = 64 (R11, R14). -/
abbrev LaneMask := BitVec 64
/-- A program counter held as PC[51:2]: the low two bits of a PC are zero (R23). -/
abbrev Pc := BitVec 50

/-- The warp width W (R11). -/
def warpWidth : Nat := 64

/-- The 64 lanes, ascending. -/
def allLanes : List Nat := List.range 64

/-- The byte address of a PC. -/
def Pc.addr (p : Pc) : Nat := 4 * p.toNat

/-- The PC that holds a byte address (its bits [51:2]). -/
def Pc.ofAddr (a : Nat) : Pc := BitVec.ofNat 50 (a / 4)

/-- The PC `n` words further on, modulo 2^50 words. -/
def Pc.plus (p : Pc) (n : Nat) : Pc := p + BitVec.ofNat 50 n

/-- Bits `[hi:lo]` of a number (R9). -/
def natBits (x hi lo : Nat) : Nat := (x >>> lo) % 2 ^ (hi - lo + 1)

/-- Bit `i` of a number. -/
def natBit (x i : Nat) : Bool := (x >>> i) % 2 == 1

/-- A number of `bits` bits read as two's complement. -/
def signedNat (bits x : Nat) : Int :=
  let y := x % 2 ^ bits
  if 2 * y < 2 ^ bits then (y : Int) else (y : Int) - 2 ^ bits

/-- The `n` low bytes of a number, lowest first (R9: little-endian). -/
def natToBytes : Nat → Nat → List Byte
  | 0, _ => []
  | n + 1, x => BitVec.ofNat 8 x :: natToBytes n (x / 256)

/-- The number that a list of bytes holds, lowest first (R9). -/
def bytesToNat : List Byte → Nat
  | [] => 0
  | b :: bs => b.toNat + 256 * bytesToNat bs

/-- The lanes of a mask, ascending. -/
def LaneMask.lanes (m : LaneMask) : List Nat := allLanes.filter fun l => m.getLsbD l

/-- The mask of a list of lanes. -/
def LaneMask.ofLanes (ls : List Nat) : LaneMask :=
  ls.foldl (fun m l => m ||| (1#64 <<< l)) 0#64

/-- The mask of the lanes on which a test holds. -/
def LaneMask.ofPred (p : Nat → Bool) : LaneMask := LaneMask.ofLanes (allLanes.filter p)

/-- The least lane of a mask, if it has one. -/
def LaneMask.least (m : LaneMask) : Option Nat := allLanes.find? fun l => m.getLsbD l

/-- The number of lanes in a mask. -/
def LaneMask.count (m : LaneMask) : Nat := (LaneMask.lanes m).length

end Sys2Proof
end

