-- ==== Sys2Proof/Syntax.lean ====
section
/-! DEFINITION. The syntax: one constructor of `Instr` for each row of the table of operations and events
(spec/opcode_table.json). The rows with an instruction encoding carry the decoded fields of R48 and R49; the
rows without one are the part's other indivisible steps (spec/95_what_each_step_holds.md) and carry what the
step acts on, and what comes to the part from outside in it. -/

namespace Sys2Proof

/-! ## The fields of an instruction -/

/-- The length of an instruction, w0[1:0] (R47). -/
inductive Form where
  | w32
  | w64
  | w96
deriving DecidableEq, Repr

/-- The mask selection of an instruction, from M, MX and MN (R54). -/
inductive Guard where
  /-- every lane of the slot -/
  | all
  /-- the lanes whose bit is set in m1 to m7 -/
  | set (m : BitVec 3)
  /-- the lanes whose bit is clear in m1 to m7 -/
  | clear (m : BitVec 3)
deriving DecidableEq, Repr

/-- The rounding mode RND (R55); SR takes its seed from the literal (R50). -/
inductive Rnd where
  | rn
  | rz
  | ru
  | rd
  | ra
  | sr
deriving DecidableEq, Repr

/-- The decoded fields of an instruction (R48, R49, R50). `d`, `a` and `b` are Dh:D, Ah:A and Bh:B; with
`imm`, `b` holds the immediate of the shorter forms, and `lit` the literal of the 96-bit form. -/
structure Fields where
  form : Form
  d    : BitVec 8
  a    : BitVec 8
  b    : BitVec 8
  c    : BitVec 8
  imm  : Bool
  x    : Bool
  guard : Guard
  rnd  : Rnd
  sat  : Bool
  sub  : BitVec 4
  mod  : BitVec 6
  lit  : Word
deriving DecidableEq, Repr

/-- The fields of a clause header (R60). -/
structure HeaderFields where
  wait : BitVec 12
  setA : BitVec 4
  setB : BitVec 4
  len  : BitVec 6
deriving DecidableEq, Repr

/-! ## What the other steps act on -/

/-- A PC slot of a warp (R23). -/
inductive SlotId where
  | A
  | B
deriving DecidableEq, Repr

/-- A warp, named by its resident block's model number and its rank (R12). -/
structure WarpRef where
  block : Nat
  rank  : Nat
deriving DecidableEq, Repr

/-- A core, by tower and number (R11). -/
structure CoreRef where
  tower : Nat
  core  : Nat
deriving DecidableEq, Repr

/-- What the error-correcting code of a memory found at a read (R243, R244): the environment's part of a step. -/
inductive EccOutcome where
  /-- no error -/
  | clean
  /-- one correctable error -/
  | corrected
  /-- uncorrectable at first, and the retry was good -/
  | retried
  /-- uncorrectable twice, or uncorrectable in an on-core SRAM -/
  | uncorrectable
deriving DecidableEq, Repr

/-- How far a card's chunk came, and how its writes were acknowledged (R285, R288, R304). -/
inductive TransferOutcome where
  /-- every element of the chunk is written -/
  | ok
  /-- after this many elements another card takes its turn -/
  | part (elements : Nat)
  /-- a transfer error, with this many elements acknowledged -/
  | error (acknowledged : Nat)
deriving DecidableEq, Repr

/-- What a page or window walk was asked for (R237, R238, R239). -/
inductive WalkRequest where
  /-- the element at which a card stands -/
  | card (id : Nat)
  /-- a page translation of an ASID -/
  | page (asid va : Nat)
  /-- a window page of an ASID -/
  | window (asid page : Nat)
deriving DecidableEq, Repr

/-- The REASON of a pre-emption request (R308). -/
inductive PreemptReason where
  | acquireDeadlock
  | highLatency
  | redispatchRoom
  | hostRequest
deriving DecidableEq, Repr

/-- A unit that a pre-emption request stops (R307, R308). -/
inductive StopUnit where
  | slice (n : Nat)
  | matrix (n : Nat)
  | copyEngine
  | atomicEngine
  | packingUnit
  | sequencer
deriving DecidableEq, Repr

/-- A packet at its start: its queue, its ring index and the fields of its header (R321). -/
structure PacketRef where
  queue   : Nat
  index   : Word
  tag     : BitVec 16
  barrier : Bool
  acq     : BitVec 3
  rel     : BitVec 3
deriving DecidableEq, Repr

/-- A source or destination of a COPY packet (R322): a main-memory VA or a tower's window offset. -/
inductive CopyOperand where
  | main (va : Nat)
  | window (tower offset : Nat)
deriving DecidableEq, Repr

/-- The fields of a market record (R334). -/
structure PostRecord where
  market : Nat
  stall  : Nat
  code   : Nat
  send   : Nat
  eff    : Nat
  epoch  : Nat
  seq    : Nat
deriving DecidableEq, Repr

/-- The member states of a board entry (R331). -/
inductive MemberState where
  | none
  | active
  | joining
  | leaving
  | silent
  | evicted
deriving DecidableEq, Repr

/-- One member's entry of a board (R331), with every post that is pending for it: (effective bell, sequence number, code).
A snapshot holds such entries (R338). -/
structure BoardEntry where
  stall : Nat
  code  : Nat
  state : MemberState
  /-- the effective bell and the sequence number of the code in force (R332) -/
  inForce : Nat × Nat
  pending : List (Nat × Nat × Nat)
  last  : Nat
  exit  : Nat
  /-- JOINING: the bell at which the member turns ACTIVE; SILENT: the bell at which a post revives it (R338, R340) -/
  activeAt : Option Nat
  /-- the effective bell of a LEAVE (R339) -/
  leaveAt : Option Nat
deriving DecidableEq, Repr

/-- A function that reports in DEVREADY (R351). -/
inductive DeviceFunction where
  | pcie
  | cp
  | hbm (stack : Nat)
  | lp (channel : Nat)
  | tower (tower : Nat)
  | port (port : Nat)
deriving DecidableEq, Repr

/-- The causes of a FATAL error (R305). -/
inductive FatalCause where
  | unownedState
  | preemptTimeout
  | bridgeLoss
  | thermalTrip
deriving DecidableEq, Repr

/-- A market record in a port's receive buffer (R334), with the board that goes with a SNAPSHOT, and the part or stall to which a
JOIN_REQ or a SNAPSHOT is sent (R338). -/
structure ReceivedRecord where
  port : Nat
  post : PostRecord
  board : List BoardEntry
  to_  : Option Nat := none
deriving DecidableEq, Repr

/-- A peer part's request at a fabric port (R231): a read of `len` bytes, or a write whose bytes may carry poison (R245). -/
inductive PeerRequest where
  | read (pa len : Nat)
  | write (pa : Nat) (bytes : List Byte) (poisoned : Bool)
deriving DecidableEq, Repr

/-! ## The instructions and events -/

/-- The instructions with an encoding of R48, one per table row. -/
inductive Mnem where
  | nop
  | bra
  | brc
  | brx
  | call
  | ret
  | prepj
  | prepl
  | recv
  | brk
  | cont
  | exit
  | trap
  | rtt
  | rttSkip
  | bkpt
  | yield
  | srd
  | swr
  | regacq
  | waitf
  | sadd
  | ssub
  | smul
  | smulh
  | smad
  | sand
  | sor
  | sxor
  | snot
  | sshl
  | sshr
  | ssar
  | smin
  | smax
  | scmp
  | ssel
  | smov
  | sli
  | sliHi
  | spopc
  | sclz
  | sctz
  | vadd
  | vsub
  | vmul
  | vmulh
  | vmad
  | vmin
  | vmax
  | vabs
  | vneg
  | vand
  | vor
  | vxor
  | vnot
  | vshl
  | vshr
  | vsar
  | vrot
  | vfun
  | vpopc
  | vclz
  | vctz
  | vbrev
  | vcmp
  | vsel
  | vmov
  | vli
  | vbcst
  | vextr
  | icvt
  | bmm8
  | pdep
  | pext
  | ldperm
  | bperm
  | bfx
  | bfi
  | mand
  | mor
  | mxor
  | mnot
  | mmov
  | mcnt
  | mfirst
  | mtos
  | stom
  | shflIdx
  | shflXor
  | shflUp
  | shflDn
  | redl
  | scanl
  | vote
  | laneid
  | crngLo
  | crngHi
  | fadd
  | fsub
  | fmul
  | ffma
  | fmin
  | fmax
  | fcmp
  | fclass
  | frnd
  | fcvt
  | icvtf
  | fcvti
  | fscl
  | pfadd
  | pfmul
  | pffma
  | fdot4
  | rcp
  | rsq
  | sqrt
  | exp2
  | log2
  | sin
  | cos
  | rcpT
  | rsqT
  | sqrtT
  | exp2T
  | log2T
  | sinT
  | cosT
  | ldb
  | stb
  | ldt
  | stt
  | ldl
  | stl
  | atom
  | atomc
  | atomf
  | afaddo
  | accopen
  | fence
  | barset
  | bararr
  | bwait
  | bsync
  | waitc
  | kick
  | mma
  | mmaByp
  | mmas
  | mmasByp
  | mzero
  | mdrain
  | mbyp
  | mrd
  | mwr
  | mcertr
  | ninfo
  | chdr
  | take
  | spawn
  | spwait
  | tighten
  | cert
  | certRel
  | tolsplIn
  | tolsplOwn
  | toladdLog
  | toladdOff
  | fpick
  | fpickCvt
  | tolsetDem
  | tolsetCert
  | tolsetVal
  | tolsetFld
deriving DecidableEq, Repr

/-- Every row of the table of operations and events. -/
inductive Instr where
  /-- CLAUSE_HEADER (R60) -/
  | clauseHeader (h : HeaderFields)
  /-- NOP (R111) -/
  | nop (f : Fields)
  /-- BRA (R101) -/
  | bra (f : Fields)
  /-- BRC (R101) -/
  | brc (f : Fields)
  /-- BRX (R102) -/
  | brx (f : Fields)
  /-- CALL (R103) -/
  | call (f : Fields)
  /-- RET (R103) -/
  | ret (f : Fields)
  /-- PREPJ (R104) -/
  | prepj (f : Fields)
  /-- PREPL (R104) -/
  | prepl (f : Fields)
  /-- RECV (R105) -/
  | recv (f : Fields)
  /-- BRK (R106) -/
  | brk (f : Fields)
  /-- CONT (R101) -/
  | cont (f : Fields)
  /-- EXIT (R107) -/
  | exit (f : Fields)
  /-- TRAP (R109) -/
  | trap (f : Fields)
  /-- RTT (R110) -/
  | rtt (f : Fields)
  /-- RTT_SKIP (R110) -/
  | rttSkip (f : Fields)
  /-- BKPT (R109) -/
  | bkpt (f : Fields)
  /-- YIELD (R111) -/
  | yield (f : Fields)
  /-- SRD (R114) -/
  | srd (f : Fields)
  /-- SWR (R114) -/
  | swr (f : Fields)
  /-- REGACQ (R19) -/
  | regacq (f : Fields)
  /-- WAITF (R112) -/
  | waitf (f : Fields)
  /-- SADD (R120) -/
  | sadd (f : Fields)
  /-- SSUB (R120) -/
  | ssub (f : Fields)
  /-- SMUL (R120) -/
  | smul (f : Fields)
  /-- SMULH (R120) -/
  | smulh (f : Fields)
  /-- SMAD (R120) -/
  | smad (f : Fields)
  /-- SAND (R120) -/
  | sand (f : Fields)
  /-- SOR (R120) -/
  | sor (f : Fields)
  /-- SXOR (R120) -/
  | sxor (f : Fields)
  /-- SNOT (R120) -/
  | snot (f : Fields)
  /-- SSHL (R120) -/
  | sshl (f : Fields)
  /-- SSHR (R120) -/
  | sshr (f : Fields)
  /-- SSAR (R120) -/
  | ssar (f : Fields)
  /-- SMIN (R120) -/
  | smin (f : Fields)
  /-- SMAX (R120) -/
  | smax (f : Fields)
  /-- SCMP (R120) -/
  | scmp (f : Fields)
  /-- SSEL (R120) -/
  | ssel (f : Fields)
  /-- SMOV (R120) -/
  | smov (f : Fields)
  /-- SLI (R120) -/
  | sli (f : Fields)
  /-- SLI_HI (R120) -/
  | sliHi (f : Fields)
  /-- SPOPC (R120) -/
  | spopc (f : Fields)
  /-- SCLZ (R120) -/
  | sclz (f : Fields)
  /-- SCTZ (R120) -/
  | sctz (f : Fields)
  /-- VADD (R121) -/
  | vadd (f : Fields)
  /-- VSUB (R121) -/
  | vsub (f : Fields)
  /-- VMUL (R121) -/
  | vmul (f : Fields)
  /-- VMULH (R121) -/
  | vmulh (f : Fields)
  /-- VMAD (R121) -/
  | vmad (f : Fields)
  /-- VMIN (R121) -/
  | vmin (f : Fields)
  /-- VMAX (R121) -/
  | vmax (f : Fields)
  /-- VABS (R121) -/
  | vabs (f : Fields)
  /-- VNEG (R121) -/
  | vneg (f : Fields)
  /-- VAND (R121) -/
  | vand (f : Fields)
  /-- VOR (R121) -/
  | vor (f : Fields)
  /-- VXOR (R121) -/
  | vxor (f : Fields)
  /-- VNOT (R121) -/
  | vnot (f : Fields)
  /-- VSHL (R121) -/
  | vshl (f : Fields)
  /-- VSHR (R121) -/
  | vshr (f : Fields)
  /-- VSAR (R121) -/
  | vsar (f : Fields)
  /-- VROT (R121) -/
  | vrot (f : Fields)
  /-- VFUN (R122) -/
  | vfun (f : Fields)
  /-- VPOPC (R121) -/
  | vpopc (f : Fields)
  /-- VCLZ (R121) -/
  | vclz (f : Fields)
  /-- VCTZ (R121) -/
  | vctz (f : Fields)
  /-- VBREV (R121) -/
  | vbrev (f : Fields)
  /-- VCMP (R123) -/
  | vcmp (f : Fields)
  /-- VSEL (R123) -/
  | vsel (f : Fields)
  /-- VMOV (R121) -/
  | vmov (f : Fields)
  /-- VLI (R121) -/
  | vli (f : Fields)
  /-- VBCST (R121) -/
  | vbcst (f : Fields)
  /-- VEXTR (R123) -/
  | vextr (f : Fields)
  /-- ICVT (R85) -/
  | icvt (f : Fields)
  /-- BMM8 (R124) -/
  | bmm8 (f : Fields)
  /-- PDEP (R125) -/
  | pdep (f : Fields)
  /-- PEXT (R125) -/
  | pext (f : Fields)
  /-- LDPERM (R126) -/
  | ldperm (f : Fields)
  /-- BPERM (R126) -/
  | bperm (f : Fields)
  /-- BFX (R127) -/
  | bfx (f : Fields)
  /-- BFI (R127) -/
  | bfi (f : Fields)
  /-- MAND (R128) -/
  | mand (f : Fields)
  /-- MOR (R128) -/
  | mor (f : Fields)
  /-- MXOR (R128) -/
  | mxor (f : Fields)
  /-- MNOT (R128) -/
  | mnot (f : Fields)
  /-- MMOV (R128) -/
  | mmov (f : Fields)
  /-- MCNT (R128) -/
  | mcnt (f : Fields)
  /-- MFIRST (R128) -/
  | mfirst (f : Fields)
  /-- MTOS (R128) -/
  | mtos (f : Fields)
  /-- STOM (R128) -/
  | stom (f : Fields)
  /-- SHFL_IDX (R129) -/
  | shflIdx (f : Fields)
  /-- SHFL_XOR (R129) -/
  | shflXor (f : Fields)
  /-- SHFL_UP (R129) -/
  | shflUp (f : Fields)
  /-- SHFL_DN (R129) -/
  | shflDn (f : Fields)
  /-- REDL (R130) -/
  | redl (f : Fields)
  /-- SCANL (R130) -/
  | scanl (f : Fields)
  /-- VOTE (R131) -/
  | vote (f : Fields)
  /-- LANEID (R131) -/
  | laneid (f : Fields)
  /-- CRNG_LO (R132) -/
  | crngLo (f : Fields)
  /-- CRNG_HI (R132) -/
  | crngHi (f : Fields)
  /-- FADD (R136) -/
  | fadd (f : Fields)
  /-- FSUB (R136) -/
  | fsub (f : Fields)
  /-- FMUL (R136) -/
  | fmul (f : Fields)
  /-- FFMA (R136) -/
  | ffma (f : Fields)
  /-- FMIN (R137) -/
  | fmin (f : Fields)
  /-- FMAX (R137) -/
  | fmax (f : Fields)
  /-- FCMP (R138) -/
  | fcmp (f : Fields)
  /-- FCLASS (R139) -/
  | fclass (f : Fields)
  /-- FRND (R140) -/
  | frnd (f : Fields)
  /-- FCVT (R141) -/
  | fcvt (f : Fields)
  /-- ICVTF (R141) -/
  | icvtf (f : Fields)
  /-- FCVTI (R141) -/
  | fcvti (f : Fields)
  /-- FSCL (R136) -/
  | fscl (f : Fields)
  /-- PFADD (R142) -/
  | pfadd (f : Fields)
  /-- PFMUL (R142) -/
  | pfmul (f : Fields)
  /-- PFFMA (R142) -/
  | pffma (f : Fields)
  /-- FDOT4 (R143) -/
  | fdot4 (f : Fields)
  /-- RCP (R144) -/
  | rcp (f : Fields)
  /-- RSQ (R144) -/
  | rsq (f : Fields)
  /-- SQRT (R144) -/
  | sqrt (f : Fields)
  /-- EXP2 (R144) -/
  | exp2 (f : Fields)
  /-- LOG2 (R144) -/
  | log2 (f : Fields)
  /-- SIN (R144) -/
  | sin (f : Fields)
  /-- COS (R144) -/
  | cos (f : Fields)
  /-- RCP_T (R146) -/
  | rcpT (f : Fields)
  /-- RSQ_T (R146) -/
  | rsqT (f : Fields)
  /-- SQRT_T (R146) -/
  | sqrtT (f : Fields)
  /-- EXP2_T (R146) -/
  | exp2T (f : Fields)
  /-- LOG2_T (R146) -/
  | log2T (f : Fields)
  /-- SIN_T (R146) -/
  | sinT (f : Fields)
  /-- COS_T (R146) -/
  | cosT (f : Fields)
  /-- LDB (R156) -/
  | ldb (f : Fields)
  /-- STB (R156) -/
  | stb (f : Fields)
  /-- LDT (R156) -/
  | ldt (f : Fields)
  /-- STT (R156) -/
  | stt (f : Fields)
  /-- LDL (R156) -/
  | ldl (f : Fields)
  /-- STL (R156) -/
  | stl (f : Fields)
  /-- ATOM (R161) -/
  | atom (f : Fields)
  /-- ATOMC (R161) -/
  | atomc (f : Fields)
  /-- ATOMF (R161) -/
  | atomf (f : Fields)
  /-- AFADDO (R164) -/
  | afaddo (f : Fields)
  /-- ACCOPEN (R163) -/
  | accopen (f : Fields)
  /-- FENCE (R160) -/
  | fence (f : Fields)
  /-- BARSET (R167) -/
  | barset (f : Fields)
  /-- BARARR (R167) -/
  | bararr (f : Fields)
  /-- BWAIT (R168) -/
  | bwait (f : Fields)
  /-- BSYNC (R169) -/
  | bsync (f : Fields)
  /-- WAITC (R170) -/
  | waitc (f : Fields)
  /-- KICK (R180) -/
  | kick (f : Fields)
  /-- MMA (R193) -/
  | mma (f : Fields)
  /-- MMA_BYP (R196) -/
  | mmaByp (f : Fields)
  /-- MMAS (R193) -/
  | mmas (f : Fields)
  /-- MMAS_BYP (R196) -/
  | mmasByp (f : Fields)
  /-- MZERO (R195) -/
  | mzero (f : Fields)
  /-- MDRAIN (R197) -/
  | mdrain (f : Fields)
  /-- MBYP (R196) -/
  | mbyp (f : Fields)
  /-- MRD (R195) -/
  | mrd (f : Fields)
  /-- MWR (R195) -/
  | mwr (f : Fields)
  /-- MCERTR (R195) -/
  | mcertr (f : Fields)
  /-- NINFO (R202) -/
  | ninfo (f : Fields)
  /-- CHDR (R203) -/
  | chdr (f : Fields)
  /-- TAKE (R204) -/
  | take (f : Fields)
  /-- SPAWN (R205) -/
  | spawn (f : Fields)
  /-- SPWAIT (R206) -/
  | spwait (f : Fields)
  /-- TIGHTEN (R214) -/
  | tighten (f : Fields)
  /-- CERT (R211) -/
  | cert (f : Fields)
  /-- CERT_REL (R212) -/
  | certRel (f : Fields)
  /-- TOLSPL_IN (R208) -/
  | tolsplIn (f : Fields)
  /-- TOLSPL_OWN (R208) -/
  | tolsplOwn (f : Fields)
  /-- TOLADD_LOG (R207) -/
  | toladdLog (f : Fields)
  /-- TOLADD_OFF (R207) -/
  | toladdOff (f : Fields)
  /-- FPICK (R209) -/
  | fpick (f : Fields)
  /-- FPICK_CVT (R209) -/
  | fpickCvt (f : Fields)
  /-- TOLSET_DEM (R210) -/
  | tolsetDem (f : Fields)
  /-- TOLSET_CERT (R210) -/
  | tolsetCert (f : Fields)
  /-- TOLSET_VAL (R210) -/
  | tolsetVal (f : Fields)
  /-- TOLSET_FLD (R210) -/
  | tolsetFld (f : Fields)
  /-- TRAP_ENTRY (R108) -/
  | trapEntry (w : WarpRef) (z : SlotId)
  /-- LOAD_STORE_COMPLETION (R156) -/
  | loadStoreCompletion (w : WarpRef) (op : Nat) (ecc : EccOutcome)
  /-- STORE_BUFFER_ENTRY_PERFORMED (R29) -/
  | storeBufferEntryPerformed (w : WarpRef) (op : Nat)
  /-- ATOMIC_ENGINE_ACCEPT (R162) -/
  | atomicEngineAccept (c : CoreRef)
  /-- HOT_LINE_TRANSFER (R289) -/
  | hotLineTransfer (c : CoreRef) (line : Nat)
  /-- ACC_SLOT_SUM_DONE (R165) -/
  | accSlotSumDone (c : CoreRef) (slot : Nat)
  /-- SFU_COMPLETION (R147) -/
  | sfuCompletion (w : WarpRef) (op : Nat)
  /-- CRNG_COMPLETION (R132) -/
  | crngCompletion (w : WarpRef) (op : Nat)
  /-- MMA_COMPLETION (R193) -/
  | mmaCompletion (w : WarpRef) (op : Nat)
  /-- TILE_OP_COMPLETION (R195) -/
  | tileOpCompletion (w : WarpRef) (op : Nat)
  /-- CERT_COMPLETION (R211) -/
  | certCompletion (w : WarpRef) (op : Nat)
  /-- REGACQ_GRANT (R19) -/
  | regacqGrant (block : Nat)
  /-- ACQUIRE_DEADLOCK_EVICTION (R19) -/
  | acquireDeadlockEviction (c : CoreRef)
  /-- CARD_ENTER_CHECKER (R283) -/
  | cardEnterChecker (c : CoreRef)
  /-- CARD_START (R285) -/
  | cardStart (c : CoreRef)
  /-- CARD_CHUNK (R182) -/
  | cardChunk (c : CoreRef) (card : Nat) (transfer : TransferOutcome)
  /-- CARD_COMPLETE (R181) -/
  | cardComplete (c : CoreRef) (card : Nat)
  /-- PAGE_WALK_COMPLETE (R237) -/
  | pageWalkComplete (c : CoreRef) (req : WalkRequest)
  /-- INVALIDATION_COMPLETE (R240) -/
  | invalidationComplete (pkt : Nat)
  /-- BLOCK_DISPATCH (R259) -/
  | blockDispatch (tower : Nat)
  /-- BLOCK_RETIRE (R226) -/
  | blockRetire (block : Nat)
  /-- SPAWN_PACK_TIMEOUT (R262) -/
  | spawnPackTimeout (c : CoreRef) (forming : Nat)
  /-- SPAWN_AREA_REFILL (R262) -/
  | spawnAreaRefill (c : CoreRef)
  /-- HIGH_LATENCY_PREEMPT (R266) -/
  | highLatencyPreempt (tower : Nat)
  /-- REDISPATCH_ROOM_PREEMPT (R279) -/
  | redispatchRoomPreempt (tower : Nat)
  /-- PREEMPT_REQUEST (R309) -/
  | preemptRequest (block : Nat) (reason : PreemptReason)
  /-- UNIT_STOP_ACK (R307) -/
  | unitStopAck (tower : Nat) (record : Nat) (unit : StopUnit)
  /-- CONTEXT_SAVE_DONE (R309) -/
  | contextSaveDone (tower : Nat) (record : Nat)
  /-- CORE_SELF_CHECK_FAIL (R352) -/
  | coreSelfCheckFail (c : CoreRef)
  /-- QUEUE_DOORBELL (R320) -/
  | queueDoorbell (q : Nat) (wptr : Word)
  /-- QUEUE_ENABLE (R320) -/
  | queueEnable (q : Nat)
  /-- QUEUE_DISABLE (R320) -/
  | queueDisable (q : Nat)
  /-- FAULT_RESPONSE_RESUME (R327) -/
  | faultResponseResume (id : Nat)
  /-- FAULT_RESPONSE_DECLINE (R327) -/
  | faultResponseDecline (id : Nat)
  /-- REGISTER_WRITE (R319) -/
  | registerWrite (offset : Nat) (size : Nat) (value : DWord)
  /-- PARTNO_WRITE (R350) -/
  | partnoWrite (value : Word)
  /-- PORTEN_WRITE (R350) -/
  | portenWrite (value : Word)
  /-- ENGINE_CONTROL_WRITE (R293) -/
  | engineControlWrite (c : CoreRef) (value : DWord)
  /-- QUOTE_NONCE_WRITE (R356) -/
  | quoteNonceWrite (offset : Nat) (size : Nat) (value : DWord)
  /-- SWEEP (R252) -/
  | sweep (p : PacketRef) (descriptor : Nat)
  /-- COPY (R322) -/
  | copy (p : PacketRef) (src : CopyOperand) (dst : CopyOperand) (len : Nat)
  /-- WAIT (R325) -/
  | wait (p : PacketRef) (signal : Nat) (value : DWord) (timeout : Nat)
  /-- WAIT_EVALUATE (R325) -/
  | waitEvaluate (pkt : Nat)
  /-- WAIT_TIMEOUT (R325) -/
  | waitTimeout (pkt : Nat)
  /-- PAGE_REQUEST_RESPONSE (R325) -/
  | pageRequestResponse (pkt : Nat) (ok : Bool)
  /-- SIGNAL (R322) -/
  | signal (p : PacketRef) (signal : Nat) (value : DWord) (add : Bool)
  /-- MAP_RUN (R322) -/
  | mapRun (p : PacketRef) (tower : Nat) (first : Nat) (count : Nat) (phys : Nat)
  /-- UNMAP_RUN (R322) -/
  | unmapRun (p : PacketRef) (tower : Nat) (first : Nat) (count : Nat)
  /-- INVALIDATE_PAGES (R322) -/
  | invalidatePages (p : PacketRef) (va : Nat) (pages : Nat)
  /-- PACKET_COMPLETION (R323) -/
  | packetCompletion (pkt : Nat)
  /-- MSIX_DELIVERY (R326) -/
  | msixDelivery (vector : Nat)
  /-- CONFIG (R347) -/
  | config (p : PacketRef) (market : Nat) (stall : Nat) (forward : Nat)
  /-- JOIN (R338) -/
  | join (p : PacketRef) (sponsor : Nat)
  /-- MARKET_LEAVE (R339) -/
  | marketLeave (p : PacketRef) (bell : Nat)
  /-- MARKET_POST (R347) -/
  | marketPost (p : PacketRef) (ceiling : Nat)
  /-- SENSOR_REARM (R347) -/
  | sensorRearm (p : PacketRef) (tower : Nat)
  /-- TRIM_REARM (R347) -/
  | trimRearm (p : PacketRef) (island : Nat)
  /-- PLIMIT (R342) -/
  | plimit (p : PacketRef) (watts : Nat)
  /-- TRIM_STEP (R346) -/
  | trimStep (island : Nat) (errors : Nat)
  /-- TRIM_HOLD_EXPIRY (R346) -/
  | trimHoldExpiry (island : Nat)
  /-- BUDGET_INTERVAL (R294) -/
  | budgetInterval (c : CoreRef)
  /-- SLEW_WINDOW (R295) -/
  | slewWindow (c : CoreRef)
  /-- FLIT_RETRY (R304) -/
  | flitRetry (port : Nat) (ok : Bool)
  /-- PORT_TRAIN (R349) -/
  | portTrain (port : Nat) (ok : Bool)
  /-- FUNCTION_READY (R351) -/
  | functionReady (f : DeviceFunction)
  /-- FATAL_ERROR (R303) -/
  | fatalError (cause : FatalCause)
  /-- MMA_ROW_FETCH (R193) -/
  | mmaRowFetch (w : WarpRef) (op : Nat)
  /-- BAD_PACKET (R323) -/
  | badPacket (p : PacketRef) (offset : Nat)
  /-- FIRMWARE_UPDATE (R329) -/
  | firmwareUpdate (image : Nat) (whole : Bool)
  /-- PREEMPT_TIMEOUT (R309) -/
  | preemptTimeout
  /-- PATROL_SCRUB (R244) -/
  | patrolScrub
  /-- QUOTE_REQUEST (R356) -/
  | quoteRequest
  /-- QUOTE_COMPLETE (R356) -/
  | quoteComplete
  /-- NOP_PACKET (R322) -/
  | nopPacket
  /-- POST (R332) -/
  | post
  /-- NOTICE (R335) -/
  | notice
  /-- LATE (R337) -/
  | late
  /-- HEARTBEAT (R335) -/
  | heartbeat
  /-- JOIN_REQ (R338) -/
  | joinReq
  /-- SNAPSHOT (R338) -/
  | snapshot
  /-- JOIN_ANN (R338) -/
  | joinAnn
  /-- LEAVE (R339) -/
  | leave
  /-- HEARTBEAT_TIMER (R335) -/
  | heartbeatTimer
  /-- JOIN_TIMEOUT (R338) -/
  | joinTimeout
  /-- BELL (R332) -/
  | bell
  /-- TIME_PULSE (R333) -/
  | timePulse
  /-- TIME_WORD (R333) -/
  | timeWord
  /-- PULSE_MISSED (R333) -/
  | pulseMissed
  /-- HOLDOVER_TIMEOUT (R333) -/
  | holdoverTimeout
  /-- POWER_SAMPLE (R342) -/
  | powerSample
  /-- SENSOR_SAMPLE (R344) -/
  | sensorSample
  /-- RESET (R329) -/
  | reset
  /-- FUNCTION_LEVEL_RESET (R328) -/
  | functionLevelReset
  /-- ILLEGAL_INSTR (R70) -/
  | illegalInstr
  /-- ILLEGAL_CLAUSE (R62) -/
  | illegalClause
  /-- PEER_ACCESS (R231) -/
  | peerAccess
  /-- DISCARDED_POST (R334) -/
  | discardedPost
deriving DecidableEq, Repr

/-- The instruction of a mnemonic with its fields. -/
def Instr.ofMnem (m : Mnem) (f : Fields) : Instr :=
  match m with
  | .nop => .nop f
  | .bra => .bra f
  | .brc => .brc f
  | .brx => .brx f
  | .call => .call f
  | .ret => .ret f
  | .prepj => .prepj f
  | .prepl => .prepl f
  | .recv => .recv f
  | .brk => .brk f
  | .cont => .cont f
  | .exit => .exit f
  | .trap => .trap f
  | .rtt => .rtt f
  | .rttSkip => .rttSkip f
  | .bkpt => .bkpt f
  | .yield => .yield f
  | .srd => .srd f
  | .swr => .swr f
  | .regacq => .regacq f
  | .waitf => .waitf f
  | .sadd => .sadd f
  | .ssub => .ssub f
  | .smul => .smul f
  | .smulh => .smulh f
  | .smad => .smad f
  | .sand => .sand f
  | .sor => .sor f
  | .sxor => .sxor f
  | .snot => .snot f
  | .sshl => .sshl f
  | .sshr => .sshr f
  | .ssar => .ssar f
  | .smin => .smin f
  | .smax => .smax f
  | .scmp => .scmp f
  | .ssel => .ssel f
  | .smov => .smov f
  | .sli => .sli f
  | .sliHi => .sliHi f
  | .spopc => .spopc f
  | .sclz => .sclz f
  | .sctz => .sctz f
  | .vadd => .vadd f
  | .vsub => .vsub f
  | .vmul => .vmul f
  | .vmulh => .vmulh f
  | .vmad => .vmad f
  | .vmin => .vmin f
  | .vmax => .vmax f
  | .vabs => .vabs f
  | .vneg => .vneg f
  | .vand => .vand f
  | .vor => .vor f
  | .vxor => .vxor f
  | .vnot => .vnot f
  | .vshl => .vshl f
  | .vshr => .vshr f
  | .vsar => .vsar f
  | .vrot => .vrot f
  | .vfun => .vfun f
  | .vpopc => .vpopc f
  | .vclz => .vclz f
  | .vctz => .vctz f
  | .vbrev => .vbrev f
  | .vcmp => .vcmp f
  | .vsel => .vsel f
  | .vmov => .vmov f
  | .vli => .vli f
  | .vbcst => .vbcst f
  | .vextr => .vextr f
  | .icvt => .icvt f
  | .bmm8 => .bmm8 f
  | .pdep => .pdep f
  | .pext => .pext f
  | .ldperm => .ldperm f
  | .bperm => .bperm f
  | .bfx => .bfx f
  | .bfi => .bfi f
  | .mand => .mand f
  | .mor => .mor f
  | .mxor => .mxor f
  | .mnot => .mnot f
  | .mmov => .mmov f
  | .mcnt => .mcnt f
  | .mfirst => .mfirst f
  | .mtos => .mtos f
  | .stom => .stom f
  | .shflIdx => .shflIdx f
  | .shflXor => .shflXor f
  | .shflUp => .shflUp f
  | .shflDn => .shflDn f
  | .redl => .redl f
  | .scanl => .scanl f
  | .vote => .vote f
  | .laneid => .laneid f
  | .crngLo => .crngLo f
  | .crngHi => .crngHi f
  | .fadd => .fadd f
  | .fsub => .fsub f
  | .fmul => .fmul f
  | .ffma => .ffma f
  | .fmin => .fmin f
  | .fmax => .fmax f
  | .fcmp => .fcmp f
  | .fclass => .fclass f
  | .frnd => .frnd f
  | .fcvt => .fcvt f
  | .icvtf => .icvtf f
  | .fcvti => .fcvti f
  | .fscl => .fscl f
  | .pfadd => .pfadd f
  | .pfmul => .pfmul f
  | .pffma => .pffma f
  | .fdot4 => .fdot4 f
  | .rcp => .rcp f
  | .rsq => .rsq f
  | .sqrt => .sqrt f
  | .exp2 => .exp2 f
  | .log2 => .log2 f
  | .sin => .sin f
  | .cos => .cos f
  | .rcpT => .rcpT f
  | .rsqT => .rsqT f
  | .sqrtT => .sqrtT f
  | .exp2T => .exp2T f
  | .log2T => .log2T f
  | .sinT => .sinT f
  | .cosT => .cosT f
  | .ldb => .ldb f
  | .stb => .stb f
  | .ldt => .ldt f
  | .stt => .stt f
  | .ldl => .ldl f
  | .stl => .stl f
  | .atom => .atom f
  | .atomc => .atomc f
  | .atomf => .atomf f
  | .afaddo => .afaddo f
  | .accopen => .accopen f
  | .fence => .fence f
  | .barset => .barset f
  | .bararr => .bararr f
  | .bwait => .bwait f
  | .bsync => .bsync f
  | .waitc => .waitc f
  | .kick => .kick f
  | .mma => .mma f
  | .mmaByp => .mmaByp f
  | .mmas => .mmas f
  | .mmasByp => .mmasByp f
  | .mzero => .mzero f
  | .mdrain => .mdrain f
  | .mbyp => .mbyp f
  | .mrd => .mrd f
  | .mwr => .mwr f
  | .mcertr => .mcertr f
  | .ninfo => .ninfo f
  | .chdr => .chdr f
  | .take => .take f
  | .spawn => .spawn f
  | .spwait => .spwait f
  | .tighten => .tighten f
  | .cert => .cert f
  | .certRel => .certRel f
  | .tolsplIn => .tolsplIn f
  | .tolsplOwn => .tolsplOwn f
  | .toladdLog => .toladdLog f
  | .toladdOff => .toladdOff f
  | .fpick => .fpick f
  | .fpickCvt => .fpickCvt f
  | .tolsetDem => .tolsetDem f
  | .tolsetCert => .tolsetCert f
  | .tolsetVal => .tolsetVal f
  | .tolsetFld => .tolsetFld f

/-- The mnemonic and fields of an instruction with an encoding; none for a header and for the other steps. -/
def Instr.view (i : Instr) : Option (Mnem × Fields) :=
  match i with
  | .clauseHeader _ => none
  | .nop f => some (.nop, f)
  | .bra f => some (.bra, f)
  | .brc f => some (.brc, f)
  | .brx f => some (.brx, f)
  | .call f => some (.call, f)
  | .ret f => some (.ret, f)
  | .prepj f => some (.prepj, f)
  | .prepl f => some (.prepl, f)
  | .recv f => some (.recv, f)
  | .brk f => some (.brk, f)
  | .cont f => some (.cont, f)
  | .exit f => some (.exit, f)
  | .trap f => some (.trap, f)
  | .rtt f => some (.rtt, f)
  | .rttSkip f => some (.rttSkip, f)
  | .bkpt f => some (.bkpt, f)
  | .yield f => some (.yield, f)
  | .srd f => some (.srd, f)
  | .swr f => some (.swr, f)
  | .regacq f => some (.regacq, f)
  | .waitf f => some (.waitf, f)
  | .sadd f => some (.sadd, f)
  | .ssub f => some (.ssub, f)
  | .smul f => some (.smul, f)
  | .smulh f => some (.smulh, f)
  | .smad f => some (.smad, f)
  | .sand f => some (.sand, f)
  | .sor f => some (.sor, f)
  | .sxor f => some (.sxor, f)
  | .snot f => some (.snot, f)
  | .sshl f => some (.sshl, f)
  | .sshr f => some (.sshr, f)
  | .ssar f => some (.ssar, f)
  | .smin f => some (.smin, f)
  | .smax f => some (.smax, f)
  | .scmp f => some (.scmp, f)
  | .ssel f => some (.ssel, f)
  | .smov f => some (.smov, f)
  | .sli f => some (.sli, f)
  | .sliHi f => some (.sliHi, f)
  | .spopc f => some (.spopc, f)
  | .sclz f => some (.sclz, f)
  | .sctz f => some (.sctz, f)
  | .vadd f => some (.vadd, f)
  | .vsub f => some (.vsub, f)
  | .vmul f => some (.vmul, f)
  | .vmulh f => some (.vmulh, f)
  | .vmad f => some (.vmad, f)
  | .vmin f => some (.vmin, f)
  | .vmax f => some (.vmax, f)
  | .vabs f => some (.vabs, f)
  | .vneg f => some (.vneg, f)
  | .vand f => some (.vand, f)
  | .vor f => some (.vor, f)
  | .vxor f => some (.vxor, f)
  | .vnot f => some (.vnot, f)
  | .vshl f => some (.vshl, f)
  | .vshr f => some (.vshr, f)
  | .vsar f => some (.vsar, f)
  | .vrot f => some (.vrot, f)
  | .vfun f => some (.vfun, f)
  | .vpopc f => some (.vpopc, f)
  | .vclz f => some (.vclz, f)
  | .vctz f => some (.vctz, f)
  | .vbrev f => some (.vbrev, f)
  | .vcmp f => some (.vcmp, f)
  | .vsel f => some (.vsel, f)
  | .vmov f => some (.vmov, f)
  | .vli f => some (.vli, f)
  | .vbcst f => some (.vbcst, f)
  | .vextr f => some (.vextr, f)
  | .icvt f => some (.icvt, f)
  | .bmm8 f => some (.bmm8, f)
  | .pdep f => some (.pdep, f)
  | .pext f => some (.pext, f)
  | .ldperm f => some (.ldperm, f)
  | .bperm f => some (.bperm, f)
  | .bfx f => some (.bfx, f)
  | .bfi f => some (.bfi, f)
  | .mand f => some (.mand, f)
  | .mor f => some (.mor, f)
  | .mxor f => some (.mxor, f)
  | .mnot f => some (.mnot, f)
  | .mmov f => some (.mmov, f)
  | .mcnt f => some (.mcnt, f)
  | .mfirst f => some (.mfirst, f)
  | .mtos f => some (.mtos, f)
  | .stom f => some (.stom, f)
  | .shflIdx f => some (.shflIdx, f)
  | .shflXor f => some (.shflXor, f)
  | .shflUp f => some (.shflUp, f)
  | .shflDn f => some (.shflDn, f)
  | .redl f => some (.redl, f)
  | .scanl f => some (.scanl, f)
  | .vote f => some (.vote, f)
  | .laneid f => some (.laneid, f)
  | .crngLo f => some (.crngLo, f)
  | .crngHi f => some (.crngHi, f)
  | .fadd f => some (.fadd, f)
  | .fsub f => some (.fsub, f)
  | .fmul f => some (.fmul, f)
  | .ffma f => some (.ffma, f)
  | .fmin f => some (.fmin, f)
  | .fmax f => some (.fmax, f)
  | .fcmp f => some (.fcmp, f)
  | .fclass f => some (.fclass, f)
  | .frnd f => some (.frnd, f)
  | .fcvt f => some (.fcvt, f)
  | .icvtf f => some (.icvtf, f)
  | .fcvti f => some (.fcvti, f)
  | .fscl f => some (.fscl, f)
  | .pfadd f => some (.pfadd, f)
  | .pfmul f => some (.pfmul, f)
  | .pffma f => some (.pffma, f)
  | .fdot4 f => some (.fdot4, f)
  | .rcp f => some (.rcp, f)
  | .rsq f => some (.rsq, f)
  | .sqrt f => some (.sqrt, f)
  | .exp2 f => some (.exp2, f)
  | .log2 f => some (.log2, f)
  | .sin f => some (.sin, f)
  | .cos f => some (.cos, f)
  | .rcpT f => some (.rcpT, f)
  | .rsqT f => some (.rsqT, f)
  | .sqrtT f => some (.sqrtT, f)
  | .exp2T f => some (.exp2T, f)
  | .log2T f => some (.log2T, f)
  | .sinT f => some (.sinT, f)
  | .cosT f => some (.cosT, f)
  | .ldb f => some (.ldb, f)
  | .stb f => some (.stb, f)
  | .ldt f => some (.ldt, f)
  | .stt f => some (.stt, f)
  | .ldl f => some (.ldl, f)
  | .stl f => some (.stl, f)
  | .atom f => some (.atom, f)
  | .atomc f => some (.atomc, f)
  | .atomf f => some (.atomf, f)
  | .afaddo f => some (.afaddo, f)
  | .accopen f => some (.accopen, f)
  | .fence f => some (.fence, f)
  | .barset f => some (.barset, f)
  | .bararr f => some (.bararr, f)
  | .bwait f => some (.bwait, f)
  | .bsync f => some (.bsync, f)
  | .waitc f => some (.waitc, f)
  | .kick f => some (.kick, f)
  | .mma f => some (.mma, f)
  | .mmaByp f => some (.mmaByp, f)
  | .mmas f => some (.mmas, f)
  | .mmasByp f => some (.mmasByp, f)
  | .mzero f => some (.mzero, f)
  | .mdrain f => some (.mdrain, f)
  | .mbyp f => some (.mbyp, f)
  | .mrd f => some (.mrd, f)
  | .mwr f => some (.mwr, f)
  | .mcertr f => some (.mcertr, f)
  | .ninfo f => some (.ninfo, f)
  | .chdr f => some (.chdr, f)
  | .take f => some (.take, f)
  | .spawn f => some (.spawn, f)
  | .spwait f => some (.spwait, f)
  | .tighten f => some (.tighten, f)
  | .cert f => some (.cert, f)
  | .certRel f => some (.certRel, f)
  | .tolsplIn f => some (.tolsplIn, f)
  | .tolsplOwn f => some (.tolsplOwn, f)
  | .toladdLog f => some (.toladdLog, f)
  | .toladdOff f => some (.toladdOff, f)
  | .fpick f => some (.fpick, f)
  | .fpickCvt f => some (.fpickCvt, f)
  | .tolsetDem f => some (.tolsetDem, f)
  | .tolsetCert f => some (.tolsetCert, f)
  | .tolsetVal f => some (.tolsetVal, f)
  | .tolsetFld f => some (.tolsetFld, f)
  | .trapEntry _ _ => none
  | .loadStoreCompletion _ _ _ => none
  | .storeBufferEntryPerformed _ _ => none
  | .atomicEngineAccept _ => none
  | .hotLineTransfer _ _ => none
  | .accSlotSumDone _ _ => none
  | .sfuCompletion _ _ => none
  | .crngCompletion _ _ => none
  | .mmaCompletion _ _ => none
  | .tileOpCompletion _ _ => none
  | .certCompletion _ _ => none
  | .regacqGrant _ => none
  | .acquireDeadlockEviction _ => none
  | .cardEnterChecker _ => none
  | .cardStart _ => none
  | .cardChunk _ _ _ => none
  | .cardComplete _ _ => none
  | .pageWalkComplete _ _ => none
  | .invalidationComplete _ => none
  | .blockDispatch _ => none
  | .blockRetire _ => none
  | .spawnPackTimeout _ _ => none
  | .spawnAreaRefill _ => none
  | .highLatencyPreempt _ => none
  | .redispatchRoomPreempt _ => none
  | .preemptRequest _ _ => none
  | .unitStopAck _ _ _ => none
  | .contextSaveDone _ _ => none
  | .preemptTimeout => none
  | .patrolScrub => none
  | .coreSelfCheckFail _ => none
  | .queueDoorbell _ _ => none
  | .queueEnable _ => none
  | .queueDisable _ => none
  | .faultResponseResume _ => none
  | .faultResponseDecline _ => none
  | .registerWrite _ _ _ => none
  | .partnoWrite _ => none
  | .portenWrite _ => none
  | .engineControlWrite _ _ => none
  | .quoteNonceWrite _ _ _ => none
  | .quoteRequest => none
  | .quoteComplete => none
  | .nopPacket => none
  | .sweep _ _ => none
  | .copy _ _ _ _ => none
  | .wait _ _ _ _ => none
  | .waitEvaluate _ => none
  | .waitTimeout _ => none
  | .pageRequestResponse _ _ => none
  | .signal _ _ _ _ => none
  | .mapRun _ _ _ _ _ => none
  | .unmapRun _ _ _ _ => none
  | .invalidatePages _ _ _ => none
  | .packetCompletion _ => none
  | .msixDelivery _ => none
  | .config _ _ _ _ => none
  | .join _ _ => none
  | .marketLeave _ _ => none
  | .marketPost _ _ => none
  | .sensorRearm _ _ => none
  | .trimRearm _ _ => none
  | .plimit _ _ => none
  | .post => none
  | .notice => none
  | .late => none
  | .heartbeat => none
  | .joinReq => none
  | .snapshot => none
  | .joinAnn => none
  | .leave => none
  | .heartbeatTimer => none
  | .joinTimeout => none
  | .bell => none
  | .timePulse => none
  | .timeWord => none
  | .pulseMissed => none
  | .holdoverTimeout => none
  | .powerSample => none
  | .sensorSample => none
  | .trimStep _ _ => none
  | .trimHoldExpiry _ => none
  | .budgetInterval _ => none
  | .slewWindow _ => none
  | .flitRetry _ _ => none
  | .portTrain _ _ => none
  | .functionReady _ => none
  | .reset => none
  | .functionLevelReset => none
  | .fatalError _ => none
  | .illegalInstr => none
  | .illegalClause => none
  | .mmaRowFetch _ _ => none
  | .peerAccess => none
  | .badPacket _ _ => none
  | .discardedPost => none
  | .firmwareUpdate _ _ => none

/-- Every mnemonic with an encoding, in the table's order. -/
def Mnem.all : List Mnem :=
  ([.nop, .bra, .brc, .brx, .call, .ret, .prepj, .prepl, .recv, .brk, .cont, .exit, .trap, .rtt, .rttSkip, .bkpt, .yield, .srd, .swr, .regacq, .waitf, .sadd, .ssub, .smul, .smulh] : List Mnem) ++
  ([.smad, .sand, .sor, .sxor, .snot, .sshl, .sshr, .ssar, .smin, .smax, .scmp, .ssel, .smov, .sli, .sliHi, .spopc, .sclz, .sctz, .vadd, .vsub, .vmul, .vmulh, .vmad, .vmin, .vmax] : List Mnem) ++
  ([.vabs, .vneg, .vand, .vor, .vxor, .vnot, .vshl, .vshr, .vsar, .vrot, .vfun, .vpopc, .vclz, .vctz, .vbrev, .vcmp, .vsel, .vmov, .vli, .vbcst, .vextr, .icvt, .bmm8, .pdep, .pext] : List Mnem) ++
  ([.ldperm, .bperm, .bfx, .bfi, .mand, .mor, .mxor, .mnot, .mmov, .mcnt, .mfirst, .mtos, .stom, .shflIdx, .shflXor, .shflUp, .shflDn, .redl, .scanl, .vote, .laneid, .crngLo, .crngHi, .fadd, .fsub] : List Mnem) ++
  ([.fmul, .ffma, .fmin, .fmax, .fcmp, .fclass, .frnd, .fcvt, .icvtf, .fcvti, .fscl, .pfadd, .pfmul, .pffma, .fdot4, .rcp, .rsq, .sqrt, .exp2, .log2, .sin, .cos, .rcpT, .rsqT, .sqrtT] : List Mnem) ++
  ([.exp2T, .log2T, .sinT, .cosT, .ldb, .stb, .ldt, .stt, .ldl, .stl, .atom, .atomc, .atomf, .afaddo, .accopen, .fence, .barset, .bararr, .bwait, .bsync, .waitc, .kick, .mma, .mmaByp, .mmas] : List Mnem) ++
  ([.mmasByp, .mzero, .mdrain, .mbyp, .mrd, .mwr, .mcertr, .ninfo, .chdr, .take, .spawn, .spwait, .tighten, .cert, .certRel, .tolsplIn, .tolsplOwn, .toladdLog, .toladdOff, .fpick, .fpickCvt, .tolsetDem, .tolsetCert, .tolsetVal, .tolsetFld] : List Mnem)

end Sys2Proof
end

