-- ==== Sys2Proof/Machine/OpTable.lean ====
section
/-! DEFINITION. The encoding table of the instructions: the primary opcodes (R69), and for each instruction the
class of every operand position (R52), the use of X, SUB, MOD, RND, SAT and the mask (R54 to R59), from the
instruction tables of the chapters (R96, R120, R121 to R132, R136 to R144, R149, R173, R199). -/

namespace Sys2Proof

/-- The class of an operand position (R52), with the forms of B. -/
inductive Operand where
  /-- the field is 0; for B also I = 0 -/
  | unused
  /-- a vector register, 32-bit elements -/
  | vector
  /-- a vector register pair, even -/
  | vectorPair
  /-- a vector register; even when the type of MOD[2:0] has 64 bits -/
  | vectorT
  /-- a vector register; even when the source type of MOD[5:3] has 64 bits -/
  | vectorS
  /-- a vector register; even under W64 -/
  | vectorW
  /-- a vector register (X = 0) or a scalar register (X = 1) (R149, base class) -/
  | base
  | scalar
  | mask
  /-- a mask register that is written: not m0 (R15) -/
  | maskDest
  | tile
  /-- a plain number with the given greatest legal value (R149) -/
  | number (max : Nat)
  /-- the key register of CRNG: a scalar register with MOD[0] = 1, else 0 (R132) -/
  | crngKey
  /-- B: an immediate only, I = 1 -/
  | immediate
  | scalarOrImm
  | vectorOrImm
  | vectorTOrImm
  | vectorWOrImm
deriving DecidableEq, Repr

/-- The use of the modifier bit X (R48). -/
inductive XUse where
  | zero
  | one
  | free
deriving DecidableEq, Repr

/-- The legal SUB values (R56). -/
inductive SubUse where
  | none
  | upTo (n : Nat)
  | exactly (n : Nat)
  /-- the sizes of a load (R150) -/
  | loadSize
  /-- the sizes of a store (R150) -/
  | storeSize
deriving DecidableEq, Repr

/-- The layout and legal values of MOD (R57 to R59). A set of codes is a number whose bit i stands for code i. -/
inductive ModUse where
  | none
  /-- MOD[0] = U (R120) -/
  | unsignedBit
  /-- MOD[0] = key from s[C] (R132) -/
  | keyBit
  /-- layout T, the accepted type codes in MOD[2:0] (R58) -/
  | type (codes : Nat)
  /-- layout T of a conversion: destination codes in MOD[2:0], source codes in MOD[5:3] (R58) -/
  | convert (dst src : Nat)
  /-- layout O with or without W64; the accepted orders; a scope only with an order (R59, R159) -/
  | order (w64 : Bool) (orders : Nat)
  /-- layout O in which the scope stands without an order too, W64 = 0 (FENCE, KICK, MDRAIN) -/
  | scope (orders : Nat)
deriving DecidableEq, Repr

/-- The legal RND values (R55): none but 000, RN to RA, or all six with SR in the 96-bit form. -/
inductive RndUse where
  | none
  | nearest
  | all
deriving DecidableEq, Repr

/-- One row of the encoding table. -/
structure OpSpec where
  op     : BitVec 8
  d      : Operand := .unused
  a      : Operand := .unused
  b      : Operand := .unused
  c      : Operand := .unused
  x      : XUse := .zero
  sub    : SubUse := .none
  mod    : ModUse := .none
  rnd    : RndUse := .none
  sat    : Bool := false
  masked : Bool := false
deriving DecidableEq, Repr

/-- The encoding table. -/
def Mnem.spec (m : Mnem) : OpSpec :=
  match m with
  | .nop => { op := 0x01 }
  | .bra => { op := 0x02, b := .immediate }
  | .brc => { op := 0x03, b := .immediate, masked := true }
  | .brx => { op := 0x04, a := .vector, b := .immediate }
  | .call => { op := 0x05, d := .scalar, b := .immediate }
  | .ret => { op := 0x06, a := .scalar }
  | .prepj => { op := 0x07, b := .immediate }
  | .prepl => { op := 0x08, b := .immediate }
  | .recv => { op := 0x09 }
  | .brk => { op := 0x0A, masked := true }
  | .cont => { op := 0x0B, b := .immediate, masked := true }
  | .exit => { op := 0x0C, masked := true }
  | .trap => { op := 0x0D, b := .immediate }
  | .rtt => { op := 0x0E }
  | .rttSkip => { op := 0x0E, x := .one }
  | .bkpt => { op := 0x0F }
  | .yield => { op := 0x10 }
  | .srd => { op := 0x11, d := .scalar, a := (.number 63), b := .immediate }
  | .swr => { op := 0x12, d := .scalar, a := (.number 63), b := .immediate }
  | .regacq => { op := 0x13 }
  | .waitf => { op := 0x14, b := .immediate }
  | .sadd => { op := 0x20, d := .scalar, a := .scalar, b := .scalarOrImm, mod := .unsignedBit, sat := true }
  | .ssub => { op := 0x21, d := .scalar, a := .scalar, b := .scalarOrImm, mod := .unsignedBit, sat := true }
  | .smul => { op := 0x22, d := .scalar, a := .scalar, b := .scalarOrImm, mod := .unsignedBit, sat := true }
  | .smulh => { op := 0x23, d := .scalar, a := .scalar, b := .scalarOrImm, mod := .unsignedBit }
  | .smad => { op := 0x24, d := .scalar, a := .scalar, b := .scalarOrImm, c := .scalar, mod := .unsignedBit, sat := true }
  | .sand => { op := 0x25, d := .scalar, a := .scalar, b := .scalarOrImm }
  | .sor => { op := 0x26, d := .scalar, a := .scalar, b := .scalarOrImm }
  | .sxor => { op := 0x27, d := .scalar, a := .scalar, b := .scalarOrImm }
  | .snot => { op := 0x28, d := .scalar, a := .scalar }
  | .sshl => { op := 0x29, d := .scalar, a := .scalar, b := .scalarOrImm }
  | .sshr => { op := 0x2A, d := .scalar, a := .scalar, b := .scalarOrImm }
  | .ssar => { op := 0x2A, d := .scalar, a := .scalar, b := .scalarOrImm, x := .one }
  | .smin => { op := 0x2B, d := .scalar, a := .scalar, b := .scalarOrImm, mod := .unsignedBit }
  | .smax => { op := 0x2C, d := .scalar, a := .scalar, b := .scalarOrImm, mod := .unsignedBit }
  | .scmp => { op := 0x2D, d := .scalar, a := .scalar, b := .scalarOrImm, sub := (.upTo 5), mod := .unsignedBit }
  | .ssel => { op := 0x2E, d := .scalar, a := .scalar, b := .scalarOrImm, c := .scalar }
  | .smov => { op := 0x2F, d := .scalar, a := .scalar }
  | .sli => { op := 0x30, d := .scalar, b := .immediate }
  | .sliHi => { op := 0x30, d := .scalar, b := .immediate, x := .one }
  | .spopc => { op := 0x31, d := .scalar, a := .scalar }
  | .sclz => { op := 0x32, d := .scalar, a := .scalar }
  | .sctz => { op := 0x33, d := .scalar, a := .scalar }
  | .vadd => { op := 0x34, d := .vectorT, a := .vectorT, b := .vectorTOrImm, mod := (.type 0xFF), sat := true, masked := true }
  | .vsub => { op := 0x35, d := .vectorT, a := .vectorT, b := .vectorTOrImm, mod := (.type 0xFF), sat := true, masked := true }
  | .vmul => { op := 0x36, d := .vectorT, a := .vectorT, b := .vectorTOrImm, mod := (.type 0xFF), sat := true, masked := true }
  | .vmulh => { op := 0x37, d := .vectorT, a := .vectorT, b := .vectorTOrImm, mod := (.type 0xFF), masked := true }
  | .vmad => { op := 0x38, d := .vectorT, a := .vectorT, b := .vectorTOrImm, c := .vectorT, mod := (.type 0xFF), sat := true, masked := true }
  | .vmin => { op := 0x39, d := .vectorT, a := .vectorT, b := .vectorTOrImm, mod := (.type 0xFF), masked := true }
  | .vmax => { op := 0x3A, d := .vectorT, a := .vectorT, b := .vectorTOrImm, mod := (.type 0xFF), masked := true }
  | .vabs => { op := 0x3B, d := .vectorT, a := .vectorT, mod := (.type 0x55), sat := true, masked := true }
  | .vneg => { op := 0x3C, d := .vectorT, a := .vectorT, mod := (.type 0x55), sat := true, masked := true }
  | .vand => { op := 0x3D, d := .vectorT, a := .vectorT, b := .vectorTOrImm, mod := (.type 0xC3), masked := true }
  | .vor => { op := 0x3E, d := .vectorT, a := .vectorT, b := .vectorTOrImm, mod := (.type 0xC3), masked := true }
  | .vxor => { op := 0x3F, d := .vectorT, a := .vectorT, b := .vectorTOrImm, mod := (.type 0xC3), masked := true }
  | .vnot => { op := 0x40, d := .vectorT, a := .vectorT, mod := (.type 0xC3), masked := true }
  | .vshl => { op := 0x41, d := .vectorT, a := .vectorT, b := .vectorTOrImm, mod := (.type 0xC3), masked := true }
  | .vshr => { op := 0x42, d := .vectorT, a := .vectorT, b := .vectorTOrImm, mod := (.type 0xC3), masked := true }
  | .vsar => { op := 0x42, d := .vectorT, a := .vectorT, b := .vectorTOrImm, x := .one, mod := (.type 0xC3), masked := true }
  | .vrot => { op := 0x43, d := .vectorT, a := .vectorT, b := .vectorTOrImm, mod := (.type 0xC3), masked := true }
  | .vfun => { op := 0x44, d := .vectorT, a := .vectorT, b := .vectorT, c := .vectorT, sub := (.upTo 1), mod := (.type 0x03), masked := true }
  | .vpopc => { op := 0x45, d := .vectorT, a := .vectorT, mod := (.type 0xC3), masked := true }
  | .vclz => { op := 0x46, d := .vectorT, a := .vectorT, mod := (.type 0xC3), masked := true }
  | .vctz => { op := 0x47, d := .vectorT, a := .vectorT, mod := (.type 0xC3), masked := true }
  | .vbrev => { op := 0x48, d := .vectorT, a := .vectorT, mod := (.type 0xC3), masked := true }
  | .vcmp => { op := 0x49, d := .maskDest, a := .vectorT, b := .vectorTOrImm, sub := (.upTo 5), mod := (.type 0xFF), masked := true }
  | .vsel => { op := 0x4A, d := .vectorT, a := .vectorT, b := .vectorTOrImm, c := .mask, mod := (.type 0xC3), masked := true }
  | .vmov => { op := 0x4B, d := .vectorT, a := .vectorT, mod := (.type 0xC3), masked := true }
  | .vli => { op := 0x4C, d := .vectorT, b := .immediate, mod := (.type 0xC3), masked := true }
  | .vbcst => { op := 0x4D, d := .vectorT, a := .scalar, mod := (.type 0xC3), masked := true }
  | .vextr => { op := 0x4E, d := .scalar, a := .vectorT, b := .scalarOrImm, mod := (.type 0xC3) }
  | .icvt => { op := 0x4F, d := .vectorT, a := .vectorS, mod := (.convert 0xFF 0xFF), sat := true, masked := true }
  | .bmm8 => { op := 0x50, d := .vectorT, a := .vectorT, b := .vectorT, mod := (.type 0xC0), masked := true }
  | .pdep => { op := 0x51, d := .vectorT, a := .vectorT, b := .vectorTOrImm, mod := (.type 0xC3), masked := true }
  | .pext => { op := 0x52, d := .vectorT, a := .vectorT, b := .vectorTOrImm, mod := (.type 0xC3), masked := true }
  | .ldperm => { op := 0x53, a := .scalar, b := .immediate }
  | .bperm => { op := 0x54, d := .vectorT, a := .vectorT, mod := (.type 0xC0), masked := true }
  | .bfx => { op := 0x55, d := .vectorT, a := .vectorT, b := .vectorTOrImm, mod := (.type 0xC3), masked := true }
  | .bfi => { op := 0x56, d := .vectorT, a := .vectorT, b := .vectorTOrImm, c := .vectorT, mod := (.type 0xC3), masked := true }
  | .mand => { op := 0x57, d := .maskDest, a := .mask, b := .mask }
  | .mor => { op := 0x58, d := .maskDest, a := .mask, b := .mask }
  | .mxor => { op := 0x59, d := .maskDest, a := .mask, b := .mask }
  | .mnot => { op := 0x5A, d := .maskDest, a := .mask }
  | .mmov => { op := 0x5B, d := .maskDest, a := .mask }
  | .mcnt => { op := 0x5C, d := .scalar, a := .mask }
  | .mfirst => { op := 0x5D, d := .scalar, a := .mask }
  | .mtos => { op := 0x5E, d := .scalar, a := .mask }
  | .stom => { op := 0x5F, d := .maskDest, a := .scalar }
  | .shflIdx => { op := 0x60, d := .vectorT, a := .vectorT, b := .vectorOrImm, mod := (.type 0xC3), masked := true }
  | .shflXor => { op := 0x61, d := .vectorT, a := .vectorT, b := .immediate, mod := (.type 0xC3), masked := true }
  | .shflUp => { op := 0x62, d := .vectorT, a := .vectorT, b := .immediate, mod := (.type 0xC3), masked := true }
  | .shflDn => { op := 0x63, d := .vectorT, a := .vectorT, b := .immediate, mod := (.type 0xC3), masked := true }
  | .redl => { op := 0x64, d := .vectorT, a := .vectorT, sub := (.upTo 8), mod := (.type 0xC3), rnd := .nearest, sat := true, masked := true }
  | .scanl => { op := 0x65, d := .vectorT, a := .vectorT, x := .free, sub := (.upTo 8), mod := (.type 0xC3), rnd := .nearest, sat := true, masked := true }
  | .vote => { op := 0x66, d := .scalar, a := .vector, sub := (.upTo 3), masked := true }
  | .laneid => { op := 0x67, d := .vector, masked := true }
  | .crngLo => { op := 0x68, d := .vectorPair, a := .vectorPair, b := .scalarOrImm, c := .crngKey, mod := .keyBit, masked := true }
  | .crngHi => { op := 0x68, d := .vectorPair, a := .vectorPair, b := .scalarOrImm, c := .crngKey, x := .one, mod := .keyBit, masked := true }
  | .fadd => { op := 0x80, d := .vector, a := .vector, b := .vectorOrImm, rnd := .all, sat := true, masked := true }
  | .fsub => { op := 0x81, d := .vector, a := .vector, b := .vectorOrImm, rnd := .all, sat := true, masked := true }
  | .fmul => { op := 0x82, d := .vector, a := .vector, b := .vectorOrImm, rnd := .all, sat := true, masked := true }
  | .ffma => { op := 0x83, d := .vector, a := .vector, b := .vectorOrImm, c := .vector, rnd := .all, sat := true, masked := true }
  | .fmin => { op := 0x84, d := .vector, a := .vector, b := .vectorOrImm, masked := true }
  | .fmax => { op := 0x85, d := .vector, a := .vector, b := .vectorOrImm, masked := true }
  | .fcmp => { op := 0x86, d := .maskDest, a := .vector, b := .vectorOrImm, sub := (.upTo 7), masked := true }
  | .fclass => { op := 0x87, d := .vector, a := .vector, masked := true }
  | .frnd => { op := 0x88, d := .vector, a := .vector, rnd := .all, masked := true }
  | .fcvt => { op := 0x89, d := .vector, a := .vector, mod := (.convert 0x7F 0x7F), rnd := .all, sat := true, masked := true }
  | .icvtf => { op := 0x8A, d := .vector, a := .vectorS, mod := (.convert 0x7F 0xFF), rnd := .all, sat := true, masked := true }
  | .fcvti => { op := 0x8B, d := .vectorT, a := .vector, mod := (.convert 0xFF 0x7F), rnd := .all, masked := true }
  | .fscl => { op := 0x8C, d := .vector, a := .vector, b := .vectorOrImm, rnd := .all, sat := true, masked := true }
  | .pfadd => { op := 0x8D, d := .vector, a := .vector, b := .vectorOrImm, mod := (.type 0x06), rnd := .all, sat := true, masked := true }
  | .pfmul => { op := 0x8E, d := .vector, a := .vector, b := .vectorOrImm, mod := (.type 0x06), rnd := .all, sat := true, masked := true }
  | .pffma => { op := 0x8F, d := .vector, a := .vector, b := .vectorOrImm, c := .vector, mod := (.type 0x06), rnd := .all, sat := true, masked := true }
  | .fdot4 => { op := 0x90, d := .vector, a := .vector, b := .vector, c := .vector, mod := (.convert 0x01 0x18), rnd := .all, sat := true, masked := true }
  | .rcp => { op := 0x98, d := .vector, a := .vector, rnd := .nearest, sat := true, masked := true }
  | .rsq => { op := 0x99, d := .vector, a := .vector, rnd := .nearest, sat := true, masked := true }
  | .sqrt => { op := 0x9A, d := .vector, a := .vector, rnd := .nearest, sat := true, masked := true }
  | .exp2 => { op := 0x9B, d := .vector, a := .vector, rnd := .nearest, sat := true, masked := true }
  | .log2 => { op := 0x9C, d := .vector, a := .vector, rnd := .nearest, sat := true, masked := true }
  | .sin => { op := 0x9D, d := .vector, a := .vector, rnd := .nearest, sat := true, masked := true }
  | .cos => { op := 0x9E, d := .vector, a := .vector, rnd := .nearest, sat := true, masked := true }
  | .rcpT => { op := 0x98, d := .vector, a := .vector, x := .one, sat := true, masked := true }
  | .rsqT => { op := 0x99, d := .vector, a := .vector, x := .one, sat := true, masked := true }
  | .sqrtT => { op := 0x9A, d := .vector, a := .vector, x := .one, sat := true, masked := true }
  | .exp2T => { op := 0x9B, d := .vector, a := .vector, x := .one, sat := true, masked := true }
  | .log2T => { op := 0x9C, d := .vector, a := .vector, x := .one, sat := true, masked := true }
  | .sinT => { op := 0x9D, d := .vector, a := .vector, x := .one, sat := true, masked := true }
  | .cosT => { op := 0x9E, d := .vector, a := .vector, x := .one, sat := true, masked := true }
  | .ldb => { op := 0xB0, d := .vectorW, a := .base, b := .immediate, x := .free, sub := .loadSize, mod := (.order true 0x3), masked := true }
  | .stb => { op := 0xB1, d := .vectorW, a := .base, b := .immediate, x := .free, sub := .storeSize, mod := (.order true 0x5), masked := true }
  | .ldt => { op := 0xB2, d := .vectorW, a := .scalar, b := .immediate, mod := (.order true 0x3), masked := true }
  | .stt => { op := 0xB3, d := .vectorW, a := .scalar, b := .immediate, mod := (.order true 0x5), masked := true }
  | .ldl => { op := 0xB4, d := .vectorW, a := .base, b := .immediate, x := .free, sub := .loadSize, mod := (.order true 0x1), masked := true }
  | .stl => { op := 0xB5, d := .vectorW, a := .base, b := .immediate, x := .free, sub := .storeSize, mod := (.order true 0x1), masked := true }
  | .atom => { op := 0xB6, d := .vectorW, a := .vector, b := .vectorWOrImm, x := .free, sub := (.upTo 10), mod := (.order true 0xF), masked := true }
  | .atomc => { op := 0xB7, d := .vectorW, a := .vector, b := .vectorW, c := .vectorW, x := .free, mod := (.order true 0xF), masked := true }
  | .atomf => { op := 0xB8, d := .vector, a := .vector, b := .vectorOrImm, x := .free, sub := (.upTo 2), mod := (.order false 0xF), masked := true }
  | .afaddo => { op := 0xB9, d := (.number 63), a := .vector, mod := (.order false 0x5), masked := true }
  | .accopen => { op := 0xBA, d := (.number 63), a := .scalar, b := .scalarOrImm, c := (.number 9) }
  | .fence => { op := 0xBB, mod := (.scope 0xF) }
  | .barset => { op := 0xBC, d := (.number 9), b := .scalarOrImm }
  | .bararr => { op := 0xBD, d := (.number 9), b := .scalarOrImm }
  | .bwait => { op := 0xBE, d := (.number 9) }
  | .bsync => { op := 0xBF }
  | .waitc => { op := 0xC0, b := .scalarOrImm, sub := (.upTo 4) }
  | .kick => { op := 0xD0, a := .scalar, mod := (.scope 0x5) }
  | .mma => { op := 0xD1, d := .tile, a := .scalar, b := .scalar, c := .scalar, masked := true }
  | .mmaByp => { op := 0xD1, d := .tile, a := .tile, b := .scalar, c := .scalar, x := .one, masked := true }
  | .mmas => { op := 0xD2, d := .tile, a := .scalar, b := .scalar, c := .scalar, masked := true }
  | .mmasByp => { op := 0xD2, d := .tile, a := .tile, b := .scalar, c := .scalar, x := .one, masked := true }
  | .mzero => { op := 0xD3, d := .tile, masked := true }
  | .mdrain => { op := 0xD4, d := .tile, a := .scalar, mod := (.scope 0x5) }
  | .mbyp => { op := 0xD5, d := .tile, a := .scalar, masked := true }
  | .mrd => { op := 0xD6, d := .vector, a := .tile, b := .scalarOrImm, masked := true }
  | .mwr => { op := 0xD7, d := .tile, a := .vector, b := .scalarOrImm, masked := true }
  | .mcertr => { op := 0xD8, d := .scalar, a := .tile }
  | .ninfo => { op := 0xE0, d := .scalar, b := .scalarOrImm, sub := (.upTo 4) }
  | .chdr => { op := 0xE1, d := .scalar, b := .scalarOrImm }
  | .take => { op := 0xE2 }
  | .spawn => { op := 0xE3, a := .vectorPair, b := .scalarOrImm, c := .vectorPair, masked := true }
  | .spwait => { op := 0xE4 }
  | .tighten => { op := 0xE5, d := .scalar, a := .scalar, b := .scalarOrImm }
  | .cert => { op := 0xE6, d := .scalar, a := .scalar }
  | .certRel => { op := 0xE6, d := .scalar, a := .scalar, b := .scalar, c := .scalar, x := .one }
  | .tolsplIn => { op := 0xE7, d := .scalar, a := .scalar, b := .scalarOrImm, sub := (.exactly 0) }
  | .tolsplOwn => { op := 0xE7, d := .scalar, a := .scalar, sub := (.exactly 1) }
  | .toladdLog => { op := 0xE8, d := .scalar, a := .scalar, b := .scalar, sub := (.exactly 0) }
  | .toladdOff => { op := 0xE8, d := .scalar, a := .scalar, b := .scalarOrImm, sub := (.exactly 1) }
  | .fpick => { op := 0xE9, d := .scalar, a := .scalar, b := .scalarOrImm }
  | .fpickCvt => { op := 0xE9, d := .scalar, a := .scalar, x := .one }
  | .tolsetDem => { op := 0xEA, d := .scalar, a := .scalar, sub := (.exactly 0) }
  | .tolsetCert => { op := 0xEA, d := .scalar, a := .scalar, sub := (.exactly 1) }
  | .tolsetVal => { op := 0xEA, d := .scalar, a := .scalar, sub := (.exactly 2) }
  | .tolsetFld => { op := 0xEA, d := .scalar, a := .scalar, b := .immediate, sub := (.exactly 3) }

/-- The X values under which an opcode names the instruction. -/
def XUse.selects (u : XUse) (x : Bool) : Bool :=
  match u with
  | .one => x
  | .zero | .free => true

/-- The SUB values that select the row where several rows share an opcode (R208, R207, R210). -/
def SubUse.selects (u : SubUse) (sub : BitVec 4) : Bool :=
  match u with
  | .exactly n => sub.toNat == n
  | _ => true

/-- The row that OP, X and SUB select (R69): the first row of the opcode with X = 1 stands only for X = 1. -/
def Mnem.lookup (op : BitVec 8) (x : Bool) (sub : BitVec 4) : Option Mnem :=
  let rows := Mnem.all.filter fun m => m.spec.op == op && m.spec.sub.selects sub
  match rows.find? fun m => m.spec.x == .one && x with
  | some m => some m
  | none => rows.find? fun m => m.spec.x != .one

/-- The instructions of variable latency (R64). -/
def Mnem.variableLatency (m : Mnem) : Bool :=
  match m with
  | .ldb | .stb | .ldperm | .ldt | .stt | .cert | .certRel | .ldl | .stl
  | .atom | .atomc | .atomf | .afaddo | .accopen
  | .mma | .mmaByp | .mmas | .mmasByp | .mzero | .mdrain | .mbyp | .mrd | .mwr | .mcertr | .kick
  | .rcp | .rsq | .sqrt | .exp2 | .log2 | .sin | .cos
  | .rcpT | .rsqT | .sqrtT | .exp2T | .log2T | .sinT | .cosT
  | .crngLo | .crngHi | .take | .spawn | .tighten | .regacq => true
  | _ => false

/-- The clause-ending set (R61). -/
def Mnem.endsClause (m : Mnem) : Bool :=
  match m with
  | .bra | .brc | .brx | .call | .ret | .recv | .brk | .cont | .exit | .trap | .rtt | .rttSkip | .yield => true
  | _ => false

end Sys2Proof
end

