-- ==== Sys2Proof/Config.lean ====
section
/-! DEFINITION. What the spec leaves to the part or to the outside, as constants without a body: no proof can see their
values, so a claim holds whatever they are. -/

namespace Sys2Proof.Config

/-- A fresh unspecified byte (by the counter of free values). -/
opaque freeByte : Nat → Byte

/-- A fresh unspecified number (by the counter of free values). -/
opaque freeNat : Nat → Nat

/-- A fresh unspecified choice (by the counter of free values). -/
opaque freeBool : Nat → Bool

/-- The public key that comes with a firmware image, by its number (R329 (b)). -/
opaque imageKey : Nat → List Byte

/-- The signature over the digest of a firmware image (R329 (b)). -/
opaque imageSignature : Nat → List Byte

/-- The fused hash of the public key that firmware is verified against (R329 (b)). -/
opaque firmwareKeyHash : BitVec 512

/-- The bytes of a firmware image, by its number (R329). -/
opaque imageBytes : Nat → List Byte

/-- The bytes of the boot ROM (R356). -/
opaque bootRom : List Byte

/-- The fused unit serial number (R355); a value of 0 stands for 1. -/
opaque serial : DWord

/-- The fused seed of the identity key pair, its byte 0 in the low bits (R356). -/
opaque seed : BitVec 256

/-- The forecast of package power in mW, the 1 ms running average two bells ahead, from the samples (newest first, in mW) and at a clock
code (R342): the spec gives no forecast function. -/
opaque forecast : List Nat → Nat → Nat

/-- The uncore island, 0 to 7, that counts the errors of the memory at a physical address (R243, R346): the spec places no memory on
one. -/
opaque uncoreIsland : Nat → Nat

/-- The rounding of a transcendental result that the model's interval arithmetic leaves undecided (R144): true rounds the
magnitude up. -/
opaque specialTie : Nat → Bool

/-- The member stall that a part of the load-store domain is (R341): the spec does not say how the board names a part. -/
opaque stallOfPart : Nat → Nat

/-- The fabric port through which the configured route to a part leaves (R349). -/
opaque routePort : Nat → Nat

/-- The reading that stands for a sensor of a tower without a valid one (R344), in units of 0.125 °C: the spec gives none. -/
opaque blindReading : Nat → Int

/-- The rated maximum of a current monitor, in mW (R344). -/
opaque ratedMaximum : Nat → Nat

end Sys2Proof.Config
end

