-- ==== Sys2Proof/Machine/Sparse.lean ====
section
/-! DEFINITION. Sparse data in one canonical form: a list of (key, value) pairs with strictly rising keys and no
value equal to what an unlisted key reads as, which is zero. Memories, register files and poison maps are such
lists, so equal contents are equal data. -/

namespace Sys2Proof

/-- Contents by key; an unlisted key reads zero. -/
abbrev Sparse (n : Nat) := List (Nat × BitVec n)

namespace Sparse

/-- The value at a key: that of its first entry. -/
def get {n : Nat} (m : Sparse n) (k : Nat) : BitVec n :=
  match m with
  | [] => 0#n
  | (j, v) :: rest => if k = j then v else Sparse.get rest k

/-- The contents with an entry of a nonzero value put in, in front of the greater keys. -/
def insert {n : Nat} (m : Sparse n) (k : Nat) (v : BitVec n) : Sparse n :=
  match m with
  | [] => [(k, v)]
  | (j, w) :: rest =>
    if k < j then (k, v) :: (j, w) :: rest
    else if k = j then (k, v) :: rest
    else (j, w) :: Sparse.insert rest k v

/-- The contents with one value replaced: zero is not listed. -/
def put {n : Nat} (m : Sparse n) (k : Nat) (v : BitVec n) : Sparse n :=
  if v = 0#n then m.filter fun c => c.1 != k else Sparse.insert m k v

/-- The contents with several values replaced, in order. -/
def putAll {n : Nat} (m : Sparse n) (kvs : List (Nat × BitVec n)) : Sparse n :=
  kvs.foldl (fun m kv => m.put kv.1 kv.2) m

/-- Are the keys above `k`, strictly rising, and no value zero? -/
def canonAbove {n : Nat} (k : Nat) (m : Sparse n) : Bool :=
  match m with
  | [] => true
  | (j, v) :: rest => decide (k ≤ j) && decide (v ≠ 0#n) && Sparse.canonAbove (j + 1) rest

/-- The canonical form. -/
def canon {n : Nat} (m : Sparse n) : Bool := Sparse.canonAbove 0 m

end Sparse

/-- A set of numbers as a strictly rising list. -/
abbrev NatSet := List Nat

namespace NatSet

/-- Membership. -/
def has (s : NatSet) (k : Nat) : Bool := s.any fun j => j == k

/-- The set with a member added. -/
def add (s : NatSet) (k : Nat) : NatSet :=
  match s with
  | [] => [k]
  | j :: rest => if k < j then k :: j :: rest else if k = j then j :: rest else j :: NatSet.add rest k

/-- The set with a member removed. -/
def del (s : NatSet) (k : Nat) : NatSet := s.filter fun j => j != k

/-- The set with a member put in or taken out. -/
def set (s : NatSet) (k : Nat) (b : Bool) : NatSet := if b then NatSet.add s k else NatSet.del s k

/-- Are the members at least `k` and strictly rising? -/
def canonAbove (k : Nat) (s : NatSet) : Bool :=
  match s with
  | [] => true
  | j :: rest => decide (k ≤ j) && NatSet.canonAbove (j + 1) rest

end NatSet

/-- Memory: bytes by physical address, in the canonical form (R230). -/
abbrev Memory := List Host.Cell

/-- What a byte of memory that nothing has written reads as. DESIGN CHOICE: the spec gives no contents of a memory
after reset; the model reads zero. -/
def Memory.blank : Byte := 0#8

/-- The canonical form of memory: addresses strictly rising, no entry equal to what an unlisted address reads as. -/
def Memory.wf (m : Memory) : Bool := Sparse.canon (n := 8) m

/-- One byte of memory. -/
def Memory.byte (m : Memory) (a : Nat) : Byte := Sparse.get (n := 8) m a

/-- Memory with one byte written. -/
def Memory.store (m : Memory) (a : Nat) (b : Byte) : Memory := Sparse.put (n := 8) m a b

/-- The first element that a test accepts, with the elements in front of it and behind it. -/
def splitFirst {α : Type} (p : α → Bool) : List α → Option (List α × α × List α)
  | [] => none
  | x :: xs =>
    if p x then some ([], x, xs)
    else match splitFirst p xs with
      | none => none
      | some (a, y, b) => some (x :: a, y, b)

/-- The list with every element that a test accepts mapped. -/
def updateWhere {α : Type} (p : α → Bool) (f : α → α) (xs : List α) : List α :=
  xs.map fun x => if p x then f x else x

/-- Insertion into a list by a strict order: in front of the first element that `x` precedes. -/
def insertBy {α : Type} (lt : α → α → Bool) (x : α) : List α → List α
  | [] => [x]
  | y :: ys => if lt x y then x :: y :: ys else y :: insertBy lt x ys

/-- Stable sorting by a strict order. -/
def sortBy {α : Type} (lt : α → α → Bool) (xs : List α) : List α :=
  xs.foldl (fun acc x => insertBy lt x acc) []

/-- The first least element by a strict order. -/
def leastBy {α : Type} (lt : α → α → Bool) : List α → Option α
  | [] => none
  | x :: xs => some (xs.foldl (fun m y => if lt y m then y else m) x)

end Sys2Proof
end

