-- ==== Sys2Proof/Machine/WarpState.lean ====
section
/-! DEFINITION. The state of a warp and of a block (R11 to R34, R166, R186, R313), and the records of the work that
leaves the issue slices: outstanding instructions, job cards, ordered accumulation slots, spawned items. -/

namespace Sys2Proof.Machine

/-! ## Causes -/

/-- The cause codes of R296. -/
inductive Cause where
  | none
  | illegalClause
  | illegalInstr
  | illegalTarget
  | regRange
  | poison
  | misaligned
  | bsmRange
  | localRange
  | windowFault
  | brxRange
  | rsOverflow
  | rsMismatch
  | accSlot
  | barUnderflow
  | badCard
  | mmaFormat
  | sparseMeta
  | childRange
  | sweepContext
  | tightenNoInput
  | tightenLimit
  | softTrap
  | breakpoint
  | badHeader
  | cardFault
  | spawnArea
  | predFailed
  | contextRestore
  | contextPool
  | preemptTimeout
  | memberEvicted
deriving DecidableEq, Repr

/-- The code of a cause (R296). -/
def Cause.code : Cause → BitVec 8
  | .none => 0x00
  | .illegalClause => 0x01
  | .illegalInstr => 0x02
  | .illegalTarget => 0x03
  | .regRange => 0x04
  | .poison => 0x05
  | .misaligned => 0x06
  | .bsmRange => 0x07
  | .localRange => 0x08
  | .windowFault => 0x09
  | .brxRange => 0x0A
  | .rsOverflow => 0x0B
  | .rsMismatch => 0x0C
  | .accSlot => 0x0D
  | .barUnderflow => 0x0E
  | .badCard => 0x0F
  | .mmaFormat => 0x10
  | .sparseMeta => 0x11
  | .childRange => 0x12
  | .sweepContext => 0x13
  | .tightenNoInput => 0x14
  | .tightenLimit => 0x15
  | .softTrap => 0x16
  | .breakpoint => 0x17
  | .badHeader => 0x40
  | .cardFault => 0x41
  | .spawnArea => 0x42
  | .predFailed => 0x43
  | .contextRestore => 0x44
  | .contextPool => 0x45
  | .preemptTimeout => 0x46
  | .memberEvicted => 0x47

/-- A trap found at an instruction: its cause, its resume mask and the address that goes to FADDR (R108). -/
structure TrapInfo where
  cause  : Cause
  resume : LaneMask
  addr   : Nat := 0
deriving DecidableEq, Repr

/-! ## Slots and the reconvergence stack -/

/-- Why a slot is held at issue by an instruction that has performed nothing yet (R68). -/
inductive Hold where
  | none
  /-- at a header whose WAIT names a set flag (R27) -/
  | waitFlags
  /-- the instruction's flag is set (R63 (b)) -/
  | flagBusy
  /-- an outstanding earlier write of a destination (R65 (c)) -/
  | outstandingWrite
  /-- a full in-flight counter (R28) -/
  | fullCounter
  /-- a full store buffer (R29) -/
  | fullStoreBuffer
  /-- an outstanding `.acq` of the slot (R159 (b)) -/
  | acquire
  /-- a `.rel` wait (R159 (a)) -/
  | release
  /-- a serial-mode instruction that is not complete (R67 (b)) -/
  | serial
  /-- an atomic held by an overlapping store (R158) -/
  | overlappingStore
  /-- BPERM held by an outstanding LDPERM (R126) -/
  | permLoad
  /-- ACCOPEN waiting for buffer room (R163) -/
  | accRoom
  /-- TIGHTEN waiting for another TIGHTEN of the child (R214) -/
  | tightenTurn
  /-- KICK or MDRAIN waiting for the kick register (R283) -/
  | kickRegister
  /-- MDRAIN waiting for a drain buffer (R292) -/
  | drainBuffer
  /-- MMA.BYP waiting for an earlier instruction that writes its bypass tile (R186, R196) -/
  | bypassTile
  /-- an instruction that reads memory at issue, waiting for an earlier access of its warp to the same bytes (R221 (b)) -/
  | earlierAccess
  /-- a word of code that the item reads lies where the access is held (R230, R231) -/
  | codeRead
  /-- an access whose pages find the miss queue full (R239 (e)) -/
  | translation
  /-- an MMA held by the slew clamp (R295) -/
  | slew
  /-- an MMA of the slot whose row fetches have not all passed (R193) -/
  | rowFetch
  /-- a restored store buffer drains first (R227) -/
  | restoreDrain
  /-- an MMA of the warp may still read the same bytes, or a restored one is still to read its operands (R194, R221 (b), R222 (e)) -/
  | restoredMma
  | regacq
  | waitf
  | fence
  | bwait
  | bsync
  | waitc
  | spwait
deriving DecidableEq, Repr

/-- A PC slot (R23). Beside the valid bit, PC, mask, CH and the count of variable-latency instructions issued, it holds
what the clause rules keep between two issues. -/
structure PcSlot where
  valid  : Bool := false
  pc     : Pc := 0
  mask   : LaneMask := 0
  ch     : Pc := 0
  /-- variable-latency instructions of the clause already issued (R60) -/
  issued : Nat := 0
  /-- instructions of the clause still to issue; 0: the PC stands at a header position (R62) -/
  left   : Nat := 0
  /-- SETA and SETB of the clause's header (R60) -/
  setA   : BitVec 4 := 15
  setB   : BitVec 4 := 15
  /-- serial mode (R67) -/
  serial : Bool := false
  /-- the lanes of an instruction that RTT executes again (R110) -/
  resume : Option LaneMask := none
  hold   : Hold := .none
  /-- a trap whose entry waits for R299 -/
  trap   : Option TrapInfo := none
  /-- the instruction issued in serial mode that must complete before the next issues (R67 (b)) -/
  serialOp : Option Nat := none
deriving DecidableEq, Repr

/-- An entry of the reconvergence stack (R24, R25). A TRAP pair is one entry of two positions. -/
inductive RsEntry where
  | join (pc : Pc) (mask : LaneMask)
  | loop (pc : Pc) (mask : LaneMask)
  | pend (pc : Pc) (mask : LaneMask)
  /-- saved slot mask, faulting PC, resume mask, FCAUSE, instructions of the clause after the trap, clause distance -/
  | trap (mask : LaneMask) (pc : Pc) (resume : LaneMask) (cause : BitVec 8) (after : Nat) (dist : Nat)
deriving DecidableEq, Repr

/-! ## Outstanding instructions -/

/-- The access paths of the in-flight counters (R28). -/
inductive Path where
  | ldb
  | ldt
  | ldl
  | atom
  | mma
deriving DecidableEq, Repr

/-- The space of a load, store or atomic, with addresses as offsets of the BSM, physical addresses of the scratchpad,
or keys 512 l + offset of lane l's private memory. -/
inductive Space where
  | bsm
  | tsp
  | priv
deriving DecidableEq, Repr

/-- How a load widens its element (R150). -/
inductive LoadSize where
  | word
  | pair
  | n8
  | i8
  | n16
  | i16
deriving DecidableEq, Repr

/-- The operations of ATOM (R161), with ATOMC and ATOMF. -/
inductive AtomicOp where
  | add
  | and
  | or
  | xor
  | min
  | max
  | minu
  | maxu
  | exch
  | inc
  | dec
  | cas
  | fadd
  | fmin
  | fmax
deriving DecidableEq, Repr

/-- One lane of an atomic: its address, operand and (ATOMC) new value. -/
structure AtomicLane where
  lane : Nat
  addr : Nat
  b    : DWord
  c    : DWord
deriving DecidableEq, Repr

/-- An MMA or MMAS at work (R193), with what it read at issue. -/
structure MmaWork where
  sparse : Bool
  byp    : Bool
  tile   : Nat
  aTile  : Nat
  aDesc  : DWord
  bDesc  : DWord
  fbAddr : Nat
  /-- the 32 bytes of the format block (R188) -/
  fb     : Nat
  kd     : Nat
  /-- compute formats of A and B, float codes (R189, R192) -/
  fmtA   : Nat
  fmtB   : Nat
  /-- t_MMA (R192) -/
  bound  : Nat
  /-- FLAGS.FTZ as read at issue -/
  ftz    : Bool
  active : LaneMask
  /-- the first row of this execution: RPR when it is executed again, and every row below it is final -/
  start  : Nat
  /-- the rows of B, fetched; none before the fetch -/
  bRows  : Option (List Nat) := none
  /-- the scale bytes of B -/
  bScales : Nat := 0
  /-- the rows of A fetched so far: row, bytes, scale bytes, metadata -/
  aRows  : List (Nat × Nat × Nat × Nat) := []
  /-- rows that a re-execution after a restore poisons (R194) -/
  bad    : List Nat := []
  /-- every row fetch has passed its checks -/
  fetched : Bool := false
  /-- a re-execution after a restore, which never traps (R194) -/
  restored : Bool := false
  /-- a re-execution after a restore that has been counted in its window (R295 (d)) -/
  counted : Bool := false
  /-- the window page that holds a re-execution (R194) -/
  waitPage : Option Nat := none
  flags  : BitVec 5 := 0
deriving DecidableEq, Repr

/-- What an outstanding instruction does when it completes. -/
inductive OpBody where
  /-- LDB, LDT, LDL: (lane, address) of the committing lanes -/
  | load (space : Space) (size : LoadSize) (dst : Nat) (lanes : List (Nat × Nat)) (pages : List Nat)
  /-- STB and STT, a store buffer entry, and STL: (lane, address, data) of the committing lanes -/
  | store (space : Space) (bytes : Nat) (lanes : List (Nat × Nat × DWord)) (pages : List Nat)
  /-- an arrival of BARARR that waits for the warp's earlier accesses (R167) -/
  | arrive (bar n : Nat)
  /-- LDPERM, with the 48 bytes that it read (R126) -/
  | loadPerm (bits : BitVec 384)
  | atomic (op : AtomicOp) (space : Space) (wide : Bool) (dst : Nat) (lanes : List AtomicLane) (pages : List Nat)
  /-- AFADDO: (lane, value) (R164) -/
  | contribute (slot : Nat) (values : List (Nat × Word))
  /-- a special function: (lane, result) and the flags (R147) -/
  | sfu (dst : Nat) (values : List (Nat × Word)) (flags : BitVec 5)
  /-- CRNG: (lane, low, high) (R132) -/
  | crng (dst : Nat) (values : List (Nat × Word × Word))
  | mma (work : MmaWork)
  | tileZero (tile : Nat) (active : LaneMask)
  | tileWrite (tile col : Nat) (values : List (Nat × Word))
  | tileRead (dst tile col : Nat) (active : LaneMask)
  | tileCert (dst tile : Nat)
  /-- MBYP: format code, rounding mode, saturation (R196) -/
  | tileBypass (tile : Nat) (fmt : Nat) (rnd : Rnd) (sat : Bool) (active : LaneMask)
  /-- CERT and CERT.REL: the certificate, the address of the header it goes to, M and r for `.rel` (R211, R212) -/
  | cert (dst : Nat) (word : Nat) (pa : Nat) (rel : Option (Word × Word))
  /-- TIGHTEN of a child, with its deficit (R214, R215) -/
  | tighten (dst : Nat) (child : Nat) (deficit : Nat)
  /-- REGACQ, waiting for the grant, with the words of its instruction (R113) -/
  | regacq (words : Nat)
  /-- KICK or MDRAIN until its last card has entered the checker (R180, R283) -/
  | kick
deriving DecidableEq, Repr

/-- An outstanding instruction of a warp, in issue order; its flag and its path are those it holds (R27, R28, R64). -/
structure Op where
  id   : Nat
  slot : SlotId
  flag : Option Nat
  path : Option Path
  body : OpBody
  /-- an `.acq`: the slot's mask at its issue (R159 (b)), and the lanes that have followed it in program order since (R220) -/
  acq  : Option LaneMask := none
  /-- beside its own slot, the slots in which an instruction has followed the `.acq` in program order (R220) -/
  acqSlots : List SlotId := []
  /-- a later store of the warp has been performed: this one is performed before a save (R227, R307) -/
  passed : Bool := false
deriving DecidableEq, Repr

/-! ## A warp -/

/-- The control state of an accumulator tile (R186): TC and BYPF. -/
structure TileControl where
  tc   : BitVec 16 := 0x03FF
  bypf : BitVec 3 := 7
deriving DecidableEq, Repr

/-- A resident or saved warp: its registers (R14), bay map (R17), status registers (R20), slots (R23), reconvergence
stack (R24), outstanding instructions with flags, counters and store buffer (R27 to R29), and lane-private memory (R30).
The vector element of register n, lane l has key 64 n + l; tile element (t, row, column) has key 4096 t + 64 row + column;
lane-private byte o of lane l has key 512 l + o. A poison map holds the keys of poisoned units (R243). -/
structure Warp where
  rank      : Nat
  slice     : Nat := 0
  warpSlot  : Nat := 0
  /-- the physical bay of each valid entry of the bay map (R17) -/
  bays      : List Nat := []
  v         : Sparse 32 := []
  vPoison   : NatSet := []
  /-- model's own: the keys of poisoned elements whose poison no load or atomic of the warp has brought (R244 (b), R264 (d)); an element
  that is not poisoned may stay listed, which says nothing -/
  vUnloaded : NatSet := []
  s         : Sparse 64 := []
  sPoison   : NatSet := []
  m         : Sparse 64 := []
  tiles     : Sparse 32 := []
  tilePoison : NatSet := []
  tileCtl   : List TileControl := []
  /-- FLAGS[4:0]: IV, DZ, OF, UF, IX -/
  flags     : BitVec 5 := 0
  ftz       : Bool := false
  fmask     : LaneMask := 0
  fcause    : BitVec 8 := 0
  faddr     : BitVec 52 := 0
  tvec      : Pc := 0
  rpr       : BitVec 8 := 0
  tol       : BitVec 16 := 0
  mcert     : BitVec 16 := 0
  rngkey    : DWord := 0
  perm      : BitVec 384 := 0
  slotA     : PcSlot := {}
  slotB     : PcSlot := {}
  rs        : List RsEntry := []
  /-- poisoned positions of the stack, counted from 1 (R243, R244 (c)) -/
  rsPoison  : NatSet := []
  ops       : List Op := []
  /-- the completion flags that a completion of this core cycle has cleared: tests see them clear from the next cycle on (R63 (c)) -/
  clearing  : NatSet := []
  /-- the store buffer entries that a restore brought back: they drain in order before the next instruction (R227) -/
  draining  : List Nat := []
  priv      : Sparse 8 := []
  privPoison : NatSet := []
  took      : Bool := false
  /-- arrived in the block's current BSYNC generation (R169) -/
  arrived   : Bool := false
deriving DecidableEq, Repr

/-! ## A block -/

/-- A named barrier (R166). -/
structure Barrier where
  count : Word := 0
  under : Bool := false
deriving DecidableEq, Repr

/-- A sensitivity table entry (R270). -/
structure ClassEntry where
  uOwn : Nat := 16
  uIn  : Nat := 16
  s    : Int := 0
  /-- split = EQUAL; else SINGLE -/
  equal : Bool := true
  /-- KIND: 0 ELEM, 1 MATMUL, 2 ITER -/
  kind : Nat := 0
  init : Nat := 0
  gain : Nat := 0
deriving DecidableEq, Repr

/-- A node program header (R32). -/
structure ProgramHeader where
  entry   : Pc := 0
  tvec    : Pc := 0
  proRegs : Nat := 1
  fullRegs : Nat := 0
  acc     : Nat := 0
  bsmu    : Nat := 0
  lpriv   : Nat := 0
  preload : BitVec 10 := 0
  ftz     : Bool := false
deriving DecidableEq, Repr

/-- A block (R11): its place, its dispatch context (R202), its allotments and its shared state. -/
structure Block where
  id        : Nat
  tower     : Nat
  core      : Nat
  /-- the core's resident-block number (R308) -/
  coreNo    : Nat := 0
  sweep     : Nat := 0
  asid      : Nat := 0
  queue     : Nat := 0
  /-- a spawn block (R13) -/
  spawn     : Bool := false
  node      : BitVec 24 := 0xFFFFFF
  stage     : Nat := 0
  parent    : BitVec 24 := 0xFFFFFF
  first     : Nat := 0
  nchild    : Nat := 0
  depth     : BitVec 24 := 0
  prog      : Nat := 0
  opClass   : Nat := 0
  idemp     : Bool := false
  retain    : Bool := false
  rel       : Bool := false
  /-- the sweep's NORST (R249) -/
  norst     : Bool := false
  /-- the sweep goes down (R254) -/
  down      : Bool := false
  user      : DWord := 0
  need      : Nat := 0
  share     : BitVec 16 := 0
  entry     : ClassEntry := {}
  hdr       : ProgramHeader := {}
  bsmUnits  : Nat := 0
  /-- the window offset of the own drawer's header, and the drawer's size (R251) -/
  drawer    : Nat := 0
  drawerSize : Nat := 0
  /-- downward sweep: the window offset of the parent's drawer (R203) -/
  parentDrawer : Option Nat := none
  /-- a run that a TIGHTEN asked for (R215) -/
  redispatch : Bool := false
  /-- the parent's certificate latched at the dispatch of a downward sweep; none: POISONED (R211) -/
  parentCert : Option Nat := none
  effect    : Bool := false
  granted   : Bool := false
  regRequest : Bool := false
  barriers  : List Barrier := []
  generation : Nat := 0
  bsm       : Sparse 8 := []
  /-- poisoned 4-byte words of the BSM -/
  bsmPoison : NatSet := []
  /-- the unit map: BSM units of the core in offset order (R233) -/
  units     : List Nat := []
  spawnOutstanding : Nat := 0
  /-- ordered accumulation slots on which the block has executed ACCOPEN or AFADDO (R290) -/
  usedSlots : List Nat := []
  /-- spawn block: the blocks that spawned its items, one entry per item (R206) -/
  spawners  : List Nat := []
  /-- admission time of the current dispatch (R19 (d)) -/
  admitted  : Nat := 0
  /-- the CLOCK at which this residency began, and the core cycles of earlier residencies (R265) -/
  since     : Nat := 0
  resident  : Nat := 0
  /-- the one restart for a consumed poison has been used (R264 (d)) -/
  poisonRestart : Bool := false
  /-- a pre-emption request stops the block's units (R309) -/
  stopping  : Bool := false
  warps     : List Warp := []
deriving DecidableEq, Repr

/-! ## Engines -/

/-- The state of a card slot (R286). -/
inductive CardState where
  | waiting
  | running
  | suspended
deriving DecidableEq, Repr

/-- A write of a job card as it is noted before it is made (R184): its bytes and the poison that it may change, as they then stand. -/
structure Noted where
  /-- in the BSM, at offsets, or in memory, at physical addresses -/
  bsm   : Bool
  addr  : Nat
  bytes : List Byte
  /-- the first byte whose poison is noted, and whether each byte from there on is poisoned -/
  badAt : Nat
  bad   : List Bool
deriving DecidableEq, Repr

/-- A job card in the Dependency Checker (R174, R179, R286). -/
structure Card where
  id     : Nat
  block  : Nat
  /-- the rank of the warp that kicked or drained it (R185) -/
  rank   : Nat
  /-- the BSM address of the card -/
  addr   : Nat
  /-- the 64 bytes of the card and of its shape record, read at KICK -/
  card   : Nat
  shape  : Nat
  tol    : BitVec 16
  rngkey : DWord
  /-- destination format code, f for AUTO (R181) -/
  fmt    : Nat
  scope  : Nat
  asid   : Nat
  /-- the snapshot of a drained tile: values and poisoned elements by 64 row + column (R197, R292) -/
  drain  : Option (Sparse 32 × NatSet)
  state  : CardState := .waiting
  nextn  : Nat := 0
  /-- destination half-bytes written in the current chunk; CBYTES is half of it -/
  cnibs  : Nat := 0
  /-- the 4 KiB block of the destination in which the unfinished chunk lies; none: the next element starts a chunk (R182) -/
  page   : Option Int := none
  retry  : Bool := false
  cflags : BitVec 5 := 0
  /-- the fault id it is suspended on (R241), or the window page (R242) -/
  faultId : Option Nat := none
  waitPage : Option Nat := none
  /-- every element is written -/
  written : Bool := false
  /-- the writes of the card, oldest first (R184) -/
  before : List Noted := []
  /-- the earlier cards of its core whose footprints overlap its own (R179, R284) -/
  behind : List Nat := []
deriving DecidableEq, Repr

/-- The chain in a core's kick register: the issuing instruction and the cards that have not entered (R283). -/
structure KickChain where
  warp  : WarpRef
  op    : Nat
  cards : List Card
deriving DecidableEq, Repr

/-- A contribution to an ordered accumulation slot: its key and value, in arrival order (R164). -/
structure Contribution where
  node  : Nat
  stage : Nat
  rank  : Nat
  lane  : Nat
  value : Word
deriving DecidableEq, Repr

/-- An open ordered accumulation slot (R163). -/
structure AccSlot where
  number : Nat
  /-- the window offset of the sum -/
  addr   : Nat
  asid   : Nat
  count  : Nat
  block  : Nat
  barrier : Nat
  received : Nat := 0
  values : List Contribution := []
deriving DecidableEq, Repr

/-- A spawned item (R205). -/
structure SpawnItem where
  sweep : Nat
  prog  : Nat
  stage : Nat
  arg0  : DWord
  arg1  : DWord
  /-- the spawning block, and its core -/
  spawner : Nat
  core  : Nat
  /-- the order of arrival at the core's Packing Unit -/
  seq   : Nat
deriving DecidableEq, Repr

/-- A forming warp of the Packing Unit (R262): items of the spawn queue, grouped as they arrive. -/
structure Forming where
  id    : Nat
  sweep : Nat
  prog  : Nat
  stage : Nat
  items : List SpawnItem
  /-- the CLOCK at which its first item arrived -/
  since : Nat
  /-- to be dispatched: full, or its timeout has run out -/
  ready : Bool := false
deriving DecidableEq, Repr

end Sys2Proof.Machine
end

