-- ==== Sys2Proof/Machine/DeviceState.lean ====
section
/-! DEFINITION. The state above the blocks: cores and their engines (R283 to R295), towers with their Sweep Sequencer,
Pre-emption Collector and translation caches (R239, R249 to R267, R308 to R316), hardware queues and packets (R319 to
R327), the market and its clocks (R330 to R341), power, sensors and trim (R342 to R346), and the device (R348 to R356). -/

namespace Sys2Proof.Machine

/-! ## Cores and towers -/

/-- An entry of a translation cache (R239): a page (`window = false`: VA base, size, PA base, permissions) or a window
page (`window = true`: page number, size 1, physical page) of an ASID. -/
structure TlbEntry where
  asid   : Nat
  window : Bool
  base   : Nat
  size   : Nat
  pa     : Nat
  r      : Bool := true
  w      : Bool := true
deriving DecidableEq, Repr

/-- A core (R11): its slices' issue pointers, its engines and its engine control register. -/
structure Core where
  /-- usable, by self-test (R352) -/
  usable  : Bool := true
  /-- the engine control register as written (R293), and the values in force since the last boundary -/
  control : DWord := 0
  ovc     : Nat := 0
  mstep   : Nat := 0
  budget  : Nat := 0
  /-- bytes left to start in this interval; negative: overdrawn (R294) -/
  budgetLeft : Int := 0
  /-- MMAs issued in this slew window and in the one before (R295) -/
  mmaNow  : Nat := 0
  mmaPrev : Nat := 0
  /-- model's own: the number of the current interval and window -/
  intervalAt : Nat := 0
  windowAt : Nat := 0
  /-- the issue pointer of each slice, over 32 (warp slot, PC slot) pairs (R34) -/
  issuePtr : List Nat := [0, 0, 0, 0, 0, 0]
  /-- the cards in the Dependency Checker, in kick order (R284) -/
  cards   : List Card := []
  kick    : Option KickChain := none
  /-- the CLOCK at which the kick register took its last chain (R283 (a)) -/
  kickAt  : Option Nat := none
  accSlots : List AccSlot := []
  /-- the scratchpad lines that the core's Atomic Engine holds, least recently used first (R289) -/
  hotLines : List Nat := []
  /-- held lines for which the engine has performed no instruction yet (R289 (d)) -/
  newLines : NatSet := []
  /-- the instruction that the engine has taken and for whose lines it waits (R289 (b)) -/
  taking  : Option (WarpRef × Nat) := none
  /-- the CLOCK at which the engine has last performed an instruction (R162) -/
  acceptedAt : Option Nat := none
  /-- the spawn queue's items, in their forming warps (R262) -/
  forming : List Forming := []
  tlb     : List TlbEntry := []
  /-- the next resident-block number (R308) -/
  nextNo  : Nat := 0
deriving DecidableEq, Repr

/-- A request record of the Pre-emption Collector (R308). -/
structure PreemptRecord where
  index  : Nat
  need   : BitVec 16
  ack    : BitVec 16
  reason : PreemptReason
  /-- STATE: 1 stopping, 2 saving, 3 done; a free record is not listed -/
  state  : Nat
  core   : Nat
  coreNo : Nat
  block  : Nat
  t0     : DWord
  /-- model's own: the time of the request -/
  at_    : Nat
  /-- the room reserved in the context pool: offset and size (R311) -/
  room   : Nat
  size   : Nat
deriving DecidableEq, Repr

/-- A block in the context pool (R311, R312), with its cards and drain buffers. -/
structure SavedBlock where
  block : Block
  cards : List Card
  room  : Nat
  size  : Nat
  /-- the TIGHTENs that complete with the restore: child and certificate (R216) -/
  tightened : List (Nat × Nat) := []
deriving DecidableEq, Repr

/-- A flushed node that waits for its restart (R264); after a WINDOW_FAULT it waits for a window page. -/
structure Restart where
  sweep : Nat
  node  : Nat
  stage : Nat
  page  : Option Nat
  /-- a POISON restart has been used since the node's last dispatch -/
  poisonUsed : Bool
  redispatch : Bool
  admitted : Nat
  resident : Nat
  /-- the share with which the node was dispatched (R264, R280) -/
  share    : BitVec 16
  /-- the parent's drawer and certificate as the dispatch of the node latched them (R203, R211, log 69) -/
  parentDrawer : Option Nat
  parentCert : Option Nat
deriving DecidableEq, Repr

/-- A re-dispatch that a TIGHTEN asked for (R215). -/
structure Redispatch where
  sweep : Nat
  node  : Nat
  stage : Nat
deriving DecidableEq, Repr

/-- A tower (R11): its clock, its sequencer's queues and its collector. -/
structure Tower where
  cores   : List Core := List.replicate 36 {}
  /-- core cycles since the tower's TWR bit was set (R20, CLOCK) -/
  clock   : DWord := 0
  tlb     : List TlbEntry := []
  /-- the shared cache's miss queue: the pages whose walk is queued or in progress, in order of arrival, each with the walk's result
  (R239 (d), (e)) -/
  walks   : List TlbEntry := []
  /-- the requests for scratchpad lines at their homes, in order of arrival: line and core (R289 (c)) -/
  lineRequests : List (Nat × Nat) := []
  records : List PreemptRecord := []
  /-- the requests that wait for a free record (R310) -/
  waiting : List (Nat × PreemptReason) := []
  /-- the CLOCK of the last dispatch (R259) -/
  dispatchedAt : Option Nat := none
  /-- the CLOCK of the last pre-emption for a HIGH queue (R266) and for a re-dispatch (R279) -/
  highAt : Option Nat := none
  roomAt : Option Nat := none
  saved   : List SavedBlock := []
  restarts : List Restart := []
  redispatches : List Redispatch := []
  /-- the deficit of each queue and the pointer of each class (R265) -/
  deficit : List Int := List.replicate 32 0
  classPtr : List Nat := [0, 0, 0]
deriving DecidableEq, Repr

/-! ## Sweeps -/

/-- A node of a launched sweep: its record (R250) and what the launch computed (R253 to R256). -/
structure Node where
  index  : Nat
  parent : Nat
  first  : Nat
  count  : Nat
  prog   : Nat
  warps  : Nat
  bsmu   : Nat
  opClass : Nat
  idemp  : Bool
  retain : Bool
  rel    : Bool
  user   : DWord
  depth  : Nat := 0
  need   : Nat := 0
  hold   : Nat := 0
  share  : BitVec 16 := 0
deriving DecidableEq, Repr

/-- Where a node stands at a stage. -/
inductive RunState where
  | notAdmitted
  | admitted
  | dispatched
  | retired
deriving DecidableEq, Repr

/-- Where the reservation of a subtree came from (R257). -/
inductive Source where
  | none
  | parent
  | pool
deriving DecidableEq, Repr

/-- A node at a stage: its admission state (R257) and its drawer (R251). -/
structure Run where
  node   : Nat
  stage  : Nat
  state  : RunState := .notAdmitted
  res    : Nat := 0
  src    : Source := .none
  charged : Nat := 0
  /-- children admitted so far, in canonical order -/
  next   : Nat := 0
  borrowed : Nat := 0
  /-- the slot number of its drawer while it is held -/
  drawer : Option Nat := none
  /-- the slot number that its drawer had, once it is freed (R203, R211, R215) -/
  place  : Option Nat := none
  /-- every drawer of its subtree's reservation is settled (finish of R257) -/
  finished : Bool := false
  /-- the block has taken (R204) -/
  taken  : Bool := false
  /-- its effect bit at its last retire (R214) -/
  effect : Bool := false
  aborted : Bool := false
  /-- the order in which the node became ready (R259) -/
  readyAt : Option Nat := none
deriving DecidableEq, Repr

/-- Where a sweep stands. -/
inductive SweepPhase where
  /-- held until its predecessor has passed launch (R260) -/
  | held
  | running
  | complete
  | aborted
deriving DecidableEq, Repr

/-- A launched sweep (R249, R252). -/
structure Sweep where
  id     : Nat
  /-- the packet that launched it -/
  pkt    : Nat
  queue  : Nat
  cls    : Nat
  asid   : Nat
  tower  : Nat
  /-- DIR: 0 UP, 1 DOWN, 2 DEMAND -/
  dir    : Nat
  descriptor : Nat
  root   : Nat
  nodesN : Nat
  stages : Nat
  progs  : Nat
  shelf  : Nat
  cap    : Nat
  drawerSize : Nat
  bitmap : Nat
  sparea : Nat
  splen  : Nat
  pkto   : Nat
  norst  : Bool
  dove   : Nat
  /-- the predecessor sweep's id -/
  pred   : Option Nat
  table  : List ClassEntry
  hasTable : Bool
  nodes  : List Node
  runs   : List Run
  /-- the pool of each stage (R257) -/
  pool   : List Nat
  /-- headers read for dispatch, by program index; none: its reading failed (R259) -/
  headers : List (Nat × Option ProgramHeader)
  /-- a header read waits on this fault (R259, R327) -/
  headerFault : List (Nat × Nat)
  spawnArea : List SpawnItem
  /-- spawned items that have not retired (R206) -/
  items  : Nat
  phase  : SweepPhase
  passed : Bool
deriving DecidableEq, Repr

/-! ## Queues, packets and faults -/

/-- A hardware queue: its register block (R320), and what EN := 1 latched. -/
structure Queue where
  regs   : BitVec 512 := 0
  cls    : Nat := 1
  weight : Nat := 1
  ltol   : Nat := 0
deriving DecidableEq, Repr

/-- What a started packet still has to do. -/
inductive PacketWork where
  /-- complete with this KIND, PCODE, CODE and DETAIL (R323) -/
  | done (kind pcode code detail : Nat)
  /-- a SWEEP in launch or running (R252); once the sensitivity table has been read and has passed, what was read (R271) -/
  | sweep (descriptor : Nat) (table : Option (Option Nat))
  /-- a COPY, with the bytes copied so far -/
  | copy (src dst : CopyOperand) (len off : Nat)
  /-- a WAIT on a signal, with the time it started (R325); `pageRequest`: a Page Request is out -/
  | wait (signal : Nat) (value : DWord) (timeout : Nat) (started : Nat) (pageRequest : Bool)
  | signal (signal : Nat) (value : DWord) (add : Bool)
  /-- a MAP whose entries are to be written: tower, first page, count, and the first physical page of a map run -/
  | map (tower first count : Nat) (phys : Option Nat)
  /-- a MAP whose invalidation is in progress (R240) -/
  | invalidate (window : Bool) (tower base pages : Nat)
  /-- a JOIN in progress, or a LEAVE or POST waiting for its bell (R347) -/
  | join
  | untilBell (bell : Nat)
deriving DecidableEq, Repr

/-- A started packet that has not completed (R324). -/
structure Packet where
  id   : Nat
  ref  : PacketRef
  work : PacketWork
  /-- a WAIT, which holds the queue's start order (R324 (f)) -/
  waits : Bool := false
  /-- the fault id it waits on (R327) -/
  fault : Option Nat := none
deriving DecidableEq, Repr

/-- A record of a queue's error log that waits: on a fault of the ring's page (R327), for a memory that is not ready, or behind an
earlier one. -/
structure RingWrite where
  queue : Nat
  bytes : List Byte
  fault : Option Nat
deriving DecidableEq, Repr

/-- Who waits on a fault that the host serves (R327). -/
inductive FaultOwner where
  | card (c : CoreRef) (id : Nat)
  | packet (id : Nat)
  | header (sweep prog : Nat)
  | ring (queue : Nat)
deriving DecidableEq, Repr

/-- A suspension that awaits a host response (R241, R327). -/
structure Suspension where
  id    : Nat
  owner : FaultOwner
  asid  : Nat
  va    : Nat
  write : Bool
  /-- the host has answered: resume, or decline -/
  resumed : Bool := false
deriving DecidableEq, Repr

/-! ## Market, power and sensors -/

/-- The fabric-time state (R333). -/
inductive TimeState where
  | unset
  | locked
  | holdover
  | lost
deriving DecidableEq, Repr

/-- The fabric-time counter (R333), in nanoseconds. -/
structure FabricTime where
  state : TimeState := .unset
  count : Nat := 0
  /-- consecutive time words that agreed with the local count -/
  agree : Nat := 0
  /-- the local count is held until fabric time reaches it, this many ns behind -/
  behind : Nat := 0
  /-- the time at which HOLDOVER began -/
  heldSince : Nat := 0
  /-- fabric time at the last pulse -/
  pulse : Nat := 0
  /-- the last bell rung -/
  bell  : Nat := 0
deriving DecidableEq, Repr

/-- A join in progress (R338). -/
structure JoinState where
  pkt   : Nat
  /-- the bell of the request, and whether this part founds the market -/
  since : Nat
  found : Bool
  /-- the bell at which the joiner turns ACTIVE, once the snapshot has come -/
  activeAt : Option Nat
deriving DecidableEq, Repr

/-- A market record sent (R336): the ports, the KIND, the record, and the board that goes with a SNAPSHOT. A JOIN_REQ names
the sponsor's part, and a SNAPSHOT the joiner's stall. -/
structure SentRecord where
  ports : Nat
  kind  : Nat
  post  : PostRecord
  to_   : Option Nat := none
  board : List BoardEntry := []
deriving DecidableEq, Repr

/-- The market state of the part (R330 to R341). -/
structure Market where
  number : Nat := 0
  stall  : Nat := 0
  forward : Nat := 0
  board  : List BoardEntry := []
  epoch  : BitVec 16 := 0
  tariff : Nat := 188
  ceiling : Nat := 188
  power  : Nat := 188
  thermal : Nat := 188
  sensor : Nat := 188
  /-- the codes of the late notices of the power and of the thermal limit while they limit the part (R337), and its two other limits
  (R333, R341) -/
  latePower : Option Nat := none
  lateThermal : Option Nat := none
  lostLimit : Bool := false
  isolated : Bool := false
  /-- the bell at which the isolation began -/
  isolatedAt : Nat := 0
  /-- the power and the thermal limit bite now (R342 (c), R343) -/
  powerBites : Bool := false
  thermalBites : Bool := false
  lastPosted : Option Nat := none
  /-- the bell of the last post sent -/
  lastPost : Nat := 0
  /-- the latest bell at which a post of another member was heard (R341) -/
  heard  : Nat := 0
  seq    : BitVec 16 := 0
  join   : Option JoinState := none
  lateNotices : Word := 0
  lateArrivals : Nat := 0
  discarded : Nat := 0
  sentPosts : Nat := 0
  /-- (send bell, count) of the last LATE, and the time it was sent (R359) -/
  lastLate : Option (Nat × Nat) := none
  sent   : List SentRecord := []
deriving DecidableEq, Repr

/-- A thermal sensor (R344), in units of 0.125 °C. -/
structure ThermalSensor where
  reading : Int := 0
  invalid : Bool := false
  /-- samples for which it has changed by less than 1 LSB, and the means of its valid neighbours at the last 10,000 samples,
  times 12, newest first -/
  still   : Nat := 0
  means   : List Int := []
deriving DecidableEq, Repr

/-- An island's trim controller (R346). -/
structure Island where
  trim  : Nat := 0
  lock  : Bool := false
  ratio : Nat := 0
  uecnt : Word := 0
  hold  : Bool := false
  /-- the time at which the hold began -/
  holdAt  : Nat := 0
  /-- corrected errors since the last trim step, and over the steps of the last 100 ms -/
  errors : Nat := 0
  window : List Nat := []
deriving DecidableEq, Repr

/-- Power and sensors (R342 to R346). -/
structure Power where
  plim    : Nat := 2800
  /-- package power in mW of the last samples, newest first -/
  samples : List Nat := []
  thermal : List (List ThermalSensor) := [List.replicate 128 {}, List.replicate 128 {}]
  degraded : List Bool := [false, false]
  islands : List Island := []
  /-- the current monitors at the last power sample, in mW; none for one outside its rated range (R344). One that no sample has reached reads 0 (log 155). -/
  monitors : List (Option Nat) := []
  /-- the hottest reading of the last sample, and its band (R343): 0 below 95 °C, 1 to below 100 °C, 2 above -/
  hottest : Int := 0
  band    : Nat := 0
  /-- for each cold-plate outlet sensor, the time since which it has read above 70 °C (R343) -/
  outletSince : List (Option Nat) := []
  /-- the readings of the cold-plate outlet sensors at the last sample -/
  outlet  : List Int := []
  /-- model's own: where, in the free values, the readings of the last sample that no valid sensor gives begin (R344) -/
  sensorFree : Nat := 0
  /-- model's own: the times of the last power and sensor samples and of the last trim steps -/
  powerAt : Nat := 0
  sensorAt : Nat := 0
  trimAt  : Nat := 0
deriving DecidableEq, Repr

/-! ## The device -/

/-- A unit of a memory with ECC (R243): an element of a vector register or of a tile, a scalar register, a position of the
reconvergence stack (from 1), a byte of lane-private memory (key 512 lane + offset), of the BSM or of a memory (physical address). -/
inductive EccUnit where
  | vector (w : WarpRef) (n lane : Nat)
  | scalar (w : WarpRef) (n : Nat)
  | tile (w : WarpRef) (t row column : Nat)
  | stack (w : WarpRef) (position : Nat)
  | priv (w : WarpRef) (key : Nat)
  | bsm (block offset : Nat)
  | memory (pa : Nat)
deriving DecidableEq, Repr

/-- What stands at the part's outside interfaces now, for the step that takes it in (R348). -/
structure Inputs where
  /-- what ECC finds at the reads of the next step (R243, R244) -/
  ecc     : List (EccUnit × EccOutcome) := []
  /-- host read completions that come with EP set or with error status: payload address and length (R245) -/
  hostErrors : List (Nat × Nat) := []
  /-- the parts that do not answer (R231) -/
  silent  : List Nat := []
  /-- market records received and not yet taken in -/
  records : List ReceivedRecord := []
  /-- peer requests received: port and request (R231) -/
  peers   : List (Nat × PeerRequest) := []
  /-- the time word at the fabric-time input, in ns -/
  timeWord : DWord := 0
  /-- the 96 current monitors' power, in mW, with the readings outside the rated range marked by none (R344) -/
  monitors : List (Option Nat) := []
  /-- the thermal sensors' samples of both towers, 256 values in units of 0.125 °C (R344) -/
  thermal : List Int := []
  /-- the cold-plate outlet sensors' readings, in units of 0.125 °C (R343) -/
  outlet  : List Int := []
  /-- the slice clock ratios that the Power Manager sets: island and numerator (R330) -/
  ratios  : List (Nat × Nat) := []
  /-- what the next read of the patrol scrubber finds (R244) -/
  scrub   : EccOutcome := .clean
  /-- the cores that fail the tower self-test (R352) -/
  failing : List CoreRef := []
deriving DecidableEq, Repr

/-- A unit whose transfers or reads are retried (R304): a port's flits, a memory's reads, a Copy Engine's chunks. -/
inductive RetryUnit where
  | port (port : Nat)
  | read (u : EccUnit)
  | chunk (c : CoreRef)
deriving DecidableEq, Repr

/-- A record of the device error log (R353). -/
inductive LogRecord where
  /-- an error that ECC has corrected (R243) -/
  | corrected (u : EccUnit)
  /-- a unit marked poisoned (R244 (b)) -/
  | poisoned (u : EccUnit)
  /-- a retry that was good: transient, or lasting when it is the unit's second within 1 s (R304) -/
  | retried (u : RetryUnit) (lasting : Bool)
  /-- a retry that failed: a port marked down, or a card ended (R304) -/
  | failed (u : RetryUnit)
  /-- a trap of a warp (R303): cause, block and rank -/
  | trapped (cause : Cause) (w : WarpRef)
  /-- a card or packet that a fault record suspends, or a card at an unmapped window page (R241, R242): kind, ASID, address -/
  | suspended (kind asid address : Nat)
  /-- the abort of a block, a node or a sweep (R301): cause, sweep, stage, node -/
  | aborted (cause : Cause) (sweep stage node : Nat)
  /-- a fault that could not be reported (R327): kind, ASID, VA -/
  | fault (kind asid va : Nat)
  /-- a ring access that is lost (R327): queue, ASID, VA -/
  | ring (queue asid va : Nat)
  /-- the first failed training of a port (R349) -/
  | training (port : Nat)
  | fatal (cause : FatalCause)
  /-- a core that has failed its in-field self-check (R246) -/
  | core (c : CoreRef)
  /-- an error of an island, with its trim state (R346) -/
  | island (island trim : Nat)
  | sensorDegraded (tower : Nat)
  /-- a window table entry with a page number out of range or a reserved bit set, or in a table outside own first-tier memory (R234,
  R238): ASID, tower, window page -/
  | windowEntry (asid tower page : Nat)
  /-- a host completion that came with EP set or with error status (R245): the first byte read, and how many -/
  | host (pa n : Nat)
  /-- a queue item that failed (R303, R323): queue, TAG, KIND, PCODE and CODE -/
  | packet (queue tag kind pcode code : Nat)
deriving DecidableEq, Repr

/-- What a digest of the measurement log is of (R356): the boot ROM, a firmware image, or a sensitivity table, whose digest is taken
when it is applied. -/
inductive Measured where
  | bootRom
  | firmware (image : Nat)
  | table (digest : BitVec 512)
deriving DecidableEq, Repr

/-- The device (R319, R350 to R356). -/
structure Device where
  devReady : DWord := 0
  /-- the global register block, 64 bytes (R319) -/
  globals : BitVec 512 := 0
  /-- PARTNO and PORTEN (R350) -/
  fabric  : DWord := 0
  /-- ports whose first failed attempt has been logged (R349) -/
  portLogged : List Nat := []
  /-- ports marked down that have not trained again (R349) -/
  portDown : NatSet := []
  /-- the units with a transient failure, with the time of the last in picoseconds (R304) -/
  transients : List (RetryUnit × Nat) := []
  /-- the PCI Express uncorrectable error messages sent (R303): the part's output to the host -/
  messages : Nat := 0
  /-- the answers to peers' requests (R231), newest last: port, bytes and whether they are poisoned; none for an invalid access -/
  answers : List (Nat × Option (List Byte × Bool)) := []
  /-- the firmware image slot: the image's number in Config, and whether the last update was whole (R329) -/
  image   : Nat := 0
  imageWhole : Bool := true
  /-- the image that the boot ROM judged at the last reset, and whether it was whole (R329) -/
  booted  : Nat := 0
  bootedWhole : Bool := true
  /-- the measurement log (R356) -/
  measurements : List Measured := [.bootRom, .firmware 0]
  nonce   : BitVec 512 := 0
  quoting : Bool := false
  quoteDone : Bool := false
  /-- the nonce of the quote that is being formed, and the digest that the quote placed last signs (R356) -/
  quoteNonce : BitVec 512 := 0
  quoted  : Option (BitVec 512) := none
  /-- model's own: where, in the free bytes, the 32 random bytes of the signature placed last begin (R356) -/
  quoteRandom : Nat := 0
  log     : List LogRecord := []
  /-- MSI-X vectors pending (R326) -/
  msix    : NatSet := []
  /-- MSI-X vectors raised, newest last: the part's output to the host -/
  raised  : List Nat := []
  /-- MSI-X vectors that the host has masked -/
  masked  : NatSet := []
  /-- the address at which the patrol scrubber stands (R244) -/
  scrubAt : Nat := 0
deriving DecidableEq, Repr

end Sys2Proof.Machine
end

