-- ==== Sys2Proof/Machine/State.lean ====
section
/-! DEFINITION. The machine state, its reset value, and the reasons for which a step ends without a next state. -/

namespace Sys2Proof.Machine

/-- Memory and its poison. -/
structure Phys where
  /-- bytes by 52-bit physical address: first-tier, second-tier, both scratchpads, host and peer memory (R230) -/
  mem    : Memory := []
  /-- the base addresses of poisoned units (R243) -/
  poison : NatSet := []
deriving DecidableEq, Repr

/-- What the next step does, when the environment or a test has laid it down: an event or packet, or the issue of a
slot's next instruction. The model's own field. -/
inductive Move where
  | event (i : Instr)
  | issue (w : WarpRef) (z : SlotId)
  /-- the next packet of a queue starts (R324) -/
  | start (queue : Nat)
  /-- a core cycle in which nothing else happens -/
  | tick
deriving DecidableEq, Repr

/-- Everything but memory. -/
structure Sys where
  /-- model's own: the moves laid down, and the slot that issues in the present step with the words of its item -/
  agenda  : List Move := []
  cursor  : Option (WarpRef × SlotId) := none
  words   : Nat := 1
  /-- the packet that the present step starts -/
  starting : Option PacketRef := none
  /-- model's own: the next unused number (block, op, card, packet, forming warp), and the counter of free values -/
  fresh   : Nat := 1
  /-- model's own: the time since reset, in picoseconds -/
  now     : Nat := 0
  free    : Nat := 0
  /-- model's own: the order of ready nodes and of admissions -/
  order   : Nat := 0
  blocks  : List Block := []
  towers  : List Tower := [{}, {}]
  sweeps  : List Sweep := []
  nextSweep : Nat := 1
  queues  : List Queue := []
  packets : List Packet := []
  faults  : List Suspension := []
  nextFault : Nat := 1
  /-- error records that wait (R327) -/
  ringWrites : List RingWrite := []
  /-- writes held for a memory that is not ready: the address, the byte, and whether it is merged into what stands there (R230) -/
  heldWrites : List (Nat × Byte × Bool) := []
  /-- accesses to the device registers held until the Command Processor runs (R351) -/
  heldAccesses : List Instr := []
  time    : FabricTime := {}
  market  : Market := {}
  power   : Power := {}
  device  : Device := {}
  inputs  : Inputs := {}
deriving DecidableEq, Repr

/-- The state of the machine: memory and everything else. Plain data. -/
structure State where
  phys : Phys := {}
  sys  : Sys := {}
deriving DecidableEq, Repr

/-- Why a step stops with a fault. -/
inductive Fault where
  /-- raised by an instruction's meaning when no slot issues: the step that calls it always names one, so no run meets
  it. Safe: nothing is claimed of such a state. -/
  | noSlot
  /-- raised by the step when the instruction bytes at a PC cannot be reached: the PC has no translation, or the page is
  not readable. The spec describes no fate of an instruction fetch without a translation. Safe: the machine stops. -/
  | fetchUnmapped
deriving DecidableEq, Repr

/-- Why a step refuses. -/
inductive Refusal where
  /-- raised by an arm of `exec` whose instruction has no meaning yet. Safe: the machine stops. -/
  | notModelled (mnemonic : String)
deriving DecidableEq, Repr

/-- A queue's register block at reset: CLASS 01 and WEIGHT 1, every other field 0 (R320). -/
def Queue.reset : Queue := { regs := (BitVec.ofNat 512 1 <<< 80) ||| (BitVec.ofNat 512 1 <<< 82) }

/-- An island at reset (R346): RATIO 8 for a slice island, 0 for a core or uncore island. -/
def Island.reset (i : Nat) : Island := { ratio := if i < 504 && i % 7 != 6 then 8 else 0 }

/-- The machine right after reset: every register of R20 to R355 at its reset value, nothing resident, no queue
enabled, DEVREADY zero, fabric time UNSET; the boot ROM has measured itself and judged the firmware image (R329, R356). -/
def State.reset : State :=
  { phys := {}
    sys := { queues := List.replicate 32 Queue.reset
             power := { islands := (List.range 512).map Island.reset } } }

end Sys2Proof.Machine
end

