-- ==== Sys2Proof/Machine/Mem.lean ====
section
/-! DEFINITION. Memory: the physical map (R230), poison (R243 to R245), the page and window tables with the translation
caches (R234 to R239), and the work on a state inside one step. -/

namespace Sys2Proof.Machine

/-! ## The work of one step -/

/-- A state at work inside a step that began with memory `o`. Memory changes only by the operations below, which keep
the canonical form. -/
structure Tx (o : Phys) where
  phys : Phys
  sys  : Sys
  keeps : o.mem.wf = true → phys.mem.wf = true

/-- A canonical form above a bound is one above a lower bound. -/
theorem Sparse.canonAbove_weaken {n : Nat} (m : Sparse n) (i j : Nat) (h : i ≤ j) :
    Sparse.canonAbove j m = true → Sparse.canonAbove i m = true := by
  cases m with
  | nil => simp [Sparse.canonAbove]
  | cons c rest =>
    simp only [Sparse.canonAbove, Bool.and_eq_true, decide_eq_true_eq]
    rintro ⟨⟨h1, h2⟩, h3⟩
    exact ⟨⟨by omega, h2⟩, h3⟩

/-- Entries taken out keep the canonical form. -/
theorem Sparse.filter_canonAbove {n : Nat} (p : Nat × BitVec n → Bool) (m : Sparse n) (i : Nat)
    (h : Sparse.canonAbove i m = true) : Sparse.canonAbove i (m.filter p) = true := by
  induction m generalizing i with
  | nil => simp [Sparse.canonAbove]
  | cons c rest ih =>
    obtain ⟨j, w⟩ := c
    simp only [Sparse.canonAbove, Bool.and_eq_true, decide_eq_true_eq] at h
    obtain ⟨⟨h1, h2⟩, h3⟩ := h
    rw [List.filter_cons]
    split
    · simp only [Sparse.canonAbove, Bool.and_eq_true, decide_eq_true_eq]
      exact ⟨⟨h1, h2⟩, ih (j + 1) h3⟩
    · exact Sparse.canonAbove_weaken _ i (j + 1) (by omega) (ih (j + 1) h3)

/-- A nonzero entry put in keeps the canonical form above any bound at most its key. -/
theorem Sparse.insert_canonAbove {n : Nat} (m : Sparse n) (i k : Nat) (v : BitVec n) (hk : i ≤ k) (hv : v ≠ 0#n)
    (h : Sparse.canonAbove i m = true) : Sparse.canonAbove i (Sparse.insert m k v) = true := by
  induction m generalizing i with
  | nil => simp [Sparse.insert, Sparse.canonAbove, hk, hv]
  | cons c rest ih =>
    obtain ⟨j, w⟩ := c
    simp only [Sparse.canonAbove, Bool.and_eq_true, decide_eq_true_eq] at h
    obtain ⟨⟨h1, h2⟩, h3⟩ := h
    unfold Sparse.insert
    split
    · simp only [Sparse.canonAbove, Bool.and_eq_true, decide_eq_true_eq]
      exact ⟨⟨hk, hv⟩, ⟨by omega, h2⟩, h3⟩
    · split
      · next h5 =>
        subst h5
        simp only [Sparse.canonAbove, Bool.and_eq_true, decide_eq_true_eq]
        exact ⟨⟨hk, hv⟩, h3⟩
      · simp only [Sparse.canonAbove, Bool.and_eq_true, decide_eq_true_eq]
        exact ⟨⟨h1, h2⟩, ih (j + 1) (by omega) h3⟩

/-- A put keeps the canonical form above any bound at most its key. -/
theorem Sparse.put_canonAbove {n : Nat} (m : Sparse n) (i k : Nat) (v : BitVec n) (hk : i ≤ k)
    (h : Sparse.canonAbove i m = true) : Sparse.canonAbove i (Sparse.put m k v) = true := by
  unfold Sparse.put
  split
  · exact Sparse.filter_canonAbove _ m i h
  · next hv => exact Sparse.insert_canonAbove m i k v hk hv h

/-- Storing a byte keeps the canonical form of memory. -/
theorem Memory.store_wf (m : Memory) (a : Nat) (b : Byte) (h : m.wf = true) : (m.store a b).wf = true :=
  Sparse.put_canonAbove (n := 8) m 0 a b (Nat.zero_le a) h

/-- Memory with byte `f i` at `base + i` for each `i` below `n`. -/
def Memory.fill (m : Memory) (base : Nat) (f : Nat → Byte) : Nat → Memory
  | 0 => m
  | n + 1 => Memory.fill (Memory.store m (base + n) (f n)) base f n

/-- Filling keeps the canonical form of memory. -/
theorem Memory.fill_wf (m : Memory) (base : Nat) (f : Nat → Byte) (n : Nat) (h : m.wf = true) : (Memory.fill m base f n).wf = true := by
  induction n generalizing m with
  | zero => exact h
  | succ n ih => exact ih _ (Memory.store_wf m (base + n) (f n) h)

namespace Tx

variable {o : Phys}

/-- The work on a state, at the start of a step. -/
def start (s : State) : Tx s.phys := { phys := s.phys, sys := s.sys, keeps := fun h => h }

/-- The state at the end. -/
def state (t : Tx o) : State := { phys := t.phys, sys := t.sys }

/-- A change of everything but memory, which may read memory. -/
def upd (t : Tx o) (f : Phys → Sys → Sys) : Tx o := { t with sys := f t.phys t.sys }

/-- A change of everything but memory. -/
def map (t : Tx o) (f : Sys → Sys) : Tx o := { t with sys := f t.sys }

/-- One byte of memory stored, whatever its poison. -/
def byte (t : Tx o) (a : Nat) (b : Byte) : Tx o :=
  { t with phys := { t.phys with mem := t.phys.mem.store a b }
           keeps := fun h => Memory.store_wf t.phys.mem a b (t.keeps h) }

/-- The poison mark of a unit set or cleared. -/
def mark (t : Tx o) (base : Nat) (bad : Bool) : Tx o :=
  { t with phys := { t.phys with poison := NatSet.set t.phys.poison base bad } }

/-- `n` bytes from an address on written whole, and their units' poison cleared. -/
def fill (t : Tx o) (base n : Nat) (f : Nat → Byte) : Tx o :=
  { phys := { mem := Memory.fill t.phys.mem base f n
              poison := t.phys.poison.filter fun u => !(decide (base ≤ u) && decide (u < base + n)) }
    sys := t.sys
    keeps := fun h => Memory.fill_wf t.phys.mem base f n (t.keeps h) }

end Tx

/-- One step's work on a state, ending in a next state. -/
def work (s : State) (f : (o : Phys) → Tx o → Tx o) : Host.Outcome State Fault Refusal :=
  .next (f s.phys (Tx.start s)).state

/-- A step that leaves memory as it is. -/
def keepMemory (s : State) (f : Phys → Sys → Sys) : Host.Outcome State Fault Refusal :=
  .next { phys := s.phys, sys := f s.phys s.sys }

/-! ## The physical map -/

/-- The kinds of memory behind a physical address (R230). -/
inductive Region where
  | firstTier
  | secondTier
  | scratchpad (tower : Nat)
  | host
  /-- a peer part -/
  | peer (part : Nat)
  | invalid
deriving DecidableEq, Repr

/-- The own part number (R350). -/
def Sys.partNo (s : Sys) : Nat := s.device.fabric.toNat % 512

/-- The base of a tower's scratchpad in the physical map of a part (R230). -/
def scratchpadBase (part tower : Nat) : Nat := part * 2 ^ 43 + 0x20000000000 + tower * 0x100000000

/-- The target of an offset within a part (R230). -/
def offsetRegion (x : Nat) : Region :=
  if x < 0x8000000000 then .firstTier
  else if x < 0x10000000000 then .invalid
  else if x < 0x20000000000 then .secondTier
  else if x < 0x2000C000000 then .scratchpad 0
  else if x < 0x20100000000 then .invalid
  else if x < 0x2010C000000 then .scratchpad 1
  else if x < 0x40000000000 then .invalid
  else .host

/-- The target of a 52-bit physical address (R230, R231). -/
def Sys.region (s : Sys) (pa : Nat) : Region :=
  let part := pa / 2 ^ 43
  let r := offsetRegion (pa % 2 ^ 43)
  if 2 ^ 52 ≤ pa then .invalid
  else if part == s.partNo then r
  else match r with
    | .invalid => .invalid
    | .host => .invalid
    | _ => .peer part

/-- A bit of DEVREADY (R351). -/
def Sys.ready (s : Sys) (bit : Nat) : Bool := s.device.devReady.getLsbD bit

/-- Is the memory behind a physical address present (R230, R351)? HBM stack PA[14:12] holds the 4 KiB block (R231).
DESIGN CHOICE: second-tier memory is present once all sixteen channels are, since the spec places no block on a channel, and a
peer part's memory is (log 37). -/
def Sys.memReady (s : Sys) (pa : Nat) : Bool :=
  match s.region pa with
  | .firstTier => s.ready (2 + natBits pa 14 12)
  | .secondTier => (List.range 16).all fun c => s.ready (10 + c)
  | .scratchpad t => s.ready (26 + t)
  | .host => s.ready 0
  | .peer _ | .invalid => true

/-- The size of the poison unit at a physical address (R243): 8 bytes in a scratchpad, 32 in the other memories. -/
def poisonUnit (pa : Nat) : Nat :=
  match offsetRegion (pa % 2 ^ 43) with
  | .scratchpad _ => 8
  | _ => 32

/-- The base of the poison unit of a byte. -/
def poisonBase (pa : Nat) : Nat := pa - pa % poisonUnit pa

/-- Is the byte in a poisoned unit? -/
def Phys.poisoned (p : Phys) (pa : Nat) : Bool := NatSet.has p.poison (poisonBase pa)

/-- One byte. -/
def Phys.byte (p : Phys) (pa : Nat) : Byte := p.mem.byte pa

/-- The number that `n` bytes hold from an address on (R9). -/
def Phys.num (p : Phys) (pa : Nat) : Nat → Nat
  | 0 => 0
  | n + 1 => (p.byte pa).toNat + 256 * Phys.num p (pa + 1) n

/-- Is one of `n` bytes poisoned? -/
def Phys.anyPoison (p : Phys) (pa n : Nat) : Bool := (List.range n).any fun i => p.poisoned (pa + i)

namespace Tx

variable {o : Phys}

/-- Bytes stored one after another, whatever their poison. -/
def raw (t : Tx o) (pa : Nat) : List Byte → Tx o
  | [] => t
  | b :: bs => raw (t.byte pa b) (pa + 1) bs

/-- A store of consecutive bytes under the rules of poison (R154 (b), R244 (d)): a unit that the store covers whole loses
its poison; a part of a poisoned unit is discarded. -/
def store (t : Tx o) (pa : Nat) (bs : List Byte) : Tx o :=
  let n := bs.length
  let units := (List.range n).map (fun i => poisonBase (pa + i))
  let whole := fun u => decide (pa ≤ u) && decide (u + poisonUnit u ≤ pa + n)
  let t1 := units.foldl (fun t u => if whole u && NatSet.has t.phys.poison u then t.mark u false else t) t
  (List.range n).foldl (fun t i => if t.phys.poisoned (pa + i) then t else t.byte (pa + i) (bs.getD i 0)) t1

/-- A number of `n` bytes stored (R9). -/
def storeNum (t : Tx o) (pa n x : Nat) : Tx o := t.store pa (natToBytes n x)

/-- Every poison unit of `n` bytes marked (R244 (b), R245). -/
def poisonBytes (t : Tx o) (pa n : Nat) : Tx o :=
  (List.range n).foldl (fun t i => t.mark (poisonBase (pa + i)) true) t

end Tx

/-! ## Translation -/

/-- The end of a walk (R237, R238). -/
inductive Walk where
  /-- the physical address -/
  | ok (pa : Nat)
  | notPresent
  | error
  | notPermitted
  /-- the address is invalid by R230 -/
  | invalid
  /-- a memory that the access needs is not ready (R230, R351) -/
  | held
deriving DecidableEq, Repr

/-- The address of an ASID's entry in the context table (R234, R319); none while the table is not set. DESIGN CHOICE: a base that names an address
outside own first-tier memory is used as it stands (log 150). -/
def Sys.contextEntry (s : Sys) (asid : Nat) : Option Nat :=
  let base := natBits s.device.globals.toNat 51 12 * 4096
  if base == 0 then none else some (base + 32 * asid)

/-- Does the reading of an ASID's entry wait for a memory? -/
def Sys.contextHeld (s : Sys) (asid : Nat) : Bool := (s.contextEntry asid).any fun a => !s.memReady a

/-- The entry of an ASID in the context table (R234), if the table is set and the entry valid with zero reserved bits. -/
def asidEntry (p : Phys) (s : Sys) (asid : Nat) : Option Nat :=
  match s.contextEntry asid with
  | none => none
  | some a =>
    let e := p.num a 32
    if natBit e 0 && natBits e 11 1 == 0 && natBits e 63 52 == 0 && natBits e 75 65 == 0 && natBits e 127 116 == 0
        && natBits e 139 129 == 0 && natBits e 255 180 == 0 then some e else none

/-- Does an address lie in first-tier memory of the own part? -/
def Sys.ownFirstTier (s : Sys) (pa : Nat) : Bool := s.region pa == .firstTier

/-- The bytes that a leaf maps, by level and RUN (R235). -/
def leafSize (level : Nat) (run : Bool) : Nat :=
  match level with
  | 0 => 2 ^ 12
  | 1 => if run then 2 ^ 21 else 2 ^ 16
  | 2 => if run then 2 ^ 30 else 2 ^ 25
  | _ => 2 ^ 34

/-- The index of a VA at a level (R235). -/
def levelIndex (level va : Nat) : Nat :=
  match level with
  | 0 => natBits va 15 12
  | 1 => natBits va 24 16
  | 2 => natBits va 33 25
  | 3 => natBits va 42 34
  | _ => natBits va 51 43

/-- The walk of the page tables below one table (R236, R237); the level counts down. -/
def walkFrom (p : Phys) (s : Sys) (va : Nat) (table : Nat) : Nat → Walk × Option TlbEntry
  | 0 => (.error, none)
  | n + 1 =>
    let level := n
    let e := p.num (table + 8 * levelIndex level va) 8
    let leaf := natBit e 1
    let run := natBit e 4
    let size := leafSize level run
    let page := natBits e 51 12 * 4096
    let next := natBits e 51 7 * 128
    if !s.memReady (table + 8 * levelIndex level va) then (.held, none)
    else if !natBit e 0 then (.notPresent, none)
    else if natBits e 6 5 != 0 || natBits e 63 52 != 0 then (.error, none)
    else if leaf then
      if level == 4 || natBits e 11 7 != 0 || (run && level != 1 && level != 2) || page % size != 0 then (.error, none)
      else (.ok (page + va % size),
            some { asid := 0, window := false, base := va - va % size, size := size, pa := page, r := natBit e 2, w := natBit e 3 })
    else if level == 0 || natBit e 2 || natBit e 3 || run || (level != 1 && natBits e 11 7 != 0) || !s.ownFirstTier next then
      (.error, none)
    else walkFrom p s va next n

/-- A walk of an ASID's page tables (R237), without the permission check. DESIGN CHOICE: an ASID's entry that after a launch reads V = 0 or has a
reserved bit set gives a translation error (log 149). -/
def walkPage (p : Phys) (s : Sys) (asid va : Nat) : Walk × Option TlbEntry :=
  if s.contextHeld asid then (.held, none)
  else match asidEntry p s asid with
  | none => (.error, none)
  | some e =>
    let root := natBits e 51 12 * 4096
    if 2 ^ 52 ≤ va || !s.ownFirstTier root then (.error, none)
    else match walkFrom p s va root 5 with
      | (w, some t) => (w, some { t with asid := asid })
      | r => r

/-- The tower of a number. -/
def Sys.tower (s : Sys) (t : Nat) : Tower := s.towers.getD t {}

/-- The core of a reference. -/
def Sys.core (s : Sys) (c : CoreRef) : Core := (s.tower c.tower).cores.getD c.core {}

/-- A tower changed. -/
def Sys.setTower (s : Sys) (t : Nat) (f : Tower → Tower) : Sys :=
  { s with towers := (s.towers.zipIdx).map fun x => if x.2 == t then f x.1 else x.1 }

/-- A core changed. -/
def Sys.setCore (s : Sys) (c : CoreRef) (f : Core → Core) : Sys :=
  s.setTower c.tower fun t => { t with cores := (t.cores.zipIdx).map fun x => if x.2 == c.core then f x.1 else x.1 }

/-- A translation of a core's tower (R239 (c), (d)): the core's cache first, then the tower's, then the result of a walk in progress. -/
def findEntry (s : Sys) (c : CoreRef) (hit : TlbEntry → Bool) : Option TlbEntry :=
  match (s.core c).tlb.find? hit with
  | some e => some e
  | none =>
    match (s.tower c.tower).tlb.find? hit with
    | some e => some e
    | none => (s.tower c.tower).walks.find? hit

/-- A page translation of an address that needs no new walk. -/
def cachedPage (s : Sys) (c : CoreRef) (asid va : Nat) : Option TlbEntry :=
  findEntry s c fun e => e.asid == asid && !e.window && decide (e.base ≤ va) && decide (va < e.base + e.size)

/-- A window translation of a window page that needs no new walk. -/
def cachedWindow (s : Sys) (c : CoreRef) (asid page : Nat) : Option TlbEntry :=
  findEntry s c fun e => e.asid == asid && e.window && e.base == page

/-- The permission check and the physical address of a translation (R237, R230). -/
def useEntry (s : Sys) (e : TlbEntry) (va : Nat) (rd wr : Bool) : Walk :=
  if (rd && !e.r) || (wr && !e.w) then .notPermitted
  else
    let pa := e.pa + (va - e.base)
    if s.region pa == .invalid then .invalid else .ok pa

/-- The translation of a virtual address (R237): a cached entry, else a walk. -/
def translate (p : Phys) (s : Sys) (c : CoreRef) (asid va : Nat) (rd wr : Bool) : Walk :=
  match cachedPage s c asid va with
  | some e => useEntry s e va rd wr
  | none =>
    match walkPage p s asid va with
    | (_, some e) => useEntry s e va rd wr
    | (w, none) => w

/-- Where an ASID's entry has the window table of a tower, if it is set (R234). -/
def tableSet (e tower : Nat) : Option Nat :=
  if tower == 0 then (if natBit e 64 then some (natBits e 115 76 * 4096) else none)
  else if natBit e 128 then some (natBits e 179 140 * 4096) else none

/-- Does a window table lie in own first-tier memory, with all of its 512 KiB (R234, R238)? -/
def Sys.tableInside (s : Sys) (base : Nat) : Bool := s.ownFirstTier base && s.ownFirstTier (base + 0x7FFFF)

/-- The window table of an ASID for a tower; none where it is not set or not in own first-tier memory. -/
def windowTable (p : Phys) (s : Sys) (asid tower : Nat) : Option Nat :=
  ((asidEntry p s asid).bind fun e => tableSet e tower).filter s.tableInside

/-- Is a tower's window table of an ASID set, but outside own first-tier memory (R234)? -/
def windowMoved (p : Phys) (s : Sys) (asid tower : Nat) : Bool :=
  ((asidEntry p s asid).bind fun e => tableSet e tower).any fun base => !s.tableInside base

/-- The window table entry of a window page (R238). DESIGN CHOICE: an ASID's entry with V = 0 or a reserved bit set, which R234 judges at the
launch alone, maps no page, and its reading is not logged (log 149). -/
def windowWord (p : Phys) (s : Sys) (asid tower page : Nat) : Option Nat :=
  if 65536 ≤ page then none else (windowTable p s asid tower).map fun base => p.num (base + 8 * page) 8

/-- The page number of a mapped window page (R238); none where it is not mapped. -/
def windowEntry (p : Phys) (s : Sys) (asid tower page : Nat) : Option Nat :=
  match windowWord p s asid tower page with
  | none => none
  | some w => if natBit w 0 && natBits w 12 1 < 3072 && natBits w 63 13 == 0 then some (natBits w 12 1) else none

/-- A record appended to the device error log, which keeps its first 16,383 records (R353). -/
def Sys.logError (s : Sys) (r : LogRecord) : Sys :=
  if s.device.log.length < 16383 then { s with device := { s.device with log := s.device.log ++ [r] } } else s

/-- A window page's entry has been read: one with a page number out of range or a reserved bit set, whatever its V, or in a table that is not in
own first-tier memory, is logged (R234, R238). -/
def Sys.noteWindow (p : Phys) (s : Sys) (asid tower page : Nat) : Sys :=
  match windowWord p s asid tower page with
  | none => if windowMoved p s asid tower then s.logError (.windowEntry asid tower page) else s
  | some w => if 3072 ≤ natBits w 12 1 || natBits w 63 13 != 0 then s.logError (.windowEntry asid tower page) else s

/-- The physical address of a window offset under an ASID, on a core's tower (R238): a cached entry, else a walk. -/
def translateWindow (p : Phys) (s : Sys) (c : CoreRef) (asid off : Nat) : Option Nat :=
  if 2 ^ 32 ≤ off then none
  else
    let ppn := match cachedWindow s c asid (off / 65536) with
      | some e => some e.pa
      | none => windowEntry p s asid c.tower (off / 65536)
    ppn.map fun n => scratchpadBase s.partNo c.tower + n * 65536 + off % 65536

/-- A tower's window without a core's caches: for the sequencer and the Command Processor. -/
def towerWindow (p : Phys) (s : Sys) (asid tower off : Nat) : Option Nat :=
  if 2 ^ 32 ≤ off then none
  else (windowEntry p s asid tower (off / 65536)).map fun n => scratchpadBase s.partNo tower + n * 65536 + off % 65536

/-- A fill of the caches by a successful walk (R239 (f)): the core's 256 entries and the tower's 16,384, the oldest
dropped first. DESIGN CHOICE: the replacement, which is not architectural. -/
def fillTlb (s : Sys) (c : CoreRef) (e : TlbEntry) : Sys :=
  let same := fun (x : TlbEntry) => x.asid == e.asid && x.window == e.window && x.base == e.base
  let s1 := s.setTower c.tower fun t => { t with tlb := (e :: t.tlb.filter fun x => !same x).take 16384 }
  s1.setCore c fun k => { k with tlb := (e :: k.tlb.filter fun x => !same x).take 256 }

/-- A walk that has its result joins the miss queue of the tower, unless it is full (R239 (d), (e)). DESIGN CHOICE: the access that asks for
the walk has its result at once, and the queue keeps the page until the walk ends and fills the caches (log 114). -/
def queueWalk (s : Sys) (c : CoreRef) (e : TlbEntry) : Sys :=
  if 1024 ≤ (s.tower c.tower).walks.length then s else s.setTower c.tower fun t => { t with walks := t.walks ++ [e] }

/-- Is there room in the miss queue for those of the window pages that need a new walk (R239 (e))? -/
def missRoom (s : Sys) (c : CoreRef) (asid : Nat) (pages : List Nat) : Bool :=
  let new := (pages.foldl NatSet.add []).filter fun n => (cachedWindow s c asid n).isNone
  new.isEmpty || decide ((s.tower c.tower).walks.length + new.length ≤ 1024)

/-- Has the miss queue room for one more page? -/
def missFree (s : Sys) (c : CoreRef) : Bool := decide ((s.tower c.tower).walks.length < 1024)

/-- A walk of a window page, if it needs one. -/
def fillWindow (p : Phys) (s : Sys) (c : CoreRef) (asid page : Nat) : Sys :=
  match cachedWindow s c asid page with
  | some _ => s
  | none =>
    match windowEntry p s asid c.tower page with
    | some n => queueWalk s c { asid := asid, window := true, base := page, size := 1, pa := n }
    | none => s.noteWindow p asid c.tower page

/-- A walk of a page, if it needs one. -/
def fillPage (p : Phys) (s : Sys) (c : CoreRef) (asid va : Nat) : Sys :=
  match cachedPage s c asid va with
  | some _ => s
  | none =>
    match walkPage p s asid va with
    | (_, some e) => queueWalk s c e
    | (_, none) => s

/-- The end of a walk (R239 (f)): it leaves the queue, and its result fills the caches. -/
def endWalk (s : Sys) (c : CoreRef) (asid : Nat) (window : Bool) (a : Nat) : Sys :=
  let mine := fun (e : TlbEntry) => e.asid == asid && e.window == window && decide (e.base ≤ a) && decide (a < e.base + e.size)
  match (s.tower c.tower).walks.find? mine with
  | some e => fillTlb (s.setTower c.tower fun t => { t with walks := t.walks.filter fun x => x != e }) c e
  | none => s

end Sys2Proof.Machine
end

