-- ==== Sys2Proof/Machine/Sha3.lean ====
section
/-! DEFINITION. The digests of the part (FIPS 202): SHA3-512, of the measurement log, of the identity key and of a quote (R329, R355, R356),
and the two extendable-output functions from which the identity key and its signatures are formed (R356). PRESUMED: the spec names the
standards and the algorithms are taken from them (log 113). The 1,600 bits are 25 lanes of 64, lane (x, y) at place x + 5 y. -/

namespace Sys2Proof.Machine

/-- The state of the permutation, lane by lane. -/
abbrev Lanes := List DWord

/-- The lane at (x, y), both modulo 5. -/
def Lanes.cell (a : Lanes) (x y : Nat) : DWord := a.getD (x % 5 + 5 * (y % 5)) 0

/-- The exclusive or of the column x. -/
def Lanes.parity (a : Lanes) (x : Nat) : DWord := (List.range 5).foldl (fun p y => p ^^^ a.cell x y) 0

/-- θ: every lane takes in the parities of the columns beside its own. -/
def Lanes.mix (a : Lanes) : Lanes :=
  let ds := (List.range 5).map fun x => a.parity (x + 4) ^^^ (a.parity (x + 1)).rotateLeft 1
  a.zipIdx.map fun v => v.1 ^^^ ds.getD (v.2 % 5) 0

/-- ρ and π in one walk from (1, 0): at step t the lane at (x, y) is turned by (t + 1) (t + 2) / 2 places and moved to (y, 2 x + 3 y), where
the walk goes on. `b` is what the walk has placed; (0, 0) stays. -/
def Lanes.walk (a : Lanes) : Nat → Nat → Nat → Nat → Lanes → Lanes
  | 0, _, _, _, b => b
  | n + 1, t, x, y, b =>
    let z := (2 * x + 3 * y) % 5
    a.walk n (t + 1) y z (b.set (y + 5 * z) ((a.cell x y).rotateLeft ((t + 1) * (t + 2) / 2 % 64)))

/-- χ: every lane against the two that follow it in its row. -/
def Lanes.blend (a : Lanes) : Lanes := a.zipIdx.map fun v => v.1 ^^^ (~~~a.cell (v.2 + 1) (v.2 / 5) &&& a.cell (v.2 + 2) (v.2 / 5))

/-- One step of the shift register of ι, by the polynomial x^8 + x^6 + x^5 + x^4 + 1. -/
def shiftRegister (r : Nat) : Nat := if 128 ≤ r then (2 * r) ^^^ 0x171 else 2 * r

/-- The seven bits that the register gives a round, each at a place 2^j - 1, and the register after them. -/
def roundConstant (r : Nat) : Nat × Nat :=
  (List.range 7).foldl (fun x j => (x.1 + x.2 % 2 * 2 ^ (2 ^ j - 1), shiftRegister x.2)) (0, r)

/-- The rounds of the permutation that are left; `r` is the shift register. -/
def Lanes.rounds : Nat → Nat → Lanes → Lanes
  | 0, _, a => a
  | n + 1, r, a =>
    let k := roundConstant r
    let m := a.mix
    let b := (m.walk 24 0 1 0 m).blend
    Lanes.rounds n k.2 (b.set 0 (b.cell 0 0 ^^^ BitVec.ofNat 64 k.1))

/-- The permutation of 24 rounds. -/
def Lanes.permute (a : Lanes) : Lanes := Lanes.rounds 24 1 a

/-- The bytes of a state. -/
def Lanes.bytes (a : Lanes) : List Byte := a.flatMap fun v => natToBytes 8 v.toNat

/-- A block of bytes taken into a state, and permuted. -/
def Lanes.absorb (a : Lanes) (block : List Byte) : Lanes :=
  Lanes.permute (a.zipIdx.map fun v => v.1 ^^^ BitVec.ofNat 64 (bytesToNat ((block.drop (8 * v.2)).take 8)))

/-- `n` blocks of `rate` bytes taken in. -/
def Lanes.absorbAll (rate : Nat) : Nat → List Byte → Lanes → Lanes
  | 0, _, a => a
  | n + 1, bs, a => Lanes.absorbAll rate n (bs.drop rate) (a.absorb (bs.take rate))

/-- `n` blocks of `rate` bytes given out. -/
def Lanes.squeeze (rate : Nat) : Nat → Lanes → List Byte
  | 0, _ => []
  | n + 1, a => a.bytes.take rate ++ Lanes.squeeze rate n a.permute

/-- A message, the domain bits with the first 1 of the padding, zeros, and the last 1 of the padding in the block's last bit. -/
def padded (rate domain : Nat) (bs : List Byte) : List Byte :=
  let n := bs.length / rate + 1
  natToBytes (n * rate) (bytesToNat bs + domain * 256 ^ bs.length + 128 * 256 ^ (n * rate - 1))

/-- The sponge: `blocks` blocks of output for a message. -/
def sponge (rate domain blocks : Nat) (bs : List Byte) : List Byte :=
  let m := padded rate domain bs
  Lanes.squeeze rate blocks (Lanes.absorbAll rate (m.length / rate) m (List.replicate 25 0))

/-- SHA3-512 of a message, its byte 0 in the low bits. -/
def sha3 (bs : List Byte) : BitVec 512 := BitVec.ofNat 512 (bytesToNat ((sponge 72 6 1 bs).take 64))

/-- `n` bytes of SHAKE128. -/
def shake128 (bs : List Byte) (n : Nat) : List Byte := (sponge 168 0x1F ((n + 167) / 168) bs).take n

/-- `n` bytes of SHAKE256. -/
def shake256 (bs : List Byte) (n : Nat) : List Byte := (sponge 136 0x1F ((n + 135) / 136) bs).take n

/-- The digest of a firmware image (R329 (a)). -/
def imageDigest (image : Nat) : BitVec 512 := sha3 (Config.imageBytes image)

/-- The digest of the boot ROM (R356). -/
def bootRomDigest : BitVec 512 := sha3 Config.bootRom

/-- SERIAL (R355): never zero. -/
def serialNumber : DWord := if Config.serial == 0 then 1 else Config.serial

end Sys2Proof.Machine
end

