-- ==== Sys2Proof/Machine/MlDsa.lean ====
section
/-! DEFINITION. The identity key pair and its signatures (R355, R356), and the verification of firmware (R329): ML-DSA-87 of FIPS 204. PRESUMED: the spec names the standard and the
algorithm is taken from it (log 102). A polynomial is the list of its 256 coefficients, lowest power first, each reduced modulo
q = 8,380,417; the number-theoretic transform is written as what it is, the values of the polynomial at the odd powers of 1,753. -/

namespace Sys2Proof.Machine

/-- The modulus. -/
def dsaQ : Nat := 8380417

/-- A polynomial modulo x^256 + 1. -/
abbrev Poly := List Nat

/-- A residue as the integer nearest to zero. -/
def centred (q x : Nat) : Int := if x ≤ q / 2 then (x : Int) else (x : Int) - q

/-- The residue of an integer. -/
def residue (x : Int) : Nat := (x % dsaQ).toNat

/-- Two polynomials combined place by place. -/
def Poly.with (f : Nat → Nat → Nat) (p r : Poly) : Poly := List.zipWith (fun x y => f x y % dsaQ) p r

/-- The sum. -/
def Poly.add (p r : Poly) : Poly := p.with (· + ·) r

/-- The difference. -/
def Poly.sub (p r : Poly) : Poly := p.with (fun x y => x + (dsaQ - y)) r

/-- The zero polynomial. -/
def Poly.zero : Poly := List.replicate 256 0

/-- The value of a polynomial at a point. -/
def Poly.value (p : Poly) (x : Nat) : Nat := p.foldr (fun c v => (v * x + c) % dsaQ) 0

/-- The power 1,753^e; 1,753 has order 512. -/
def rootPower (e : Nat) : Nat := 1753 ^ (e % 512) % dsaQ

/-- The eight bits of `i` in the opposite order. -/
def bitsReversed (i : Nat) : Nat := (List.range 8).foldl (fun v j => 2 * v + i / 2 ^ j % 2) 0

/-- The transform of a polynomial. -/
def Poly.ntt (p : Poly) : Poly := (List.range 256).map fun i => p.value (rootPower (2 * bitsReversed i + 1))

/-- The polynomial of a transform; 8,347,681 is the inverse of 256. -/
def Poly.nttInverse (p : Poly) : Poly :=
  let r : Poly := (List.range 256).map fun i => p.getD (bitsReversed i) 0
  (List.range 256).map fun j => rootPower (511 * j) * r.value (rootPower (510 * j)) % dsaQ * 8347681 % dsaQ

/-- The product of a row of transforms with a column of them. -/
def dotProduct (row col : List Poly) : Poly :=
  (List.zipWith (fun p r => p.with (· * ·) r) row col).foldl Poly.add Poly.zero

/-- Numbers of `width` bits each, packed one behind the other, the first in the lowest bits. -/
def packBits (width : Nat) (xs : List Nat) : List Byte :=
  natToBytes (width * xs.length / 8) (xs.foldr (fun x v => v * 2 ^ width + x) 0)

/-- The numbers of `width` bits that bytes hold. -/
def unpackBits (width n : Nat) (bs : List Byte) : List Nat :=
  let v := bytesToNat bs
  (List.range n).map fun i => v / 2 ^ (width * i) % 2 ^ width

/-! ## Sampling -/

/-- A polynomial of the public matrix, in the transformed domain: of three bytes at a time, 23 bits that are below q. -/
def samplePublic (seed : List Byte) : Poly :=
  let cs := (unpackBits 24 336 (shake128 seed 1008)).map (· % 2 ^ 23)
  (cs.filter (· < dsaQ)).take 256

/-- A secret polynomial, coefficients from -2 to 2: of every half-byte below 15, 2 less its residue modulo 5. -/
def sampleSecret (seed : List Byte) : Poly :=
  let cs := (unpackBits 4 1088 (shake256 seed 544)).filter (· < 15)
  (cs.take 256).map fun c => residue (2 - (c % 5 : Nat))

/-- A polynomial of the mask, of 20 bits a coefficient. -/
def sampleMask (seed : List Byte) : Poly := (unpackBits 20 256 (shake256 seed 640)).map fun c => residue (2 ^ 19 - (c : Nat))

/-- The challenge: 60 coefficients 1 or -1. `i` is the place that takes part next, `signs` the sign bits that are left. -/
def sampleBall : List Byte → Nat → Nat → Poly → Poly
  | [], _, _, c => c
  | b :: bs, i, signs, c =>
    if 256 ≤ i then c
    else if i < b.toNat then sampleBall bs i signs c
    else sampleBall bs (i + 1) (signs / 2) ((c.set i (c.getD b.toNat 0)).set b.toNat (if signs % 2 == 1 then dsaQ - 1 else 1))

/-- The challenge that a commitment hash gives. -/
def challenge (commitment : List Byte) : Poly :=
  let bs := shake256 commitment 272
  sampleBall (bs.drop 8) 196 (bytesToNat (bs.take 8)) Poly.zero

/-! ## Rounding -/

/-- The high part of a coefficient: it over 2^13, rounded with halves down. -/
def keyHigh (x : Nat) : Nat := (x + 2 ^ 12 - 1) / 2 ^ 13

/-- The low part that leaves. -/
def keyLow (x : Nat) : Int := (x : Int) - (keyHigh x * 2 ^ 13 : Nat)

/-- The high part of a coefficient: the multiple of 523,776 nearest to it, of which there are 16, q - 1 counting as 0. -/
def maskHigh (x : Nat) : Nat := (x + 261887) / 523776 % 16

/-- The low part that leaves. -/
def maskLow (x : Nat) : Int :=
  let h := (x + 261887) / 523776
  if h == 16 then (x : Int) - dsaQ else (x : Int) - (h * 523776 : Nat)

/-- The largest magnitude of a list of integers. -/
def largest (xs : List Int) : Nat := xs.foldl (fun m x => max m x.natAbs) 0

/-! ## The keys -/

/-- A key pair: the public seed, the private seed, the secret polynomials, and the sum of which the public key holds the high part. -/
structure DsaKey where
  rho : List Byte
  key : List Byte
  s1  : List Poly
  s2  : List Poly
  t   : List Poly
deriving DecidableEq, Repr

/-- The public matrix, eight rows of seven transforms. -/
def publicMatrix (rho : List Byte) : List (List Poly) :=
  (List.range 8).map fun r => (List.range 7).map fun s => samplePublic (rho ++ [BitVec.ofNat 8 s, BitVec.ofNat 8 r])

/-- A column multiplied by the matrix. -/
def applyMatrix (m : List (List Poly)) (v : List Poly) : List Poly :=
  let c := v.map Poly.ntt
  m.map fun row => (dotProduct row c).nttInverse

/-- The key pair of a seed of 32 bytes (R356). -/
def dsaKey (seed : List Byte) : DsaKey :=
  let h := shake256 (seed ++ [8, 7]) 128
  let secret := fun r => sampleSecret ((h.drop 32).take 64 ++ natToBytes 2 r)
  let s1 := (List.range 7).map secret
  let s2 := (List.range 8).map fun r => secret (r + 7)
  let rho := h.take 32
  { rho := rho, key := h.drop 96, s1 := s1, s2 := s2, t := List.zipWith Poly.add (applyMatrix (publicMatrix rho) s1) s2 }

/-- The encoded public key, 2,592 bytes. -/
def DsaKey.encoded (k : DsaKey) : List Byte := k.rho ++ k.t.flatMap fun p => packBits 10 (p.map keyHigh)

/-! ## Signing -/

/-- What one attempt multiplies: the matrix and the transformed secrets. -/
structure DsaWork where
  matrix : List (List Poly)
  s1  : List Poly
  s2  : List Poly
  low : List Poly
deriving DecidableEq, Repr

/-- The places of the hints, row by row, padded to 75, and where each row's places end. -/
def packHints (hs : List (List Bool)) : List Byte :=
  let rows := hs.map fun h => (h.zipIdx.filter (·.1)).map fun v => BitVec.ofNat 8 v.2
  let places := rows.flatten
  places ++ List.replicate (75 - places.length) 0 ++
    (List.range 8).map fun i => BitVec.ofNat 8 ((rows.take (i + 1)).map List.length).sum

/-- One attempt at a signature of the message representative `mu`, with the mask of number `n`: none where it is rejected. -/
def attempt (w : DsaWork) (mu mask : List Byte) (n : Nat) : Option (List Byte) :=
  let y := (List.range 7).map fun r => sampleMask (mask ++ natToBytes 2 (n + r))
  let v := applyMatrix w.matrix y
  let commitment := shake256 (mu ++ v.flatMap fun p => packBits 4 (p.map maskHigh)) 64
  let c := (challenge commitment).ntt
  let times := fun (p : Poly) => (c.with (· * ·) p).nttInverse
  let z := List.zipWith Poly.add y (w.s1.map times)
  let r := List.zipWith Poly.sub v (w.s2.map times)
  let e := w.low.map times
  let u := List.zipWith Poly.add r e
  let hs := List.zipWith (List.zipWith fun x y => maskHigh x != maskHigh y) u r
  if 2 ^ 19 - 120 ≤ largest (z.flatten.map (centred dsaQ)) || 261888 - 120 ≤ largest (r.flatten.map maskLow) ||
      261888 ≤ largest (e.flatten.map (centred dsaQ)) || 75 < (hs.flatten.filter id).length then none
  else some (commitment ++ (z.flatMap fun p => packBits 20 (p.map fun x => (2 ^ 19 - centred dsaQ x).toNat)) ++ packHints hs)

/-- The attempts that are left: none succeeds where all are rejected. -/
def attempts (w : DsaWork) (mu mask : List Byte) : Nat → Nat → Option (List Byte)
  | 0, _ => none
  | n + 1, k =>
    match attempt w mu mask k with
    | some x => some x
    | none => attempts w mu mask n (k + 7)

/-- The signature of a message, 4,627 bytes, with an empty context and the 32 random bytes of a hedged signing; none after the 814
rejections that FIPS 204 lets a signer stop at. -/
def DsaKey.sign (k : DsaKey) (message random : List Byte) : Option (List Byte) :=
  let mu := shake256 (shake256 k.encoded 64 ++ [0, 0] ++ message) 64
  let w : DsaWork := { matrix := publicMatrix k.rho, s1 := k.s1.map Poly.ntt, s2 := k.s2.map Poly.ntt,
                       low := k.t.map fun p => Poly.ntt (p.map fun x => residue (keyLow x)) }
  attempts w mu (shake256 (k.key ++ random ++ mu) 64) 814 0

/-! ## Verifying -/

/-- The places of one row of hints between two positions, if they ascend. -/
def hintRow (bs : List Byte) (first last : Nat) : Option (List Nat) :=
  let xs := ((bs.drop first).take (last - first)).map BitVec.toNat
  if (List.range (xs.length - 1)).all fun i => xs.getD i 0 < xs.getD (i + 1) 0 then some xs else none

/-- The places of the hints, row by row; none where the 83 bytes are no encoding of hints. -/
def unpackHints (bs : List Byte) : Option (List (List Nat)) :=
  let ends := 0 :: (bs.drop 75).map BitVec.toNat
  let rows := (List.range 8).map fun i => (ends.getD i 0, ends.getD (i + 1) 0)
  if rows.any (fun r => r.2 < r.1 || 75 < r.2) || ((bs.take 75).drop (ends.getD 8 0)).any (· != 0) then none
  else rows.mapM fun r => hintRow bs r.1 r.2

/-- The high part of a coefficient, moved by one where a hint stands at its place. -/
def useHint (hints : List Nat) (place x : Nat) : Nat :=
  if !hints.contains place then maskHigh x
  else if 0 < maskLow x then (maskHigh x + 1) % 16
  else (maskHigh x + 15) % 16

/-- Does a signature of a message verify under an encoded public key, with an empty context? -/
def dsaVerify (key message signature : List Byte) : Bool :=
  let t := (List.range 8).map fun i => (unpackBits 10 256 ((key.drop (32 + 320 * i)).take 320)).map fun x => x * 2 ^ 13 % dsaQ
  let commitment := signature.take 64
  let z := (List.range 7).map fun i => (unpackBits 20 256 ((signature.drop (64 + 640 * i)).take 640)).map fun c => residue (2 ^ 19 - (c : Nat))
  match unpackHints (signature.drop 4544) with
  | none => false
  | some hs =>
    let mu := shake256 (shake256 key 64 ++ [0, 0] ++ message) 64
    let c := (challenge commitment).ntt
    let w := List.zipWith (fun p r => Poly.sub p (c.with (· * ·) (Poly.ntt r)).nttInverse) (applyMatrix (publicMatrix (key.take 32)) z) t
    let highs := List.zipWith (fun p h => p.zipIdx.map fun x => useHint h x.2 x.1) w hs
    key.length == 2592 && signature.length == 4627 && decide (largest (z.flatten.map (centred dsaQ)) < 2 ^ 19 - 120) &&
      commitment == shake256 (mu ++ highs.flatMap (packBits 4)) 64

/-- The boot ROM's verdict on a firmware image (R329 (a), (b)): its key has the fused hash, and its signature over the image's digest verifies
under that key. PRESUMED: the fused hash is SHA3-512, and the message is the digest's 64 bytes with an empty context (log 102). -/
def imageVerifies (image : Nat) : Bool :=
  sha3 (Config.imageKey image) == Config.firmwareKeyHash &&
    dsaVerify (Config.imageKey image) (natToBytes 64 (imageDigest image).toNat) (Config.imageSignature image)

/-! ## The identity of the part (R355, R356) -/

/-- The identity key pair, derived from the fused seed (R356). -/
def identityKey : DsaKey := dsaKey (natToBytes 32 Config.seed.toNat)

/-- The 2,592 bytes of the identity public key (R355). -/
def publicKeyBytes : List Byte := identityKey.encoded

/-- KEYHASH (R355). -/
def keyHash : BitVec 512 := sha3 publicKeyBytes

/-- The signature that a quote places (R356): of the 64 bytes of a digest, with 32 random bytes. -/
def quoteSignature (digest : BitVec 512) (random : List Byte) : List Byte :=
  (identityKey.sign (natToBytes 64 digest.toNat) random).getD []

end Sys2Proof.Machine
end

