-- ==== Sys2Proof/Machine/Access.lean ====
section
/-! DEFINITION. Accessors of the state's parts: blocks, warps, sweeps, runs, queues and packets; fresh numbers; MSI-X and
the device error log. -/

namespace Sys2Proof.Machine

/-! ## Blocks and warps -/

/-- A resident block by its number. -/
def Sys.block (s : Sys) (id : Nat) : Option Block := s.blocks.find? fun b => b.id == id

/-- A block changed. -/
def Sys.setBlock (s : Sys) (id : Nat) (f : Block → Block) : Sys :=
  { s with blocks := updateWhere (fun b => b.id == id) f s.blocks }

/-- The core of a block. -/
def Block.coreRef (b : Block) : CoreRef := { tower := b.tower, core := b.core }

/-- The blocks on a core. -/
def Sys.coreBlocks (s : Sys) (c : CoreRef) : List Block := s.blocks.filter fun b => b.coreRef == c

/-- A warp of a block by its rank. -/
def Block.warp (b : Block) (r : Nat) : Option Warp := b.warps.find? fun w => w.rank == r

/-- A block with a warp changed. -/
def Block.setWarp (b : Block) (r : Nat) (f : Warp → Warp) : Block :=
  { b with warps := updateWhere (fun w => w.rank == r) f b.warps }

/-- A resident warp. -/
def Sys.warp (s : Sys) (w : WarpRef) : Option Warp := (s.block w.block).bind fun b => b.warp w.rank

/-- A warp changed. -/
def Sys.setWarp (s : Sys) (w : WarpRef) (f : Warp → Warp) : Sys := s.setBlock w.block fun b => b.setWarp w.rank f

/-- A slot of a warp. -/
def Warp.slot (w : Warp) (z : SlotId) : PcSlot := match z with | .A => w.slotA | .B => w.slotB

/-- The other slot's name. -/
def otherSlot (z : SlotId) : SlotId := match z with | .A => .B | .B => .A

/-- A warp with a slot changed. -/
def Warp.setSlot (w : Warp) (z : SlotId) (f : PcSlot → PcSlot) : Warp :=
  match z with
  | .A => { w with slotA := f w.slotA }
  | .B => { w with slotB := f w.slotB }

/-- An outstanding instruction of a warp. -/
def Warp.op (w : Warp) (id : Nat) : Option Op := w.ops.find? fun x => x.id == id

/-- The flags cleared in this cycle, with those of instructions that complete now (R63 (c)). -/
def Warp.cleared (w : Warp) (xs : List Op) : NatSet :=
  xs.foldl (fun l x => match x.flag with | some n => NatSet.add l n | none => l) w.clearing

/-- A warp without an outstanding instruction: its flag, its counter and its store buffer entry are free (R27 to R29). -/
def Warp.dropOp (w : Warp) (id : Nat) : Warp :=
  { w with ops := w.ops.filter fun x => x.id != id
           clearing := w.cleared (w.ops.filter fun x => x.id == id) }

/-- A warp with an outstanding instruction changed. -/
def Warp.setOp (w : Warp) (id : Nat) (f : Op → Op) : Warp := { w with ops := updateWhere (fun x => x.id == id) f w.ops }

/-- Is completion flag `n` set (R27)? -/
def Warp.flagSet (w : Warp) (n : Nat) : Bool := w.ops.any fun x => x.flag == some n

/-- Does a WAIT test or an issue test of this cycle see completion flag `n` set (R63 (c))? A flag that has been cleared in this cycle counts. -/
def Warp.flagSeen (w : Warp) (n : Nat) : Bool := w.flagSet n || NatSet.has w.clearing n

/-- The in-flight counter of a path (R28). -/
def Warp.inFlight (w : Warp) (p : Path) : Nat := (w.ops.filter fun x => x.path == some p).length

/-- Is the instruction a store buffer entry (R29)? -/
def Op.isStore (x : Op) : Bool := match x.body with | .store sp .. => sp != .priv | _ => false

/-- USC, the occupied store buffer entries (R29). -/
def Warp.usc (w : Warp) : Nat := (w.ops.filter Op.isStore).length

/-- The positions of the reconvergence stack that an entry takes (R24). -/
def RsEntry.positions (e : RsEntry) : Nat := match e with | .trap .. => 2 | _ => 1

/-- The positions of a reconvergence stack entry (R25), the lower first. -/
def RsEntry.bits (e : RsEntry) : List Nat :=
  match e with
  | .join pc m => [m.toNat + pc.toNat * 2 ^ 64 + 1 * 2 ^ 114]
  | .loop pc m => [m.toNat + pc.toNat * 2 ^ 64 + 2 * 2 ^ 114]
  | .pend pc m => [m.toNat + pc.toNat * 2 ^ 64 + 3 * 2 ^ 114]
  | .trap m pc r cause after dist =>
    [m.toNat + pc.toNat * 2 ^ 64 + 4 * 2 ^ 114,
     r.toNat + cause.toNat * 2 ^ 64 + after * 2 ^ 72 + dist * 2 ^ 78 + 5 * 2 ^ 114]

/-- A warp with its stack replaced: a position whose contents change is written, and a write of a whole poison unit clears its
poison (R244 (d)). -/
def Warp.withRs (w : Warp) (rs : List RsEntry) : Warp :=
  let old := w.rs.flatMap RsEntry.bits
  let new := rs.flatMap RsEntry.bits
  { w with rs := rs, rsPoison := w.rsPoison.filter fun k => decide (k ≤ new.length) && old[k - 1]? == new[k - 1]? }

/-- RSP, positions in use (R20). -/
def Warp.rsp (w : Warp) : Nat := (w.rs.map RsEntry.positions).sum

/-- The rule of `.rel` and FENCE: every in-flight counter is 0 and USC = 0 (R159 (a), R160). -/
def Warp.drained (w : Warp) : Bool :=
  w.ops.all fun x => x.path == none && !x.isStore

/-- The warp has exited: both slots invalid, the stack empty (R23), and its outstanding work done (R107). -/
def Warp.exited (w : Warp) : Bool := !w.slotA.valid && !w.slotB.valid && w.rs.isEmpty && w.ops.isEmpty

/-! ## Fresh numbers -/

/-- The next unused number, and the state that has used it. -/
def Sys.next (s : Sys) : Nat × Sys := (s.fresh, { s with fresh := s.fresh + 1 })

/-! ## Sweeps -/

/-- A sweep by its id. -/
def Sys.sweep (s : Sys) (id : Nat) : Option Sweep := s.sweeps.find? fun x => x.id == id

/-- A sweep changed. -/
def Sys.setSweep (s : Sys) (id : Nat) (f : Sweep → Sweep) : Sys :=
  { s with sweeps := updateWhere (fun x => x.id == id) f s.sweeps }

/-- A node of a sweep. -/
def Sweep.node (w : Sweep) (n : Nat) : Option Node := w.nodes.find? fun x => x.index == n

/-- A sweep with a node changed. -/
def Sweep.setNode (w : Sweep) (n : Nat) (f : Node → Node) : Sweep :=
  { w with nodes := updateWhere (fun x => x.index == n) f w.nodes }

/-- A node's run at a stage. -/
def Sweep.run (w : Sweep) (stage n : Nat) : Run :=
  (w.runs.find? fun r => r.node == n && r.stage == stage).getD { node := n, stage := stage }

/-- A sweep with a run changed. -/
def Sweep.setRun (w : Sweep) (stage n : Nat) (f : Run → Run) : Sweep :=
  { w with runs := updateWhere (fun r => r.node == n && r.stage == stage) f w.runs }

/-- The child indexes of a node (R250). -/
def Node.children (n : Node) : List Nat := (List.range n.count).map (n.first + ·)

/-- The children of a node by index. -/
def Sweep.children (w : Sweep) (n : Nat) : List Nat :=
  match w.node n with
  | some x => x.children
  | none => []

/-- The window offset of a drawer slot (R251). -/
def Sweep.drawerOffset (w : Sweep) (stage slot : Nat) : Nat := w.shelf + (stage * w.cap + slot) * w.drawerSize

/-- The window offset of the drawer that a run holds. DESIGN CHOICE: once R253 has freed it, of the drawer that it had: a node that a TIGHTEN runs
again names it still as an input, with what it then holds (log 147). -/
def Sweep.drawerOf (w : Sweep) (stage n : Nat) : Option Nat :=
  let r := w.run stage n
  (r.drawer.orElse fun _ => r.place).map (w.drawerOffset stage)

/-! ## Queues and packets -/

/-- A queue. -/
def Sys.queue (s : Sys) (q : Nat) : Queue := s.queues.getD q {}

/-- A queue changed. -/
def Sys.setQueue (s : Sys) (q : Nat) (f : Queue → Queue) : Sys :=
  { s with queues := (s.queues.zipIdx).map fun x => if x.2 == q then f x.1 else x.1 }

/-- A field of a queue's register block (R320). -/
def Queue.field (q : Queue) (hi lo : Nat) : Nat := natBits q.regs.toNat hi lo

/-- A queue with a field of its register block replaced. -/
def Queue.setField (q : Queue) (hi lo x : Nat) : Queue :=
  let w := hi - lo + 1
  let old := q.regs.toNat
  { q with regs := BitVec.ofNat 512 (old - natBits old hi lo * 2 ^ lo + (x % 2 ^ w) * 2 ^ lo) }

/-- A packet by its number. -/
def Sys.packet (s : Sys) (id : Nat) : Option Packet := s.packets.find? fun x => x.id == id

/-- A packet changed. -/
def Sys.setPacket (s : Sys) (id : Nat) (f : Packet → Packet) : Sys :=
  { s with packets := updateWhere (fun x => x.id == id) f s.packets }

/-! ## The device -/

/-- Is the part in recovery (R329): the image that the boot ROM judged has failed verification? -/
def Device.recovery (d : Device) : Bool := !(d.bootedWhole && imageVerifies d.booted)

/-- An MSI-X vector made pending (R326). -/
def Sys.raise (s : Sys) (v : Nat) : Sys := { s with device := { s.device with msix := NatSet.add s.device.msix v } }

/-- Can an access to a physical address be made (R183, R230, R341, R349)? -/
inductive Reach where
  | ok
  /-- held until the function is ready -/
  | held
  | invalid
  /-- the part is EVICTED on the local board -/
  | evicted
deriving DecidableEq, Repr

/-- Is a part marked EVICTED on the local board (R341)? -/
def Sys.evicted (s : Sys) (part : Nat) : Bool :=
  s.market.board.any fun e => e.stall == Config.stallOfPart part && e.state == .evicted

/-- Does a host completion that comes with EP set or with error status hold one of `n` bytes (R245)? Its whole payload is poisoned. -/
def Sys.hostBad (s : Sys) (pa n : Nat) : Bool :=
  s.inputs.hostErrors.any fun x => s.region pa == .host && decide (pa < x.1 + x.2) && decide (x.1 < pa + n)

/-- A read that a bad host completion answers is an error event, and is logged (R303). -/
def Sys.noteHost (s : Sys) (pa n : Nat) : Sys := if s.hostBad pa n then s.logError (.host pa n) else s

/-- A read of the bytes at some addresses that a bad host completion answers, logged once (R303). -/
def Sys.noteHostAt (s : Sys) (pas : List Nat) : Sys :=
  match pas.find? fun a => s.hostBad a 1 with
  | some a => s.noteHost a 1
  | none => s

/-- How an access fares on its way (R183, R230, R231, R349, R351): a part that does not answer, or a route with a port down, makes it
invalid. -/
def Sys.route (s : Sys) (pa : Nat) : Reach :=
  match s.region pa with
  | .invalid => .invalid
  | .peer part =>
    let port := Config.routePort part
    if s.inputs.silent.contains part || NatSet.has s.device.portDown port then .invalid
    else if s.ready (28 + port) then .ok else .held
  | _ => if s.memReady pa then .ok else .held

/-- How an access of a card fares: a part marked EVICTED stands before its route (R341). -/
def Sys.reach (s : Sys) (pa : Nat) : Reach :=
  match s.region pa with
  | .peer part => if s.evicted part then .evicted else s.route pa
  | _ => s.route pa

/-- The own state on the board (R331). -/
def Market.own (m : Market) : MemberState :=
  match m.board.find? fun e => e.stall == m.stall with
  | some e => e.state
  | none => .none

/-- Is the part a member: ACTIVE, JOINING or LEAVING? -/
def Market.member (m : Market) : Bool :=
  match m.own with
  | .none | .evicted => false
  | _ => true

/-- The local limit (R8, R330, R333, R337, R341). DEDUCED: in no market nothing is posted, and the power, thermal and sensor
codes bound the part at once. -/
def Market.localLimit (m : Market) : Nat :=
  let late := min (m.latePower.getD 188) (m.lateThermal.getD 188)
  let held := if m.lostLimit || m.isolated then 47 else 188
  let codes := if m.member then 188 else min m.power (min m.thermal m.sensor)
  min late (min held codes)

/-- The clock code in force: min(tariff, local limit) (R8). -/
def Sys.clockCode (s : Sys) : Nat := min s.market.tariff s.market.localLimit

/-- FTIME (R20, R333). -/
def Sys.ftime (s : Sys) : DWord :=
  match s.time.state with
  | .unset => 0
  | _ => BitVec.ofNat 64 s.time.count

end Sys2Proof.Machine
end

