-- ==== Sys2Proof/Machine/Admission.lean ====
section
/-! DEFINITION. Need, hold and admission of the Result Shelf (R253, R254, R257), as functions on a launched sweep. -/

namespace Sys2Proof.Machine

/-- DOWN (R249). -/
def Sweep.down (w : Sweep) : Bool := w.dir == 1

/-- The canonical order of a node's children (R253, R254): need − hold descending (need descending in a downward sweep),
ties to the lower index. -/
def Sweep.canonical (w : Sweep) (n : Nat) : List Nat :=
  let key := fun c => match w.node c with
    | some x => if w.down then (x.need : Int) else (x.need : Int) - x.hold
    | none => 0
  sortBy (fun a b => decide (key b < key a) || (key a == key b && decide (a < b))) (w.children n)

/-- own(p): 1 while p's drawer is held (R257). -/
def Run.own (r : Run) : Nat := if r.drawer.isSome then 1 else 0

/-- The pool of a stage (R257). -/
def Sweep.poolAt (w : Sweep) (stage : Nat) : Nat := w.pool.getD stage 0

/-- A sweep with the pool of a stage changed. -/
def Sweep.setPool (w : Sweep) (stage : Nat) (f : Nat → Nat) : Sweep :=
  { w with pool := (w.pool.zipIdx).map fun x => if x.2 == stage then f x.1 else x.1 }

/-- The admission of one child from its parent's reservation or from the pool (R257); none when it must wait. -/
def Sweep.tryChild (w : Sweep) (stage p c : Nat) : Option Sweep :=
  let rp := w.run stage p
  let need := match w.node c with | some x => x.need | none => 0
  let take := fun (src : Source) (v : Sweep) =>
    (v.setRun stage c fun r => { r with state := .admitted, res := need, src := src, charged := 0, next := 0 }).setRun stage p
      fun r => { r with next := r.next + 1, charged := if src == .parent then r.charged + need else r.charged }
  if rp.charged + need + rp.own ≤ rp.res then some (take .parent w)
  else if need ≤ w.poolAt stage then some (take .pool (w.setPool stage (· - need)))
  else none

/-- try (R257) over a list of nodes, with the admitted children tried in their turn in an upward sweep. -/
def Sweep.tryNodes (stage : Nat) : Nat → Sweep → List Nat → Sweep
  | 0, w, _ => w
  | _, w, [] => w
  | fuel + 1, w, p :: rest =>
    match (w.canonical p)[(w.run stage p).next]? with
    | none => Sweep.tryNodes stage fuel w rest
    | some c =>
      match w.tryChild stage p c with
      | none => Sweep.tryNodes stage fuel w rest
      | some v => Sweep.tryNodes stage fuel v (if w.down then p :: rest else c :: p :: rest)

/-- Is try(p) made for this node at this point: admitted in an upward sweep, dispatched in a downward one (R257)? -/
def Sweep.mayTry (w : Sweep) (stage p : Nat) : Bool :=
  match (w.run stage p).state with
  | .notAdmitted => false
  | .admitted => !w.down
  | .dispatched | .retired => true

/-- Every waiting child of a stage tried again after a return of drawers (R257). DESIGN CHOICE: parents that wait for the
pool are tried in ascending node index. -/
def Sweep.retry (w : Sweep) (stage : Nat) : Sweep :=
  Sweep.tryNodes stage (4 * w.nodes.length + 4) w ((w.nodes.map Node.index).filter (w.mayTry stage))

/-- The admission of the root at launch (R257), for every stage. -/
def Sweep.admitRoot (w : Sweep) : Sweep :=
  let need := match w.node w.root with | some x => x.need | none => 0
  let w1 := { w with pool := List.replicate w.stages (w.cap - need) }
  (List.range w.stages).foldl (fun v stage =>
    (v.setRun stage v.root fun r => { r with state := .admitted, res := need, src := .none }).retry stage) w1

/-- finish(c) (R257): the subtree's reservation falls to its hold, and the rest returns. -/
def Sweep.finish (w : Sweep) (stage c : Nat) : Sweep :=
  match w.node c with
  | none => w
  | some x =>
    let r := w.run stage c
    if r.finished then w
    else
      let back := x.need - x.hold
      let w1 := w.setRun stage c fun r => { r with res := x.hold, finished := true }
      match r.src with
      | .none => w1
      | .parent => w1.setRun stage x.parent fun q => { q with charged := q.charged - back }
      | .pool => (w1.setPool stage (· + back)).setRun stage x.parent fun q => { q with borrowed := q.borrowed + x.hold }

/-- A drawer freed (R251); where it lay is kept. -/
def Sweep.freeDrawer (w : Sweep) (stage n : Nat) : Sweep :=
  w.setRun stage n fun r => { r with drawer := none, place := r.drawer.orElse fun _ => r.place }

/-- The drawers that the retire of an upward node frees (R253): its children's, unless it is RETAIN, and those that its
RETAIN children kept. -/
def Sweep.freeUpward (w : Sweep) (stage n : Nat) : Sweep :=
  match w.node n with
  | none => w
  | some x =>
    x.children.foldl (fun v c =>
      let v1 := if x.retain then v else v.freeDrawer stage c
      match v.node c with
      | some y => if y.retain then y.children.foldl (fun u g => u.freeDrawer stage g) v1 else v1
      | none => v1) w

/-- Has a downward node's every child taken or retired (R254)? -/
def Sweep.childrenDone (w : Sweep) (stage n : Nat) : Bool :=
  (w.children n).all fun c => (w.run stage c).taken || (w.run stage c).state == .retired

/-- The frees and finishes of a downward sweep (R254, R257): a node's drawer when it has retired and every child has
taken or retired; a subtree finishes when every drawer in it has been freed. Nodes are settled from the deepest up. -/
def Sweep.settleDownward (w : Sweep) (stage : Nat) : Sweep :=
  let order := sortBy (fun (a b : Node) => decide (b.depth < a.depth)) w.nodes
  order.foldl (fun v x =>
    let r := v.run stage x.index
    let v1 := if r.state == .retired && r.drawer.isSome && v.childrenDone stage x.index then v.freeDrawer stage x.index else v
    let r1 := v1.run stage x.index
    if r1.state == .retired && r1.drawer.isNone && x.children.all (fun c => (v1.run stage c).finished) then v1.finish stage x.index
    else v1) w

/-- The shelf's bookkeeping at the retire of a node (R253, R254, R257), with the retries that the return of drawers
allows. -/
def Sweep.retireNode (w : Sweep) (stage n : Nat) : Sweep :=
  let w1 := w.setRun stage n fun r => { r with state := .retired }
  if w.down then (w1.settleDownward stage).retry stage
  else
    let w2 := (w1.freeUpward stage n).finish stage n
    let b := (w2.run stage n).borrowed
    let w3 := (w2.setPool stage (· + b)).setRun stage n fun r => { r with borrowed := 0 }
    w3.retry stage

/-- The lowest free drawer slot of a stage (R251). -/
def Sweep.freeSlot (w : Sweep) (stage : Nat) : Nat :=
  let used := (w.runs.filter fun r => r.stage == stage).filterMap Run.drawer
  ((List.range (min w.cap (used.length + 1))).find? fun j => !used.contains j).getD w.cap

end Sys2Proof.Machine
end

