-- ==== Sys2Proof/Machine/Report.lean ====
section
/-! DEFINITION. What the part reports: fault records (R327), error records of a queue (R301) and the accesses of the
Command Processor and the sequencers to main memory. -/

namespace Sys2Proof.Machine

/-- A translation by the Command Processor or a sequencer: a walk (R237). -/
def walkOnly (p : Phys) (s : Sys) (asid va : Nat) (rd wr : Bool) : Walk :=
  match walkPage p s asid va with
  | (_, some e) => useEntry s e va rd wr
  | (w, none) => w

/-- What a translation comes to on its way to the memory (R230, R349, R351). -/
def Sys.routed (s : Sys) (w : Walk) : Walk :=
  match w with
  | .ok pa =>
    match s.route pa with
    | .ok => .ok pa
    | .held => .held
    | _ => .invalid
  | w => w

/-- An access of the Command Processor or a sequencer: its translation, and its way to the memory. -/
def walkAddr (p : Phys) (s : Sys) (asid va : Nat) (rd wr : Bool) : Walk := s.routed (walkOnly p s asid va rd wr)

/-- The walks of `n` consecutive bytes: every byte's physical address, or the first failure and its VA, of 52 bits. -/
def walkBytes (walk : Nat → Walk) (va n : Nat) : Except (Nat × Walk) (List Nat) :=
  let go := fun (acc : Except (Nat × Walk) (List Nat)) (i : Nat) =>
    match acc with
    | .error e => .error e
    | .ok l =>
      if 2 ^ 52 ≤ va + i then .error ((va + i) % 2 ^ 52, .invalid)
      else
        match walk (va + i) with
        | .ok pa => .ok (pa :: l)
        | w => .error (va + i, w)
  match (List.range n).foldl go (.ok []) with
  | .ok l => .ok l.reverse
  | .error e => .error e

/-- The walks of `n` consecutive bytes under an ASID. -/
def walkRange (p : Phys) (s : Sys) (asid va n : Nat) (rd wr : Bool) : Except (Nat × Walk) (List Nat) :=
  walkBytes (fun a => walkAddr p s asid a rd wr) va n

/-- The number that bytes at a list of addresses hold. -/
def numAt (p : Phys) (pas : List Nat) : Nat := bytesToNat (pas.map p.byte)

/-- A read of `n` bytes under an ASID. -/
def readVirtual (p : Phys) (s : Sys) (asid va n : Nat) : Except (Nat × Walk) Nat :=
  (walkRange p s asid va n true false).map (numAt p)

/-- A read of `n` bytes under an ASID noted: a bad host completion that answers it is logged (R303). -/
def Sys.noteRead (p : Phys) (s : Sys) (asid va n : Nat) : Sys :=
  if s.inputs.hostErrors.isEmpty then s
  else match walkRange p s asid va n true false with
    | .ok pas => s.noteHostAt pas
    | .error _ => s

/-- The result field of a fault record (R327). -/
def Walk.result (w : Walk) : Nat :=
  match w with
  | .ok _ | .notPresent | .held => 0
  | .error => 1
  | .notPermitted => 2
  | .invalid => 3

/-- The host's fault ring (R319): its base, and whether it is set. -/
def Sys.faultRing (s : Sys) : Nat := natBits s.device.globals.toNat 243 204 * 4096

/-- A field of the global register block replaced. -/
def Sys.setGlobal (s : Sys) (hi lo x : Nat) : Sys :=
  let w := hi - lo + 1
  let old := s.device.globals.toNat
  { s with device := { s.device with globals := BitVec.ofNat 512 (old - natBits old hi lo * 2 ^ lo + (x % 2 ^ w) * 2 ^ lo) } }

/-- Is a fault id held by a suspension? -/
def Sys.faultHeld (s : Sys) (id : Nat) : Bool := s.faults.any fun f => f.id == id

/-- The next fault id from a number on: 1 to 65,535, skipping the ids held (R327). -/
def Sys.freeFaultFrom (s : Sys) : Nat → Nat → Nat
  | 0, id => id
  | n + 1, id =>
    let i := if id == 0 || 65535 < id then 1 else id
    if s.faultHeld i then Sys.freeFaultFrom s n (i + 1) else i

namespace Tx

variable {o : Phys}

/-- A read under an ASID noted (R303). -/
def noteRead (t : Tx o) (asid va n : Nat) : Tx o := t.upd fun p s => s.noteRead p asid va n

/-- Bytes stored at a list of addresses, under the rules of poison for each run of consecutive addresses of one unit. -/
def storeAt (t : Tx o) (pas : List Nat) (bs : List Byte) : Tx o :=
  match pas with
  | [] => t
  | pa :: _ =>
    if pas == (List.range pas.length).map (pa + ·) then t.store pa bs
    else (pas.zip bs).foldl (fun t x => t.store x.1 [x.2]) t

/-- Bytes written at a physical address, or held until its memory, or the port to another part, is ready (R230, R351). -/
def deviceWrite (t : Tx o) (pa : Nat) (bs : List Byte) : Tx o :=
  if t.sys.route pa == .ok then t.store pa bs
  else t.map fun s => { s with heldWrites := s.heldWrites ++ bs.zipIdx.map fun x => (pa + x.2, x.1, false) }

/-- The held writes that can be made now, in order (R230). -/
def performHeld (t : Tx o) : Tx o :=
  let s := t.sys
  let due := s.heldWrites.filter fun x => s.route x.1 == .ok
  let t1 := t.map fun s => { s with heldWrites := s.heldWrites.filter fun x => s.route x.1 != .ok }
  due.foldl (fun t x => t.store x.1 [if x.2.2 then t.phys.byte x.1 ||| x.2.1 else x.2.1]) t1

/-- A fault record (R327): `kind`, the tower, core, card slot or queue field values shifted into place by the caller. The
answer is the fault id, or none when no record could be written and the fault counts as declined at once. -/
def reportFault (t : Tx o) (owner : FaultOwner) (kind place asid va : Nat) (write : Bool) (w : Walk) : Tx o × Option Nat :=
  let s := t.sys
  let ring := s.faultRing
  let size := 2 ^ (natBits s.device.globals.toNat 247 244 + 6)
  let cnt := natBits s.device.globals.toNat 287 256
  let at_ := ring + 32 * (cnt % size)
  if ring == 0 || s.route at_ == .invalid then
    (t.map fun s => (s.logError (.fault kind asid va)).raise 33, none)
  else
    let id := s.freeFaultFrom 65536 s.nextFault
    let rec_ := id + (if write then 2 ^ 16 else 0) + kind * 2 ^ 17 + place + w.result * 2 ^ 37 + asid * 2 ^ 40 + va % 2 ^ 52 * 2 ^ 64
    let t1 := t.deviceWrite at_ (natToBytes 32 rec_)
    let t2 := t1.map fun s => ((s.setGlobal 287 256 (cnt + 1)).raise 32).logError (.suspended kind asid va)
    let t3 := t2.map fun s => { s with nextFault := if 65535 ≤ id then 1 else id + 1 }
    if w.result == 0 then
      (t3.map fun s => { s with faults := s.faults ++ [{ id := id, owner := owner, asid := asid, va := va, write := write }] }, some id)
    else (t3, some id)

/-- The loss of a ring access (R327): HALT, the device error log and vector 33. -/
def ringLost (t : Tx o) (queue asid va : Nat) : Tx o :=
  t.map fun s => ((s.setQueue queue fun q => q.setField 107 107 1).logError (.ring queue asid va)).raise 33

/-- An error record written at its place in the queue's ring and counted (R320), or lost (R327): then nothing waits. Else what it waits
for: a fault of the page, or with none a memory that is not ready. -/
def writeRecord (t : Tx o) (queue : Nat) (bs : List Byte) : Tx o × Option (Option Nat) :=
  let q := t.sys.queue queue
  let asid := q.field 79 68
  let cnt := q.field 415 384
  let va := q.field 371 320 + 32 * (cnt % 2 ^ (q.field 375 372 + 6))
  match walkRange t.phys t.sys asid va bs.length false true with
  | .ok pas => ((t.storeAt pas bs).map fun s => s.setQueue queue fun q => q.setField 415 384 (cnt + 1), none)
  | .error (_, .held) => (t, some none)
  | .error (bad, w) =>
    match t.reportFault (.ring queue) 3 (queue * 2 ^ 32) asid bad true w with
    | (t1, none) => (t1.ringLost queue asid bad, none)
    | (t1, some id) => if w.result == 0 then (t1, some (some id)) else (t1.ringLost queue asid bad, none)

/-- An error record of a queue: behind those that wait, or written now. -/
def ringWrite (t : Tx o) (queue : Nat) (bs : List Byte) : Tx o :=
  let wait := fun (t : Tx o) (f : Option Nat) =>
    t.map fun s => { s with ringWrites := s.ringWrites ++ [{ queue := queue, bytes := bs, fault := f }] }
  if t.sys.ringWrites.any fun x => x.queue == queue then wait t none
  else
    match t.writeRecord queue bs with
    | (t1, none) => t1
    | (t1, some f) => wait t1 f

/-- The waiting error records of a queue written in order, up to the first that waits again. -/
def drainRecords (queue : Nat) : Nat → Tx o → Tx o
  | 0, t => t
  | fuel + 1, t =>
    match t.sys.ringWrites.find? fun x => x.queue == queue with
    | none => t
    | some x =>
      match t.writeRecord queue x.bytes with
      | (t1, none) => drainRecords queue fuel (t1.map fun s => { s with ringWrites := s.ringWrites.erase x })
      | (t1, some f) =>
        t1.map fun s => { s with ringWrites := updateWhere (fun y => y == x) (fun y => { y with fault := f }) s.ringWrites }

/-- The waiting error records of a queue tried again. -/
def retryRecords (t : Tx o) (queue : Nat) : Tx o := drainRecords queue (t.sys.ringWrites.length + 1) t

/-- An abort record or window-fault record in the error log of a queue (R301). -/
def appendError (t : Tx o) (queue : Nat) (cause : BitVec 8) (cls scope stage node rank pc faddr : Nat) (mask : LaneMask) : Tx o :=
  let r := cause.toNat + cls * 2 ^ 8 + scope * 2 ^ 10 + stage * 2 ^ 11 + node * 2 ^ 16 + rank * 2 ^ 40 + pc * 2 ^ 64
    + faddr % 2 ^ 52 * 2 ^ 128 + mask.toNat * 2 ^ 192
  t.ringWrite queue (natToBytes 32 r)

end Tx

end Sys2Proof.Machine
end

