-- ==== Sys2Proof/Machine/Retire.lean ====
section
/-! DEFINITION. Drawer headers (R251), the retire of a block (R226, R253 to R261), and the aborts of blocks and sweeps
(R261, R301, R302). -/

namespace Sys2Proof.Machine

/-- The STATUS codes of a drawer header (R251). -/
inductive DrawerStatus where
  | pending
  | valid
  | poisoned
  | retried
deriving DecidableEq, Repr

/-- The code of a STATUS. -/
def DrawerStatus.code : DrawerStatus → Nat
  | .pending => 0
  | .valid => 1
  | .poisoned => 2
  | .retried => 3

/-- Header bits [127:16]: STATUS, NODE and STAGE (R251). -/
def headerUpper (st : DrawerStatus) (node stage : Nat) : Nat := st.code + node * 2 ^ 8 + stage * 2 ^ 32

/-- The item count of a sweep, and SPWAIT's count of the spawners, after a spawn block has retired (R206). -/
def Sys.itemsRetired (s : Sys) (b : Block) : Sys :=
  let lower := fun (x : Block) =>
    { x with spawnOutstanding := x.spawnOutstanding - (b.spawners.filter fun i => i == x.id).length }
  let s1 := s.setSweep b.sweep fun w => { w with items := w.items - b.spawners.length }
  { s1 with
    blocks := s1.blocks.map lower
    towers := s1.towers.map fun t => { t with saved := t.saved.map fun x => { x with block := lower x.block } } }

/-- A TIGHTEN of a warp that waits for a child completes with a certificate (R215). -/
def Warp.completeTighten (w : Warp) (ordinal : Nat) (cert : Nat) : Warp :=
  w.ops.foldl (fun v x =>
    match x.body with
    | .tighten dst child _ =>
      if child == ordinal then
        let v1 := v.dropOp x.id
        if dst == 63 then v1 else { v1 with s := v1.s.put dst (BitVec.ofNat 64 cert), sPoison := NatSet.del v1.sPoison dst }
      else v
    | _ => v) w

/-- The TIGHTENs on a node complete in its parent's block, and in a saved one with its restore (R215, R216). -/
def Sys.completeTighten (s : Sys) (sweep stage node cert : Nat) : Sys :=
  let parent := fun (b : Block) => b.sweep == sweep && b.stage == stage && !b.spawn && b.first ≤ node && node < b.first + b.nchild
  let now := fun (b : Block) =>
    if parent b then { b with warps := b.warps.map fun w => w.completeTighten (node - b.first) cert } else b
  let later := fun (x : SavedBlock) =>
    if parent x.block then { x with tightened := x.tightened ++ [(node - x.block.first, cert)] } else x
  { s with
    blocks := s.blocks.map now
    towers := s.towers.map fun t => { t with saved := t.saved.map later } }

/-! ## Ordered accumulation slots as blocks come and go -/

/-- An open slot of a core changed. -/
def Sys.setAccSlot (s : Sys) (c : CoreRef) (n : Nat) (f : AccSlot → AccSlot) : Sys :=
  s.setCore c fun k => { k with accSlots := updateWhere (fun x => x.number == n) f k.accSlots }

/-- A block changed, resident or saved. -/
def Sys.mapBlock (s : Sys) (id : Nat) (f : Block → Block) : Sys :=
  let s1 := s.setBlock id f
  { s1 with towers := s1.towers.map fun t =>
      { t with saved := updateWhere (fun x => x.block.id == id) (fun x => { x with block := f x.block }) t.saved } }

/-- Contributions of a warp accepted into a slot (R164): the slot's opener has EFFECT (R171), and the block counts as a user of the slot
(R290). A closed slot takes none. -/
def Sys.acceptContributions (s : Sys) (b : Block) (rank n : Nat) (values : List (Nat × Word)) : Sys :=
  match (s.core b.coreRef).accSlots.find? fun a => a.number == n with
  | none => s
  | some a =>
    let key := fun (v : Nat × Word) =>
      { node := b.node.toNat, stage := b.stage, rank := rank, lane := v.1, value := v.2 : Contribution }
    let s1 := s.setAccSlot b.coreRef n fun a => { a with values := a.values ++ values.map key }
    (s1.mapBlock a.block fun b => { b with effect := true }).setBlock b.id fun b => { b with usedSlots := NatSet.add b.usedSlots n }

/-- A slot is closed: no block of its core counts as a user of it any more (R290). -/
def Sys.forgetSlot (s : Sys) (c : CoreRef) (n : Nat) : Sys :=
  let f := fun (b : Block) => if b.coreRef == c then { b with usedSlots := NatSet.del b.usedSlots n } else b
  { s with
    blocks := s.blocks.map f
    towers := s.towers.map fun t => { t with saved := t.saved.map fun x => { x with block := f x.block } } }

/-- The number that an outstanding AFADDO holds once its slot is closed: no slot has it. -/
def noAccSlot : Nat := 64

/-- A warp whose outstanding contributions to a slot no longer reach one. -/
def Warp.dropContributions (w : Warp) (n : Nat) : Warp :=
  { w with ops := w.ops.map fun x =>
      match x.body with
      | .contribute m vs => if m == n then { x with body := .contribute noAccSlot vs } else x
      | _ => x }

/-- A slot of a core closed, and its buffer reservation returned (R165, R264). DESIGN CHOICE: contributions that `received` counts and
that the engine has not accepted are dropped with it (log 115). -/
def Sys.closeSlot (s : Sys) (c : CoreRef) (n : Nat) : Sys :=
  let s1 := (s.setCore c fun k => { k with accSlots := k.accSlots.filter fun x => x.number != n }).forgetSlot c n
  { s1 with blocks := s1.blocks.map fun b =>
      if b.coreRef == c then { b with warps := b.warps.map fun w => w.dropContributions n } else b }

/-- The slots that a block opened closed. DESIGN CHOICE (log 115): a closing slot too, whose sum is then neither stored nor arrived on. -/
def Sys.closeSlotsOf (s : Sys) (b : Block) : Sys :=
  ((s.core b.coreRef).accSlots.filter fun a => a.block == b.id).foldl (fun s a => s.closeSlot b.coreRef a.number) s

/-- The outstanding contributions of a block accepted: AFADDO has buffered them at its issue (R164), and neither an abort nor a flush
discards them (DEDUCED, log 115). -/
def Sys.acceptOutstanding (s : Sys) (b : Block) : Sys :=
  b.warps.foldl (fun s w => w.ops.foldl (fun s x =>
    match x.body with
    | .contribute n vs => s.acceptContributions b w.rank n vs
    | _ => s) s) s

/-- A pre-emption record done (R308): STATE 3, until it is freed. -/
def PreemptRecord.ended (r : PreemptRecord) : PreemptRecord := { r with state := 3 }

/-- The record of a block, if it has one that is not done. -/
def Tower.endRecord (t : Tower) (block : Nat) : Tower :=
  { t with records := updateWhere (fun r => r.block == block) PreemptRecord.ended t.records
           waiting := t.waiting.filter fun x => x.1 != block }

/-- Has the core's Atomic Engine taken an instruction of a block? -/
def Core.takes (k : Core) (b : Block) : Bool := match k.taking with | some x => x.1.block == b.id | none => false

/-- Everything of a block leaves its core: the block, its cards, the rest of its chain in the kick register, what its core's Atomic
Engine has taken of it, and its pre-emption request, which ends (R284, R302, R310). -/
def Sys.dropBlock (s : Sys) (b : Block) : Sys :=
  let s0 := s.acceptOutstanding b
  let s1 := { s0 with blocks := s0.blocks.filter fun x => x.id != b.id }
  let s2 := s1.setCore b.coreRef fun k =>
    { k with
      cards := k.cards.filter fun x => x.block != b.id
      kick := match k.kick with
        | some c => if c.warp.block == b.id then none else some c
        | none => none
      taking := if k.takes b then none else k.taking
      newLines := if k.takes b then [] else k.newLines }
  s2.setTower b.tower fun t =>
    { t.endRecord b.id with
      lineRequests := if (s.core b.coreRef).takes b then t.lineRequests.filter fun x => x.2 != b.core else t.lineRequests }

/-- The suspensions of a block's cards are no longer held (R327: a response to them is ignored). -/
def Sys.dropFaults (s : Sys) (b : Block) : Sys :=
  let ids := (s.core b.coreRef).cards.filterMap fun x => if x.block == b.id then x.faultId else none
  { s with faults := s.faults.filter fun f => !ids.contains f.id }

/-- A queue item that fails, or runs out of its time, is an error event, and is logged (R303). -/
def Sys.notePacket (s : Sys) (id kind pcode code : Nat) : Sys :=
  match s.packet id with
  | some q => if kind == 0 then s else s.logError (.packet q.ref.queue q.ref.tag.toNat kind pcode code)
  | none => s

/-- A sweep's packet is done, with a code and detail of R267. -/
def Sys.sweepDone (s : Sys) (w : Sweep) (kind code detail : Nat) : Sys :=
  s.setPacket w.pkt fun p => { p with work := .done kind 0 code detail }

/-- Sweeps that wait on a predecessor (R260). -/
def Sys.successors (s : Sys) (id : Nat) : List Nat :=
  (s.sweeps.filter fun x => x.pred == some id && (x.phase == .held || x.phase == .running)).map Sweep.id

/-- The discard of a sweep's resident and saved blocks with their cards and slots, and of its restarts and re-dispatches (R261, R302).
DEDUCED: its spawned items still run (R302 (f)): of the sweep's dispatch, that of its nodes stops (log 116). -/
def Sys.discardSweep (s : Sys) (id : Nat) : Sys :=
  let saved := s.towers.flatMap fun t => t.saved.filter fun x => x.block.sweep == id
  let own := (s.blocks ++ saved.map SavedBlock.block).filter fun b => b.sweep == id
  let ids := (saved.flatMap SavedBlock.cards).filterMap Card.faultId
  let s0 := (s.blocks.filter fun b => b.sweep == id).foldl (fun s b => (s.dropFaults b).dropBlock b) s
  let s1 := own.foldl Sys.closeSlotsOf s0
  { s1 with faults := s1.faults.filter fun f => !ids.contains f.id
            towers := s1.towers.map fun t =>
      { t with
        saved := t.saved.filter fun x => x.block.sweep != id
        records := updateWhere (fun r => own.any fun b => b.id == r.block) PreemptRecord.ended t.records
        restarts := t.restarts.filter fun x => x.sweep != id
        redispatches := t.redispatches.filter fun x => x.sweep != id } }

/-- The core cycles that a block has been resident (R265). -/
def residentCycles (s : Sys) (b : Block) : Nat := b.resident + ((s.tower b.tower).clock.toNat - b.since)

/-- The charge of a retire to the deficit of the block's queue (R265). DEDUCED: an abort, which counts as a retire, is charged
alike. -/
def charge (s : Sys) (b : Block) : Sys :=
  let cost : Int := b.warps.length * residentCycles s b
  s.setTower b.tower fun t =>
    { t with deficit := (t.deficit.zipIdx).map fun x => if x.2 == b.queue then x.1 - cost else x.1 }

namespace Tx

variable {o : Phys}

/-- A sweep abort (R261, R302): dispatch stops, its blocks and cards are discarded, the completion carries ABORTED and the
cause, and every successor is aborted with PRED_FAILED (R260). Its record holds the stage concerned and the address of the cause (R301). -/
def abortSweepFuel (cause : Cause) (stage faddr id : Nat) : Nat → Tx o → Tx o
  | 0, t => t
  | fuel + 1, t =>
    match t.sys.sweep id with
    | none => t
    | some w =>
      if w.phase == .running || w.phase == .held then
        let t1 := t.map fun s => (s.discardSweep id).setSweep id fun w => { w with phase := .aborted }
        let t2 := t1.map fun s => (s.sweepDone w 0 0x20 cause.code.toNat).logError (.aborted cause id stage 0xFFFFFF)
        let t3 := t2.appendError w.queue cause.code 2 1 stage 0xFFFFFF 0 0 faddr 0
        (t3.sys.successors id).foldl (fun t j => abortSweepFuel .predFailed 0 0 j fuel t) t3
      else t

/-- A sweep abort, with the aborts of the sweeps that follow it. -/
def abortSweep (t : Tx o) (cause : Cause) (stage faddr id : Nat) : Tx o :=
  abortSweepFuel cause stage faddr id (t.sys.sweeps.length + 1) t

/-- A sequencer's write to a drawer header; an unmapped page aborts the sweep (R251). With `cert = none` the certified
bound field keeps its bytes (R213). -/
def writeHeader (t : Tx o) (sweep stage node : Nat) (st : DrawerStatus) (cert : Option Nat) : Tx o :=
  match t.sys.sweep sweep with
  | none => t
  | some w =>
    match w.drawerOf stage node with
    | none => t
    | some off =>
      match towerWindow t.phys t.sys w.asid w.tower off with
      | none => (t.upd fun p s => s.noteWindow p w.asid w.tower (off / 65536)).abortSweep .windowFault stage off sweep
      | some pa =>
        let up := headerUpper st node stage
        match cert with
        | some c => t.storeNum pa 16 (c + up * 2 ^ 16)
        | none => (t.storeNum (pa + 2) 6 up).storeNum (pa + 8) 8 (up / 2 ^ 48)

/-- A drawer poisoned: the header POISONED with CERT 0, every unit of the payload marked (R261). -/
def poisonDrawer (t : Tx o) (sweep stage node : Nat) : Tx o :=
  let t1 := t.writeHeader sweep stage node .poisoned (some 0)
  match t1.sys.sweep sweep with
  | none => t1
  | some w =>
    match w.drawerOf stage node with
    | none => t1
    | some off =>
      match towerWindow t1.phys t1.sys w.asid w.tower off with
      | none => t1
      | some pa => t1.poisonBytes (pa + 16) (w.drawerSize - 16)

/-- The completion bit of a node (R260): set in the bitmap, performed at P. A page of the bitmap that can no longer be
reached leaves the bit unset; a memory that is not ready holds the write (R230). -/
def setBit (t : Tx o) (w : Sweep) (stage node : Nat) : Tx o :=
  if w.bitmap == 0 then t
  else
    let bit := stage * w.nodesN + node
    let one : Byte := 1#8 <<< (bit % 8)
    match walkOnly t.phys t.sys w.asid (w.bitmap + bit / 8) true true with
    | .ok pa =>
      match t.sys.route pa with
      | .ok => t.store pa [t.phys.byte pa ||| one]
      | .held => t.map fun s => { s with heldWrites := s.heldWrites ++ [(pa, one, true)] }
      | _ => t
    | _ => t

/-- Does the sweep complete now (R259)? -/
def sweepEnds (w : Sweep) : Bool :=
  w.phase == .running && w.items == 0 &&
  (if w.dir == 1 then
     w.nodes.all fun n => n.count != 0 || (List.range w.stages).all fun st => (w.run st n.index).state == .retired
   else (List.range w.stages).all fun st => (w.run st w.root).state == .retired)

/-- The aborted nodes of a sweep: those with a run that was aborted at some stage (R267). -/
def abortedNodes (w : Sweep) : Nat := (w.nodes.filter fun n => w.runs.any fun r => r.node == n.index && r.aborted).length

/-- The end of a sweep (R259): the shelf is freed, and the completion carries COMPLETE, or COMPLETE_ABORTED with the
count of aborted nodes. -/
def checkEnd (t : Tx o) (sweep : Nat) : Tx o :=
  match t.sys.sweep sweep with
  | none => t
  | some w =>
    if sweepEnds w then
      t.map fun s => (s.setSweep sweep fun w => { w with phase := .complete, runs := w.runs.map fun r => { r with drawer := none } }).sweepDone w 0
        (if abortedNodes w == 0 then 0x00 else 0x01) (abortedNodes w)
    else t

/-- A node counts as retired at a stage (R257, R260): its bit and the shelf. DEDUCED: a node that was aborted stays one of the aborted
nodes of R267, whatever a re-run of it does. -/
def nodeRetired (t : Tx o) (sweep stage node : Nat) (effect aborted : Bool) : Tx o :=
  match t.sys.sweep sweep with
  | none => t
  | some w =>
    let t1 := t.setBit w stage node
    t1.map fun s => s.setSweep sweep fun w =>
      let again := (w.run stage node).state == .retired
      let w1 := w.setRun stage node fun r => { r with effect := effect, aborted := r.aborted || aborted }
      if again then w1 else w1.retireNode stage node

/-- A node aborted before it has a block (R18, R32, R259): it takes its drawer, which is poisoned, and counts as
retired. -/
def abortNode (t : Tx o) (sweep stage node : Nat) (cause : Cause) : Tx o :=
  match t.sys.sweep sweep with
  | none => t
  | some w =>
    let t1 := (t.map fun s => s.logError (.aborted cause sweep stage node)).appendError w.queue cause.code 2 0 stage node 0 0 0 0
    let t2 := t1.map fun s => s.setSweep sweep fun w =>
      w.setRun stage node fun r => { r with drawer := some (r.drawer.getD (w.freeSlot stage)) }
    let t3 := t2.poisonDrawer sweep stage node
    let t4 := t3.map fun s => s.completeTighten sweep stage node 0
    (t4.nodeRetired sweep stage node (w.run stage node).effect true).checkEnd sweep

/-- The slots that a block opened and whose count is not reached (R165 (b)). -/
def openSlots (s : Sys) (b : Block) : List AccSlot :=
  (s.core b.coreRef).accSlots.filter fun x => x.block == b.id && x.received < x.count

/-- The end of a block that has left its core (R259): an open ordered slot below its count aborts the sweep (R165 (b)), else the sweep
may be complete. -/
def afterBlock (t : Tx o) (b : Block) (open_ : List AccSlot) : Tx o :=
  match open_ with
  | [] => t.checkEnd b.sweep
  | a :: _ => t.abortSweep .accSlot b.stage a.number b.sweep

/-- A block aborted, resident or just taken out of the context pool (R302): its warps, loads, store buffer entries and cards
go; its drawer is poisoned and the sweep goes on (R261); an open ordered slot below its count aborts the sweep (R165 (b)).
DESIGN CHOICE (log 166): the items of a spawn block count as retired.
Re-dispatches that it asked for and that have not started are dropped with it. -/
def abortThe (t : Tx o) (b : Block) (cause : Cause) (rank pc faddr : Nat) (mask : LaneMask) : Tx o :=
  let open_ := openSlots t.sys b
  let t0 := t.map fun s => s.logError (.aborted cause b.sweep b.stage b.node.toNat)
  let t1 := t0.appendError b.queue cause.code 2 0 b.stage b.node.toNat rank pc faddr mask
  let t2 := t1.map fun s => ((((charge s b).dropFaults b).dropBlock b).closeSlotsOf b).setTower b.tower fun k =>
    { k with redispatches := k.redispatches.filter fun x =>
        !(x.sweep == b.sweep && x.stage == b.stage && !b.spawn && b.first ≤ x.node && x.node < b.first + b.nchild) }
  let t3 :=
    if b.spawn then t2.map fun s => s.itemsRetired b
    else
      let n := b.node.toNat
      let t3 := t2.poisonDrawer b.sweep b.stage n
      let t4 := t3.map fun s => s.completeTighten b.sweep b.stage n 0
      t4.nodeRetired b.sweep b.stage n b.effect true
  t3.afterBlock b open_

/-- A block abort (R302). -/
def abortBlock (t : Tx o) (id : Nat) (cause : Cause) (rank pc faddr : Nat) (mask : LaneMask) : Tx o :=
  match t.sys.block id with
  | none => t
  | some b => t.abortThe b cause rank pc faddr mask

/-- The certified bound field of a drawer header (R251): none when its page is unmapped or its unit poisoned. DESIGN CHOICE: TIGHTEN's s[D] is
then 0, for which R215 names no value (log 154). -/
def readCert (t : Tx o) (w : Sweep) (stage node : Nat) : Option Nat :=
  ((w.drawerOf stage node).bind fun off => towerWindow t.phys t.sys w.asid w.tower off).bind fun pa =>
    if t.phys.anyPoison pa 2 then none else some (t.phys.num pa 2)

/-- The retire of a block at the instant R226 holds (R251, R259): the header's status, the drawers, the completion bit,
the TIGHTEN it answers, and the charge of R265. -/
def retireBlock (t : Tx o) (b : Block) : Tx o :=
  let open_ := openSlots t.sys b
  let t1 := t.map fun s => ((charge s b).dropBlock b).closeSlotsOf b
  let t2 :=
    if b.spawn then t1.map fun s => s.itemsRetired b
    else
      let n := b.node.toNat
      let t2 := t1.writeHeader b.sweep b.stage n (if b.redispatch then .retried else .valid) none
      match t2.sys.sweep b.sweep with
      | none => t2
      | some w =>
        let cert := (t2.readCert w b.stage n).getD 0
        let t3 := if b.redispatch then t2.map fun s => s.completeTighten b.sweep b.stage n cert else t2
        t3.nodeRetired b.sweep b.stage n b.effect false
  t2.afterBlock b open_

end Tx

end Sys2Proof.Machine
end

