-- ==== Sys2Proof/WellFormed.lean ====
section
/-! DEFINITION. Well-formed instructions: the encodings that the chapters allow (R50 to R59, R70), each check with a
name of its own. An encoding that fails a check raises ILLEGAL_INSTR (R70). -/

namespace Sys2Proof

/-- Why an encoding is no instruction (R70). -/
inductive Illegal where
  /-- the opcode is reserved (R70 (a)) -/
  | reservedOpcode
  /-- X is set where the instruction defines none (R70 (b)) -/
  | modifierBit
  /-- an operand number or the I bit fails R52, or a value rule of the chapter (R70 (c)) -/
  | operand
  /-- the mask selection fails R54 (R70 (d)) -/
  | mask
  /-- RND or SAT fails R55 (R70 (e)) -/
  | rounding
  /-- SUB fails R56 (R70 (f)) -/
  | subOperation
  /-- MOD fails R57 to R59 (R70 (g)) -/
  | modifiers
  /-- a 96-bit form breaks R50 (R70 (h)) -/
  | literalForm
  /-- a word with bits [1:0] = 11 is no instruction word (R47) -/
  | headerTag
  /-- a clause header with a reserved bit set (R61 (a)) -/
  | headerReserved
  /-- the bytes end before the instruction does -/
  | truncated
deriving DecidableEq, Repr

/-- Is code `c` in the set of codes `s`? -/
def codeIn (s : Nat) (c : Nat) : Bool := natBit s c

namespace Fields

/-- The type code MOD[2:0] (R58). -/
def typeCode (f : Fields) : Nat := f.mod.toNat % 8
/-- The source type code MOD[5:3] (R58). -/
def srcCode (f : Fields) : Nat := f.mod.toNat / 8
/-- The scope MOD[2:0] (R59). -/
def scopeCode (f : Fields) : Nat := f.mod.toNat % 8
/-- The order MOD[4:3] (R59). -/
def orderCode (f : Fields) : Nat := f.mod.toNat / 8 % 4
/-- The W64 bit MOD[5] (R59). -/
def w64 (f : Fields) : Bool := f.mod.getLsbD 5
/-- Does the destination or element type code name a 64-bit integer? -/
def wideT (f : Fields) : Bool := 6 ≤ f.typeCode
/-- Does the source type code name a 64-bit integer? -/
def wideS (f : Fields) : Bool := 6 ≤ f.srcCode
/-- The immediate as an unsigned number (R53). -/
def immU (f : Fields) : Nat := match f.form with | .w96 => f.lit.toNat | _ => f.b.toNat
/-- The immediate as a signed number (R53): 6, 8 or 32 bits by form. -/
def immS (f : Fields) : Int :=
  match f.form with
  | .w32 => signedNat 6 f.b.toNat
  | .w64 => signedNat 8 f.b.toNat
  | .w96 => f.lit.toInt

end Fields

/-- The register classes of R52 for a number held in a field. -/
def Operand.legal (o : Operand) (f : Fields) (n : BitVec 8) : Bool :=
  let even := n.toNat % 2 == 0
  match o with
  | .unused => n == 0
  | .vector | .vectorOrImm => true
  | .vectorPair => even
  | .vectorT | .vectorTOrImm => !f.wideT || even
  | .vectorS => !f.wideS || even
  | .vectorW | .vectorWOrImm => !f.w64 || even
  | .base => !f.x || n.toNat < 64
  | .scalar | .scalarOrImm => n.toNat < 64
  | .mask => n.toNat < 8
  | .maskDest => 1 ≤ n.toNat && n.toNat < 8
  | .tile => n.toNat < 8
  | .number max => n.toNat ≤ max
  | .crngKey => if f.mod.getLsbD 0 then n.toNat < 64 else n == 0
  | .immediate => true

/-- The use of I by the B operand (R52, R53). -/
def Operand.immLegal (o : Operand) (imm : Bool) : Bool :=
  match o with
  | .immediate => imm
  | .scalarOrImm | .vectorOrImm | .vectorTOrImm | .vectorWOrImm => true
  | _ => !imm

/-- Does a third source stand in C, so that the 32-bit form cannot hold it (R51)? -/
def Operand.needsC (o : Operand) : Bool :=
  match o with
  | .unused | .crngKey => false
  | _ => true

/-- MOD by its layout (R57 to R59). -/
def ModUse.legal (u : ModUse) (f : Fields) : Bool :=
  let m := f.mod.toNat
  match u with
  | .none => m == 0
  | .unsignedBit | .keyBit => m < 2
  | .type s => f.srcCode == 0 && codeIn s f.typeCode
  | .convert d s => codeIn d f.typeCode && codeIn s f.srcCode
  | .order w o => codeIn o f.orderCode && (w || !f.w64) && f.scopeCode < 7 && (f.orderCode != 0 || f.scopeCode == 0)
  | .scope o => codeIn o f.orderCode && !f.w64 && f.scopeCode < 7

/-- SUB by R56 and the chapters' tables. -/
def SubUse.legal (u : SubUse) (f : Fields) : Bool :=
  let s := f.sub.toNat
  match u with
  | .none => s == 0
  | .upTo n => s ≤ n
  | .exactly n => s == n
  | .loadSize => s ≤ 4 && (s == 0 || !f.w64)
  | .storeSize => (s == 0 || s == 1 || s == 3) && (s == 0 || !f.w64)

/-- RND by R55: SR only in the 96-bit form, and only where the instruction takes it. -/
def RndUse.legal (u : RndUse) (f : Fields) : Bool :=
  match u with
  | .none => f.rnd == .rn
  | .nearest => f.rnd != .sr
  | .all => f.rnd != .sr || f.form == .w96

/-- The status registers of R20 that SRD reads, PERM apart (R21). -/
def statusNumbers : List Nat :=
  [0x000, 0x001, 0x002, 0x003, 0x004, 0x005, 0x010, 0x011, 0x012, 0x013, 0x014, 0x015, 0x016, 0x017,
   0x020, 0x021, 0x022, 0x023, 0x024, 0x025, 0x026, 0x027, 0x030, 0x031, 0x040, 0x041]

/-- The status registers whose Access is RW (R20). -/
def writableNumbers : List Nat := [0x016, 0x020, 0x021, 0x022, 0x023, 0x024, 0x027, 0x031]

/-- The status register number of SRD and SWR: A is [11:6] and the immediate [5:0] (R114). -/
def Fields.statusNumber (f : Fields) : Nat := 64 * f.a.toNat + f.immU

/-- The rules of single instructions beyond their table row. -/
def Mnem.extraLegal (m : Mnem) (f : Fields) : Bool :=
  match m with
  | .srd => f.immU < 64 && statusNumbers.contains f.statusNumber
  | .swr => f.immU < 64 && writableNumbers.contains f.statusNumber
  | .waitf => f.immU < 2 ^ 12
  | .bfx | .bfi => !f.imm || f.immU < 2 ^ 13
  | .shflXor | .shflUp | .shflDn => 1 ≤ f.immU && f.immU ≤ 7
  | .redl | .scanl =>
      (f.sub.toNat < 3 → f.typeCode = 0) && (f.rnd == .rn || f.sub == 0) && (!f.sat || f.sub == 3)
  | .fcvt => f.typeCode != f.srcCode
  | .pfadd | .pfmul | .pffma => !f.imm || f.form == .w96
  | .mmaByp | .mmasByp => f.d != f.a
  | .tolsetFld => f.immU ≤ 15
  | _ => true

/-- The fields that the form of the instruction can hold (R47 to R51, R54): a well-formed field record is what some
words decode to. -/
def Fields.formOk (f : Fields) : Bool :=
  (match f.guard with
   | .all => true
   | .set m => m != 0
   | .clear m => m != 0) &&
  match f.form with
  | .w32 => f.d.toNat < 64 && f.a.toNat < 64 && f.b.toNat < 64 && f.c == 0 && f.rnd == .rn && !f.sat
      && f.sub == 0 && f.mod == 0 && f.lit == 0
      && (match f.guard with | .all => true | .set m => m.toNat < 4 | .clear _ => false)
  | .w64 => f.lit == 0 && f.rnd != .sr
  | .w96 => if f.rnd == .sr then !f.imm else f.imm && f.b == 0

/-- The checks of R70 on a decoded field record, in R70's order; none when the encoding is legal. -/
def Mnem.illegal (m : Mnem) (f : Fields) : Option Illegal :=
  let s := m.spec
  if !(match s.x with | .zero => !f.x | .one => f.x | .free => true) then some .modifierBit
  else if !(s.d.legal f f.d && s.a.legal f f.a && (if f.imm then s.b.immLegal true else s.b.immLegal false && s.b.legal f f.b)
        && s.c.legal f f.c && !(s.c.needsC && f.form == .w32)) then some .operand
  else if !(s.masked || f.guard == .all) then some .mask
  else if !(s.rnd.legal f && (s.sat || !f.sat)) then some .rounding
  else if !s.sub.legal f then some .subOperation
  else if !s.mod.legal f then some .modifiers
  else if !m.extraLegal f then some .operand
  else none

/-- An instruction whose encoding the spec admits. The other steps carry no encoding and are well-formed as they
stand; a clause header is well-formed whatever its fields hold, and R61 is checked when its clause starts. -/
def Instr.wellFormed (i : Instr) : Bool :=
  match i.view with
  | none => true
  | some (m, f) => f.formOk && m.illegal f == none

end Sys2Proof
end

