-- ==== Sys2Proof/Machine/Ops.lean ====
section
/-! DEFINITION. The operations that every instruction shares: the issuing slot, the fetch of words, the registers, taking a
trap (R108, R299) with flush and restart in its place (R264), the return from it (R110), and the checks that stand in front
of an instruction's own effect (R16, R17, R28, R29, R63, R65, R119, R159). -/

namespace Sys2Proof.Machine

/-! ## The issuing slot -/

/-- The slot that issues, with its block and warp. -/
structure Ctx where
  ref : WarpRef
  z   : SlotId
  b   : Block
  w   : Warp
deriving DecidableEq, Repr

/-- The issuing slot itself. -/
def Ctx.slot (c : Ctx) : PcSlot := c.w.slot c.z

/-- The slot that issues in this step. -/
def Sys.issuing (s : Sys) : Option Ctx :=
  match s.cursor with
  | none => none
  | some (r, z) =>
    match s.block r.block with
    | none => none
    | some b =>
      match b.warp r.rank with
      | none => none
      | some w => some { ref := r, z := z, b := b, w := w }

/-- The context of a slot that does not issue. -/
def Sys.context (s : Sys) (r : WarpRef) (z : SlotId) : Option Ctx :=
  { s with cursor := some (r, z) }.issuing

/-- The state with a warp written back. -/
def Sys.putWarp (s : Sys) (r : WarpRef) (w : Warp) : Sys := s.setWarp r fun _ => w

/-! ## Instruction words -/

/-- The read of an instruction word of a block (R230, R231, R234): translated under the sweep's ASID, held until its memory and its route are
ready, and invalid behind a route that is down or a part that does not answer. -/
def codeReach (p : Phys) (s : Sys) (b : Block) (pc : Pc) : Walk :=
  match translate p s b.coreRef b.asid pc.addr true false with
  | .ok pa => match s.route pa with
    | .ok => .ok pa
    | .held => .held
    | _ => .invalid
  | w => w

/-- The physical address of an instruction word that can be read. -/
def codeAddr (p : Phys) (s : Sys) (b : Block) (pc : Pc) : Option Nat :=
  match codeReach p s b pc with
  | .ok pa => some pa
  | _ => none

/-- Is the read of an instruction word held? -/
def codeHeld (p : Phys) (s : Sys) (b : Block) (pc : Pc) : Bool := codeReach p s b pc == .held

/-- An instruction word of a block. DESIGN CHOICE: a poisoned unit gives the bits that it stores, here and where a packet, a descriptor, a node
record, a program header or a table entry is read; R244 (c) names no fate for it (log 141). -/
def codeWord (p : Phys) (s : Sys) (b : Block) (pc : Pc) : Option Word :=
  (codeAddr p s b pc).map fun pa => BitVec.ofNat 32 (p.num pa 4)

/-- Words of code read noted: a bad host completion that answers a read is logged (R303). -/
def Sys.noteCode (p : Phys) (s : Sys) (b : Block) (pcs : List Pc) : Sys :=
  if s.inputs.hostErrors.isEmpty then s
  else s.noteHostAt ((pcs.filterMap (codeAddr p s b)).flatMap fun a => (List.range 4).map (a + ·))

/-- The check of a control-transfer target: its word has bits [1:0] = 11 (R66). -/
def targetOk (p : Phys) (s : Sys) (b : Block) (pc : Pc) : Bool :=
  match codeWord p s b pc with
  | some w => w.extractLsb' 0 2 == 3
  | none => false

/-! ## Registers -/

/-- A scalar register: s63 reads zero (R14). -/
def Warp.scalar (w : Warp) (n : Nat) : DWord := if n == 63 then 0 else w.s.get n

/-- A scalar register written: a write to s63 is discarded (R14). -/
def Warp.setScalar (w : Warp) (n : Nat) (x : DWord) : Warp :=
  if n == 63 then w else { w with s := w.s.put n x, sPoison := NatSet.del w.sPoison n }

/-- The key of vector register n, lane l. -/
def elemKey (n l : Nat) : Nat := 64 * n + l

/-- A 32-bit element of a vector register. -/
def Warp.elem (w : Warp) (n l : Nat) : Word := w.v.get (elemKey n l)

/-- A 64-bit element in an even-aligned pair, low half in the first register (R15). -/
def Warp.pair (w : Warp) (n l : Nat) : DWord := w.elem (n + 1) l ++ w.elem n l

/-- An element written; it is not poisoned. -/
def Warp.setElem (w : Warp) (n l : Nat) (x : Word) : Warp :=
  { w with v := w.v.put (elemKey n l) x, vPoison := NatSet.del w.vPoison (elemKey n l) }

/-- A pair written. -/
def Warp.setPair (w : Warp) (n l : Nat) (x : DWord) : Warp :=
  (w.setElem n l (x.setWidth 32)).setElem (n + 1) l (x.extractLsb' 32 32)

/-- An element that takes poison from memory (R154); its value reads zero. -/
def Warp.poisonElem (w : Warp) (n l : Nat) : Warp :=
  { w with v := w.v.put (elemKey n l) 0, vPoison := NatSet.add w.vPoison (elemKey n l), vUnloaded := NatSet.del w.vUnloaded (elemKey n l) }

/-- An element poisoned in the register file (R244 (b)), or moved poisoned out of a tile. -/
def Warp.spoilElem (w : Warp) (n l : Nat) : Warp :=
  { w.poisonElem n l with vUnloaded := NatSet.add w.vUnloaded (elemKey n l) }

/-- Is an element poisoned? -/
def Warp.elemPoisoned (w : Warp) (n l : Nat) : Bool := NatSet.has w.vPoison (elemKey n l)

/-- Is an element poisoned by a load (R264 (d))? DEDUCED: an atomic that finds its word poisoned (R154 (c)) has loaded it (log 131). -/
def Warp.elemLoaded (w : Warp) (n l : Nat) : Bool := w.elemPoisoned n l && !NatSet.has w.vUnloaded (elemKey n l)

/-- A mask register as a source: m0 reads the mask of the issuing slot (R14). -/
def Ctx.maskReg (c : Ctx) (n : Nat) : LaneMask := if n == 0 then c.slot.mask else c.w.m.get n

/-- A mask register written (m1 to m7). -/
def Warp.setMask (w : Warp) (n : Nat) (x : LaneMask) : Warp := { w with m := w.m.put n x }

/-- The granted tile count of a block (R19). -/
def Block.tileCount (b : Block) : Nat := if b.granted then b.hdr.acc else 0

/-- The bytes of the block's BSM: none before the grant (R19). -/
def Block.bsmBytes (b : Block) : Nat := if b.granted then 4096 * b.bsmUnits else 0

/-! ## The fields an instruction names -/

end Sys2Proof.Machine

namespace Sys2Proof

/-- The vector registers that an operand position names. -/
def Operand.vectorRegs (o : Operand) (f : Fields) (n : BitVec 8) : List Nat :=
  let r := n.toNat
  let pair := fun (wide : Bool) => if wide then [r, r + 1] else [r]
  match o with
  | .vector | .vectorOrImm => [r]
  | .vectorPair => [r, r + 1]
  | .vectorT | .vectorTOrImm => pair f.wideT
  | .vectorS => pair f.wideS
  | .vectorW | .vectorWOrImm => pair f.w64
  | .base => if f.x then [] else [r]
  | _ => []

/-- The scalar registers that an operand position names. -/
def Operand.scalarRegs (o : Operand) (f : Fields) (n : BitVec 8) : List Nat :=
  match o with
  | .scalar | .scalarOrImm => [n.toNat]
  | .base => if f.x then [n.toNat] else []
  | .crngKey => if f.mod.getLsbD 0 then [n.toNat] else []
  | _ => []

/-- The tiles that an operand position names. -/
def Operand.tileRegs (o : Operand) (n : BitVec 8) : List Nat := match o with | .tile => [n.toNat] | _ => []

/-- Is D a source: the data register of a store, and the source of SWR (R48, R114)? -/
def Mnem.readsD (m : Mnem) : Bool := match m with | .stb | .stt | .stl | .swr => true | _ => false

/-- The sources in A, B and C, and in D where D is a source, as (class, number). -/
def Mnem.sources (m : Mnem) (f : Fields) : List (Operand × BitVec 8) :=
  let s := m.spec
  (if m.readsD then [(s.d, f.d)] else []) ++ [(s.a, f.a)] ++ (if f.imm then [] else [(s.b, f.b)]) ++ [(s.c, f.c)]

/-- The vector registers of which every active lane reads its own element. A shuffle's A, and the A of VEXTR, are read at
other lanes and are checked by those instructions. -/
def Mnem.ownReads (m : Mnem) (f : Fields) : List Nat :=
  let all := (m.sources f).flatMap fun x => x.1.vectorRegs f x.2
  match m with
  | .shflIdx => if f.imm then [] else [f.b.toNat]
  | .shflXor | .shflUp | .shflDn | .vextr => []
  | _ => all

/-- The scalar registers read. DEDUCED (log 161): SLI.HI reads its destination, whose low half it keeps. -/
def Mnem.scalarReads (m : Mnem) (f : Fields) : List Nat :=
  ((m.sources f).flatMap fun x => x.1.scalarRegs f x.2) ++ (if m == .sliHi then [f.d.toNat] else [])

/-- The vector registers written. -/
def Mnem.vectorWrites (m : Mnem) (f : Fields) : List Nat := if m.readsD then [] else m.spec.d.vectorRegs f f.d

/-- The scalar register written. -/
def Mnem.scalarWrites (m : Mnem) (f : Fields) : List Nat := if m.readsD then [] else m.spec.d.scalarRegs f f.d

/-- Every vector register and tile that the instruction names, for REG_RANGE (R17). -/
def Mnem.inRange (m : Mnem) (f : Fields) (b : Machine.Block) (w : Machine.Warp) : Bool :=
  let s := m.spec
  let pos := [(s.d, f.d), (s.a, f.a)] ++ (if f.imm then [] else [(s.b, f.b)]) ++ [(s.c, f.c)]
  (pos.flatMap fun x => x.1.vectorRegs f x.2).all (fun n => decide (n / 32 < w.bays.length)) &&
  (pos.flatMap fun x => x.1.tileRegs x.2).all (fun n => decide (n < b.tileCount))

/-- The in-flight path of an instruction (R64). -/
def Mnem.path (m : Mnem) : Option Machine.Path :=
  match m with
  | .ldb | .stb | .ldperm => some .ldb
  | .ldt | .stt | .cert | .certRel => some .ldt
  | .ldl | .stl => some .ldl
  | .atom | .atomc | .atomf | .afaddo | .accopen => some .atom
  | .mma | .mmaByp | .mmas | .mmasByp => some .mma
  | _ => none

/-- The instructions that an outstanding `.acq` holds (R159 (b)). DEDUCED: with them LDPERM, a BSM load, and CERT, which writes a header in
the scratchpad: an acquire happens before every later access of its warp (R222 (c), log 132). -/
def Mnem.heldByAcquire (m : Mnem) : Bool :=
  match m with
  | .ldb | .stb | .ldt | .stt | .ldl | .stl | .atom | .atomc | .atomf | .afaddo | .accopen
  | .mma | .mmaByp | .mmas | .mmasByp | .kick | .ldperm | .cert | .certRel => true
  | _ => false

/-- The instructions that wait for every operand that a restored MMA of their warp is still to read (R194, log 133): a matrix instruction,
whose operands the Matrix Unit fetches behind it, and CERT, which reads and writes headers. -/
def Mnem.heldByReread (m : Mnem) : Bool :=
  match m with
  | .mma | .mmaByp | .mmas | .mmasByp | .cert | .certRel => true
  | _ => false

/-- The instructions that raise no POISON for a poisoned scalar register that they read: R116, R133, R172 and R198 give them no such
cause (log 108). -/
def Mnem.ignoresPoison (m : Mnem) : Bool :=
  match m with
  | .ret | .swr | .ldperm | .barset | .bararr | .waitc | .kick | .mdrain | .mbyp | .mrd => true
  | _ => false

end Sys2Proof

namespace Sys2Proof.Machine

/-- The vector registers that an outstanding instruction will write. -/
def Op.vectorDst (x : Op) : List Nat :=
  match x.body with
  | .load _ size dst _ _ => if size == .pair then [dst, dst + 1] else [dst]
  | .atomic _ _ wide dst _ _ => if wide then [dst, dst + 1] else [dst]
  | .sfu dst _ _ => [dst]
  | .crng dst _ => [dst, dst + 1]
  | .tileRead dst _ _ _ => [dst]
  | _ => []

/-- The scalar register that an outstanding instruction will write. -/
def Op.scalarDst (x : Op) : List Nat :=
  match x.body with
  | .tileCert dst _ | .cert dst _ _ _ | .tighten dst _ _ => [dst]
  | _ => []

/-- The active lanes of an instruction (R54), within the lanes that RTT executes again (R110). -/
def Ctx.active (c : Ctx) (g : Guard) : LaneMask :=
  let sel := match g with
    | .all => c.slot.mask
    | .set m => c.slot.mask &&& c.w.m.get m.toNat
    | .clear m => c.slot.mask &&& ~~~(c.w.m.get m.toNat)
  match c.slot.resume with
  | some r => sel &&& r
  | none => sel

/-- Is the instruction a restored MMA that has not read all its operands again (R194)? -/
def Op.rereads (x : Op) : Bool := match x.body with | .mma k => k.restored && !k.fetched | _ => false

/-- The limit of an in-flight counter (R28). -/
def Path.limit (p : Path) : Nat := match p with | .mma => 15 | _ => 63

/-! ## Slots moved on -/

/-- The slot after an instruction of `words` words that does not transfer control: at the next instruction of its clause,
or at the next header. -/
def PcSlot.step (z : PcSlot) (words : Nat) : PcSlot :=
  { z with pc := z.pc.plus words, left := z.left - 1, resume := none, hold := .none }

/-- The slot at a clause header. -/
def PcSlot.goto (z : PcSlot) (pc : Pc) : PcSlot :=
  { z with pc := pc, left := 0, resume := none, hold := .none }

/-- An invalid slot. -/
def PcSlot.empty : PcSlot := {}

/-- A slot that starts lanes at a header. -/
def PcSlot.at (pc : Pc) (mask : LaneMask) : PcSlot := { valid := true, pc := pc, mask := mask, ch := pc }

/-! ## Taking a trap -/

/-- The completion flag that the next variable-latency instruction of the clause takes (R60, R67 (b)). -/
def PcSlot.nextFlag (z : PcSlot) : Option Nat :=
  if z.serial then none
  else
    let n := match z.issued with
      | 0 => z.setA.toNat
      | 1 => z.setB.toNat
      | _ => 15
    if n < 12 then some n else none

/-- R299: the trapping slot's earlier instructions, and the committing lanes of the trapping one, have completed; an
outstanding TIGHTEN stays, and so does an arrival of BARARR, which is of fixed latency (R64, R167). -/
def Ctx.trapReady (c : Ctx) : Bool :=
  c.w.ops.all fun x => x.slot != c.z || (match x.body with | .tighten .. | .arrive .. => true | _ => false)

namespace Tx

variable {o : Phys}

/-- Trap entry (R108), once R299 holds: the TRAP pair, FCAUSE, FMASK and FADDR, and the slot at TVEC; or the abort of the
block when the pair does not fit or TVEC is no clause header. It waits while the read of the word at TVEC is held. DESIGN CHOICE: the abort's
record keeps the address of the trap that could not be entered, and the slot's mask (log 148). -/
def trapEntry (t : Tx o) (r : WarpRef) (z : SlotId) : Tx o :=
  match t.sys.context r z with
  | none => t
  | some c =>
    match c.slot.trap with
    | none => t
    | some i =>
      if !c.trapReady then t
      else if 132 < c.w.rsp + 2 then t.abortBlock c.b.id .rsOverflow c.w.rank c.slot.pc.addr i.addr c.slot.mask
      else if codeHeld t.phys t.sys c.b c.w.tvec then t
      else if !targetOk t.phys t.sys c.b c.w.tvec then
        t.abortBlock c.b.id .illegalTarget c.w.rank c.slot.pc.addr i.addr c.slot.mask
      else
        let dist := (c.slot.pc - c.slot.ch).toNat
        let entry := RsEntry.trap c.slot.mask c.slot.pc i.resume i.cause.code (c.slot.left - 1) dist
        t.map fun s => s.putWarp r
          (({ c.w.withRs (c.w.rs ++ [entry]) with fcause := i.cause.code, fmask := i.resume, faddr := BitVec.ofNat 52 i.addr }).setSlot z
            fun y => { y with pc := c.w.tvec, left := 0, resume := none, hold := .none, trap := none, serial := false })

/-- The flush of a block (R264): everything it holds is discarded, its open slots are closed, and its node waits for a
restart; after a WINDOW_FAULT for the page. -/
def flush (t : Tx o) (b : Block) (page : Option Nat) (poison : Bool) : Tx o :=
  t.map fun s =>
    let r : Restart := { sweep := b.sweep, node := b.node.toNat, stage := b.stage, page := page,
                         poisonUsed := b.poisonRestart || poison, redispatch := b.redispatch, admitted := b.admitted,
                         resident := residentCycles s b, share := b.share, parentDrawer := b.parentDrawer, parentCert := b.parentCert }
    (((s.dropFaults b).dropBlock b).closeSlotsOf b).setTower b.tower fun x => { x with restarts := x.restarts ++ [r] }

end Tx

/-- Is a trap an error event, which is logged (R303)? DESIGN CHOICE: SOFT_TRAP and BREAKPOINT, which a program asks for, are none (log 117). -/
def Cause.isError (c : Cause) : Bool := c != .softTrap && c != .breakpoint

/-- R264 (a) to (c): IDEMP, no effect, NORST = 0; a spawn block has no node record. -/
def Block.restartable (b : Block) : Bool := b.idemp && !b.effect && !b.norst && !b.spawn

/-- The causes that R264 (d) serves by a restart: a WINDOW_FAULT, and a first consumed register poison. -/
def Block.restartsOn (b : Block) (i : TrapInfo) (register : Bool) : Bool :=
  b.restartable &&
    match i.cause with
    | .windowFault => true
    | .poison => register && !b.poisonRestart
    | _ => false

namespace Tx

variable {o : Phys}

/-- A fault at the instruction of a slot: the record of a window fault (R242, R301), then flush and restart where R264
allows it (R300: the flush wins), else the trap, whose entry begins at once if R299 already holds. `register` marks a
poisoned register element. -/
def raise (t : Tx o) (r : WarpRef) (z : SlotId) (i : TrapInfo) (register : Bool) : Tx o :=
  match t.sys.context r z with
  | none => t
  | some c =>
    let t0 := if i.cause.isError then t.map fun s => s.logError (.trapped i.cause r) else t
    let t1 := if i.cause == .windowFault then
        t0.appendError c.b.queue i.cause.code 1 0 c.b.stage c.b.node.toNat c.w.rank c.slot.pc.addr i.addr i.resume
      else t0
    if c.b.restartsOn i register then
      t1.flush c.b (if i.cause == .windowFault then some (i.addr / 65536) else none) (i.cause == .poison)
    else
      (t1.map fun s => s.setWarp r fun w => w.setSlot z fun y => { y with trap := some i, hold := .none }).trapEntry r z

end Tx

/-! ## The checks in front of an instruction -/

/-- What stands in front of an instruction's own effect. -/
inductive Admit where
  /-- it issues, with its active lanes and the flag it takes -/
  | go (active : LaneMask) (flag : Option Nat)
  | held (h : Hold)
  | fault (i : TrapInfo) (register : Bool)
deriving DecidableEq, Repr

/-- Is an in-flight counter of the instruction at its limit (R28)? -/
def Ctx.counterFull (c : Ctx) (m : Mnem) : Bool :=
  match m.path with
  | some p => decide (p.limit ≤ c.w.inFlight p)
  | none => false

/-- Finds a store of some lane the store buffer full (R29)? -/
def Ctx.bufferFull (c : Ctx) (m : Mnem) (active : LaneMask) : Bool :=
  (m == .stb || m == .stt) && active != 0 && decide (32 ≤ c.w.usc)

/-- Is the next instruction of a slot behind an `.acq` in program order (R220): the slot has issued the `.acq` or an instruction behind it
(a), or one of its lanes has been in a slot behind it before a join or a split (b), (c)? -/
def Warp.behindAcquire (w : Warp) (z : SlotId) (x : Op) : Bool :=
  match x.acq with
  | some k => x.slot == z || x.acqSlots.contains z || k &&& (w.slot z).mask != 0
  | none => false

/-- Does an outstanding `.acq` stand before the slot's next instruction in program order (R159 (b), R220)? -/
def Ctx.acquirePending (c : Ctx) : Bool := c.w.ops.any (c.w.behindAcquire c.z)

/-- What follows an `.acq` once a control instruction has turned the warp `w` into another: a slot behind it, the lanes that the slot had,
which may go to the other side of a split, and those that it has now, which a join or a PEND entry may have added (R220). -/
def Op.carryAcquire (w v : Warp) (x : Op) : Op :=
  let part := fun (z : SlotId) => if w.behindAcquire z x then (w.slot z).mask ||| (v.slot z).mask else 0
  { x with acq := x.acq.map fun k => k ||| part .A ||| part .B
           acqSlots := [SlotId.A, .B].filter fun z => w.behindAcquire z x }

/-- A warp after a control instruction, each outstanding `.acq` with what now follows it. -/
def Warp.carryAcquires (v w : Warp) : Warp := { v with ops := v.ops.map fun x => x.carryAcquire w v }

/-- Will an outstanding instruction of the warp write a register that the instruction writes (R65 (c))? RPR is one (R193). -/
def Ctx.writeOutstanding (c : Ctx) (m : Mnem) (f : Fields) : Bool :=
  let vw := m.vectorWrites f
  let sw := m.scalarWrites f
  c.w.ops.any fun x => x.vectorDst.any vw.contains || x.scalarDst.any sw.contains ||
    (m == .swr && f.statusNumber == 0x027 && match x.body with | .mma _ => true | _ => false)

/-- The waits at issue that any instruction may meet (R28, R29, R63 (b), R65 (c), R67 (b), R126, R159 (b), R194). -/
def Ctx.waits (c : Ctx) (m : Mnem) (f : Fields) (active : LaneMask) : Option Hold :=
  let z := c.slot
  let w := c.w
  if w.draining.any (fun id => (w.op id).isSome) then some .restoreDrain
  else if (match z.serialOp with | some id => (w.op id).isSome | none => false) then some .serial
  else if w.ops.any (fun x => x.slot == c.z && (match x.body with | .mma k => !k.fetched && !k.restored | _ => false)) then some .rowFetch
  else if m.heldByAcquire && c.acquirePending then some .acquire
  else if m.heldByReread && w.ops.any Op.rereads then some .restoredMma
  else if m.variableLatency && (match z.nextFlag with | some n => w.flagSeen n | none => false) then some .flagBusy
  else if c.writeOutstanding m f then some .outstandingWrite
  else if (m == .bperm || m == .ldperm) && w.ops.any (fun x => match x.body with | .loadPerm _ => true | _ => false) then some .permLoad
  else if c.counterFull m then some .fullCounter
  else if c.bufferFull m active then some .fullStoreBuffer
  else none

/-- REG_RANGE and POISON (R17, R119), with resume mask = the active set, and whether an element so consumed has its poison from memory
(R264 (d)); no load writes a scalar register. An instruction with an empty active set names nothing. -/
def Ctx.registerFault (c : Ctx) (m : Mnem) (f : Fields) (active : LaneMask) : Option (TrapInfo × Bool) :=
  if active == 0 then none
  else if !m.inRange f c.b c.w then some ({ cause := .regRange, resume := active }, false)
  else if !c.w.vPoison.isEmpty && (m.ownReads f).any (fun n => active.lanes.any fun l => c.w.elemPoisoned n l) then
    some ({ cause := .poison, resume := active }, (m.ownReads f).any fun n => active.lanes.any fun l => c.w.elemLoaded n l)
  else if !c.w.sPoison.isEmpty && !m.ignoresPoison && (m.scalarReads f).any (fun n => NatSet.has c.w.sPoison n) then
    some ({ cause := .poison, resume := active }, false)
  else none

/-- The checks in front of an instruction, in order: the waits at issue, then REG_RANGE, then POISON. -/
def Ctx.admits (c : Ctx) (m : Mnem) (f : Fields) : Admit :=
  let e := c.active f.guard
  match c.waits m f e with
  | some h => .held h
  | none =>
    match c.registerFault m f e with
    | some (i, r) => .fault i r
    | none => .go e (if m.variableLatency then c.slot.nextFlag else none)

/-! ## Waits that slices take turns in -/

/-- The saved slot mask of the topmost TRAP pair. -/
def Warp.trapMask (w : Warp) : Option LaneMask :=
  w.rs.reverse.findSome? fun e => match e with | .trap m .. => some m | _ => none

/-- R100: a TRAP pair keeps the slot from issuing. -/
def Warp.trapBlocked (w : Warp) (z : SlotId) : Bool :=
  match w.trapMask with
  | some m => (w.slot z).mask &&& ~~~m != 0
  | none => false

/-- Is the first restored MMA of a warp that is to read its operands again still to be counted in its window (R295 (d))? -/
def Warp.recounts (w : Warp) : Bool :=
  match w.ops.find? Op.rereads with
  | some x => (match x.body with | .mma k => !k.counted && k.waitPage.isNone | _ => false)
  | none => false

/-- Does a slot of a slice wait at issue for a reason, while nothing else keeps it from issuing? For the slew clamp a restored MMA waits in
the same way. -/
def Sys.sliceWaits (s : Sys) (c : CoreRef) (h : Hold) (slice : Nat) : Bool :=
  (s.coreBlocks c).any fun b => !b.stopping && b.warps.any fun w =>
    w.slice == slice && ((h == .slew && w.recounts) || (w.slotA.trap.isNone && w.slotB.trap.isNone &&
      [SlotId.A, .B].any fun z => (w.slot z).valid && (w.slot z).hold == h && !w.trapBlocked z))

/-- Is it a slice's turn among the slices that wait for a reason, in rotating order from slice (cycle mod 6) (R283 (b), R295 (c))? -/
def Sys.sliceTurn (s : Sys) (c : CoreRef) (h : Hold) (slice : Nat) : Bool :=
  let start := (s.tower c.tower).clock.toNat % 6
  ((List.range 6).map fun i => (start + i) % 6).find? (fun k => k == slice || s.sliceWaits c h k) == some slice

/-- The slot held at issue: nothing is performed. -/
def Sys.hold (s : Sys) (c : Ctx) (h : Hold) : Sys := s.setWarp c.ref fun w => w.setSlot c.z fun z => { z with hold := h }

/-- An instruction of the issuing slot: its waits and register faults, then its own effect. DEDUCED (log 108): a poisoned index of BRX is
found here, before any of its targets is looked at. -/
def issue (m : Mnem) (f : Fields) (s : State)
    (k : (o : Phys) → Tx o → Ctx → LaneMask → Option Nat → Tx o) : Host.Outcome State Fault Refusal :=
  match s.sys.issuing with
  | none => .fault .noSlot
  | some c =>
    match c.admits m f with
    | .held h => keepMemory s fun _ y => y.hold c h
    | .fault i r => work s fun _ t => t.raise c.ref c.z i r
    | .go e flag => work s fun o t => k o t c e flag

/-- The slot's instruction done in a warp: the new warp, then the next instruction. -/
def Tx.doneIn {o : Phys} (t : Tx o) (c : Ctx) (w : Warp) : Tx o := t.map fun y => y.putWarp c.ref (w.setSlot c.z fun z => z.step y.words)

/-- An instruction of fixed latency that changes only its warp. -/
def fixedOp (m : Mnem) (f : Fields) (s : State) (g : Ctx → LaneMask → Warp) : Host.Outcome State Fault Refusal :=
  issue m f s fun _ t c e _ => t.doneIn c (g c e)

/-- An instruction of fixed latency that reads vector elements, (register, lane), at lanes of its choice: poison in one of them raises
POISON (R119). -/
def laneReadOp (m : Mnem) (f : Fields) (s : State) (reads : Ctx → LaneMask → List (Nat × Nat)) (g : Ctx → LaneMask → Warp) :
    Host.Outcome State Fault Refusal :=
  issue m f s fun _ t c e _ =>
    let xs := reads c e
    if xs.any fun x => c.w.elemPoisoned x.1 x.2 then
      t.raise c.ref c.z { cause := .poison, resume := e } (xs.any fun x => c.w.elemLoaded x.1 x.2)
    else t.doneIn c (g c e)

/-- An instruction of variable latency at work: it takes the next number, its flag and its path; in serial mode the next
instruction waits for it. -/
def Sys.startOp (s : Sys) (c : Ctx) (m : Mnem) (flag : Option Nat) (body : OpBody) : Sys :=
  let (id, s1) := s.next
  let path := m.path
  s1.setWarp c.ref fun w =>
    Warp.setSlot { w with ops := w.ops ++ [{ id := id, slot := c.z, flag := flag, path := path, body := body }] } c.z
      fun z => { z.step s.words with issued := z.issued + 1, serialOp := if z.serial then some id else none }

/-- An instruction of variable latency that completes at its issue: it counts in its clause and goes on. -/
def Sys.completedOp (s : Sys) (c : Ctx) (f : Warp → Warp) : Sys :=
  s.setWarp c.ref fun w => (f w).setSlot c.z fun z => { z.step s.words with issued := z.issued + 1 }

end Sys2Proof.Machine
end

