-- ==== Sys2Proof/Machine/Float.lean ====
section
/-! DEFINITION. Number formats and the one rounding (R71 to R88): values of the floating-point formats, exact sums and
products, the rounding to a format with its flags, and the conversions. -/

namespace Sys2Proof.Machine

/-! ## Formats -/

/-- The floating-point formats with an encoding (R73, R76), in the order of the type codes (R58). -/
inductive FloatFmt where
  | fp32
  | fp16
  | bf16
  | e4m3
  | e5m2
  | e2m1
  | e8m0
deriving DecidableEq, Repr

/-- The format of a type code in the float domain (R58); AUTO never reaches here. -/
def FloatFmt.ofCode (c : Nat) : FloatFmt :=
  match c with
  | 0 => .fp32
  | 1 => .fp16
  | 2 => .bf16
  | 3 => .e4m3
  | 4 => .e5m2
  | 5 => .e2m1
  | _ => .e8m0

/-- The width of the fraction field F (R73). -/
def FloatFmt.frac (f : FloatFmt) : Nat :=
  match f with
  | .fp32 => 23
  | .fp16 => 10
  | .bf16 => 7
  | .e4m3 => 3
  | .e5m2 => 2
  | .e2m1 => 1
  | .e8m0 => 0

/-- The width of the exponent field E (R73). -/
def FloatFmt.expBits (f : FloatFmt) : Nat :=
  match f with
  | .fp32 | .bf16 | .e8m0 => 8
  | .fp16 | .e5m2 => 5
  | .e4m3 => 4
  | .e2m1 => 2

/-- The bias (R73). -/
def FloatFmt.bias (f : FloatFmt) : Nat :=
  match f with
  | .fp32 | .bf16 | .e8m0 => 127
  | .fp16 | .e5m2 => 15
  | .e4m3 => 7
  | .e2m1 => 1

/-- The bits of an encoding. -/
def FloatFmt.bits (f : FloatFmt) : Nat :=
  match f with
  | .e8m0 => 8
  | _ => 1 + f.expBits + f.frac

/-- The encoding of the greatest finite magnitude (R73, R76). -/
def FloatFmt.maxCode (f : FloatFmt) : Nat :=
  match f with
  | .fp32 => 0x7F7FFFFF
  | .fp16 => 0x7BFF
  | .bf16 => 0x7F7F
  | .e4m3 => 0x7E
  | .e5m2 => 0x7B
  | .e2m1 => 0x7
  | .e8m0 => 0xFE

/-- The encoding of +∞ in the formats that have one (R74). -/
def FloatFmt.infCode (f : FloatFmt) : Option Nat :=
  match f with
  | .fp32 => some 0x7F800000
  | .fp16 => some 0x7C00
  | .bf16 => some 0x7F80
  | .e5m2 => some 0x7C
  | _ => none

/-- The canonical NaN (R74); E2M1 has none and takes +0 (R86). -/
def FloatFmt.nanCode (f : FloatFmt) : Nat :=
  match f with
  | .fp32 => 0x7FC00000
  | .fp16 => 0x7E00
  | .bf16 => 0x7FC0
  | .e4m3 => 0x7F
  | .e5m2 => 0x7E
  | .e2m1 => 0
  | .e8m0 => 0xFF

/-- Does FTZ apply to the format as a destination (R79 (d))? -/
def FloatFmt.flushes (f : FloatFmt) : Bool :=
  match f with
  | .fp32 | .fp16 | .bf16 => true
  | _ => false

/-- The exponent of the last place of a subnormal. -/
def FloatFmt.minExp (f : FloatFmt) : Int := 1 - (f.bias : Int) - f.frac

/-- The width of an integer type code (R58, R71). -/
def intBits (c : Nat) : Nat :=
  match c with
  | 0 | 1 => 32
  | 2 | 3 => 16
  | 4 | 5 => 8
  | _ => 64

/-- Is an integer type code signed (R71)? -/
def intSigned (c : Nat) : Bool := c % 2 == 0

/-- The minimum of an integer type (R71). -/
def intMin (c : Nat) : Int := if intSigned c then -(2 ^ (intBits c - 1) : Int) else 0

/-- The maximum of an integer type (R71). -/
def intMax (c : Nat) : Int := if intSigned c then 2 ^ (intBits c - 1) - 1 else 2 ^ intBits c - 1

/-- A value clamped to an integer type (R72). -/
def intClamp (c : Nat) (x : Int) : Int := max (intMin c) (min (intMax c) x)

/-! ## Values -/

/-- The value of a number: NaN (signalling or quiet), ±∞, or (−1)^neg × m × 2^e. -/
inductive Num where
  | nan (signalling : Bool)
  | inf (neg : Bool)
  | fin (neg : Bool) (m : Nat) (e : Int)
deriving DecidableEq, Repr

/-- The value of an encoding (R73, R74, R76). -/
def FloatFmt.value (f : FloatFmt) (x : Nat) : Num :=
  match f with
  | .e8m0 => if x % 256 == 255 then .nan false else .fin false 1 ((x % 256 : Nat) - 127 : Int)
  | _ =>
    let y := x % 2 ^ f.bits
    let neg := natBit y (f.bits - 1)
    let e := natBits y (f.bits - 2) f.frac
    let m := y % 2 ^ f.frac
    let top := 2 ^ f.expBits - 1
    let finite : Num := if e == 0 then .fin neg m f.minExp else .fin neg (2 ^ f.frac + m) (f.minExp + (e - 1 : Nat))
    match f with
    | .e2m1 => finite
    | .e4m3 => if e == top && m == 7 then .nan false else finite
    | .e5m2 => if e == top then (if m == 0 then .inf neg else .nan false) else finite
    | _ => if e == top then (if m == 0 then .inf neg else .nan (!natBit m (f.frac - 1))) else finite

/-- The value of an FP32 encoding. -/
def fp32 (x : Word) : Num := FloatFmt.fp32.value x.toNat

/-- The exact value of an integer. -/
def Num.ofInt (x : Int) : Num := .fin (decide (x < 0)) x.natAbs 0

/-! ## Flags -/

/-- The bits of FLAGS[4:0] (R93). -/
def flagIV : BitVec 5 := 1
def flagDZ : BitVec 5 := 2
def flagOF : BitVec 5 := 4
def flagUF : BitVec 5 := 8
def flagIX : BitVec 5 := 16

/-- IV when a condition holds. -/
def ivIf (b : Bool) : BitVec 5 := if b then flagIV else 0

/-- Is a value a NaN? -/
def Num.isNaN (x : Num) : Bool := match x with | .nan _ => true | _ => false

/-- Is a value a signalling NaN? -/
def Num.isSig (x : Num) : Bool := match x with | .nan s => s | _ => false

/-- Is a value ±0? -/
def Num.isZero (x : Num) : Bool := match x with | .fin _ 0 _ => true | _ => false

/-- The sign of a value; a NaN has none. -/
def Num.neg (x : Num) : Bool := match x with | .nan _ => false | .inf s => s | .fin s _ _ => s

/-- The negated value. -/
def Num.negate (x : Num) : Num := match x with | .nan s => .nan s | .inf s => .inf (!s) | .fin s m e => .fin (!s) m e

/-! ## Exact operations -/

/-- The exact product (R88): the value and IV. -/
def Num.mul (x y : Num) : Num × BitVec 5 :=
  let sig := ivIf (x.isSig || y.isSig)
  match x, y with
  | .nan _, _ | _, .nan _ =>
    (.nan false, sig)
  | .inf s, .inf t => (.inf (s != t), 0)
  | .inf s, .fin t m _ | .fin t m _, .inf s => if m == 0 then (.nan false, flagIV) else (.inf (s != t), 0)
  | .fin s m e, .fin t n f => (.fin (s != t) (m * n) (e + f), 0)

/-- A term as a signed multiple of 2^g, where g is at most its exponent. -/
def Num.scaled (g : Int) (x : Num) : Int :=
  match x with
  | .fin s m e => let v : Int := m * 2 ^ (e - g).toNat; if s then -v else v
  | _ => 0

/-- The least exponent among the nonzero finite terms. -/
def leastExp (xs : List Num) : Int :=
  let es := xs.filterMap fun x => match x with | .fin _ m e => if m == 0 then none else some e | _ => none
  match es with
  | [] => 0
  | e :: rest => rest.foldl min e

/-- The exact sum of terms (R88, R79 (e)): the value and IV. `down` is RD. -/
def sumNums (down : Bool) (xs : List Num) : Num × BitVec 5 :=
  let pos := xs.any fun x => x == .inf false
  let neg := xs.any fun x => x == .inf true
  if xs.any Num.isNaN then (.nan false, ivIf (xs.any Num.isSig || (pos && neg)))
  else
    if pos && neg then (.nan false, flagIV)
    else if pos then (.inf false, 0)
    else if neg then (.inf true, 0)
    else
      let g := leastExp xs
      let s := (xs.map (Num.scaled g)).foldl (· + ·) 0
      if s == 0 then
        if xs.all Num.neg then (.fin true 0 0, 0)
        else if xs.any Num.neg && down then (.fin true 0 0, 0)
        else (.fin false 0 0, 0)
      else (.fin (decide (s < 0)) s.natAbs g, 0)

/-- The sum of products and an addend, every product exact (R88, R90). -/
def dotNums (down : Bool) (ps : List (Num × Num)) (c : Option Num) : Num × BitVec 5 :=
  let prods := ps.map fun p => p.1.mul p.2
  let terms := prods.map Prod.fst ++ (match c with | some x => [x] | none => [])
  let s := sumNums down terms
  (s.1, prods.foldl (fun f p => f ||| p.2) s.2)

/-! ## Rounding -/

/-- A rounding mode with the draw of R81 for SR. -/
structure Rounding where
  mode : Rnd := .rn
  draw : Nat := 0
deriving DecidableEq, Repr

/-- Round to nearest, ties to even. -/
def nearest : Rounding := {}

/-- Round toward zero. -/
def towardZero : Rounding := { mode := .rz }

/-- A magnitude to be rounded: m × 2^e, or a number strictly between m and m + 1 times 2^e when `sticky` holds. -/
structure Exact where
  neg : Bool
  m : Nat
  e : Int
  sticky : Bool := false
deriving DecidableEq, Repr

/-- The rounding of a magnitude to a multiple of 2^g (R80): the multiple, whether it is inexact, and whether the greater
bracket was chosen. -/
def Exact.toGrid (r : Rounding) (x : Exact) (g : Int) : Nat × Bool × Bool :=
  if g ≤ x.e then (x.m * 2 ^ (x.e - g).toNat, x.sticky, false)
  else
    let sh := min (g - x.e).toNat (x.m.log2 + 24)
    let q := x.m / 2 ^ sh
    let rest := x.m % 2 ^ sh
    if rest == 0 && !x.sticky then (q, false, false)
    else
      let up := match r.mode with
        | .rn => decide (2 ^ sh < 2 * rest) || (2 * rest == 2 ^ sh && (x.sticky || q % 2 == 1))
        | .rz => false
        | .ru => !x.neg
        | .rd => x.neg
        | .ra => decide (2 ^ sh ≤ 2 * rest)
        | .sr => decide (r.draw < 2 ^ 16 * rest / 2 ^ sh)
      (if up then q + 1 else q, true, up)

/-- The rounding of a nonzero magnitude to p bits with the exponent unbounded (R79 (a)): the significand and its last
place, whether it is inexact, and whether the greater bracket was chosen. -/
def Exact.toPrecision (r : Rounding) (x : Exact) (p : Nat) : Nat × Int × Bool × Bool :=
  let g := x.e + (x.m.log2 : Int) + 1 - p
  if g ≤ x.e then (x.m, x.e, x.sticky, false)
  else
    let t := x.toGrid r g
    (t.1, g, t.2.1, t.2.2)

/-- The exponent of the leading bit of m × 2^e. -/
def leadExp (m : Nat) (e : Int) : Int := e + m.log2

/-- Does m × 2^e exceed n × 2^f, both positive? -/
def magGreater (m : Nat) (e : Int) (n : Nat) (f : Int) : Bool :=
  if leadExp m e < leadExp n f then false
  else if leadExp n f < leadExp m e then true
  else
    let g := min e f
    decide (n * 2 ^ (f - g).toNat < m * 2 ^ (e - g).toNat)

/-- The sign bit of a format. -/
def FloatFmt.signBit (f : FloatFmt) (neg : Bool) : Nat :=
  match f with
  | .e8m0 => 0
  | _ => if neg then 2 ^ (f.bits - 1) else 0

/-- The encoding of a representable m × 2^e, without its sign. -/
def FloatFmt.encodeMag (f : FloatFmt) (m : Nat) (e : Int) : Nat :=
  if m == 0 then 0
  else match f with
    | .e8m0 => (leadExp m e + 127).toNat
    | _ =>
      let k := (f.minExp + f.frac)          -- the exponent of the least normal
      if leadExp m e < k then m * 2 ^ (e - f.minExp).toNat
      else
        let g := leadExp m e - f.frac
        let sig := if g ≤ e then m * 2 ^ (e - g).toNat else m / 2 ^ (g - e).toNat
        ((leadExp m e - k).toNat + 1) * 2 ^ f.frac + (sig - 2 ^ f.frac)

/-- The greatest finite magnitude of a format. -/
def FloatFmt.maxMag (f : FloatFmt) : Nat × Int :=
  match f.value f.maxCode with
  | .fin _ m e => (m, e)
  | _ => (0, 0)

/-- An overflowed result (R82). -/
def FloatFmt.overflow (f : FloatFmt) (r : Rounding) (sat neg up : Bool) : Nat × BitVec 5 :=
  let toInf := match r.mode with
    | .rn | .ra => true
    | .ru => !neg
    | .rd => neg
    | .rz => false
    | .sr => up
  if sat then (f.signBit neg + f.maxCode, flagIX)
  else if !toInf then (f.signBit neg + f.maxCode, flagOF ||| flagIX)
  else match f with
    | .e4m3 => (0x7F, flagOF ||| flagIX)
    | .e2m1 => (f.signBit neg + f.maxCode, flagOF ||| flagIX)
    | .e8m0 => (0xFF, flagOF ||| flagIX)
    | _ => (f.signBit neg + f.infCode.getD 0, flagOF ||| flagIX)

/-- RN to E8M0 resolves its tie upward (R86). -/
def FloatFmt.mode (f : FloatFmt) (r : Rounding) : Rounding :=
  match f, r.mode with
  | .e8m0, .rn => { r with mode := .ra }
  | _, _ => r

/-- The exponent below which a result is tiny (R79 (c)): that of the least normal, and of 2^−127 in E8M0 (R76, R86). -/
def FloatFmt.leastExp (f : FloatFmt) : Int :=
  match f with
  | .e8m0 => -127
  | _ => f.minExp + f.frac

/-- The rounding of a magnitude to a format (R79, R82): the encoding and the flags. DEDUCED: with FLAGS.FTZ = 1 a subnormal result is
replaced by a zero with UF and IX also where the value is exact (R79 (d)), in a conversion that R83 and R86 call exact as in any
other (log 106). -/
def FloatFmt.round (f : FloatFmt) (r0 : Rounding) (sat ftz : Bool) (x : Exact) : Nat × BitVec 5 :=
  let r := f.mode r0
  if x.m == 0 && !x.sticky then (f.signBit x.neg, 0)
  else
    let (m, e, inexact, up) := x.toPrecision r (f.frac + 1)
    let top := f.maxMag
    let least := f.leastExp
    if magGreater m e top.1 top.2 then f.overflow r sat x.neg up
    else if leadExp m e < least then
      if f == .e8m0 then (0, flagUF ||| flagIX)
      else if ftz && f.flushes then (f.signBit x.neg, flagUF ||| flagIX)
      else
        let (k, bad, _) := x.toGrid r f.minExp
        (f.signBit x.neg + f.encodeMag k f.minExp, if bad then flagUF ||| flagIX else 0)
    else (f.signBit x.neg + f.encodeMag m e, if inexact then flagIX else 0)

/-- The delivery of an arithmetic result in FP32, FP16 or BF16 (R75, R79, R82). -/
def FloatFmt.deliver (f : FloatFmt) (r : Rounding) (sat ftz : Bool) (x : Num) : Nat × BitVec 5 :=
  match x with
  | .nan _ => (f.nanCode, 0)
  | .inf s => (f.signBit s + f.infCode.getD 0, 0)
  | .fin s m e => f.round r sat ftz { neg := s, m := m, e := e }

/-- The rounding of a value to FP32X (R78): 24 bits of precision, within its exponent range. -/
def roundX (x : Num) : Num × BitVec 5 :=
  match x with
  | .fin s m e =>
    if m == 0 then (x, 0)
    else
      let y : Exact := { neg := s, m := m, e := e }
      if leadExp m e < -510 then
        let (k, bad, _) := y.toGrid nearest (-533)
        (.fin s k (-533), if bad then flagIX else 0)
      else
        let (k, g, bad, _) := y.toPrecision nearest 24
        (.fin s k g, if bad then flagIX else 0)
  | _ => (x, 0)

/-! ## Conversions -/

/-- A conversion of a value to a floating-point format (R83, R85, R86). DEDUCED: FTZ applies to its subnormal result (log 106). -/
def FloatFmt.convert (f : FloatFmt) (r : Rounding) (sat ftz : Bool) (x : Num) : Nat × BitVec 5 :=
  match x with
  | .nan sig =>
    match f with
    | .e2m1 => (0, flagIV)
    | _ => (f.nanCode, ivIf sig)
  | .inf s =>
    match f with
    | .e4m3 => if sat then (f.signBit s + 0x7E, 0) else (0x7F, flagIV)
    | .e2m1 => (f.signBit s + 7, if sat then 0 else flagOF)
    | .e8m0 => if s then (0xFF, flagIV) else if sat then (0xFE, 0) else (0xFF, flagOF)
    | _ => (f.signBit s + f.infCode.getD 0, 0)
  | .fin s m e =>
    match f with
    | .e8m0 => if m == 0 || s then (0xFF, flagIV) else f.round r sat ftz { neg := s, m := m, e := e }
    | _ => f.round r sat ftz { neg := s, m := m, e := e }

/-- A conversion of a value to an integer type (R84, R86): the integer and the flags. A negative value that rounds to zero
gives 0 in an N type without a flag. -/
def toInteger (c : Nat) (r : Rounding) (x : Num) : Int × BitVec 5 :=
  match x with
  | .nan _ => (0, flagIV)
  | .inf s => (if s then intMin c else intMax c, flagIV)
  | .fin s m e =>
    -- beyond 2^70 every type clamps
    if m != 0 && decide (70 < leadExp m e) then (if s then intMin c else intMax c, flagIV)
    else
      let (k, bad, _) := Exact.toGrid r { neg := s, m := m, e := e } 0
      let v : Int := if s then -(k : Int) else k
      if s && k == 0 && !intSigned c then (0, 0)
      else if intClamp c v == v then (v, if bad then flagIX else 0) else (intClamp c v, flagIV)

/-- The rounding of FP32 to an integral value (R140). -/
def roundIntegral (r : Rounding) (x : Word) : Word × BitVec 5 :=
  match fp32 x with
  | .nan sig => (BitVec.ofNat 32 FloatFmt.fp32.nanCode, ivIf sig)
  | .inf _ => (x, 0)
  | .fin s m e =>
    if m == 0 || 0 ≤ e then (x, 0)
    else
      let (k, bad, _) := Exact.toGrid r { neg := s, m := m, e := e } 0
      (BitVec.ofNat 32 (FloatFmt.fp32.signBit s + FloatFmt.fp32.encodeMag k 0), if bad then flagIX else 0)

/-! ## Comparison -/

/-- The order of FP32 encodings that are no NaN, with −0 equal to +0. -/
def fp32Key (x : Word) : Int :=
  let mag : Int := (x.toNat % 2 ^ 31 : Nat)
  if natBit x.toNat 31 then -mag else mag

/-- a below b, −0 ordered below +0 (R137). -/
def fp32Below (a b : Word) : Bool :=
  decide (fp32Key a < fp32Key b) || (fp32Key a == fp32Key b && natBit a.toNat 31 && !natBit b.toNat 31)

/-- FMIN (`less = true`) and FMAX (R137). -/
def fp32MinMax (less : Bool) (a b : Word) : Word × BitVec 5 :=
  let x := fp32 a
  let y := fp32 b
  let iv := ivIf (x.isSig || y.isSig)
  match x.isNaN, y.isNaN with
  | true, true => (BitVec.ofNat 32 FloatFmt.fp32.nanCode, iv)
  | true, false => (b, iv)
  | false, true => (a, iv)
  | false, false => (if less then (if fp32Below b a then b else a) else (if fp32Below a b then b else a), iv)

/-! ## The counter-based generator -/

/-- The state of CRNG: x0 to x3, k0 and k1. -/
structure CrngState where
  x0 : Word
  x1 : Word
  x2 : Word
  x3 : Word
  k0 : Word
  k1 : Word
deriving DecidableEq, Repr

/-- One round (R132). -/
def CrngState.round (c : CrngState) : CrngState :=
  let p0 : DWord := c.x0.setWidth 64 * 0xD2A81B57#64
  let p1 : DWord := c.x2.setWidth 64 * 0xC83E6A2D#64
  let hi := fun (p : DWord) => p.extractLsb' 32 32
  let lo := fun (p : DWord) => p.extractLsb' 0 32
  let y0 := hi p1 ^^^ c.x1 ^^^ c.k0
  let y1 := (lo p1).rotateLeft 13 + y0
  let y2 := hi p0 ^^^ c.x3 ^^^ c.k1
  let y3 := (lo p0).rotateLeft 7 + y2
  { x0 := y0, x1 := y1, x2 := y2, x3 := y3, k0 := c.k0 + 0x9E3779B9#32, k1 := c.k1 + 0xB7E15163#32 }

/-- Rounds repeated. -/
def CrngState.rounds : Nat → CrngState → CrngState
  | 0, c => c
  | n + 1, c => CrngState.rounds n c.round

/-- The four words after the tenth round (R132). -/
def crng (x0 x1 : Word) (stream key : DWord) : CrngState :=
  CrngState.rounds 10 { x0 := x0, x1 := x1, x2 := stream.extractLsb' 0 32, x3 := stream.extractLsb' 32 32,
                        k0 := key.extractLsb' 0 32, k1 := key.extractLsb' 32 32 }

/-- The draw of stochastic rounding for an element (R81). -/
def srDraw (key : DWord) (seed : Word) (e : Nat) : Nat :=
  natBits (crng (BitVec.ofNat 32 e + seed) 0 0 key).x0.toNat 31 16

end Sys2Proof.Machine
end

