-- ==== Sys2Proof/Machine/Special.lean ====
section
/-! DEFINITION. The special functions (R144, R145): the exact value of each at an FP32 operand, to as many bits as any
rounding needs. RCP, RSQ and SQRT are exact by integer division and root; EXP2, LOG2, SIN and COS are bracketed in fixed
point with 320 fraction bits. DEDUCED: the bracket decides every rounding that the 41 leading bits of both ends agree on;
where they do not, the choice is `Config.specialTie`, so nothing is claimed of it. -/

namespace Sys2Proof.Machine

/-- The special functions. -/
inductive SpecialFn where
  | rcp
  | rsq
  | sqrt
  | exp2
  | log2
  | sin
  | cos
deriving DecidableEq, Repr

/-- The value of a function at an operand: a special result with its flags (R145), or a magnitude to round. -/
inductive SpecialValue where
  | special (bits : Nat) (flags : BitVec 5)
  | value (x : Exact)
deriving DecidableEq, Repr

/-- The integer square root, from its highest bit down: `r` is the root found so far. -/
def rootBits (n : Nat) : Nat → Nat → Nat
  | 0, r => r
  | k + 1, r =>
    let s := r + 2 ^ k
    rootBits n k (if s * s ≤ n then s else r)

/-- floor(√n). -/
def rootFloor (n : Nat) : Nat := rootBits n (n.log2 / 2 + 1) 0

/-- The fraction bits of the fixed-point work. -/
def specialBits : Nat := 320

/-- ln 2 × 2^320, rounded down. -/
def ln2Fixed : Nat := 0xb17217f7d1cf79abc9e3b39803f2f6af40f343267298b62d8a0d175b8baafa2be7b876206debac98

/-- π × 2^640, rounded down. -/
def piFixed : Nat :=
  0x3243f6a8885a308d313198a2e03707344a4093822299f31d0082efa98ec4e6c89452821e638d01377be5466cf34e90c6cc0ac29b7c97c50dd3f84d5b5b54709179216d5d98979fb1bd1310ba698dfb5ac

/-- A bound on the error of the fixed-point work, in units of 2^−320. -/
def specialError : Nat := 2 ^ 20

/-- The magnitude strictly between (v − error) and (v + error) times 2^−320. -/
def bracket (neg : Bool) (v : Nat) : SpecialValue :=
  let lo := v - specialError
  let hi := v + specialError
  let sh := lo.log2 - 40
  let a := lo / 2 ^ sh
  let b := hi / 2 ^ sh
  let m := if a == b then a else if Config.specialTie v then b else a
  .value { neg := neg, m := m, e := (sh : Int) - specialBits, sticky := true }

/-- The odd series t + t·z²/3 + t·z⁴/5 + … in fixed point. -/
def atanhSeries (z2 : Nat) : Nat → Nat → Nat → Nat → Nat
  | 0, _, _, acc => acc
  | n + 1, k, t, acc =>
    let t1 := t * z2 / 2 ^ specialBits
    atanhSeries z2 n (k + 2) t1 (acc + t1 / (k + 2))

/-- log2 y for y in [1, 2), y = m / 2^23, in fixed point. -/
def log2Fixed (m : Nat) : Nat :=
  let z := (m - 2 ^ 23) * 2 ^ specialBits / (m + 2 ^ 23)
  let ln := 2 * atanhSeries (z * z / 2 ^ specialBits) 110 1 z z
  ln * 2 ^ specialBits / ln2Fixed

/-- The series 1 + t + t²/2! + … in fixed point. -/
def expSeries (t : Nat) : Nat → Nat → Nat → Nat → Nat
  | 0, _, _, acc => acc
  | n + 1, k, term, acc =>
    let next := term * t / (k * 2 ^ specialBits)
    expSeries t n (k + 1) next (acc + next)

/-- 2^f for f in [0, 1), in fixed point. -/
def exp2Fixed (f : Nat) : Nat :=
  let t := f * ln2Fixed / 2 ^ specialBits
  expSeries t 80 1 (2 ^ specialBits) (2 ^ specialBits)

/-- The alternating series of sine (k = 1, term = r) and cosine (k = 0, term = 1), in fixed point. -/
def circleSeries (r2 : Nat) : Nat → Nat → Int → Int → Int
  | 0, _, _, acc => acc
  | n + 1, k, term, acc =>
    let next := -(term * r2 / ((k + 1) * (k + 2) * 2 ^ specialBits : Nat))
    circleSeries r2 n (k + 2) next (acc + next)

/-- sin r and cos r for a fixed-point r of magnitude at most π/4. -/
def sinFixed (r : Int) : Int := circleSeries (r.natAbs * r.natAbs / 2 ^ specialBits) 40 1 r r
def cosFixed (r : Int) : Int := circleSeries (r.natAbs * r.natAbs / 2 ^ specialBits) 40 0 (2 ^ specialBits) (2 ^ specialBits)

/-- The sine (`quarter = 0`) or cosine (`quarter = 1`) of a magnitude m × 2^e of at least 2^−40: the reduction by multiples
of π/2, the nearest one to it. -/
def circleFixed (quarter m : Nat) (e : Int) : Int :=
  let x := m * 2 ^ (e + specialBits).toNat
  -- the nearest multiple of π/2
  let k := (2 * x * 2 ^ 321 + piFixed) / (2 * piFixed)
  let r : Int := (x : Int) - (k * piFixed / 2 ^ (641 - specialBits) : Nat)
  match (k + quarter) % 4 with
  | 0 => sinFixed r
  | 1 => cosFixed r
  | 2 => -(sinFixed r)
  | _ => -(cosFixed r)

/-- A bracket around a signed fixed-point value. -/
def bracketInt (v : Int) : SpecialValue := bracket (decide (v < 0)) v.natAbs

/-- The canonical NaN with flags. -/
def specialNaN (flags : BitVec 5) : SpecialValue := .special FloatFmt.fp32.nanCode flags

/-- ±∞ with flags. -/
def specialInf (neg : Bool) (flags : BitVec 5) : SpecialValue := .special (FloatFmt.fp32.signBit neg + 0x7F800000) flags

/-- ±0 without a flag. -/
def specialZero (neg : Bool) : SpecialValue := .special (FloatFmt.fp32.signBit neg) 0

/-- 2^x for a finite nonzero x. -/
def exp2Value (neg : Bool) (m : Nat) (e : Int) : SpecialValue :=
  if 8 ≤ leadExp m e then
    -- |x| ≥ 256: far above the maximum, or far below the least subnormal
    if neg then .value { neg := false, m := 2 ^ 40, e := -400, sticky := true } else .value { neg := false, m := 1, e := 256 }
  else
    let mag := m * 2 ^ (e + specialBits).toNat           -- e ≥ −149
    let whole := mag / 2 ^ specialBits
    let rest := mag % 2 ^ specialBits
    if rest == 0 then .value { neg := false, m := 1, e := if neg then -(whole : Int) else whole }
    else
      let n : Int := if neg then -(whole : Int) - 1 else whole
      let f := if neg then 2 ^ specialBits - rest else rest
      match bracket false (exp2Fixed f) with
      | .value x => .value { x with e := x.e + n }
      | s => s

/-- log2 x for a positive finite x. -/
def log2Value (m : Nat) (e : Int) : SpecialValue :=
  let k := leadExp m e
  let y := m * 2 ^ (23 - m.log2)                          -- m < 2^24
  if y == 2 ^ 23 then .value { neg := decide (k < 0), m := k.natAbs, e := 0 }
  else bracketInt (k * 2 ^ specialBits + log2Fixed y)

/-- The value of a special function (R144, R145). -/
def SpecialFn.at (fn : SpecialFn) (x : Word) : SpecialValue :=
  match fp32 x with
  | .nan sig => specialNaN (ivIf sig)
  | .inf s =>
    match fn with
    | .rcp => specialZero s
    | .rsq => if s then specialNaN flagIV else specialZero false
    | .sqrt => if s then specialNaN flagIV else specialInf false 0
    | .exp2 => if s then specialZero false else specialInf false 0
    | .log2 => if s then specialNaN flagIV else specialInf false 0
    | .sin | .cos => specialNaN flagIV
  | .fin s m e =>
    if m == 0 then
      match fn with
      | .rcp | .rsq => specialInf s flagDZ
      | .sqrt | .sin => specialZero s
      | .exp2 | .cos => .special 0x3F800000 0
      | .log2 => specialInf true flagDZ
    else
      match fn with
      | .rcp => .value { neg := s, m := 2 ^ 96 / m, e := -96 - e, sticky := 2 ^ 96 % m != 0 }
      | .rsq =>
        if s then specialNaN flagIV
        else
          -- x = n × 2^(2h): 1/√x = √(2^256/n) × 2^(−128−h)
          let odd := (e % 2).toNat
          let n := m * 2 ^ odd
          let h := (e - odd) / 2
          let y := rootFloor (2 ^ 256 / n)
          .value { neg := false, m := y, e := -128 - h, sticky := y * y * n != 2 ^ 256 }
      | .sqrt =>
        if s then specialNaN flagIV
        else
          let odd := (e % 2).toNat
          let n := m * 2 ^ (odd + 128)
          let h := (e - odd) / 2
          let y := rootFloor n
          .value { neg := false, m := y, e := h - 64, sticky := y * y != n }
      | .exp2 => exp2Value s m e
      | .log2 => if s then specialNaN flagIV else log2Value m e
      | .sin =>
        -- below 2^−40, x − x³/6 lies just below x
        if leadExp m e < -40 then .value { neg := s, m := m * 2 ^ 40 - 1, e := e - 40, sticky := true }
        else
          let v := circleFixed 0 m e
          bracketInt (if s then -v else v)
      | .cos =>
        if leadExp m e < -40 then .value { neg := false, m := 2 ^ 60 - 1, e := -60, sticky := true }
        else bracketInt (circleFixed 1 m e)

/-- The fixed form (R144): the value rounded once to FP32. -/
def SpecialFn.fixed (fn : SpecialFn) (r : Rounding) (sat ftz : Bool) (x : Word) : Nat × BitVec 5 :=
  match fn.at x with
  | .special b f => (b, f)
  | .value y => FloatFmt.fp32.round r sat ftz y

/-- The .T form at precision q (R146): RN to q bits, then RN to FP32; at q = 24 the fixed form under RN. -/
def SpecialFn.tolerant (fn : SpecialFn) (q : Nat) (sat ftz : Bool) (x : Word) : Nat × BitVec 5 :=
  match fn.at x with
  | .special b f => (b, f)
  | .value y =>
    if q == 24 || (y.m == 0 && !y.sticky) then FloatFmt.fp32.round nearest sat ftz y
    else
      let (m, e, bad, _) := y.toPrecision nearest q
      let (b, f) := FloatFmt.fp32.round nearest sat ftz { neg := y.neg, m := m, e := e }
      let tiny := decide (leadExp m e < -126)
      (b, f ||| (if bad then flagIX else 0) ||| (if tiny && (bad || f != 0) then flagUF else 0))

end Sys2Proof.Machine
end

