-- ==== Sys2Proof/Machine/Flags.lean ====
section
/-! DEFINITION. FLAGS (R20, R93, R95) and the conditions that comparisons compute (R120, R123, R138). -/

namespace Sys2Proof.Machine

/-- Flag bits ORed into FLAGS (R95). -/
def Warp.orFlags (w : Warp) (f : BitVec 5) : Warp := { w with flags := w.flags ||| f }

/-- FLAGS as a register: bits [4:0] and FTZ in bit 8 (R20). -/
def Warp.flagsRegister (w : Warp) : Nat := w.flags.toNat + (if w.ftz then 256 else 0)

/-- The comparison codes of SCMP, VCMP and FCMP (R120, R138). -/
inductive Cmp where
  | eq
  | ne
  | lt
  | le
  | gt
  | ge
  | ord
  | uno
deriving DecidableEq, Repr

/-- The code of a SUB value. -/
def Cmp.ofSub (s : BitVec 4) : Cmp :=
  match s.toNat with
  | 0 => .eq
  | 1 => .ne
  | 2 => .lt
  | 3 => .le
  | 4 => .gt
  | 5 => .ge
  | 6 => .ord
  | _ => .uno

/-- Does a comparison of two ordered values hold? -/
def Cmp.holds (c : Cmp) (a b : Int) : Bool :=
  match c with
  | .eq => a == b
  | .ne => a != b
  | .lt => decide (a < b)
  | .le => decide (a ≤ b)
  | .gt => decide (b < a)
  | .ge => decide (b ≤ a)
  | .ord => true
  | .uno => false

/-- Does a comparison of two FP32 encodings hold (R138)? -/
def Cmp.holdsFloat (c : Cmp) (a b : Word) : Bool :=
  if (fp32 a).isNaN || (fp32 b).isNaN then c == .ne || c == .uno else c.holds (fp32Key a) (fp32Key b)

/-- The flags of a comparison: IV for a signalling NaN (R138). -/
def compareFlags (a b : Word) : BitVec 5 := ivIf ((fp32 a).isSig || (fp32 b).isSig)

end Sys2Proof.Machine
end

