-- ==== Sys2Proof/Machine/Operands.lean ====
section
/-! DEFINITION. The operand forms (R14, R15, R53, R117, R118, R134, R135): typed elements of vector registers, immediates
widened by use, scalar operands, and the writing of results lane by lane. -/

namespace Sys2Proof.Machine

/-! ## Integer elements -/

/-- The bits of a typed element: the pair of a 64-bit type, else the low bits of the 32-bit element (R117). -/
def Warp.rawElem (w : Warp) (t n l : Nat) : Nat :=
  if 6 ≤ t then (w.pair n l).toNat else (w.elem n l).toNat % 2 ^ intBits t

/-- The register elements, (register, lane), that a typed element takes. -/
def elemReads (t n l : Nat) : List (Nat × Nat) := if 6 ≤ t then [(n, l), (n + 1, l)] else [(n, l)]

/-- The bits of an element read in its type. -/
def intValue (t raw : Nat) : Int := if intSigned t then signedNat (intBits t) raw else ((raw % 2 ^ intBits t : Nat) : Int)

/-- An integer reduced modulo 2^n (R72). -/
def wrapBits (n : Nat) (x : Int) : Nat := (x % (2 ^ n : Int)).toNat

/-- An integer result under SAT (R72, R117 (e)). -/
def intResult (t : Nat) (sat : Bool) (x : Int) : Nat := wrapBits (intBits t) (if sat then intClamp t x else x)

/-- The 32-bit register element that holds a typed result: sign- or zero-extended from 8 or 16 bits (R117 (c)). -/
def extendResult (t raw : Nat) : Word := BitVec.ofInt 32 (intValue t raw)

/-- A typed element written (R117). -/
def Warp.putElem (w : Warp) (t n l raw : Nat) : Warp :=
  if 6 ≤ t then w.setPair n l (BitVec.ofNat 64 raw) else w.setElem n l (extendResult t raw)

/-- Typed elements written, lane by lane. -/
def Warp.putElems (w : Warp) (t n : Nat) (vals : List (Nat × Nat)) : Warp :=
  vals.foldl (fun w x => w.putElem t n x.1 x.2) w

/-- 32-bit elements written, lane by lane. -/
def Warp.putWords (w : Warp) (n : Nat) (vals : List (Nat × Word)) : Warp :=
  vals.foldl (fun w x => w.setElem n x.1 x.2) w

/-! ## Immediates -/

/-- How an immediate is widened (R118). -/
inductive Widen where
  | sign
  | zero
deriving DecidableEq, Repr

/-- An immediate as the bits of an n-bit element. DESIGN CHOICE: of a 32-bit literal that is wider than the element the low n bits are taken, in
comparisons, VMIN and VMAX too; R118 speaks of extension alone (log 134). -/
def widened (f : Fields) (u : Widen) (n : Nat) : Nat :=
  match u with
  | .sign => wrapBits n f.immS
  | .zero => f.immU % 2 ^ n

/-- The bits of operand B of a vector instruction at a lane. -/
def bElem (w : Warp) (f : Fields) (u : Widen) (t l : Nat) : Nat :=
  if f.imm then widened f u (intBits t) else w.rawElem t f.b.toNat l

/-- The bits of operand B of a scalar instruction. -/
def bScalar (w : Warp) (f : Fields) (u : Widen) : DWord :=
  if f.imm then BitVec.ofNat 64 (widened f u 64) else w.scalar f.b.toNat

/-- The widening of a comparison, MIN or MAX on a type (R118). -/
def compareWiden (signed : Bool) : Widen := if signed then .sign else .zero

/-! ## Floating-point operands -/

/-- FP32 operand B at a lane (R135): a register, a small integer converted, or the literal. -/
def bFloat (w : Warp) (f : Fields) (l : Nat) : Word :=
  if !f.imm then w.elem f.b.toNat l
  else match f.form with
    | .w96 => f.lit
    | _ => BitVec.ofNat 32 (FloatFmt.fp32.deliver nearest false false (Num.ofInt f.immS)).1

/-- Operand B of FSCL and of the packed forms: an element or the immediate's 32 bits (R135). -/
def bWord (w : Warp) (f : Fields) (l : Nat) : Word :=
  if f.imm then BitVec.ofNat 32 (wrapBits 32 f.immS) else w.elem f.b.toNat l

/-- The rounding of an instruction for element `e` (R55, R81): SR draws by the warp's key and the literal. -/
def roundingOf (f : Fields) (w : Warp) (e : Nat) : Rounding :=
  match f.rnd with
  | .sr => { mode := .sr, draw := srDraw w.rngkey f.lit e }
  | r => { mode := r }

/-! ## Instruction shapes -/

/-- A vector integer instruction on the active lanes: the bits of the result element from the lane. -/
def vectorOp (m : Mnem) (f : Fields) (s : State) (t : Nat) (g : Warp → Nat → Nat) : Host.Outcome State Fault Refusal :=
  fixedOp m f s fun c e => c.w.putElems t f.d.toNat (e.lanes.map fun l => (l, g c.w l))

/-- A scalar instruction: the 64 bits of s[D]. -/
def scalarOp (m : Mnem) (f : Fields) (s : State) (g : Ctx → DWord) : Host.Outcome State Fault Refusal :=
  fixedOp m f s fun c _ => c.w.setScalar f.d.toNat (g c)

/-- A mask instruction: m[D]. -/
def maskOp (m : Mnem) (f : Fields) (s : State) (g : Ctx → LaneMask) : Host.Outcome State Fault Refusal :=
  fixedOp m f s fun c _ => c.w.setMask f.d.toNat (g c)

/-- A floating-point instruction on 32-bit elements: each active lane's result and flags, ORed into FLAGS (R134). -/
def floatOp (m : Mnem) (f : Fields) (s : State) (g : Warp → Nat → Nat × BitVec 5) : Host.Outcome State Fault Refusal :=
  fixedOp m f s fun c e =>
    let rs := e.lanes.map fun l => (l, g c.w l)
    let w := c.w.putWords f.d.toNat (rs.map fun x => (x.1, BitVec.ofNat 32 x.2.1))
    w.orFlags (rs.foldl (fun a x => a ||| x.2.2) 0)

/-- A comparison into a mask register: the bits of inactive lanes are kept (R123, R138). -/
def compareOp (m : Mnem) (f : Fields) (s : State) (g : Warp → Nat → Bool × BitVec 5) : Host.Outcome State Fault Refusal :=
  fixedOp m f s fun c e =>
    let rs := e.lanes.map fun l => (l, g c.w l)
    let bits := LaneMask.ofLanes ((rs.filter fun x => x.2.1).map Prod.fst)
    let w := c.w.setMask f.d.toNat ((c.w.m.get f.d.toNat &&& ~~~e) ||| bits)
    w.orFlags (rs.foldl (fun a x => a ||| x.2.2) 0)

end Sys2Proof.Machine
end

