-- ==== Sys2Proof/Machine/Control.lean ====
section
/-! DEFINITION. Control flow, divergence and system instructions (R60 to R68, R96 to R116), with the return from a trap. -/

namespace Sys2Proof.Machine

/-! ## The reconvergence stack

The stack is listed from position 1 up, so the top is the last entry. -/

/-- The mask in which an entry holds lanes (R98): of a TRAP pair, the saved slot mask. -/
def RsEntry.mask (e : RsEntry) : LaneMask :=
  match e with
  | .join _ m | .loop _ m | .pend _ m | .trap m .. => m

/-- Is one lane set within another? -/
def maskWithin (a b : LaneMask) : Bool := a &&& ~~~b == 0

/-- Does a PEND entry stand here? -/
def RsEntry.isPend (e : RsEntry) : Bool := match e with | .pend .. => true | _ => false

/-- Does a TRAP pair stand here? -/
def RsEntry.isTrap (e : RsEntry) : Bool := match e with | .trap .. => true | _ => false

/-- The lanes held in a valid slot or a PEND entry. -/
def Warp.held (w : Warp) : LaneMask :=
  let slot := fun (z : PcSlot) => if z.valid then z.mask else 0
  w.rs.foldl (fun m e => if e.isPend then m ||| e.mask else m) (slot w.slotA ||| slot w.slotB)

/-- A PEND entry inserted directly above the topmost JOIN, LOOP or TRAP pair that contains its lanes, or at position 1
(R98 (c)); the stack is given from the top down. -/
def insertPendDown (pc : Pc) (p : LaneMask) : List RsEntry → List RsEntry
  | [] => [.pend pc p]
  | e :: rest => if !e.isPend && maskWithin p e.mask then .pend pc p :: e :: rest else e :: insertPendDown pc p rest

/-- A PEND entry inserted (R98 (c)). -/
def Warp.insertPend (w : Warp) (pc : Pc) (p : LaneMask) : Warp :=
  w.withRs (insertPendDown pc p w.rs.reverse).reverse

/-- The entries above the topmost TRAP pair, from the top down. -/
def Warp.aboveTrap (w : Warp) : List RsEntry := w.rs.reverse.takeWhile fun e => !e.isTrap

/-- The position, from the top down, of the innermost LOOP that contains a lane set, above the topmost TRAP pair. -/
def Warp.innerLoop (w : Warp) (e : LaneMask) : Option (Nat × RsEntry) :=
  (w.aboveTrap.zipIdx.find? fun x => (match x.1 with | .loop .. => true | _ => false) && maskWithin e x.1.mask).map
    fun x => (x.2, x.1)

/-- The lanes removed from every JOIN of the first `n` entries from the top. -/
def dropJoins (e : LaneMask) (n : Nat) (rs : List RsEntry) : List RsEntry :=
  rs.zipIdx.map fun x =>
    match x.1 with
    | .join pc m => if x.2 < n then .join pc (m &&& ~~~e) else .join pc m
    | y => y

/-- A warp with its stack changed, given from the top down. -/
def Warp.mapRs (w : Warp) (f : List RsEntry → List RsEntry) : Warp := w.withRs (f w.rs.reverse).reverse

/-- Step 2 of settling, from the top down: a JOIN or LOOP whose lanes are all gone from slots and PEND entries becomes
pending work. `held` grows as entries become PEND. -/
def resolve (held : LaneMask) : List RsEntry → List RsEntry
  | [] => []
  | e :: rest =>
    match e with
    | .join pc m | .loop pc m =>
      if m &&& held == 0 then .pend pc m :: resolve (held ||| m) rest else e :: resolve held rest
    | _ => e :: resolve held rest

/-- Step 3 of settling for one slot: the topmost PEND above the topmost TRAP pair, or any if there is none. -/
def Warp.fillSlot (w : Warp) (z : SlotId) : Warp :=
  if (w.slot z).valid then w
  else
    match w.aboveTrap.zipIdx.find? fun x => x.1.isPend with
    | some (.pend pc m, i) => (w.mapRs fun rs => rs.eraseIdx i).setSlot z fun _ => .at pc m
    | _ => w

/-- Settling (R99). -/
def Warp.settle (w : Warp) : Warp :=
  let w1 := w.withRs (w.rs.filter fun e => e.mask != 0)
  let w2 := w1.mapRs (resolve w1.held)
  (w2.fillSlot .A).fillSlot .B

/-- Lanes removed from every entry, of a TRAP pair from both positions (R107). -/
def RsEntry.drop (e : RsEntry) (lanes : LaneMask) : RsEntry :=
  match e with
  | .join pc m => .join pc (m &&& ~~~lanes)
  | .loop pc m => .loop pc (m &&& ~~~lanes)
  | .pend pc m => .pend pc (m &&& ~~~lanes)
  | .trap m pc r c a d => .trap (m &&& ~~~lanes) pc (r &&& ~~~lanes) c a d

/-! ## Generations of BSYNC

A slot that leaves its warp may let the warp arrive, so they stand in front of the transfers. -/

/-- The words of the instruction at a PC, by its length bits (R47); a header has one. -/
def wordsAt (p : Phys) (s : Sys) (b : Block) (pc : Pc) : Nat :=
  match codeWord p s b pc with
  | some w => if natBits w.toNat 1 0 == 3 then 1 else natBits w.toNat 1 0 + 1
  | none => 1

/-- Does every valid slot of the warp wait at a BSYNC, with no store outstanding (R169 (a))? -/
def Warp.atSync (w : Warp) : Bool :=
  let waits := fun (z : PcSlot) => !z.valid || z.hold == .bsync
  (w.slotA.valid || w.slotB.valid) && waits w.slotA && waits w.slotB && w.usc == 0

/-- An outstanding access of shared memory that has not been performed. The end of a generation is a release (R223), so it follows them.
DEDUCED: an MMA is one until it completes, since a save may have it read its operands again (R194, log 133). -/
def Op.holdsRelease (x : Op) : Bool :=
  match x.body with
  | .load sp .. | .store sp .. => sp != .priv
  | .atomic .. | .contribute .. | .cert .. | .mma _ => true
  | _ => false

/-- The end of a generation (R169 (c)): every waiting slot completes its BSYNC. BSYNC has one word in every form but the
longer ones, whose words the held slot keeps. -/
def Warp.passSync (w : Warp) (words : SlotId → Nat) : Warp :=
  let pass := fun (z : SlotId) (y : PcSlot) => if y.valid && y.hold == .bsync then y.step (words z) else y
  { (w.setSlot .A (pass .A)).setSlot .B (pass .B) with arrived := false }

/-- The arrivals of a block's warps, and the end of the generation when all have arrived or exited (R169) and, since it is a release by
each of them (R222 (c), R223), their accesses have been performed. -/
def syncBlock (p : Phys) (s : Sys) (id : Nat) : Sys :=
  match s.block id with
  | none => s
  | some b =>
    let ws := b.warps.map fun w => { w with arrived := w.arrived || w.atSync }
    let done := ws.all fun w => w.arrived || w.exited
    let waiting := ws.any (fun w => w.arrived) && !ws.any fun w => w.ops.any Op.holdsRelease
    let ws1 := if done && waiting then ws.map fun w => w.passSync fun z => wordsAt p s b (w.slot z).pc else ws
    s.setBlock id fun b => { b with warps := ws1, generation := if done && waiting then b.generation + 1 else b.generation }

/-! ## Transfers -/

/-- The address of the clause header that follows a clause-ending instruction. -/
def Ctx.next (c : Ctx) (s : Sys) : Pc := c.slot.pc.plus s.words

/-- The target of a branch (R66). DESIGN CHOICE: a target beyond the 52-bit address space wraps modulo 2^52 (log 109). -/
def Ctx.target (c : Ctx) (f : Fields) : Pc := c.slot.pc + BitVec.ofInt 50 f.immS

/-- A trap of this chapter: resume mask the active lanes (R97). -/
def controlTrap (cause : Cause) (e : LaneMask) (addr : Nat) : TrapInfo := { cause := cause, resume := e, addr := addr }

/-- A control instruction done: the new warp, each outstanding `.acq` with the lanes and slots that now follow it (R220). -/
def Tx.controlDone {o : Phys} (t : Tx o) (c : Ctx) (w : Warp) : Tx o := t.map fun y => y.putWarp c.ref (w.carryAcquires c.w)

/-- An item waits at issue while the read of one of its words of code is held (R230, R231). -/
def Tx.onceReadable {o : Phys} (t : Tx o) (c : Ctx) (reads : List Pc) (go : Tx o) : Tx o :=
  if reads.any (codeHeld t.phys t.sys c.b) then t.map fun y => y.hold c .codeRead else go

/-- A control instruction, with the words of code that it reads: faults first, then the new warp (R97). -/
def controlOp (m : Mnem) (f : Fields) (s : State) (reads : Phys → Sys → Ctx → LaneMask → List Pc)
    (g : Phys → Sys → Ctx → LaneMask → Except TrapInfo Warp) : Host.Outcome State Fault Refusal :=
  issue m f s fun _ t c e _ => t.onceReadable c (reads t.phys t.sys c e) <|
    match g t.phys t.sys c e with
    | .ok w => t.controlDone c w
    | .error i => t.raise c.ref c.z i false

/-- A control instruction that may free its slot, on which the other slot's BSYNC may arrive and the generation end (R169). -/
def leavingOp (m : Mnem) (f : Fields) (s : State) (reads : Phys → Sys → Ctx → LaneMask → List Pc)
    (g : Phys → Sys → Ctx → LaneMask → Except TrapInfo Warp) : Host.Outcome State Fault Refusal :=
  issue m f s fun _ t c e _ => t.onceReadable c (reads t.phys t.sys c e) <|
    match g t.phys t.sys c e with
    | .ok w => (t.controlDone c w).upd fun p y => syncBlock p y c.b.id
    | .error i => t.raise c.ref c.z i false

/-- The words that a branch reads: the word at its target. -/
def branchRead (f : Fields) (_ : Phys) (_ : Sys) (c : Ctx) (_ : LaneMask) : List Pc := [c.target f]

/-- A control instruction that reads no word of code. -/
def noRead (_ : Phys) (_ : Sys) (_ : Ctx) (_ : LaneMask) : List Pc := []

/-- A checked branch target (R66). -/
def Ctx.checked (c : Ctx) (p : Phys) (s : Sys) (e : LaneMask) (t : Pc) : Except TrapInfo Pc :=
  if targetOk p s c.b t then .ok t else .error (controlTrap .illegalTarget e t.addr)

/-- The slot moved as a whole. -/
def Ctx.goto (c : Ctx) (pc : Pc) : Warp := c.w.setSlot c.z fun z => z.goto pc

/-- Split (R101) on a warp: taken lanes E to a target, the others to the next header. -/
def splitLanes (w : Warp) (z : SlotId) (t next : Pc) (e : LaneMask) : Except TrapInfo Warp :=
  let f := (w.slot z).mask &&& ~~~e
  if e == 0 then .ok (w.setSlot z fun y => y.goto next)
  else if f == 0 then .ok (w.setSlot z fun y => y.goto t)
  else
    let rest := fun (v : Warp) => v.setSlot z fun y => { y.goto next with mask := f }
    if !(w.slot (otherSlot z)).valid then .ok (rest (w.setSlot (otherSlot z) fun _ => .at t e))
    else if 130 < w.rsp + 1 then .error (controlTrap .rsOverflow e 0)
    else .ok (rest (w.insertPend t e))

/-- BRA (R101). -/
def execBra (f : Fields) (s : State) : Host.Outcome State Fault Refusal :=
  controlOp .bra f s (branchRead f) fun p y c e => do
    let t ← c.checked p y e (c.target f)
    .ok (c.goto t)

/-- BRC (R101). -/
def execBrc (f : Fields) (s : State) : Host.Outcome State Fault Refusal :=
  controlOp .brc f s (branchRead f) fun p y c e => do
    let t ← c.checked p y e (c.target f)
    splitLanes c.w c.z t (c.next y) e

/-- CONT (R101): back to the loop head; the lanes leave the inner joins. -/
def execCont (f : Fields) (s : State) : Host.Outcome State Fault Refusal :=
  leavingOp .cont f s (branchRead f) fun p y c e => do
    let t ← c.checked p y e (c.target f)
    match c.w.innerLoop e with
    | none => .error (controlTrap .rsMismatch e 0)
    | some (i, _) =>
      let w ← splitLanes (c.w.mapRs (dropJoins e i)) c.z t (c.next y) e
      .ok w.settle

/-- The groups of BRX in order of the least index (R102): (least index, target, lanes). -/
def branchGroups (xs : List (Nat × Nat × Pc)) : List (Nat × Pc × LaneMask) :=
  let add := fun (gs : List (Nat × Pc × LaneMask)) (x : Nat × Nat × Pc) =>
    let (l, i, t) := x
    if gs.any fun g => g.2.1 == t then
      gs.map fun g => if g.2.1 == t then (min g.1 i, t, g.2.2 ||| LaneMask.ofLanes [l]) else g
    else gs ++ [(i, t, LaneMask.ofLanes [l])]
  sortBy (fun a b => decide (a.1 < b.1)) (xs.foldl add [])

/-- The words that BRX reads (R102): the table's count and, where the count and every index are in range, the lanes' entries and the words at
their targets. -/
def branchTableRead (f : Fields) (p : Phys) (y : Sys) (c : Ctx) (e : LaneMask) : List Pc :=
  let table := c.target f
  match codeWord p y c.b table with
  | none => [table]
  | some h =>
    let n := natBits h.toNat 15 0
    let rows := e.lanes.map fun l => (c.w.elem f.a.toNat l).toNat
    let bad := natBits h.toNat 31 16 != 0 || n == 0 || 1024 < n || rows.any fun i => decide (n ≤ i)
    let entries := if bad then [] else rows.map fun i => table.plus (1 + i)
    entries ++ entries.filterMap fun a => (codeWord p y c.b a).map fun o => table + o.signExtend 50

/-- BRX (R102). DEDUCED: a table word that cannot be read fails as BRX_RANGE. DESIGN CHOICE: of several distinct targets that fail R66, FADDR
reports that of the group with the least index (log 144). -/
def execBrx (f : Fields) (s : State) : Host.Outcome State Fault Refusal :=
  controlOp .brx f s (branchTableRead f) fun p y c e => do
    let table := c.target f
    let n ← match codeWord p y c.b table with
      | none => .error (controlTrap .brxRange e table.addr)
      | some h =>
        let n := natBits h.toNat 15 0
        if natBits h.toNat 31 16 != 0 || n == 0 || 1024 < n then .error (controlTrap .brxRange e table.addr) else .ok n
    if e.lanes.any fun l => decide (n ≤ (c.w.elem f.a.toNat l).toNat) then .error (controlTrap .brxRange e table.addr)
    else
      let entry := fun (l : Nat) =>
        let i := (c.w.elem f.a.toNat l).toNat
        match codeWord p y c.b (table.plus (1 + i)) with
        | none => .error (controlTrap .brxRange e table.addr)
        | some o => Except.ok (l, i, table + o.signExtend 50)
      let xs ← e.lanes.mapM entry
      let groups := branchGroups xs
      match groups.find? fun g => !targetOk p y c.b g.2.1 with
      | some g => .error (controlTrap .illegalTarget e g.2.1.addr)
      | none =>
        let free := !(c.w.slot (otherSlot c.z)).valid
        let need := groups.length - 1 - (if free then 1 else 0)
        if 0 < need && 130 < c.w.rsp + need then .error (controlTrap .rsOverflow e 0)
        else
          match groups with
          | [] => .ok (c.goto (c.next y))
          | g :: rest =>
            let w1 := c.w.setSlot c.z fun z => { z.goto g.2.1 with mask := g.2.2 }
            match rest, free with
            | h :: more, true =>
              let w2 := w1.setSlot (otherSlot c.z) fun _ => .at h.2.1 h.2.2
              .ok (more.foldl (fun w g => w.insertPend g.2.1 g.2.2) w2)
            | _, _ => .ok (rest.foldl (fun w g => w.insertPend g.2.1 g.2.2) w1)

/-- CALL (R103): s[D] := NEXT. -/
def execCall (f : Fields) (s : State) : Host.Outcome State Fault Refusal :=
  controlOp .call f s (branchRead f) fun p y c e => do
    let t ← c.checked p y e (c.target f)
    .ok ((c.goto t).setScalar f.d.toNat (BitVec.ofNat 64 (c.next y).addr))

/-- Is the value that RET reads no PC (R103)? -/
def noPc (a : Nat) : Bool := natBits a 63 52 != 0 || natBits a 1 0 != 0

/-- RET (R103). -/
def execRet (f : Fields) (s : State) : Host.Outcome State Fault Refusal :=
  controlOp .ret f s (fun _ _ c _ => let a := (c.w.scalar f.a.toNat).toNat; if noPc a then [] else [.ofAddr a]) fun p y c e => do
    let a := (c.w.scalar f.a.toNat).toNat
    if noPc a then .error (controlTrap .illegalTarget e a)
    else
      let t ← c.checked p y e (.ofAddr a)
      .ok (c.goto t)

/-- PREPJ and PREPL (R104): an entry pushed with the slot mask. -/
def pushEntry (m : Mnem) (f : Fields) (s : State) (k : Pc → LaneMask → RsEntry) : Host.Outcome State Fault Refusal :=
  controlOp m f s (branchRead f) fun p y c e => do
    let t ← c.checked p y e (c.target f)
    if 130 < c.w.rsp + 1 then .error (controlTrap .rsOverflow e 0)
    else .ok ((c.w.withRs (c.w.rs ++ [k t c.slot.mask])).setSlot c.z fun z => z.step y.words)

/-- PREPJ. -/
def execPrepj (f : Fields) (s : State) : Host.Outcome State Fault Refusal := pushEntry .prepj f s .join

/-- PREPL. -/
def execPrepl (f : Fields) (s : State) : Host.Outcome State Fault Refusal := pushEntry .prepl f s .loop

/-- RECV (R105). -/
def execRecv (f : Fields) (s : State) : Host.Outcome State Fault Refusal :=
  leavingOp .recv f s noRead fun _ y c e =>
    match c.w.aboveTrap.zipIdx.find? fun x => (match x.1 with | .join pc _ => pc == c.slot.ch | _ => false) with
    | none => .ok (c.goto (c.next y))
    | some (j, i) =>
      if !maskWithin c.slot.mask j.mask then .error (controlTrap .rsMismatch e 0)
      else if j.mask &&& ~~~c.slot.mask &&& c.w.held == 0 then
        .ok ((c.w.mapRs fun rs => rs.eraseIdx i).setSlot c.z fun z => { z.goto (c.next y) with mask := j.mask })
      else .ok (c.w.setSlot c.z fun _ => .empty).settle

/-- BRK (R106). -/
def execBrk (f : Fields) (s : State) : Host.Outcome State Fault Refusal :=
  leavingOp .brk f s noRead fun _ y c e =>
    match c.w.innerLoop e with
    | none => .error (controlTrap .rsMismatch e 0)
    | some (i, l) =>
      let rest := c.slot.mask &&& ~~~e
      let w := (c.w.mapRs (dropJoins e i)).setSlot c.z fun z => { z with mask := rest }
      let pc := match l with | .loop pc _ => pc | _ => 0
      let gone := w.setSlot c.z fun _ => .empty
      if rest != 0 then .ok (w.setSlot c.z fun z => z.goto (c.next y)).settle
      else if l.mask &&& gone.held == 0 then
        .ok ((w.mapRs fun rs => rs.eraseIdx i).setSlot c.z fun z => { z.goto pc with mask := l.mask }).settle
      else .ok gone.settle

/-- EXIT (R107): the lanes leave the slot and every entry. The warp's exit itself waits for its outstanding work
(`Warp.exited`). -/
def execExit (f : Fields) (s : State) : Host.Outcome State Fault Refusal :=
  leavingOp .exit f s noRead fun _ y c e =>
    let rest := c.slot.mask &&& ~~~e
    let w := c.w.withRs (c.w.rs.map fun x => x.drop e)
    let w1 := if rest == 0 then w.setSlot c.z fun _ => .empty else w.setSlot c.z fun z => { z.goto (c.next y) with mask := rest }
    .ok w1.settle

/-! ## Traps -/

/-- TRAP (R109): SOFT_TRAP with address n. -/
def execTrap (f : Fields) (s : State) : Host.Outcome State Fault Refusal :=
  controlOp .trap f s noRead fun _ _ _ _ => .error (controlTrap .softTrap 0 f.immU)

/-- BKPT (R109). -/
def execBkpt (f : Fields) (s : State) : Host.Outcome State Fault Refusal :=
  controlOp .bkpt f s noRead fun _ _ _ _ => .error (controlTrap .breakpoint 0 0)

/-- The return from a trap (R110, R67): the slot goes back to the interrupted clause in serial mode. With the clause
distance 0 the trap stood at a clause header (ILLEGAL_CLAUSE), and the slot is at that header again. -/
def returnFromTrap (p : Phys) (s : Sys) (c : Ctx) (skip : Bool) (e : LaneMask) : Except TrapInfo Warp :=
  match c.w.rs.getLast? with
  | some (.trap mask pc resume _ after dist) =>
    if mask != c.slot.mask then .error (controlTrap .rsMismatch e 0)
    else
      let ch := pc - BitVec.ofNat 50 dist
      let w := c.w.withRs c.w.rs.dropLast
      let z := fun (y : PcSlot) => { y with ch := ch, issued := 0, setA := 15, setB := 15, serial := true, hold := Hold.none, serialOp := none }
      if skip || resume == 0 then
        .ok (w.setSlot c.z fun y => { z y with pc := pc.plus (wordsAt p s c.b pc), left := after, resume := none })
      else
        .ok (w.setSlot c.z fun y => { z y with pc := pc, left := if dist == 0 then 0 else after + 1, resume := some resume })
  | _ => .error (controlTrap .rsMismatch e 0)

/-- The word that a return from a trap reads: the instruction of the topmost TRAP pair. -/
def trapRead (_ : Phys) (_ : Sys) (c : Ctx) (_ : LaneMask) : List Pc :=
  match c.w.rs.getLast? with
  | some (.trap _ pc ..) => [pc]
  | _ => []

/-- RTT (R110). -/
def execRtt (f : Fields) (s : State) : Host.Outcome State Fault Refusal :=
  controlOp .rtt f s trapRead fun p y c e => returnFromTrap p y c false e

/-- RTT.SKIP (R110). -/
def execRttSkip (f : Fields) (s : State) : Host.Outcome State Fault Refusal :=
  controlOp .rttSkip f s trapRead fun p y c e => returnFromTrap p y c true e

/-! ## Scheduling and waits -/

/-- NOP (R111). -/
def execNop (f : Fields) (s : State) : Host.Outcome State Fault Refusal := fixedOp .nop f s fun c _ => c.w

/-- The pair number of a slot on its slice (R34). DESIGN CHOICE: the pairs rotate in the order of their warp slots, A before B (log 110). -/
def pairNumber (w : Warp) (z : SlotId) : Nat := 2 * w.warpSlot + (match z with | .A => 0 | .B => 1)

/-- The issue pointer of a slice moved one past a slot (R34). -/
def Sys.passSlot (s : Sys) (c : CoreRef) (w : Warp) (z : SlotId) : Sys :=
  s.setCore c fun k => { k with issuePtr := k.issuePtr.set w.slice ((pairNumber w z + 1) % 32) }

/-- YIELD (R111): the issue pointer moves one past the slot. The selector rotates (R34), so every other eligible pair then comes
before the slot's next turn. -/
def execYield (f : Fields) (s : State) : Host.Outcome State Fault Refusal :=
  issue .yield f s fun _ t c _ _ =>
    t.map fun y => (y.putWarp c.ref (c.goto (c.next y))).passSlot c.b.coreRef c.w c.z

/-- WAITF (R112): held until every named flag is clear. -/
def execWaitf (f : Fields) (s : State) : Host.Outcome State Fault Refusal :=
  issue .waitf f s fun _ t c _ _ =>
    t.map fun y =>
      if (List.range 12).any fun i => natBit f.immU i && c.w.flagSeen i then y.hold c .waitf
      else y.putWarp c.ref (c.w.setSlot c.z fun z => z.step y.words)

/-- REGACQ (R19, R113): at once after the grant or without an acquire phase; otherwise it takes its flag, requests the
grant and holds its slot. -/
def execRegacq (f : Fields) (s : State) : Host.Outcome State Fault Refusal :=
  issue .regacq f s fun _ t c _ flag =>
    t.map fun y =>
      if c.b.granted || c.b.hdr.fullRegs == 0 then y.completedOp c id
      else if c.w.ops.any (fun x => x.slot == c.z && (match x.body with | .regacq _ => true | _ => false)) then y.hold c .regacq
      else
        let (id, y1) := y.next
        ((y1.setBlock c.b.id fun b => { b with regRequest := true }).setWarp c.ref fun w =>
          Warp.setSlot { w with ops := w.ops ++ [{ id := id, slot := c.z, flag := flag, path := none, body := .regacq y.words }] } c.z
            fun z => { z with hold := .regacq })

/-! ## Status registers -/

/-- The value of a status register (R20). -/
def statusRegister (s : Sys) (c : Ctx) (n : Nat) : Nat :=
  match n with
  | 0x000 => 64
  | 0x001 => c.w.slice
  | 0x002 => c.b.core
  | 0x003 => c.b.tower
  | 0x004 => c.w.rank
  | 0x005 => c.b.warps.length
  | 0x010 => c.b.node.toNat
  | 0x011 => c.b.parent.toNat
  | 0x012 => c.b.nchild
  | 0x013 => c.b.depth.toNat
  | 0x014 => c.b.stage
  | 0x015 => c.b.sweep % 2 ^ 32
  | 0x016 => c.w.tol.toNat
  | 0x017 => if c.b.effect then 1 else 0
  | 0x020 => c.w.flagsRegister
  | 0x021 => c.w.fmask.toNat
  | 0x022 => c.w.fcause.toNat
  | 0x023 => c.w.faddr.toNat
  | 0x024 => c.w.tvec.addr
  | 0x025 => c.w.rsp
  | 0x026 => c.w.usc
  | 0x027 => c.w.rpr.toNat
  | 0x030 => c.w.mcert.toNat
  | 0x031 => c.w.rngkey.toNat
  | 0x040 => (s.tower c.b.tower).clock.toNat
  | 0x041 => s.ftime.toNat
  | _ => 0

/-- SRD (R114). -/
def execSrd (f : Fields) (s : State) : Host.Outcome State Fault Refusal :=
  issue .srd f s fun _ t c _ _ =>
    t.map fun y =>
      y.putWarp c.ref ((c.w.setScalar f.d.toNat (BitVec.ofNat 64 (statusRegister y c f.statusNumber))).setSlot c.z
        fun z => z.step y.words)

/-- A status register written (R114). -/
def Warp.writeStatus (w : Warp) (n : Nat) (x : DWord) : Warp :=
  match n with
  | 0x016 => { w with tol := BitVec.ofNat 16 (x.toNat % 2 ^ 14) }
  | 0x020 => { w with flags := x.setWidth 5, ftz := x.getLsbD 8 }
  | 0x021 => { w with fmask := x }
  | 0x022 => { w with fcause := x.setWidth 8 }
  | 0x023 => { w with faddr := x.setWidth 52 }
  | 0x024 => { w with tvec := x.extractLsb' 2 50 }
  | 0x027 => { w with rpr := BitVec.ofNat 8 (min x.toNat 64) }
  | 0x031 => { w with rngkey := x }
  | _ => w

/-- SWR (R114, R115). -/
def execSwr (f : Fields) (s : State) : Host.Outcome State Fault Refusal :=
  fixedOp .swr f s fun c _ => c.w.writeStatus f.statusNumber (c.w.scalar f.d.toNat)

end Sys2Proof.Machine
end

