-- ==== Sys2Proof/Machine/MatrixFormat.lean ====
section
/-! DEFINITION. The operands of MMA and MMAS (R187 to R193): the format block and the descriptors, the pieces of memory that an
operand takes, and those that an outstanding MMA may still read (R194). -/

namespace Sys2Proof.Machine

/-! ## The format block and the descriptors -/

/-- A format block (R188). -/
structure FormatBlock where
  afmt : Nat
  bfmt : Nat
  /-- block lengths: 0, 16 or 32; 48 is the invalid code -/
  abl  : Nat
  bbl  : Nat
  auto : Bool
  m    : Nat
  n    : Nat
  dfmt : Nat
  drnd : Nat
  dsat : Bool
  csat : Bool
  sca  : Nat
  scb  : Nat
  metaAt : Nat
  bcol : Nat
  reserved : Bool
deriving DecidableEq, Repr

/-- The fields of the 32 bytes. -/
def FormatBlock.parse (x : Nat) : FormatBlock :=
  { afmt := natBits x 2 0, bfmt := natBits x 5 3, abl := 16 * natBits x 7 6, bbl := 16 * natBits x 9 8, auto := natBit x 10,
    m := 4 * 2 ^ natBits x 12 11, n := natBits x 18 13, dfmt := natBits x 21 19, drnd := natBits x 24 22, dsat := natBit x 25,
    csat := natBit x 26, sca := natBits x 63 32, scb := natBits x 95 64, metaAt := natBits x 127 96, bcol := natBits x 133 128,
    reserved := natBits x 31 27 != 0 || natBits x 255 134 != 0 }

/-- K of a storage format (R189). -/
def storageK (c : Nat) : Nat :=
  match c with
  | 0 => 16
  | 1 | 2 => 32
  | 3 | 4 => 64
  | _ => 128

/-- K: by the wider of the two storage formats (R189). -/
def FormatBlock.k (x : FormatBlock) : Nat := min (storageK x.afmt) (storageK x.bfmt)

/-- Kd (R189). -/
def FormatBlock.kd (x : FormatBlock) (sparse : Bool) : Nat := if sparse && 2 * x.n ≤ x.m then 2 * x.k else x.k

/-- Stored elements of a row of A (R189). -/
def FormatBlock.stored (x : FormatBlock) (sparse : Bool) : Nat := if sparse then x.kd sparse * x.n / x.m else x.kd sparse

/-- The bytes of a metadata row (R190). -/
def FormatBlock.metaRow (x : FormatBlock) : Nat := 4 * ((x.kd true / x.m * x.n * 5 + 31) / 32)

/-- Has a format of this code block scales (R188)? -/
def scaledFormat (c : Nat) : Bool := c == 3 || c == 4 || c == 5

/-- The values and the block lengths are valid (R188). -/
def FormatBlock.valid (x : FormatBlock) : Bool :=
  !x.reserved && x.afmt ≤ 5 && x.bfmt ≤ 5 && x.abl != 48 && x.bbl != 48 && x.n ≤ x.m && x.dfmt ≤ 5 && x.drnd ≤ 4 &&
  (x.abl == 0 || scaledFormat x.afmt) && (x.bbl == 0 || scaledFormat x.bfmt)

/-- The conditions of R188, R189 and R191 on an MMA or MMAS; `bypf` is the bypass tile's format. -/
def FormatBlock.fits (x : FormatBlock) (sparse byp : Bool) (bypf : Nat) : Bool :=
  x.valid && (sparse == (x.n != 0)) && (!sparse || x.kd sparse % x.m == 0) &&
  (x.abl == 0 || x.kd sparse % x.abl == 0) && (x.bbl == 0 || x.kd sparse % x.bbl == 0) &&
  (!byp || (!x.auto && x.abl == 0 && x.afmt == bypf && bypf != 7 && x.bcol + x.k ≤ 64))

/-- An operand descriptor (R187). -/
structure OperandDesc where
  addr   : Nat
  stride : Nat
  tsp    : Bool
deriving DecidableEq, Repr

/-- The fields of a descriptor. -/
def OperandDesc.parse (x : DWord) : OperandDesc :=
  { addr := natBits x.toNat 31 0, stride := natBits x.toNat 55 32, tsp := natBit x.toNat 56 }

/-- The format block of an MMA at work. -/
def MmaWork.block (k : MmaWork) : FormatBlock := .parse k.fb

/-- The A operand; a bypass tile has none, and its metadata lie in the BSM (DESIGN CHOICE). -/
def MmaWork.aOp (k : MmaWork) : OperandDesc := .parse k.aDesc

/-- The B operand. -/
def MmaWork.bOp (k : MmaWork) : OperandDesc := .parse k.bDesc

/-- The active rows from the start of this execution. -/
def MmaWork.rows (k : MmaWork) : List Nat := k.active.lanes.filter fun i => k.start ≤ i

/-- Bytes of elements of a format. -/
def elementBytes (c n : Nat) : Nat := ((FloatFmt.ofCode c).bits * n + 7) / 8

/-- A piece of an operand: its space (scratchpad or BSM), address and length. -/
abbrev Piece := Bool × Nat × Nat

/-- Row i of A in memory: its elements, scales and metadata (R187, R190, R191). -/
def MmaWork.aPieces (k : MmaWork) (i : Nat) : List Piece :=
  let x := k.block
  let a := k.aOp
  (if k.byp then [] else [(a.tsp, a.addr + i * a.stride, elementBytes x.afmt (x.stored k.sparse))]) ++
  (if x.abl == 0 then [] else [(a.tsp, x.sca + i * (k.kd / x.abl), k.kd / x.abl)]) ++
  (if k.sparse then [(a.tsp, x.metaAt + i * x.metaRow, x.metaRow)] else [])

/-- B in memory: its rows and its scales. -/
def MmaWork.bPieces (k : MmaWork) : List Piece :=
  let x := k.block
  let b := k.bOp
  ((List.range k.kd).map fun r => (b.tsp, b.addr + r * b.stride, elementBytes x.bfmt 64)) ++
  (if x.bbl == 0 then [] else [(b.tsp, x.scb, 64 * (k.kd / x.bbl))])

/-- The misaligned operand address, in the order A, B, scales of A, of B, metadata (R187, R188). DESIGN CHOICE: a bad stride
reports its operand's ADDR (log 45); SCA, SCB and META are judged only where the instruction uses them, for which R188 gives no word
(log 138). -/
def MmaWork.misaligned (k : MmaWork) : Option Nat :=
  let x := k.block
  let bad := fun (d : OperandDesc) => d.addr % 16 != 0 || d.stride % 16 != 0
  if !k.byp && bad k.aOp then some k.aOp.addr
  else if bad k.bOp then some k.bOp.addr
  else if x.abl != 0 && x.sca % 4 != 0 then some x.sca
  else if x.bbl != 0 && x.scb % 4 != 0 then some x.scb
  else if k.sparse && x.metaAt % 4 != 0 then some x.metaAt
  else none

/-- The first piece in the BSM that reaches beyond it (R193). -/
def MmaWork.outside (k : MmaWork) (b : Block) : Option Nat :=
  ((k.rows.flatMap k.aPieces ++ k.bPieces).find? fun x => !x.1 && decide (b.bsmBytes < x.2.1 + x.2.2)).map fun x => x.2.1

/-! ## What an MMA may still read (R194, R221, R222) -/

/-- The rows that remain to be fetched. -/
def MmaWork.remaining (k : MmaWork) : List Nat :=
  k.rows.filter fun i => !(k.aRows.any fun r => r.1 == i) && !k.bad.contains i

/-- The bytes of a piece in its space: a row in the scratchpad may cross one page boundary; a page without a translation names none. -/
def pieceRanges (p : Phys) (s : Sys) (b : Block) (x : Piece) : List (Space × Nat × Nat) :=
  let (tsp, a, n) := x
  if !tsp then [(.bsm, a, n)]
  else
    let here := min n (65536 - a % 65536)
    let part := fun (a n : Nat) => ((translateWindow p s b.coreRef b.asid a).map fun pa => (Space.tsp, pa, n)).toList
    part a here ++ (if here == n then [] else part (a + here) (n - here))

/-- The operand bytes of the MMAs of a list of outstanding instructions: each may read them until it completes, since a save at one of its
rows has it read them anew (R194). -/
def operandRanges (p : Phys) (s : Sys) (b : Block) (ops : List Op) : List (Space × Nat × Nat) :=
  ops.flatMap fun x =>
    match x.body with
    | .mma k => (k.bPieces ++ k.rows.flatMap k.aPieces).flatMap (pieceRanges p s b)
    | _ => []

/-- Do two byte ranges share a byte? -/
def rangesMeet (a n b m : Nat) : Bool := a < b + m && b < a + n

/-- May an MMA among these instructions still read some of these bytes? -/
def awaitsOperands (p : Phys) (s : Sys) (b : Block) (ops : List Op) (xs : List (Space × Nat × Nat)) : Bool :=
  (operandRanges p s b ops).any fun y => xs.any fun x => x.1 == y.1 && rangesMeet x.2.1 x.2.2 y.2.1 y.2.2

end Sys2Proof.Machine
end

