-- ==== Sys2Proof/Machine/LocalMem.lean ====
section
/-! DEFINITION. Local memory (R30, R126, R149 to R158, R243, R244): the spaces that a warp reaches directly, their poison
units, the address checks, and the loads and stores. -/

namespace Sys2Proof.Machine

/-! ## Bytes and poison units of the spaces -/

/-- A byte of a space. -/
def spaceByte (p : Phys) (b : Block) (w : Warp) (sp : Space) (a : Nat) : Byte :=
  match sp with
  | .bsm => b.bsm.get a
  | .tsp => p.byte a
  | .priv => w.priv.get a

/-- The size of the poison unit of a space: 4 bytes on the core, 8 in the scratchpad (R243). -/
def Space.unit (sp : Space) : Nat := match sp with | .tsp => 8 | _ => 4

/-- Is a unit, named by its base, poisoned? -/
def spaceBad (p : Phys) (b : Block) (w : Warp) (sp : Space) (base : Nat) : Bool :=
  match sp with
  | .bsm => NatSet.has b.bsmPoison base
  | .tsp => NatSet.has p.poison base
  | .priv => NatSet.has w.privPoison base

/-- A stored element: its address, its size in bytes and its data. -/
abbrev Elem := Nat × Nat × DWord

/-- The byte that an element stores at an address. -/
def elemByte (x : Elem) (a : Nat) : Option Byte :=
  if x.1 ≤ a && a < x.1 + x.2.1 then some (x.2.2.extractLsb' (8 * (a - x.1)) 8) else none

/-- A unit after the elements of one store (R154 (b), R157, R244 (d)): a poisoned unit that elements of at least a word
cover whole takes their bytes and loses its poison; any other write to a poisoned unit is discarded; of several elements
that write one byte, the last one remains. -/
def unitAfter (base size : Nat) (u : List Byte × Bool) (els : List Elem) : List Byte × Bool :=
  let addrs := (List.range size).map (base + ·)
  let covered := addrs.all fun a => els.any fun x => 4 ≤ x.2.1 && (elemByte x a).isSome
  if u.2 && !covered then u
  else
    (addrs.zipIdx.map fun x => els.foldl (fun b e => (elemByte e x.1).getD b) (u.1.getD x.2 0), false)

/-- The bases of the units that elements touch, ascending. -/
def unitBases (size : Nat) (els : List Elem) : List Nat :=
  els.foldl (fun s x => (List.range x.2.1).foldl (fun s i => NatSet.add s (x.1 + i - (x.1 + i) % size)) s) []

/-- The elements of a store. -/
def storeElems (bytes : Nat) (lanes : List (Nat × Nat × DWord)) : List Elem := lanes.map fun x => (x.2.1, bytes, x.2.2)

/-- The stores of a list of outstanding instructions into a space, in order. -/
def storesOf (ops : List Op) (sp : Space) : List (List Elem) :=
  ops.filterMap fun x => match x.body with
    | .store s n lanes _ => if s == sp then some (storeElems n lanes) else none
    | _ => none

/-- A unit as the warp sees it: its home under the earlier stores that wait in the store buffer (R158). -/
def unitView (p : Phys) (b : Block) (w : Warp) (earlier : List Op) (sp : Space) (base : Nat) : List Byte × Bool :=
  let home := ((List.range sp.unit).map fun i => spaceByte p b w sp (base + i), spaceBad p b w sp base)
  (storesOf earlier sp).foldl (fun u els => if els.any (fun x => x.1 < base + sp.unit && base < x.1 + x.2.1)
    then unitAfter base sp.unit u els else u) home

/-- The value of `n` bytes as the warp sees them, and whether a unit of them is poisoned. -/
def loadView (p : Phys) (b : Block) (w : Warp) (earlier : List Op) (sp : Space) (a n : Nat) : Nat × Bool :=
  let bases := unitBases sp.unit [(a, n, 0)]
  let us := bases.map fun u => (u, unitView p b w earlier sp u)
  let byte := fun (x : Nat) =>
    match us.find? fun u => u.1 ≤ x && x < u.1 + sp.unit with
    | some u => u.2.1.getD (x - u.1) 0
    | none => 0
  (bytesToNat ((List.range n).map fun i => byte (a + i)), us.any fun u => u.2.2)

namespace Tx

variable {o : Phys}

/-- One unit of a space written at its home. -/
def putUnit (t : Tx o) (r : WarpRef) (sp : Space) (base : Nat) (u : List Byte × Bool) : Tx o :=
  let cells := u.1.zipIdx.map fun x => (base + x.2, x.1)
  match sp with
  | .bsm => t.map fun s => s.setBlock r.block fun b =>
      { b with bsm := Sparse.putAll b.bsm cells, bsmPoison := NatSet.set b.bsmPoison base u.2 }
  | .priv => t.map fun s => s.setWarp r fun w =>
      { w with priv := Sparse.putAll w.priv cells, privPoison := NatSet.set w.privPoison base u.2 }
  | .tsp => (cells.foldl (fun t x => t.byte x.1 x.2) t).mark base u.2

/-- A store performed at its home. -/
def perform (t : Tx o) (r : WarpRef) (sp : Space) (els : List Elem) : Tx o :=
  (unitBases sp.unit els).foldl (fun t base =>
    match t.sys.block r.block, t.sys.warp r with
    | some b, some w => t.putUnit r sp base (unitAfter base sp.unit (unitView t.phys b w [] sp base) els)
    | _, _ => t) t

end Tx

/-! ## Addresses (R152, R153) -/

/-- The lanes that commit, with their targets, and the fault of the others. -/
structure Parts where
  /-- lane and target address -/
  ok : List (Nat × Nat)
  /-- window pages translated, and those whose translation failed -/
  pages : List Nat
  badPages : List Nat := []
  fault : Option TrapInfo
deriving DecidableEq, Repr

/-- The range cause of a space (R152). -/
def Space.cause (sp : Space) : Cause :=
  match sp with
  | .bsm => .bsmRange
  | .tsp => .windowFault
  | .priv => .localRange

/-- The target of one lane's access of `size` bytes: none when the range rule of its space fails. -/
def laneTarget (p : Phys) (s : Sys) (c : Ctx) (sp : Space) (size l a : Nat) : Option Nat :=
  match sp with
  | .bsm => if a + size ≤ c.b.bsmBytes then some a else none
  | .priv => if a + size ≤ c.b.hdr.lpriv then some (512 * l + a) else none
  | .tsp => translateWindow p s c.b.coreRef c.b.asid a

/-- The partition of the active lanes (R153). -/
def partitionLanes (p : Phys) (s : Sys) (c : Ctx) (sp : Space) (size : Nat) (e : LaneMask) (addr : Nat → Nat) : Parts :=
  let xs := e.lanes.map fun l =>
    let a := addr l
    if a % size != 0 then (l, a, Except.error Cause.misaligned)
    else match laneTarget p s c sp size l a with
      | some t => (l, a, Except.ok t)
      | none => (l, a, Except.error sp.cause)
  let ok := xs.filterMap fun x => match x.2.2 with | .ok t => some (x.1, t) | .error _ => none
  let bad := xs.filterMap fun x => match x.2.2 with | .ok _ => none | .error k => some (x.1, x.2.1, k)
  let pages := match sp with
    | .tsp => xs.foldl (fun ps x => match x.2.2 with | .ok _ => NatSet.add ps (x.2.1 / 65536) | .error _ => ps) []
    | _ => []
  let badPages := match sp with
    | .tsp => bad.foldl (fun ps x => if x.2.2 == .misaligned then ps else NatSet.add ps (x.2.1 / 65536)) []
    | _ => []
  let cause := if bad.any fun x => x.2.2 == .misaligned then Cause.misaligned else sp.cause
  let fault := (bad.find? fun x => x.2.2 == cause).map fun x =>
    { cause := cause, resume := LaneMask.ofLanes (bad.map Prod.fst), addr := x.2.1 : TrapInfo }
  { ok := ok, pages := pages, badPages := badPages, fault := fault }

/-- The window pages of an access fill the translation caches (R239), or their bad entries are logged (R238). -/
def fillPages (p : Phys) (s : Sys) (c : Ctx) (pages : List Nat) : Sys :=
  pages.foldl (fun s pg => fillWindow p s c.b.coreRef c.b.asid pg) s

/-! ## The bytes of an access -/

/-- The size of a loaded element (R150). -/
def LoadSize.bytes (z : LoadSize) : Nat :=
  match z with
  | .word => 4
  | .pair => 8
  | .n8 | .i8 => 1
  | .n16 | .i16 => 2

/-- The accesses of an outstanding instruction: space, address, bytes. CERT writes the certified bound field of its header (R211). -/
def Op.ranges (x : Op) : List (Space × Nat × Nat) :=
  match x.body with
  | .load sp z _ lanes _ => lanes.map fun y => (sp, y.2, z.bytes)
  | .store sp n lanes _ => lanes.map fun y => (sp, y.2.1, n)
  | .atomic _ sp wide _ lanes _ => lanes.map fun y => (sp, y.addr, if wide then 8 else 4)
  | .cert _ _ pa _ => [(.tsp, pa, 2)]
  | _ => []

/-- Is the instruction a store into any space? -/
def Op.writes (x : Op) : Bool := match x.body with | .store .. => true | _ => false

/-- Does the instruction access one of `n` bytes? -/
def Op.touches (x : Op) (sp : Space) (a n : Nat) : Bool := x.ranges.any fun y => y.1 == sp && rangesMeet y.2.1 y.2.2 a n

/-! ## Starting an access -/

/-- `.acq` or `.ar` in layout O (R59). -/
def acquires (f : Fields) : Bool := f.orderCode % 2 == 1

/-- `.rel` or `.ar`. -/
def releases (f : Fields) : Bool := 2 ≤ f.orderCode

/-- An outstanding instruction added, without moving its slot: its number, and the acquire it may be. -/
def Sys.addOp (s : Sys) (c : Ctx) (m : Mnem) (flag : Option Nat) (acq : Bool) (body : OpBody) : Sys :=
  let (id, s1) := s.next
  s1.setWarp c.ref fun w =>
    Warp.setSlot
      { w with ops := w.ops ++ [{ id := id, slot := c.z, flag := flag, path := m.path, body := body,
                                  acq := if acq then some c.slot.mask else none }] }
      c.z fun z => { z with serialOp := if z.serial then some id else none }

/-- The slot moved past a variable-latency instruction. -/
def Sys.passOp (s : Sys) (c : Ctx) : Sys :=
  s.setWarp c.ref fun w => w.setSlot c.z fun z => { z.step s.words with issued := z.issued + 1 }

/-- A memory access by lanes (R153): the committing lanes start, then the trap of the others or the next instruction. -/
def Tx.accessLanes {o : Phys} (t : Tx o) (c : Ctx) (m : Mnem) (f : Fields) (flag : Option Nat) (parts : Parts)
    (body : List (Nat × Nat) → OpBody) : Tx o :=
  let t1 := t.upd fun p s => fillPages p s c (parts.pages ++ parts.badPages)
  let t2 := if parts.ok.isEmpty then t1 else t1.map fun s => s.addOp c m flag (acquires f) (body parts.ok)
  match parts.fault with
  | some i => t2.raise c.ref c.z i false
  | none => t2.map fun s => s.passOp c

/-- An access of `size` bytes a lane goes on when the miss queue has room for its missing window pages (R239 (e)), and no MMA of the warp
may still read one of its bytes (R194, R221 (b), R222 (e), log 133); else it waits at issue. -/
def Tx.withRoom {o : Phys} (t : Tx o) (c : Ctx) (sp : Space) (size : Nat) (parts : Parts) (go : Tx o) : Tx o :=
  if !missRoom t.sys c.b.coreRef c.b.asid (parts.pages ++ parts.badPages) then t.map fun y => y.hold c .translation
  else if awaitsOperands t.phys t.sys c.b c.w.ops (parts.ok.map fun x => (sp, x.2, size)) then t.map fun y => y.hold c .restoredMma
  else go

/-- What holds an instruction that reads memory at its issue (R221 (b)): an earlier access of its warp to one of the bytes that does not
stand in the store buffer, or an MMA that may still read one of them. -/
def readsHeld (p : Phys) (s : Sys) (b : Block) (ops : List Op) (xs : List (Space × Nat × Nat)) : Option Hold :=
  if ops.any fun x => !x.writes && xs.any fun y => x.touches y.1 y.2.1 y.2.2 then some .earlierAccess
  else if awaitsOperands p s b ops xs then some .restoredMma
  else none

/-- An instruction goes on, or waits at issue for a reason. -/
def Tx.unlessHeld {o : Phys} (t : Tx o) (c : Ctx) (h : Option Hold) (go : Tx o) : Tx o :=
  match h with
  | some h => t.map fun y => y.hold c h
  | none => go

/-- An access of layout O: `.rel` waits at issue (R159 (a)); an empty active set completes at once (R54). DESIGN CHOICE: REG_RANGE and POISON of
an operand are raised in front of this wait and of every other wait of the instruction's own, for which the spec gives no order (log 145). -/
def memoryOp (m : Mnem) (f : Fields) (s : State)
    (k : (o : Phys) → Tx o → Ctx → LaneMask → Option Nat → Tx o) : Host.Outcome State Fault Refusal :=
  issue m f s fun o t c e flag =>
    if e == 0 then t.map fun y => y.completedOp c id
    else if releases f && !c.w.drained then t.map fun y => y.hold c .release
    else k o t c e flag

/-- The size in bytes of a load or store (R150). -/
def accessSize (f : Fields) : Nat :=
  match f.sub.toNat with
  | 0 => if f.w64 then 8 else 4
  | 1 | 2 => 1
  | _ => 2

/-- How a load widens its element (R150). -/
def loadSize (f : Fields) : LoadSize :=
  match f.sub.toNat with
  | 0 => if f.w64 then .pair else .word
  | 1 => .n8
  | 2 => .i8
  | 3 => .n16
  | _ => .i16

/-- The address of a lane for LDB, STB, LDL and STL: the base of R149 and the unsigned offset, without a wrap. -/
def baseAddress (w : Warp) (f : Fields) (l : Nat) : Nat :=
  (if f.x then (w.scalar f.a.toNat).toNat else (w.elem f.a.toNat l).toNat) + f.immU

/-- The address of a lane for LDT and STT (R152). -/
def rowAddress (w : Warp) (f : Fields) (l : Nat) : Nat :=
  (w.scalar f.a.toNat).toNat + f.immU + l * accessSize f

/-- The data of a store: the element, or the pair under W64. -/
def storeData (w : Warp) (f : Fields) (l : Nat) : DWord :=
  if f.w64 then w.pair f.d.toNat l else (w.elem f.d.toNat l).setWidth 64

/-- A load. -/
def loadOp (m : Mnem) (f : Fields) (s : State) (sp : Space) (addr : Warp → Nat → Nat) : Host.Outcome State Fault Refusal :=
  memoryOp m f s fun _ t c e flag =>
    let parts := partitionLanes t.phys t.sys c sp (accessSize f) e (addr c.w)
    t.withRoom c sp (accessSize f) parts (t.accessLanes c m f flag parts fun ok => .load sp (loadSize f) f.d.toNat ok parts.pages)

/-- Does an address lie in the block's own drawer? -/
def Block.inDrawer (b : Block) (off : Nat) : Bool := b.drawer ≤ off && off < b.drawer + b.drawerSize

/-- The effect bit of a block set (R171). -/
def Sys.setEffect (s : Sys) (id : Nat) (on : Bool) : Sys := if on then s.setBlock id fun b => { b with effect := true } else s

/-- A store. An STT that commits a byte outside the own drawer sets EFFECT (R171). -/
def storeOp (m : Mnem) (f : Fields) (s : State) (sp : Space) (addr : Warp → Nat → Nat) : Host.Outcome State Fault Refusal :=
  memoryOp m f s fun _ t c e flag =>
    let n := accessSize f
    let parts := partitionLanes t.phys t.sys c sp n e (addr c.w)
    let outside := sp == .tsp && parts.ok.any fun x =>
      !c.b.inDrawer (addr c.w x.1) || !c.b.inDrawer (addr c.w x.1 + n - 1)
    t.withRoom c sp n parts ((t.map fun y => y.setEffect c.b.id outside).accessLanes c m f flag parts fun ok =>
      .store sp n (ok.map fun x => (x.1, x.2, storeData c.w f x.1)) parts.pages)

/-- LDB. -/
def execLdb (f : Fields) (s : State) : Host.Outcome State Fault Refusal := loadOp .ldb f s .bsm fun w l => baseAddress w f l

/-- STB. -/
def execStb (f : Fields) (s : State) : Host.Outcome State Fault Refusal := storeOp .stb f s .bsm fun w l => baseAddress w f l

/-- LDT. -/
def execLdt (f : Fields) (s : State) : Host.Outcome State Fault Refusal := loadOp .ldt f s .tsp fun w l => rowAddress w f l

/-- STT. -/
def execStt (f : Fields) (s : State) : Host.Outcome State Fault Refusal := storeOp .stt f s .tsp fun w l => rowAddress w f l

/-- LDL. -/
def execLdl (f : Fields) (s : State) : Host.Outcome State Fault Refusal := loadOp .ldl f s .priv fun w l => baseAddress w f l

/-- STL. -/
def execStl (f : Fields) (s : State) : Host.Outcome State Fault Refusal := storeOp .stl f s .priv fun w l => baseAddress w f l

/-- LDPERM (R126): 48 bytes of the BSM, read at issue, so that POISON is taken at the instruction (log 111); each fault leaves PERM
unchanged and reports the address. -/
def execLdperm (f : Fields) (s : State) : Host.Outcome State Fault Refusal :=
  issue .ldperm f s fun _ t c e flag =>
    let a := (c.w.scalar f.a.toNat).toNat + f.immU
    let inside := fun i => decide (a + i < c.b.bsmBytes)
    let bad := (List.range 48).any fun i => inside i && (loadView t.phys c.b c.w c.w.ops .bsm (a + i) 1).2
    let trap := fun (k : Cause) => { cause := k, resume := e, addr := a : TrapInfo }
    if bad then t.raise c.ref c.z (trap .poison) false
    else if a % 8 != 0 then t.raise c.ref c.z (trap .misaligned) false
    else if c.b.bsmBytes < a + 48 then t.raise c.ref c.z (trap .bsmRange) false
    else t.unlessHeld c (readsHeld t.phys t.sys c.b c.w.ops [(.bsm, a, 48)])
      (t.map fun y => y.startOp c .ldperm flag (.loadPerm (BitVec.ofNat 384 (loadView t.phys c.b c.w c.w.ops .bsm a 48).1)))

end Sys2Proof.Machine
end

