-- ==== Sys2Proof/Machine/Atomics.lean ====
section
/-! DEFINITION. Atomics and ordered accumulation slots (R161 to R165, R171): the instructions, and the operation on one
word. -/

namespace Sys2Proof.Machine

/-- The new word of an atomic on `n` bits (R161), with its flags: `b` the operand, `c` the new value of ATOMC. -/
def atomicNew (op : AtomicOp) (n old b c : Nat) : Nat × BitVec 5 :=
  let sg := fun x => signedNat n x
  let plain := fun (x : Nat) => (x % 2 ^ n, (0 : BitVec 5))
  match op with
  | .add => plain (old + b)
  | .and => plain (old &&& b)
  | .or => plain (old ||| b)
  | .xor => plain (old ^^^ b)
  | .min => plain (if sg b < sg old then b else old)
  | .max => plain (if sg old < sg b then b else old)
  | .minu => plain (min old b)
  | .maxu => plain (max old b)
  | .exch => plain b
  | .inc => plain (if b ≤ old then 0 else old + 1)
  | .dec => plain (if old == 0 || b < old then b else old - 1)
  | .cas => plain (if old == b then c else old)
  | .fadd =>
    let x := sumNums false [fp32 (BitVec.ofNat 32 old), fp32 (BitVec.ofNat 32 b)]
    let r := FloatFmt.fp32.deliver nearest false false x.1
    (r.1, r.2 ||| x.2)
  | .fmin => let r := fp32MinMax true (BitVec.ofNat 32 old) (BitVec.ofNat 32 b); (r.1.toNat, r.2)
  | .fmax => let r := fp32MinMax false (BitVec.ofNat 32 old) (BitVec.ofNat 32 b); (r.1.toNat, r.2)

/-- The operation of ATOM by SUB (R161). -/
def atomOp (sub : BitVec 4) : AtomicOp :=
  match sub.toNat with
  | 0 => .add
  | 1 => .and
  | 2 => .or
  | 3 => .xor
  | 4 => .min
  | 5 => .max
  | 6 => .minu
  | 7 => .maxu
  | 8 => .exch
  | 9 => .inc
  | _ => .dec

/-- The operation of ATOMF by SUB (R161). -/
def atomfOp (sub : BitVec 4) : AtomicOp :=
  match sub.toNat with
  | 0 => .fadd
  | 1 => .fmin
  | _ => .fmax

/-- Does a waiting store of the warp overlap a target word (R158)? -/
def storesOverlap (w : Warp) (sp : Space) (n : Nat) (targets : List (Nat × Nat)) : Bool :=
  (storesOf w.ops sp).any fun els => els.any fun x => targets.any fun y => rangesMeet x.1 x.2.1 y.2 n

/-- An atomic (R153, R158, R161): it waits for the warp's overlapping stores, sets EFFECT when a lane commits, and is
performed by the core's Atomic Engine. -/
def atomicOp (m : Mnem) (f : Fields) (s : State) (op : AtomicOp) (lane : Warp → Nat → DWord × DWord) :
    Host.Outcome State Fault Refusal :=
  memoryOp m f s fun _ t c e flag =>
    let sp := if f.x then Space.tsp else .bsm
    let n := if f.w64 then 8 else 4
    let parts := partitionLanes t.phys t.sys c sp n e fun l => (c.w.elem f.a.toNat l).toNat
    if storesOverlap c.w sp n parts.ok then t.map fun y => y.hold c .overlappingStore
    else
      t.withRoom c sp n parts ((t.map fun y => y.setEffect c.b.id (!parts.ok.isEmpty)).accessLanes c m f flag parts fun ok =>
        .atomic op sp f.w64 f.d.toNat
          (ok.map fun x => { lane := x.1, addr := x.2, b := (lane c.w x.1).1, c := (lane c.w x.1).2 }) parts.pages)

/-- An element or pair of a register. -/
def widePair (w : Warp) (f : Fields) (n l : Nat) : DWord := if f.w64 then w.pair n l else (w.elem n l).setWidth 64

/-- ATOM: B a register, or an immediate sign-extended to the element. -/
def execAtom (f : Fields) (s : State) : Host.Outcome State Fault Refusal :=
  atomicOp .atom f s (atomOp f.sub) fun w l =>
    (if f.imm then BitVec.ofNat 64 (widened f .sign (if f.w64 then 64 else 32)) else widePair w f f.b.toNat l, 0)

/-- ATOMC: new := v[C] when old equals v[B]. -/
def execAtomc (f : Fields) (s : State) : Host.Outcome State Fault Refusal :=
  atomicOp .atomc f s .cas fun w l => (widePair w f f.b.toNat l, widePair w f f.c.toNat l)

/-- ATOMF: FP32 words. -/
def execAtomf (f : Fields) (s : State) : Host.Outcome State Fault Refusal :=
  atomicOp .atomf f s (atomfOp f.sub) fun w l => ((bFloat w f l).setWidth 64, 0)

/-! ## Ordered accumulation slots -/

/-- An open slot of a core by its number. -/
def Core.accSlot (k : Core) (n : Nat) : Option AccSlot := k.accSlots.find? fun x => x.number == n

/-- AFADDO (R164): the checks, then `received` grows; the Atomic Engine takes the contributions in. -/
def execAfaddo (f : Fields) (s : State) : Host.Outcome State Fault Refusal :=
  memoryOp .afaddo f s fun _ t c e flag =>
    let n := f.d.toNat
    let trap : TrapInfo := { cause := .accSlot, resume := e, addr := n }
    match (t.sys.core c.b.coreRef).accSlot n with
    | none => t.raise c.ref c.z trap false
    | some a =>
      if a.count < a.received + e.count then t.raise c.ref c.z trap false
      else t.map fun y =>
        let y1 := (y.setEffect c.b.id true).setCore c.b.coreRef fun k =>
          { k with accSlots := updateWhere (fun x => x.number == n) (fun x => { x with received := x.received + e.count }) k.accSlots }
        y1.startOp c .afaddo flag (.contribute n (e.lanes.map fun l => (l, c.w.elem f.a.toNat l)))

/-- ACCOPEN (R163): the checks in order, the wait for buffer room, then the slot is open and ACCOPEN complete. -/
def execAccopen (f : Fields) (s : State) : Host.Outcome State Fault Refusal :=
  issue .accopen f s fun _ t c e _ =>
    let n := f.d.toNat
    let a := (c.w.scalar f.a.toNat).toNat
    let count := (bScalar c.w f .zero).toNat
    let core := t.sys.core c.b.coreRef
    if a % 4 != 0 then t.raise c.ref c.z { cause := .misaligned, resume := e, addr := a } false
    else
      match translateWindow t.phys t.sys c.b.coreRef c.b.asid a with
      | none => (t.upd fun p y => fillWindow p y c.b.coreRef c.b.asid (a / 65536)).raise c.ref c.z { cause := .windowFault, resume := e, addr := a } false
      | some _ =>
        if (core.accSlot n).isSome || count == 0 || 4096 < count then
          t.raise c.ref c.z { cause := .accSlot, resume := e, addr := n } false
        else if 4096 < (core.accSlots.map AccSlot.count).sum + count then t.map fun y => y.hold c .accRoom
        else
          t.upd fun p y =>
            let y1 := fillWindow p y c.b.coreRef c.b.asid (a / 65536)
            let y2 := y1.setCore c.b.coreRef fun k =>
              { k with accSlots := k.accSlots ++ [{ number := n, addr := a, asid := c.b.asid, count := count, block := c.b.id,
                                                    barrier := f.c.toNat }] }
            y2.completedOp c id

end Sys2Proof.Machine
end

