-- ==== Sys2Proof/Machine/IntScalar.lean ====
section
/-! DEFINITION. The scalar integer instructions (R118, R120). -/

namespace Sys2Proof.Machine

/-- The value of a 64-bit operand: unsigned under `.u` (R120). -/
def scalarInt (u : Bool) (x : DWord) : Int := if u then (x.toNat : Int) else x.toInt

/-- MOD[0] of a scalar instruction: `.u` (R120). -/
def unsignedBit (f : Fields) : Bool := f.mod.getLsbD 0

/-- A 64-bit result under SAT: clamped to N64 under `.u`, else to I64 (R120). -/
def scalarResult (f : Fields) (x : Int) : DWord :=
  BitVec.ofInt 64 (if f.sat then intClamp (if unsignedBit f then 7 else 6) x else x)

/-- A scalar arithmetic instruction on A, B and C: the exact value, then R72. With SAT the operands are read by the range
that clamps (DEDUCED: `.u` names the range of the clamp; modulo 2^64 the reading makes no difference). -/
def scalarArith (m : Mnem) (f : Fields) (s : State) (g : Int → Int → Int → Int) : Host.Outcome State Fault Refusal :=
  scalarOp m f s fun c =>
    let v := scalarInt (unsignedBit f)
    scalarResult f (g (v (c.w.scalar f.a.toNat)) (v (bScalar c.w f .sign)) (v (c.w.scalar f.c.toNat)))

/-- A scalar bitwise instruction on A and B. -/
def scalarBits (m : Mnem) (f : Fields) (s : State) (g : DWord → DWord → DWord) : Host.Outcome State Fault Refusal :=
  scalarOp m f s fun c => g (c.w.scalar f.a.toNat) (bScalar c.w f .sign)

/-- A scalar shift: A and the whole unsigned count B (R118, R120). -/
def scalarShift (m : Mnem) (f : Fields) (s : State) (g : DWord → Nat → DWord) : Host.Outcome State Fault Refusal :=
  scalarOp m f s fun c => g (c.w.scalar f.a.toNat) (bScalar c.w f .zero).toNat

/-- A scalar instruction that compares A and B by MOD[0]: the result from A, B and a comparison of them. -/
def scalarCompare (m : Mnem) (f : Fields) (s : State) (g : DWord → DWord → (Cmp → Bool) → DWord) :
    Host.Outcome State Fault Refusal :=
  scalarOp m f s fun c =>
    let a := c.w.scalar f.a.toNat
    let b := bScalar c.w f (compareWiden (!unsignedBit f))
    g a b fun k => k.holds (scalarInt (unsignedBit f) a) (scalarInt (unsignedBit f) b)

/-- The count of set bits of the low n bits. -/
def popCount (n x : Nat) : Nat := ((List.range n).filter fun i => natBit x i).length

/-- The leading zeros of an n-bit number; n for 0. -/
def leadingZeros (n x : Nat) : Nat := if x % 2 ^ n == 0 then n else n - 1 - (x % 2 ^ n).log2

/-- The trailing zeros of an n-bit number; n for 0. -/
def trailingZeros (n x : Nat) : Nat := ((List.range n).find? fun i => natBit x i).getD n

/-- SADD: A + B. -/
def execSadd (f : Fields) (s : State) : Host.Outcome State Fault Refusal :=
  scalarArith .sadd f s fun a b _ => a + b

/-- SSUB: A − B. -/
def execSsub (f : Fields) (s : State) : Host.Outcome State Fault Refusal :=
  scalarArith .ssub f s fun a b _ => a - b

/-- SMUL: the low 64 bits of A × B, or the clamped product. -/
def execSmul (f : Fields) (s : State) : Host.Outcome State Fault Refusal :=
  scalarArith .smul f s fun a b _ => a * b

/-- SMULH: the high 64 bits of the 128-bit product; the immediate is zero-extended under `.u` (R118). -/
def execSmulh (f : Fields) (s : State) : Host.Outcome State Fault Refusal :=
  scalarOp .smulh f s fun c =>
    let v := scalarInt (unsignedBit f)
    BitVec.ofInt 64 (v (c.w.scalar f.a.toNat) * v (bScalar c.w f (compareWiden (!unsignedBit f))) / 2 ^ 64)

/-- SMAD: A × B + C. -/
def execSmad (f : Fields) (s : State) : Host.Outcome State Fault Refusal :=
  scalarArith .smad f s fun a b c => a * b + c

/-- SAND. -/
def execSand (f : Fields) (s : State) : Host.Outcome State Fault Refusal :=
  scalarBits .sand f s fun a b => a &&& b

/-- SOR. -/
def execSor (f : Fields) (s : State) : Host.Outcome State Fault Refusal :=
  scalarBits .sor f s fun a b => a ||| b

/-- SXOR. -/
def execSxor (f : Fields) (s : State) : Host.Outcome State Fault Refusal :=
  scalarBits .sxor f s fun a b => a ^^^ b

/-- SNOT. -/
def execSnot (f : Fields) (s : State) : Host.Outcome State Fault Refusal :=
  scalarBits .snot f s fun a _ => ~~~a

/-- SSHL: 0 when B ≥ 64. -/
def execSshl (f : Fields) (s : State) : Host.Outcome State Fault Refusal :=
  scalarShift .sshl f s fun a b => if 64 ≤ b then 0 else a <<< b

/-- SSHR, logical: 0 when B ≥ 64. -/
def execSshr (f : Fields) (s : State) : Host.Outcome State Fault Refusal :=
  scalarShift .sshr f s fun a b => if 64 ≤ b then 0 else a >>> b

/-- SSAR, arithmetic: copies of A[63] when B ≥ 64. -/
def execSsar (f : Fields) (s : State) : Host.Outcome State Fault Refusal :=
  scalarShift .ssar f s fun a b => a.sshiftRight (min b 63)

/-- SMIN: the lesser. -/
def execSmin (f : Fields) (s : State) : Host.Outcome State Fault Refusal :=
  scalarCompare .smin f s fun a b cmp => if cmp .le then a else b

/-- SMAX: the greater. -/
def execSmax (f : Fields) (s : State) : Host.Outcome State Fault Refusal :=
  scalarCompare .smax f s fun a b cmp => if cmp .ge then a else b

/-- SCMP: 1 if A cc B, else 0. -/
def execScmp (f : Fields) (s : State) : Host.Outcome State Fault Refusal :=
  scalarCompare .scmp f s fun _ _ cmp => if cmp (Cmp.ofSub f.sub) then 1 else 0

/-- SSEL: C ≠ 0 ? A : B. -/
def execSsel (f : Fields) (s : State) : Host.Outcome State Fault Refusal :=
  scalarOp .ssel f s fun c => if c.w.scalar f.c.toNat != 0 then c.w.scalar f.a.toNat else bScalar c.w f .sign

/-- SMOV. -/
def execSmov (f : Fields) (s : State) : Host.Outcome State Fault Refusal :=
  scalarOp .smov f s fun c => c.w.scalar f.a.toNat

/-- SLI: the sign-extended immediate. -/
def execSli (f : Fields) (s : State) : Host.Outcome State Fault Refusal :=
  scalarOp .sli f s fun c => bScalar c.w f .sign

/-- SLI.HI: s[D][63:32] := i[31:0], the immediate sign-extended to 32 bits by its form (R118); s[D][31:0] is kept. -/
def execSliHi (f : Fields) (s : State) : Host.Outcome State Fault Refusal :=
  scalarOp .sliHi f s fun c => BitVec.ofNat 32 (widened f .sign 32) ++ (c.w.scalar f.d.toNat).setWidth 32

/-- SPOPC: set bits. -/
def execSpopc (f : Fields) (s : State) : Host.Outcome State Fault Refusal :=
  scalarOp .spopc f s fun c => BitVec.ofNat 64 (popCount 64 (c.w.scalar f.a.toNat).toNat)

/-- SCLZ: leading zeros. -/
def execSclz (f : Fields) (s : State) : Host.Outcome State Fault Refusal :=
  scalarOp .sclz f s fun c => BitVec.ofNat 64 (leadingZeros 64 (c.w.scalar f.a.toNat).toNat)

/-- SCTZ: trailing zeros. -/
def execSctz (f : Fields) (s : State) : Host.Outcome State Fault Refusal :=
  scalarOp .sctz f s fun c => BitVec.ofNat 64 (trailingZeros 64 (c.w.scalar f.a.toNat).toNat)

end Sys2Proof.Machine
end

