-- ==== Sys2Proof/Machine/IntVector.lean ====
section
/-! DEFINITION. The vector integer instructions (R117, R118, R121 to R123, R85). -/

namespace Sys2Proof.Machine

/-- A vector instruction on exact integer values: A, B and C read in the type, the result by R72. -/
def vectorArith (m : Mnem) (f : Fields) (s : State) (u : Widen) (g : Int → Int → Int → Int) : Host.Outcome State Fault Refusal :=
  let t := f.typeCode
  vectorOp m f s t fun w l =>
    intResult t f.sat (g (intValue t (w.rawElem t f.a.toNat l)) (intValue t (bElem w f u t l)) (intValue t (w.rawElem t f.c.toNat l)))

/-- A vector instruction on the bits of A and B, with the element width. -/
def vectorBits (m : Mnem) (f : Fields) (s : State) (u : Widen) (g : Nat → Nat → Nat → Nat) : Host.Outcome State Fault Refusal :=
  let t := f.typeCode
  vectorOp m f s t fun w l => g (intBits t) (w.rawElem t f.a.toNat l) (bElem w f u t l) % 2 ^ intBits t

/-- VADD: A + B. -/
def execVadd (f : Fields) (s : State) : Host.Outcome State Fault Refusal :=
  vectorArith .vadd f s .sign fun a b _ => a + b

/-- VSUB: A − B. -/
def execVsub (f : Fields) (s : State) : Host.Outcome State Fault Refusal :=
  vectorArith .vsub f s .sign fun a b _ => a - b

/-- VMUL: A × B. -/
def execVmul (f : Fields) (s : State) : Host.Outcome State Fault Refusal :=
  vectorArith .vmul f s .sign fun a b _ => a * b

/-- VMULH: the high n bits of the 2n-bit A × B. -/
def execVmulh (f : Fields) (s : State) : Host.Outcome State Fault Refusal :=
  vectorArith .vmulh f s .sign fun a b _ => a * b / 2 ^ intBits f.typeCode

/-- VMAD: A × B + C, exact. -/
def execVmad (f : Fields) (s : State) : Host.Outcome State Fault Refusal :=
  vectorArith .vmad f s .sign fun a b c => a * b + c

/-- VMIN: the lesser. -/
def execVmin (f : Fields) (s : State) : Host.Outcome State Fault Refusal :=
  vectorArith .vmin f s (compareWiden (intSigned f.typeCode)) fun a b _ => min a b

/-- VMAX: the greater. -/
def execVmax (f : Fields) (s : State) : Host.Outcome State Fault Refusal :=
  vectorArith .vmax f s (compareWiden (intSigned f.typeCode)) fun a b _ => max a b

/-- VABS: |A|; the minimum gives itself, or the maximum under SAT. -/
def execVabs (f : Fields) (s : State) : Host.Outcome State Fault Refusal :=
  vectorArith .vabs f s .sign fun a _ _ => (a.natAbs : Int)

/-- VNEG: 0 − A. -/
def execVneg (f : Fields) (s : State) : Host.Outcome State Fault Refusal :=
  vectorArith .vneg f s .sign fun a _ _ => -a

/-- VAND. -/
def execVand (f : Fields) (s : State) : Host.Outcome State Fault Refusal :=
  vectorBits .vand f s .sign fun _ a b => a &&& b

/-- VOR. -/
def execVor (f : Fields) (s : State) : Host.Outcome State Fault Refusal :=
  vectorBits .vor f s .sign fun _ a b => a ||| b

/-- VXOR. -/
def execVxor (f : Fields) (s : State) : Host.Outcome State Fault Refusal :=
  vectorBits .vxor f s .sign fun _ a b => a ^^^ b

/-- VNOT. -/
def execVnot (f : Fields) (s : State) : Host.Outcome State Fault Refusal :=
  vectorBits .vnot f s .sign fun n a _ => 2 ^ n - 1 - a

/-- VSHL: 0 when B ≥ n. -/
def execVshl (f : Fields) (s : State) : Host.Outcome State Fault Refusal :=
  vectorBits .vshl f s .zero fun n a b => if n ≤ b then 0 else a * 2 ^ b

/-- VSHR, logical: 0 when B ≥ n. -/
def execVshr (f : Fields) (s : State) : Host.Outcome State Fault Refusal :=
  vectorBits .vshr f s .zero fun n a b => if n ≤ b then 0 else a / 2 ^ b

/-- VSAR, arithmetic: sign fill when B ≥ n. -/
def execVsar (f : Fields) (s : State) : Host.Outcome State Fault Refusal :=
  vectorBits .vsar f s .zero fun n a b => wrapBits n (signedNat n a / (2 ^ min b n : Int))

/-- VROT: A rotated left by B mod n. -/
def execVrot (f : Fields) (s : State) : Host.Outcome State Fault Refusal :=
  vectorBits .vrot f s .zero fun n a b => a * 2 ^ (b % n) ||| a / 2 ^ (n - b % n)

/-- VFUN, the funnel shift (R122). -/
def execVfun (f : Fields) (s : State) : Host.Outcome State Fault Refusal :=
  vectorOp .vfun f s 0 fun w l =>
    let x := (w.elem f.a.toNat l).toNat * 2 ^ 32 + (w.elem f.b.toNat l).toNat
    let k := (w.elem f.c.toNat l).toNat % 64
    if f.sub == 0 then x / 2 ^ k % 2 ^ 32 else natBits (x * 2 ^ k) 63 32

/-- VPOPC: set bits. -/
def execVpopc (f : Fields) (s : State) : Host.Outcome State Fault Refusal :=
  vectorBits .vpopc f s .zero fun n a _ => popCount n a

/-- VCLZ: leading zeros; n for 0. -/
def execVclz (f : Fields) (s : State) : Host.Outcome State Fault Refusal :=
  vectorBits .vclz f s .zero fun n a _ => leadingZeros n a

/-- VCTZ: trailing zeros; n for 0. -/
def execVctz (f : Fields) (s : State) : Host.Outcome State Fault Refusal :=
  vectorBits .vctz f s .zero fun n a _ => trailingZeros n a

/-- The n bits of a number in the opposite order. -/
def reverseBits (n x : Nat) : Nat :=
  (List.range n).foldl (fun acc i => if natBit x i then acc + 2 ^ (n - 1 - i) else acc) 0

/-- VBREV: bit i := A bit n − 1 − i. -/
def execVbrev (f : Fields) (s : State) : Host.Outcome State Fault Refusal :=
  vectorBits .vbrev f s .zero fun n a _ => reverseBits n a

/-- VCMP (R123): bit l of m[D] for the active lanes. -/
def execVcmp (f : Fields) (s : State) : Host.Outcome State Fault Refusal :=
  let t := f.typeCode
  compareOp .vcmp f s fun w l =>
    ((Cmp.ofSub f.sub).holds (intValue t (w.rawElem t f.a.toNat l))
      (intValue t (bElem w f (compareWiden (intSigned t)) t l)), 0)

/-- VSEL: m[C] bit l ? A : B, with m0 the slot's mask, which selects A in every active lane. -/
def execVsel (f : Fields) (s : State) : Host.Outcome State Fault Refusal :=
  let t := f.typeCode
  fixedOp .vsel f s fun c e =>
    let sel := c.maskReg f.c.toNat
    c.w.putElems t f.d.toNat (e.lanes.map fun l =>
      (l, if sel.getLsbD l then c.w.rawElem t f.a.toNat l else bElem c.w f .sign t l))

/-- VMOV. -/
def execVmov (f : Fields) (s : State) : Host.Outcome State Fault Refusal :=
  vectorBits .vmov f s .sign fun _ a _ => a

/-- VLI: the widened immediate. -/
def execVli (f : Fields) (s : State) : Host.Outcome State Fault Refusal :=
  vectorBits .vli f s .sign fun _ _ b => b

/-- VBCST: s[A] in every active lane. -/
def execVbcst (f : Fields) (s : State) : Host.Outcome State Fault Refusal :=
  let t := f.typeCode
  vectorOp .vbcst f s t fun w _ => (w.scalar f.a.toNat).toNat % 2 ^ intBits t

/-- VEXTR (R123): one lane's element into a scalar register; POISON for that element alone. -/
def execVextr (f : Fields) (s : State) : Host.Outcome State Fault Refusal :=
  let t := f.typeCode
  let lane := fun (c : Ctx) => (bScalar c.w f .zero).toNat % 64
  laneReadOp .vextr f s (fun c _ => elemReads t f.a.toNat (lane c)) fun c _ =>
    c.w.setScalar f.d.toNat (BitVec.ofInt 64 (intValue t (c.w.rawElem t f.a.toNat (lane c))))

/-- ICVT (R85): sign- or zero-extension, the low bits, or the clamp under SAT. DEDUCED: SAT clamps every result that does not fit
its type (R72, R117 (e)), so a negative I value widened into an N type gives 0 under SAT (log 107). -/
def execIcvt (f : Fields) (s : State) : Host.Outcome State Fault Refusal :=
  let t := f.typeCode
  let src := f.srcCode
  vectorOp .icvt f s t fun w l => intResult t f.sat (intValue src (w.rawElem src f.a.toNat l))

end Sys2Proof.Machine
end

