-- ==== Sys2Proof/Machine/BitField.lean ====
section
/-! DEFINITION. The bit-field instructions (R124 to R127); LDPERM stands with the loads. -/

namespace Sys2Proof.Machine

/-- The product of two 8 × 8 bit matrices over GF(2) (R124). -/
def bitMatrixProduct (a b : Nat) : Nat :=
  (List.range 64).foldl (fun acc n =>
    let i := n / 8
    let j := n % 8
    let bit := (List.range 8).foldl (fun x k => x != (natBit a (8 * i + k) && natBit b (8 * k + j))) false
    if bit then acc + 2 ^ n else acc) 0

/-- PDEP of n bits (R125): the low bits of A, in order, at the set positions of B; `i` bits of A are placed. -/
def depositBits (a b : Nat) : List Nat → Nat → Nat → Nat
  | [], _, acc => acc
  | p :: ps, i, acc =>
    if natBit b p then depositBits a b ps (i + 1) (if natBit a i then acc + 2 ^ p else acc) else depositBits a b ps i acc

/-- PEXT of n bits (R125): the bits of A at the set positions of B, in order, into the low bits. -/
def extractBits (a b : Nat) : List Nat → Nat → Nat → Nat
  | [], _, acc => acc
  | p :: ps, i, acc =>
    if natBit b p then extractBits a b ps (i + 1) (if natBit a p then acc + 2 ^ i else acc) else extractBits a b ps i acc

/-- The position and length of a bit-field control word, the length cut at the element (R127). -/
def fieldPosition (n ctl : Nat) : Nat × Nat :=
  let pos := ctl % 64
  (pos, min (natBits ctl 12 6) (n - pos))

/-- BMM8 (R124). -/
def execBmm8 (f : Fields) (s : State) : Host.Outcome State Fault Refusal :=
  vectorBits .bmm8 f s .sign fun _ a b => bitMatrixProduct a b

/-- PDEP (R125). -/
def execPdep (f : Fields) (s : State) : Host.Outcome State Fault Refusal :=
  vectorBits .pdep f s .sign fun n a b => depositBits a b (List.range n) 0 0

/-- PEXT (R125). -/
def execPext (f : Fields) (s : State) : Host.Outcome State Fault Refusal :=
  vectorBits .pext f s .sign fun n a b => extractBits a b (List.range n) 0 0

/-- BPERM (R126): D bit j := A bit PERM[j]. -/
def execBperm (f : Fields) (s : State) : Host.Outcome State Fault Refusal :=
  vectorOp .bperm f s f.typeCode fun w l =>
    let a := w.rawElem f.typeCode f.a.toNat l
    (List.range 64).foldl (fun acc j => if natBit a (natBits w.perm.toNat (6 * j + 5) (6 * j)) then acc + 2 ^ j else acc) 0

/-- BFX (R127): the field, sign-extended from its top bit for signed types. -/
def execBfx (f : Fields) (s : State) : Host.Outcome State Fault Refusal :=
  vectorBits .bfx f s .zero fun n a b =>
    let p := fieldPosition n b
    let v := a / 2 ^ p.1 % 2 ^ p.2
    if intSigned f.typeCode && p.2 != 0 then wrapBits n (signedNat p.2 v) else v

/-- BFI (R127): A into the field of C. -/
def execBfi (f : Fields) (s : State) : Host.Outcome State Fault Refusal :=
  let t := f.typeCode
  vectorOp .bfi f s t fun w l =>
    let p := fieldPosition (intBits t) (bElem w f .zero t l)
    let c := w.rawElem t f.c.toNat l
    c - c / 2 ^ p.1 % 2 ^ p.2 * 2 ^ p.1 + w.rawElem t f.a.toNat l % 2 ^ p.2 * 2 ^ p.1

end Sys2Proof.Machine
end

