-- ==== Sys2Proof/Decode.lean ====
section
/-! DEFINITION. The decoder and the encoder of instruction words (R47 to R60), and the decoders of queue packets
(R321, R322, R347) and of market records (R334). Each is total; what no rule admits is refused by name. -/

namespace Sys2Proof

/-! ## Instruction words -/

/-- The length of an item, from w0[1:0] (R47); none for a clause header. -/
def formOf (tag : BitVec 2) : Option Form :=
  if tag == 0 then some .w32 else if tag == 1 then some .w64 else if tag == 2 then some .w96 else none

/-- The mask selection of M, MX and MN (R54). -/
def guardOf (m : BitVec 2) (mx : BitVec 3) (mn : Bool) : Option Guard :=
  if mx == 0 then
    if m == 0 then (if mn then none else some .all)
    else some (if mn then .clear (m.setWidth 3) else .set (m.setWidth 3))
  else if m == 0 then some (if mn then .clear mx else .set mx)
  else none

/-- The rounding mode of a RND field (R55). -/
def rndOf (r : BitVec 3) : Option Rnd :=
  if r == 0 then some .rn else if r == 1 then some .rz else if r == 2 then some .ru
  else if r == 3 then some .rd else if r == 4 then some .ra else if r == 5 then some .sr else none

/-- The opcode of a first word (R48). -/
def opField (w0 : Word) : BitVec 8 := w0.extractLsb' 2 8

/-- The fields of the words of an instruction (R48 to R51): in the 32-bit form `w1` is read as zero. -/
def parseFields (form : Form) (w0 w1 w2 : Word) (g : Guard) (r : Rnd) : Fields :=
  { form := form
    d := w1.extractLsb' 0 2 ++ w0.extractLsb' 10 6
    a := w1.extractLsb' 2 2 ++ w0.extractLsb' 16 6
    b := w1.extractLsb' 4 2 ++ w0.extractLsb' 22 6
    c := w1.extractLsb' 6 8
    imm := w0.getLsbD 30
    x := w0.getLsbD 31
    guard := g
    rnd := r
    sat := w1.getLsbD 21
    sub := w1.extractLsb' 22 4
    mod := w1.extractLsb' 26 6
    lit := w2 }

/-- The words that the form does not have are read as zero (R51). -/
def formWords (form : Form) (w1 w2 : Word) : Word × Word :=
  match form with
  | .w32 => (0#32, 0#32)
  | .w64 => (w1, 0#32)
  | .w96 => (w1, w2)

/-- R50: the use of I and B in the 96-bit form, and SR outside it. -/
def literalOk (f : Fields) : Bool :=
  match f.form with
  | .w32 => true
  | .w64 => f.rnd != .sr
  | .w96 => if f.rnd == .sr then !f.imm else f.imm && f.b == 0

/-- The instruction of an opcode and a field record, or the check of R70 that refuses it. -/
def selectInstr (op : BitVec 8) (f : Fields) : Except Illegal Instr :=
  match Mnem.lookup op f.x f.sub with
  | none => .error (if Mnem.all.any (fun m => m.spec.op == op) then .subOperation else .reservedOpcode)
  | some m =>
    match m.illegal f with
    | some e => .error e
    | none => .ok (Instr.ofMnem m f)

/-- The instruction of three words; the words after its length are not looked at (R47, R70). -/
def decodeInstr (w0 w1 w2 : Word) : Except Illegal Instr :=
  match formOf (w0.extractLsb' 0 2) with
  | none => .error .headerTag
  | some form =>
    let (v1, v2) := formWords form w1 w2
    match rndOf (v1.extractLsb' 18 3) with
    | none => .error .rounding
    | some r =>
      match guardOf (w0.extractLsb' 28 2) (v1.extractLsb' 14 3) (v1.getLsbD 17) with
      | none => .error .mask
      | some g =>
        let f := parseFields form w0 v1 v2 g r
        if literalOk f then selectInstr (opField w0) f else .error .literalForm

/-- The clause header of a word with tag 11 (R60). -/
def decodeHeader (w0 : Word) : Except Illegal HeaderFields :=
  if w0.extractLsb' 28 4 != 0 then .error .headerReserved
  else .ok { wait := w0.extractLsb' 2 12, setA := w0.extractLsb' 14 4, setB := w0.extractLsb' 18 4,
             len := w0.extractLsb' 22 6 }

/-- The instruction or clause header that three words begin with. -/
def decodeWords (w0 w1 w2 : Word) : Except Illegal Instr :=
  if w0.extractLsb' 0 2 == 3 then (decodeHeader w0).map .clauseHeader else decodeInstr w0 w1 w2

/-- The number of words of an item, from its first word (R47). -/
def itemWords (w0 : Word) : Nat :=
  let t := (w0.extractLsb' 0 2).toNat
  if t == 3 then 1 else t + 1

/-- The words of a list of bytes, little-endian (R47); bytes short of a word are dropped. -/
def wordsOfBytes : List Byte → List Word
  | b0 :: b1 :: b2 :: b3 :: rest => (b3 ++ b2 ++ b1 ++ b0) :: wordsOfBytes rest
  | _ => []

/-- Decoding of any bytes: the instruction and its length in bytes, or a refusal by name. -/
def decodeBytes (bs : List Byte) : Except Illegal (Instr × Nat) :=
  match wordsOfBytes (bs.take 12) with
  | [] => .error .truncated
  | w0 :: ws =>
    if ws.length + 1 < itemWords w0 then .error .truncated
    else (decodeWords w0 (ws.getD 0 0) (ws.getD 1 0)).map fun i => (i, 4 * itemWords w0)

/-- The instruction that the decoder reads from an instruction whose bits are `w`, bit 0 the least significant of the
first word; every bit above `nbits` is 0. -/
def decodeTableWord (nbits w : Nat) : Option Instr :=
  let v := w % 2 ^ nbits
  (decodeWords (BitVec.ofNat 32 v) (BitVec.ofNat 32 (v >>> 32)) (BitVec.ofNat 32 (v >>> 64))).toOption

/-! ## The encoder -/

/-- w0[1:0] of a form (R47). -/
def Form.tag (f : Form) : BitVec 2 := match f with | .w32 => 0 | .w64 => 1 | .w96 => 2

/-- The RND field of a mode (R55). -/
def Rnd.field (r : Rnd) : BitVec 3 :=
  match r with | .rn => 0 | .rz => 1 | .ru => 2 | .rd => 3 | .ra => 4 | .sr => 5

/-- The M field of a mask selection: `?m1` to `?m3` stand in M (R39). -/
def Guard.fieldM (g : Guard) : BitVec 2 :=
  match g with
  | .all => 0
  | .set m => if m.toNat < 4 then m.setWidth 2 else 0
  | .clear _ => 0

/-- The MX field: `?m4` to `?m7` and every `?!` form stand in MX (R39). -/
def Guard.fieldMX (g : Guard) : BitVec 3 :=
  match g with
  | .all => 0
  | .set m => if m.toNat < 4 then 0 else m
  | .clear m => m

/-- The MN field (R54). -/
def Guard.fieldMN (g : Guard) : Bool := match g with | .clear _ => true | _ => false

/-- Word 0 of an instruction (R48). -/
def encodeW0 (op : BitVec 8) (f : Fields) : Word :=
  BitVec.ofBool f.x ++ BitVec.ofBool f.imm ++ f.guard.fieldM ++ f.b.extractLsb' 0 6 ++ f.a.extractLsb' 0 6
    ++ f.d.extractLsb' 0 6 ++ op ++ f.form.tag

/-- Word 1 of an instruction (R49). -/
def encodeW1 (f : Fields) : Word :=
  f.mod ++ f.sub ++ BitVec.ofBool f.sat ++ f.rnd.field ++ BitVec.ofBool f.guard.fieldMN ++ f.guard.fieldMX ++ f.c
    ++ f.b.extractLsb' 6 2 ++ f.a.extractLsb' 6 2 ++ f.d.extractLsb' 6 2

/-- The word of a clause header (R60). -/
def encodeHeader (h : HeaderFields) : Word := 0#4 ++ h.len ++ h.setB ++ h.setA ++ h.wait ++ 3#2

/-- The words of an instruction; none for a step without an encoding. -/
def encode (i : Instr) : Option (List Word) :=
  match i with
  | .clauseHeader h => some [encodeHeader h]
  | _ =>
    match i.view with
    | none => none
    | some (m, f) =>
      some (match f.form with
        | .w32 => [encodeW0 m.spec.op f]
        | .w64 => [encodeW0 m.spec.op f, encodeW1 f]
        | .w96 => [encodeW0 m.spec.op f, encodeW1 f, f.lit])

/-- The bytes of a list of words, little-endian. -/
def bytesOfWords : List Word → List Byte
  | [] => []
  | w :: ws => w.extractLsb' 0 8 :: w.extractLsb' 8 8 :: w.extractLsb' 16 8 :: w.extractLsb' 24 8 :: bytesOfWords ws

/-! ## Queue packets (R321, R322, R347) -/

/-- The offset of the first check that fails. -/
def firstBad : List (Nat × Bool) → Option Nat
  | [] => none
  | (off, bad) :: rest => if bad then some off else firstBad rest

/-- Word k of a packet. -/
def packetWord (x k : Nat) : Nat := natBits x (64 * k + 63) (64 * k)

/-- The header's fields of a packet (R321). -/
def packetRef (queue : Nat) (index : Word) (x : Nat) : PacketRef :=
  { queue := queue, index := index, tag := BitVec.ofNat 16 (natBits x 31 16), barrier := natBit x 8,
    acq := BitVec.ofNat 3 (natBits x 11 9), rel := BitVec.ofNat 3 (natBits x 14 12) }

/-- The words from k on are reserved. -/
def reservedFrom (x k : Nat) : List (Nat × Bool) := ((List.range 8).drop k).map fun i => (8 * i, packetWord x i != 0)

/-- An operand of COPY at a word: DEDUCED: an offset + length beyond the window is laid to the address. -/
def copyChecks (x k : Nat) : List (Nat × Bool) :=
  let d := packetWord x k
  let sp := natBits d 53 52
  [(8 * k, (sp == 1 || sp == 2) && 2 ^ 32 < natBits d 51 0 + natBits x 223 192), (8 * k + 6, sp == 3), (8 * k + 6, natBits d 63 54 != 0)]

/-- The checks of a MAP. DEDUCED: OP 10 leaves the tower, the window page and its count unused and unchecked. -/
def mapChecks (x : Nat) : List (Nat × Bool) :=
  let d1 := packetWord x 1
  let op := natBits d1 1 0
  let n := natBits d1 36 20
  ([(8, op == 3), (8, natBit d1 3), (10, op < 2 && (n == 0 || 65536 < n)), (12, natBits d1 63 37 != 0)] : List (Nat × Bool)) ++
  (if op == 2 then
    ([(16, natBits x 139 128 != 0), (22, natBits x 191 180 != 0), (24, natBits x 223 192 == 0), (28, natBits x 255 224 != 0)] : List (Nat × Bool))
   else if op == 0 then ([(17, natBits x 191 140 != 0), (24, packetWord x 3 != 0)] : List (Nat × Bool))
   else ([(16, packetWord x 2 != 0), (24, packetWord x 3 != 0)] : List (Nat × Bool))) ++ reservedFrom x 4

/-- The width of a MARKET operation's operand in dw2 (R347). -/
def marketWidth (op : Nat) : Nat :=
  match op with
  | 0 => 28
  | 1 => 9
  | 2 => 48
  | 3 => 8
  | 4 => 1
  | 5 => 9
  | _ => 12

/-- The checks of a MARKET packet (R347). -/
def marketChecks (x : Nat) : List (Nat × Bool) :=
  let op := natBits x 67 64
  let a := packetWord x 2
  let n := marketWidth op
  let range := (op == 3 && !(47 ≤ natBits a 7 0 && natBits a 7 0 ≤ 188)) || (op == 6 && !(400 ≤ natBits a 11 0 && natBits a 11 0 ≤ 2800))
  ([(8, 6 < op), (8, natBits x 127 68 != 0), (16, range), (16 + n / 8, a / 2 ^ n != 0),
    (if op == 0 then 27 else 24, packetWord x 3 / (if op == 0 then 2 ^ 24 else 1) != 0)] : List (Nat × Bool)) ++ reservedFrom x 4

/-- The checks of a packet (R321 to R323), in ascending position, each with the byte that holds its field's lowest bit. -/
def packetChecks (x : Nat) : List (Nat × Bool) :=
  let t := natBits x 7 0
  ([(0, 6 < t), (1, natBits x 11 9 == 7), (1, natBits x 14 12 == 7), (1, natBit x 15), (4, natBits x 63 32 != 0)] : List (Nat × Bool)) ++
  match t with
  | 0 => reservedFrom x 1
  | 1 => ([(8, natBits x 115 64 % 64 != 0), (14, natBits x 127 116 != 0)] : List (Nat × Bool)) ++ reservedFrom x 2
  | 2 => copyChecks x 1 ++ copyChecks x 2 ++
      ([(24, natBits x 223 192 == 0), (28, natBits x 255 224 != 0)] : List (Nat × Bool)) ++ reservedFrom x 4
  | 3 => ([(8, natBits x 115 64 % 8 != 0), (14, natBits x 127 116 != 0), (28, natBits x 255 224 != 0)] : List (Nat × Bool)) ++ reservedFrom x 4
  | 4 => ([(8, natBits x 115 64 % 8 != 0), (14, natBits x 127 116 != 0), (24, natBits x 255 193 != 0)] : List (Nat × Bool)) ++ reservedFrom x 4
  | 5 => mapChecks x
  | 6 => marketChecks x
  | _ => []

/-- An operand of COPY. -/
def copyOperand (d : Nat) : CopyOperand :=
  match natBits d 53 52 with
  | 0 => .main (natBits d 51 0)
  | n => .window (n - 1) (natBits d 51 0)

/-- The operation of a packet's 512 bits. -/
def decodePacket (p : PacketRef) (x : Nat) : Instr :=
  match firstBad (packetChecks x) with
  | some off => .badPacket p off
  | none =>
    match natBits x 7 0 with
    | 0 => .nopPacket
    | 1 => .sweep p (natBits x 115 64)
    | 2 => .copy p (copyOperand (packetWord x 1)) (copyOperand (packetWord x 2)) (natBits x 223 192)
    | 3 => .wait p (natBits x 115 64) (BitVec.ofNat 64 (packetWord x 2)) (natBits x 223 192)
    | 4 => .signal p (natBits x 115 64) (BitVec.ofNat 64 (packetWord x 2)) (natBit x 192)
    | 5 =>
      match natBits x 65 64 with
      | 0 => .mapRun p (natBits x 66 66) (natBits x 83 68) (natBits x 100 84) (natBits x 139 128)
      | 1 => .unmapRun p (natBits x 66 66) (natBits x 83 68) (natBits x 100 84)
      | _ => .invalidatePages p (natBits x 179 128) (natBits x 223 192)
    | _ =>
      match natBits x 67 64 with
      | 0 => .config p (natBits x 143 128) (natBits x 155 144) (natBits x 215 192)
      | 1 => .join p (natBits x 136 128)
      | 2 => .marketLeave p (natBits x 175 128)
      | 3 => .marketPost p (natBits x 135 128)
      | 4 => .sensorRearm p (natBits x 128 128)
      | 5 => .trimRearm p (natBits x 136 128)
      | _ => .plimit p (natBits x 139 128)

/-! ## Market records -/

/-- The fields of a market record (R334). -/
def decodeRecord (bs : List Byte) : PostRecord :=
  let n := bytesToNat (bs.take 64)
  { market := natBits n 15 0, stall := natBits n 27 16, code := natBits n 39 32, send := natBits n 87 40,
    eff := natBits n 135 88, epoch := natBits n 151 136, seq := natBits n 167 152 }

/-- The step that the 64 bytes of a received market record ask for (R334): its kind's, or DISCARDED_POST for a reserved
KIND or a reserved bit. The record itself stands in the receive buffer. -/
def recordStep (bs : List Byte) : Instr :=
  let n := bytesToNat (bs.take 64)
  if natBits n 511 168 != 0 then .discardedPost
  else
    match natBits n 31 28 with
    | 0 => .post
    | 1 => .notice
    | 2 => .late
    | 3 => .heartbeat
    | 4 => .joinReq
    | 5 => .snapshot
    | 6 => .joinAnn
    | 7 => .leave
    | _ => .discardedPost

end Sys2Proof
end

