-- ==== Sys2Proof/Machine/Clause.lean ====
section
/-! DEFINITION. Clauses (R27, R34, R60 to R64, R70): the start of a clause at its header, the traps of words that are no clause and no
instruction, trap entry as a step of its own (R108, R299), and the fetch of a slot's next item. -/

namespace Sys2Proof.Machine

/-- The instructions that the opcode of a word names, before any check of R70. -/
def opcodeRows (w : Word) : List Mnem := Mnem.all.filter fun m => m.spec.op == opField w

/-- Does the opcode of a word name a variable-latency instruction (R61 (e))? DEDUCED: the encoding need not be legal, since
encoding faults are taken at issue. -/
def wordIsVariable (w : Word) : Bool := (opcodeRows w).any Mnem.variableLatency

/-- Does the opcode of a word name a clause-ending instruction (R61 (f))? -/
def wordEndsClause (w : Word) : Bool := (opcodeRows w).any Mnem.endsClause

/-- The check of R61 (d) to (f) over `n` instruction positions from a PC, with `k` variable-latency instructions before it;
none when a word cannot be reached. -/
def clauseBody (p : Phys) (s : Sys) (b : Block) : Nat → Pc → Nat → Option Bool
  | 0, _, k => some (k < 3)
  | n + 1, pc, k =>
    match codeWord p s b pc with
    | none => none
    | some w =>
      if w.extractLsb' 0 2 == 3 || (wordEndsClause w && n != 0) then some false
      else clauseBody p s b n (pc.plus (itemWords w)) (if wordIsVariable w then k + 1 else k)

/-- Is the read of a word of the `n` instructions from a PC held (R230, R231)? -/
def bodyHeld (p : Phys) (s : Sys) (b : Block) : Nat → Pc → Bool
  | 0, _ => false
  | n + 1, pc =>
    match codeWord p s b pc with
    | none => codeHeld p s b pc
    | some w => bodyHeld p s b n (pc.plus (itemWords w))

/-- The check of R61 (b) and (c). -/
def headerOk (h : HeaderFields) : Bool := h.len != 0 && !(h.setA == h.setB && h.setA.toNat < 12)

/-- Does the WAIT mask name a set flag (R27)? -/
def headerWaits (h : HeaderFields) (w : Warp) : Bool := (List.range 12).any fun i => h.wait.getLsbD i && w.flagSeen i

/-- The slot inside the clause of a header (R60). -/
def PcSlot.enter (z : PcSlot) (h : HeaderFields) : PcSlot :=
  { z with pc := z.pc.plus 1, ch := z.pc, left := h.len.toNat, issued := 0, setA := h.setA, setB := h.setB, serial := false,
           serialOp := none, resume := none, hold := .none }

/-- Is the slot's last instruction in serial mode still outstanding (R67 (b))? -/
def Ctx.serialBusy (c : Ctx) : Bool := match c.slot.serialOp with | some id => (c.w.op id).isSome | none => false

/-- ILLEGAL_CLAUSE at the issuing slot (R61, R62, R70): at a header position the PC is the clause's address. -/
def Tx.illegalClause {o : Phys} (t : Tx o) (c : Ctx) : Tx o :=
  (t.map fun y => y.setWarp c.ref fun w => w.setSlot c.z fun z => if z.left == 0 then { z with ch := z.pc } else z).raise c.ref c.z
    { cause := .illegalClause, resume := c.slot.mask } false

/-- CLAUSE_HEADER (R27, R60, R61, R67): the WAIT test, the check of the whole clause, and its start. A clause with a word whose read is held
waits, and one with a word that cannot be reached stops the machine. -/
def execClauseHeader (h : HeaderFields) (s : State) : Host.Outcome State Fault Refusal :=
  match s.sys.issuing with
  | none => .fault .noSlot
  | some c =>
    if c.serialBusy then keepMemory s fun _ y => y.hold c .serial
    else if headerWaits h c.w then keepMemory s fun _ y => y.hold c .waitFlags
    else if !headerOk h then work s fun _ t => t.illegalClause c
    else
      match clauseBody s.phys s.sys c.b h.len.toNat (c.slot.pc.plus 1) 0 with
      | none =>
        if bodyHeld s.phys s.sys c.b h.len.toNat (c.slot.pc.plus 1) then keepMemory s fun _ y => y.hold c .codeRead
        else .fault .fetchUnmapped
      | some false => work s fun _ t => t.illegalClause c
      | some true => keepMemory s fun _ y => y.setWarp c.ref fun w => w.setSlot c.z fun z => z.enter h

/-- ILLEGAL_CLAUSE (R61 (a), R62): the word at a header position is no header, or has a reserved bit set. DEDUCED: a word with
the tag of a header at an instruction position, left there after the clause was checked, traps in the same way. -/
def execIllegalClause (s : State) : Host.Outcome State Fault Refusal :=
  match s.sys.issuing with
  | none => .fault .noSlot
  | some c => work s fun _ t => t.illegalClause c

/-- ILLEGAL_INSTR (R70): no effect but the trap, with the slot's mask to resume. -/
def execIllegalInstr (s : State) : Host.Outcome State Fault Refusal :=
  match s.sys.issuing with
  | none => .fault .noSlot
  | some c => work s fun _ t => t.raise c.ref c.z { cause := .illegalInstr, resume := c.slot.mask } false

/-- TRAP_ENTRY (R108, R299). -/
def execTrapEntry (r : WarpRef) (z : SlotId) (s : State) : Host.Outcome State Fault Refusal :=
  work s fun _ t => t.trapEntry r z

/-! ## Fetch -/

/-- The next item of a slot (R47, R60, R62, R70) with its words: at a header position a clause header, or what stands there in its
place; inside a clause an instruction, or the trap of its encoding. None when a word cannot be reached. DEDUCED: a header with a reserved
bit set is no header (R61 (a)), so it traps before its WAIT mask is tested, and R61 (b) to (f) are judged after the test (log 17). -/
def fetchItem (p : Phys) (s : Sys) (b : Block) (z : PcSlot) : Option (Instr × Nat) :=
  match codeWord p s b z.pc with
  | none => none
  | some w0 =>
    if z.left == 0 || w0.extractLsb' 0 2 == 3 then
      if z.left != 0 || w0.extractLsb' 0 2 != 3 then some (.illegalClause, 1)
      else match decodeHeader w0 with
        | .ok h => some (.clauseHeader h, 1)
        | .error _ => some (.illegalClause, 1)
    else
      let n := itemWords w0
      let word := fun (i : Nat) => if i < n then codeWord p s b (z.pc.plus i) else some 0#32
      match word 1, word 2 with
      | some w1, some w2 =>
        match decodeInstr w0 w1 w2 with
        | .ok i => some (i, n)
        | .error _ => some (.illegalInstr, n)
      | _, _ => none

/-- What stands next in a slot. -/
inductive NextItem where
  | header (h : HeaderFields)
  /-- an instruction, with the context of its slot -/
  | instr (c : Ctx) (m : Mnem) (f : Fields)
  /-- the trap of an encoding -/
  | other
  /-- a word that cannot be reached -/
  | unread
deriving DecidableEq, Repr

/-- What stands next in a slot of a warp. -/
def nextItem (p : Phys) (s : Sys) (b : Block) (w : Warp) (z : SlotId) : NextItem :=
  match fetchItem p s b (w.slot z) with
  | none => .unread
  | some (.clauseHeader h, _) => .header h
  | some (i, _) =>
    match i.view with
    | some (m, f) => .instr { ref := { block := b.id, rank := w.rank }, z := z, b := b, w := w } m f
    | none => .other

/-- The hold of an instruction by a full in-flight counter or store buffer (R28, R29). -/
def Ctx.crowded (c : Ctx) (m : Mnem) (f : Fields) : Option Hold :=
  if c.counterFull m then some .fullCounter else if c.bufferFull m (c.active f.guard) then some .fullStoreBuffer else none

/-- The waits that take a slot out of the rotation (R34): a full in-flight counter or store buffer, and REGACQ. What waits at issue
for another reason is offered again, and performs nothing while it waits. -/
def Ctx.skipped (c : Ctx) (m : Mnem) (f : Fields) : Bool :=
  (c.crowded m f).isSome ||
    (m == .regacq && c.w.ops.any fun x => x.slot == c.z && match x.body with | .regacq _ => true | _ => false)

/-- The hold of a slot by an in-flight counter or the store buffer; the selector skips such a slot, so that no issue notes it (R34). -/
def slotCrowded (p : Phys) (s : Sys) (b : Block) (w : Warp) (z : SlotId) : Option Hold :=
  match nextItem p s b w z with
  | .instr c m f => c.crowded m f
  | _ => none

end Sys2Proof.Machine
end

