-- ==== Sys2Proof/Machine/Sync.lean ====
section
/-! DEFINITION. Synchronisation: fences, named barriers, BSYNC and in-flight counter waits (R160, R166 to R170, R185). -/

namespace Sys2Proof.Machine

/-! ## Barriers -/

/-- A barrier of a block; a barrier never set reads COUNT = 0. -/
def Block.barrier (b : Block) (n : Nat) : Barrier := b.barriers.getD n {}

/-- A block with a barrier changed. -/
def Block.setBarrier (b : Block) (n : Nat) (f : Barrier → Barrier) : Block :=
  { b with barriers := (List.range 10).map fun i => if i == n then f (b.barrier i) else b.barrier i }

/-- An arrival of n (R167). -/
def Barrier.arrive (x : Barrier) (n : Nat) : Barrier :=
  if x.count.toNat < n then { count := 0, under := true } else { x with count := BitVec.ofNat 32 (x.count.toNat - n) }

/-- An arrival at a block's barrier. -/
def Sys.arriveAt (s : Sys) (block bar n : Nat) : Sys := s.setBlock block fun b => b.setBarrier bar fun x => x.arrive n

/-- A memory access of the warp that is not complete. -/
def Op.isAccess (x : Op) : Bool := x.path.isSome || x.isStore

/-- The arrivals of a list of outstanding instructions that no earlier access holds back (R167): barrier, count and
number, in order. -/
def readyArrivals : List Op → List (Nat × Nat × Nat)
  | [] => []
  | x :: rest =>
    match x.body with
    | .arrive bar n => (bar, n, x.id) :: readyArrivals rest
    | _ => if x.isAccess then [] else readyArrivals rest

/-- The arrivals of a warp performed once its earlier accesses have been (R167). -/
def Sys.flushArrivals (s : Sys) (r : WarpRef) : Sys :=
  match s.warp r with
  | none => s
  | some w =>
    (readyArrivals w.ops).foldl (fun s x => (s.arriveAt r.block x.1 x.2.1).setWarp r fun w => w.dropOp x.2.2) s

/-- BARSET (R167). -/
def execBarset (f : Fields) (s : State) : Host.Outcome State Fault Refusal :=
  issue .barset f s fun _ t c _ _ =>
    t.map fun y =>
      let n := bScalar c.w f .zero
      (y.setBlock c.b.id fun b => b.setBarrier f.d.toNat fun _ => { count := n.setWidth 32, under := false }).setWarp c.ref
        fun w => w.setSlot c.z fun z => z.step y.words

/-- BARARR (R167): it does not hold its slot; the arrival is performed after every earlier access of the warp. -/
def execBararr (f : Fields) (s : State) : Host.Outcome State Fault Refusal :=
  issue .bararr f s fun _ t c _ _ =>
    t.map fun y =>
      let n := ((bScalar c.w f .zero).setWidth 32).toNat
      let (id, y1) := y.next
      let y2 := y1.setWarp c.ref fun w =>
        Warp.setSlot { w with ops := w.ops ++ [{ id := id, slot := c.z, flag := none, path := none, body := .arrive f.d.toNat n }] } c.z
          fun z => z.step y.words
      y2.flushArrivals c.ref

/-- BWAIT (R168). -/
def execBwait (f : Fields) (s : State) : Host.Outcome State Fault Refusal :=
  issue .bwait f s fun _ t c e _ =>
    let x := c.b.barrier f.d.toNat
    if x.count != 0 then t.map fun y => y.hold c .bwait
    else if x.under then t.raise c.ref c.z { cause := .barUnderflow, resume := e, addr := f.d.toNat } false
    else t.map fun y => y.putWarp c.ref (c.w.setSlot c.z fun z => z.step y.words)

/-! ## BSYNC -/

/-- BSYNC (R169): the slot waits; the last arrival ends the generation. -/
def execBsync (f : Fields) (s : State) : Host.Outcome State Fault Refusal :=
  issue .bsync f s fun _ t c _ _ => t.upd fun p y => syncBlock p (y.hold c .bsync) c.b.id

/-! ## Fences and counters -/

/-- Has the warp a card that is not complete, in the checker or still to enter it (R185)? -/
def Sys.warpCards (s : Sys) (c : Ctx) : Bool :=
  let k := s.core c.b.coreRef
  k.cards.any (fun x => x.block == c.b.id && x.rank == c.w.rank) ||
  (match k.kick with
   | some q => q.warp == c.ref
   | none => false)

/-- FENCE (R160, R185): every in-flight counter 0 and USC = 0; at scope P, D or S also every card of the warp complete. -/
def execFence (f : Fields) (s : State) : Host.Outcome State Fault Refusal :=
  issue .fence f s fun _ t c _ _ =>
    t.map fun y =>
      if !c.w.drained || (4 ≤ f.scopeCode && y.warpCards c) then y.hold c .fence
      else y.putWarp c.ref (c.w.setSlot c.z fun z => z.step y.words)

/-- The path that WAITC names (R170). -/
def waitPath (sub : BitVec 4) : Path :=
  match sub.toNat with
  | 0 => .ldb
  | 1 => .ldt
  | 2 => .ldl
  | 3 => .atom
  | _ => .mma

/-- WAITC (R170). -/
def execWaitc (f : Fields) (s : State) : Host.Outcome State Fault Refusal :=
  issue .waitc f s fun _ t c _ _ =>
    t.map fun y =>
      if (bScalar c.w f .zero).toNat < c.w.inFlight (waitPath f.sub) then y.hold c .waitc
      else y.putWarp c.ref (c.w.setSlot c.z fun z => z.step y.words)

end Sys2Proof.Machine
end

