-- ==== Sys2Proof/Machine/Completion.lean ====
section
/-! DEFINITION. The completions of outstanding instructions (R63, R147, R156, R162, R164, R165, R243, R244, R289, R299): the
steps that write results, free flags and counters, and let waiting traps, arrivals and generations go on. A completion that
is not due (no such instruction, or an earlier access of the warp to the same bytes is still out) leaves the state as it
is. -/

namespace Sys2Proof.Machine

/-! ## Errors found by ECC -/

/-- The slice island of a warp, and the core island (R346). -/
def coreIsland (b : Block) (k : Nat) : Nat := 7 * (36 * b.tower + b.core) + k

/-- An island changed. -/
def Sys.setIsland (s : Sys) (i : Nat) (f : Island → Island) : Sys :=
  { s with power := { s.power with islands := s.power.islands.zipIdx.map fun x => if x.2 == i then f x.1 else x.1 } }

/-- The island that counts the errors of a unit (R243, R346): a slice island for what a slice holds, the core island for the BSM, an
uncore island for a memory of the own part. None where the unit is not there. -/
def Sys.eccIsland (s : Sys) (u : EccUnit) : Option Nat :=
  let slice := fun (r : WarpRef) => match s.block r.block, s.warp r with
    | some b, some w => some (coreIsland b w.slice)
    | _, _ => none
  match u with
  | .vector r _ _ | .scalar r _ | .tile r _ _ _ | .stack r _ | .priv r _ => slice r
  | .bsm b _ => (s.block b).map fun b => coreIsland b 6
  | .memory pa =>
    match s.region pa with
    | .firstTier | .secondTier | .scratchpad _ => some (504 + Config.uncoreIsland pa % 8)
    | _ => none

/-- Is the unit in a memory whose reads are retried (R244 (a))? -/
def EccUnit.retries (u : EccUnit) : Bool := match u with | .memory _ => true | _ => false

/-- A corrected error: logged CORRECTED and counted on its island (R243). -/
def Sys.eccCorrected (s : Sys) (u : EccUnit) (island : Nat) : Sys :=
  (s.logError (.corrected u)).setIsland island fun x => { x with errors := x.errors + 1 }

/-- A failure whose retry was good (R304): logged as transient, or as lasting when it comes within 1 s after a transient one of the unit. -/
def Sys.transient (s : Sys) (u : RetryUnit) : Sys :=
  let again := s.device.transients.any fun x => x.1 == u && decide (s.now - x.2 ≤ 1000000000000)
  let s1 := s.logError (.retried u again)
  if again then s1
  else { s1 with device := { s1.device with transients := (u, s.now) :: s1.device.transients.filter fun x => x.1 != u } }

/-- An uncorrectable error: logged RECOVERABLE; on a trimmed island it restores nominal voltage and sets TRIM_LOCK (R244 (b),
R346 (c)). -/
def Sys.eccPoisoned (s : Sys) (u : EccUnit) (island : Nat) : Sys :=
  let s1 := s.logError (.poisoned u)
  let x := s.power.islands.getD island {}
  if x.trim == 0 then s1
  else
    (s1.logError (.island island x.trim)).setIsland island fun x => { x with trim := 0, lock := true, hold := false, uecnt := x.uecnt + 1 }

/-- The poison unit of an error marked in place (R243, R244 (b)). The bits of a poisoned scalar register, which some instructions read
without a fault (log 108), are free. -/
def Tx.markUnit {o : Phys} (t : Tx o) (u : EccUnit) : Tx o :=
  match u with
  | .vector r n l => t.map fun s => s.setWarp r fun w => w.spoilElem n l
  | .scalar r n =>
    t.map fun s =>
      let x := bytesToNat ((List.range 8).map fun i => Config.freeByte (s.free + i))
      { s with free := s.free + 8 }.setWarp r fun w =>
        if n == 63 then w else { w with s := w.s.put n (BitVec.ofNat 64 x), sPoison := NatSet.add w.sPoison n }
  | .tile r k i j => t.map fun s => s.setWarp r fun w => { w with tilePoison := NatSet.add w.tilePoison (4096 * k + 64 * i + j) }
  | .stack r n => t.map fun s => s.setWarp r fun w => if n ≤ w.rsp then { w with rsPoison := NatSet.add w.rsPoison n } else w
  | .priv r k => t.map fun s => s.setWarp r fun w => { w with privPoison := NatSet.add w.privPoison (k - k % 4) }
  | .bsm b k => t.map fun s => s.setBlock b fun b => { b with bsmPoison := NatSet.add b.bsmPoison (k - k % 4) }
  | .memory pa => t.mark (poisonBase pa) true

/-- The unit of R243 in which an error lies: of a memory of bytes, the base of the poison unit of a byte. -/
def EccUnit.base (u : EccUnit) : EccUnit :=
  match u with
  | .priv r k => .priv r (k - k % 4)
  | .bsm b k => .bsm b (k - k % 4)
  | .memory pa => .memory (poisonBase pa)
  | x => x

/-- What ECC finds at the read of a unit (R243, R244): the environment's part of a step. An on-core SRAM is not read again. -/
def Tx.eccFinding {o : Phys} (t : Tx o) (x : EccUnit) (e : EccOutcome) : Tx o :=
  let u := x.base
  match t.sys.eccIsland u with
  | none => t
  | some i =>
    match e with
    | .clean => t
    | .corrected => t.map fun s => s.eccCorrected u i
    | .retried => if u.retries then t.map fun s => s.transient (.read u) else (t.markUnit u).map fun s => s.eccPoisoned u i
    | .uncorrectable => (t.markUnit u).map fun s => s.eccPoisoned u i

/-- The findings of ECC for the next step taken in. -/
def State.takeEcc (s : State) : State :=
  match s.sys.inputs.ecc with
  | [] => s
  | xs =>
    let y : State := { s with sys := { s.sys with inputs := { s.sys.inputs with ecc := [] } } }
    (xs.foldl (fun t x => t.eccFinding x.1 x.2) (Tx.start y)).state

/-! ## Byte budgets -/

/-- A new interval once CLOCK has passed a multiple of 256 (R293, R294): an overdraft is taken from it. -/
def Core.rollInterval (k : Core) (clock : Nat) : Core :=
  let n := clock / 256
  if n == k.intervalAt then k
  else
    let b := natBits k.control.toNat 31 16
    let left : Int := if k.budget == 0 then 0 else min 0 (k.budgetLeft + 64 * (b : Int) * ((n - k.intervalAt - 1 : Nat) : Int))
    { k with intervalAt := n, budget := b, ovc := natBits k.control.toNat 1 0, budgetLeft := 64 * (b : Int) + left }

/-- A new window once CLOCK has passed a multiple of 64 (R293, R295). -/
def Core.rollWindow (k : Core) (clock : Nat) : Core :=
  let n := clock / 64
  if n == k.windowAt then k
  else { k with windowAt := n, mmaPrev := if n == k.windowAt + 1 then k.mmaNow else 0, mmaNow := 0,
                mstep := natBits k.control.toNat 9 2, ovc := natBits k.control.toNat 1 0 }

/-- A core in its present interval and window: they begin by CLOCK, whatever move notes it. -/
def Core.rolled (k : Core) (clock : Nat) : Core := (k.rollInterval clock).rollWindow clock

/-- A core in its present interval and window. -/
def Sys.rolledCore (s : Sys) (c : CoreRef) : Core := (s.core c).rolled (s.tower c.tower).clock.toNat

/-- A core changed in its present interval and window. -/
def Sys.setRolled (s : Sys) (c : CoreRef) (f : Core → Core) : Sys :=
  s.setCore c fun k => f (k.rolled (s.tower c.tower).clock.toNat)

/-- The bytes of a started transfer counted (R294). -/
def Sys.moved (s : Sys) (c : CoreRef) (n : Nat) : Sys :=
  if n == 0 || (s.rolledCore c).budget == 0 then s else s.setRolled c fun k => { k with budgetLeft := k.budgetLeft - n }

/-- The bytes that an access moves to or from the scratchpad. -/
def Op.scratchpadBytes (x : Op) : Nat :=
  match x.body with
  | .load .tsp .word _ lanes _ => 4 * lanes.length
  | .load .tsp .pair _ lanes _ => 8 * lanes.length
  | .load .tsp .n8 _ lanes _ | .load .tsp .i8 _ lanes _ => lanes.length
  | .load .tsp _ _ lanes _ => 2 * lanes.length
  | .store .tsp n lanes _ => n * lanes.length
  | .atomic _ .tsp wide _ lanes _ => (if wide then 8 else 4) * lanes.length
  | _ => 0

/-! ## After a completion -/

namespace Tx

variable {o : Phys}

/-- What a completion of a warp may let go on: its arrivals, the block's BSYNC and its traps. -/
def after (t : Tx o) (r : WarpRef) : Tx o :=
  let t1 := t.upd fun p s => syncBlock p (s.flushArrivals r) r.block
  (t1.trapEntry r .A).trapEntry r .B

/-- The completion of an outstanding instruction: its effect on the warp, its flag and its counter. -/
def finish (t : Tx o) (r : WarpRef) (id : Nat) (f : Warp → Warp) : Tx o :=
  (t.map fun s => s.setWarp r fun w => (f w).dropOp id).after r

end Tx

/-! ## Order among a warp's accesses -/

/-- The outstanding instructions of a warp in front of one. -/
def Warp.earlier (w : Warp) (id : Nat) : List Op := w.ops.takeWhile fun x => x.id != id

/-- Do two instructions touch a common byte? -/
def Op.meets (x y : Op) : Bool :=
  x.ranges.any fun a => y.touches a.1 a.2.1 a.2.2

/-- Is the instruction a load? -/
def Op.isLoad (x : Op) : Bool := match x.body with | .load .. => true | _ => false

/-- An earlier access of the warp to the same bytes holds the instruction back (R221, R222 (e)): a load waits for loads, atomics and
header writes, since it sees stores in the buffer; a store, an atomic or a header write waits for every access. -/
def Warp.heldBack (w : Warp) (x : Op) : Bool :=
  (w.earlier x.id).any fun y => x.meets y && (!x.isLoad || !y.writes)

/-- A restored store buffer drains in order (R227). -/
def Warp.drainTurn (w : Warp) (id : Nat) : Bool :=
  match w.draining.filter fun i => (w.op i).isSome with
  | [] => true
  | i :: _ => i == id || !w.draining.contains id

/-- The entries in front of one that is performed: they are performed before a save (R227, R307). -/
def Warp.passStores (w : Warp) (id : Nat) : Warp :=
  let early := (w.earlier id).map Op.id
  { w with ops := w.ops.map fun x => if x.isStore && early.contains x.id then { x with passed := true } else x }

/-- Once its block's units stop, is an entry to be performed only with those in front of it (R227, R307)? An entry behind one that is not
performed waits, so that the save keeps the order; one that a later entry has passed goes before the save. -/
def Warp.keepsOrder (w : Warp) (x : Op) : Bool := !x.passed && (w.earlier x.id).any Op.isStore

/-- Has a core a store buffer entry for the memory side that can be performed now? One behind a restored MMA may wait for it (R194). -/
def Sys.drainsDue (s : Sys) (c : CoreRef) : Bool :=
  (s.coreBlocks c).any fun b => b.warps.any fun w => w.ops.any fun x =>
    x.isStore && x.scratchpadBytes != 0 && !w.heldBack x && w.drainTurn x.id && !(b.stopping && w.keepsOrder x) &&
      !(w.earlier x.id).any Op.rereads

/-- May a core start a memory-side transfer of `n` bytes (R294)? BUDGET 0 is unlimited; the drains of the store buffer go first. DESIGN CHOICE: a
transfer greater than a whole budget starts at the beginning of an interval (log 41). -/
def Sys.mayMove (s : Sys) (c : CoreRef) (n : Nat) : Bool :=
  let k := s.rolledCore c
  n == 0 || k.budget == 0 ||
    !s.drainsDue c && (decide ((n : Int) ≤ k.budgetLeft) || k.budgetLeft == 64 * (k.budget : Int))

/-! ## Loads and stores -/

/-- A loaded element as register bits (R150). -/
def widenLoad (z : LoadSize) (v : Nat) : DWord :=
  match z with
  | .word | .pair | .n8 | .n16 => BitVec.ofNat 64 v
  | .i8 => (BitVec.ofInt 32 (signedNat 8 v)).setWidth 64
  | .i16 => (BitVec.ofInt 32 (signedNat 16 v)).setWidth 64

/-- The destination of a loaded element: the value, or poison in every element that it would write (R154 (a)). -/
def Warp.putLoaded (w : Warp) (dst l : Nat) (wide : Bool) (v : DWord) (bad : Bool) : Warp :=
  if bad then
    if wide then (w.poisonElem dst l).poisonElem (dst + 1) l else w.poisonElem dst l
  else if wide then w.setPair dst l v else w.setElem dst l (v.setWidth 32)

/-- The first unit that a load reads. -/
def loadUnit (r : WarpRef) (sp : Space) (a : Nat) : EccUnit :=
  match sp with
  | .bsm => .bsm r.block a
  | .tsp => .memory a
  | .priv => .priv r a

/-- Has the block taken (R204)? -/
def Block.taken (b : Block) : Bool := b.warps.all fun w => w.took || w.exited

/-- Has the block given up its parent's drawer: with the TAKE of this run, or of one before a restart (R204, R264)? -/
def Block.handedBack (s : Sys) (b : Block) : Bool :=
  b.parentDrawer.isSome && (b.taken || match s.sweep b.sweep with
    | some w => (w.run b.stage b.node.toNat).taken
    | none => false)

/-- Does an element of the scratchpad lie in the parent's drawer that the block has given up (R204)? -/
def Block.gaveUp (p : Phys) (s : Sys) (b : Block) (pa n : Nat) : Bool :=
  match b.parentDrawer with
  | some d =>
    b.handedBack s && (List.range ((d + b.drawerSize - 1) / 65536 - d / 65536 + 1)).any fun k =>
      let page := 65536 * (d / 65536 + k)
      match towerWindow p s b.asid b.tower page with
      | some base => decide (pa < base + (min (page + 65536) (d + b.drawerSize) - page)) && decide (base + (max page d - page) < pa + n)
      | none => false
  | none => false

/-- What a load takes from memory for an element: the bytes as its warp sees them, or free bytes from a drawer given up (R204). -/
def loadedElement (p : Phys) (s : Sys) (b : Block) (w : Warp) (id : Nat) (sp : Space) (n : Nat) (y : Nat × Nat) : Nat × Bool :=
  if sp == .tsp && b.gaveUp p s y.2 n then (bytesToNat ((List.range n).map fun i => Config.freeByte (s.free + 8 * y.1 + i)), false)
  else loadView p b w (w.earlier id) sp y.2 n

/-- LOAD_STORE_COMPLETION (R156, R126): a load writes its destinations, an STL its bytes, LDPERM PERM. -/
def execLoadStoreCompletion (r : WarpRef) (id : Nat) (ecc : EccOutcome) (s : State) : Host.Outcome State Fault Refusal :=
  work s fun _ t =>
    match t.sys.warp r with
    | none => t
    | some w =>
      match w.op id with
      | none => t
      | some x =>
        let core := ((t.sys.block r.block).map Block.coreRef).getD { tower := 0, core := 0 }
        if w.heldBack x || !t.sys.mayMove core x.scratchpadBytes then t
        else
          match x.body with
          | .load sp z dst lanes _ =>
            let t0 := t.map fun s => s.moved core x.scratchpadBytes
            let t1 := match lanes with
              | y :: _ => t0.eccFinding (loadUnit r sp y.2) ecc
              | [] => t0
            match t1.sys.block r.block, t1.sys.warp r with
            | some b, some w1 =>
              let vals := lanes.map fun y => (y.1, loadedElement t1.phys t1.sys b w1 id sp z.bytes y)
              let t2 := if b.handedBack t1.sys then t1.map fun s => { s with free := s.free + 512 } else t1
              t2.finish r id fun w => vals.foldl (fun w v => w.putLoaded dst v.1 (z == .pair) (widenLoad z v.2.1) v.2.2) w
            | _, _ => t1
          | .store .priv n lanes _ => (t.perform r .priv (storeElems n lanes)).finish r id fun w => w
          | .loadPerm bits => t.finish r id fun w => { w with perm := bits }
          | _ => t

/-- Does the stop of its block hold an entry back? -/
def Sys.storeStopped (s : Sys) (r : WarpRef) (x : Op) : Bool :=
  match s.block r.block, s.warp r with
  | some b, some w => b.stopping && w.keepsOrder x
  | _, _ => false

/-- May an earlier MMA still read a byte that an entry writes (R194, R222 (e))? -/
def storeAwaits (p : Phys) (s : Sys) (r : WarpRef) (w : Warp) (x : Op) : Bool :=
  match s.block r.block with
  | some b => awaitsOperands p s b (w.earlier x.id) x.ranges
  | none => false

/-- STORE_BUFFER_ENTRY_PERFORMED (R29, R156): every committing lane's bytes reach their home and the entry is freed. -/
def execStoreBufferEntryPerformed (r : WarpRef) (id : Nat) (s : State) : Host.Outcome State Fault Refusal :=
  work s fun _ t =>
    match t.sys.warp r with
    | none => t
    | some w =>
      match w.op id with
      | none => t
      | some x =>
        if w.heldBack x || !w.drainTurn id || !x.isStore || t.sys.storeStopped r x || storeAwaits t.phys t.sys r w x then t
        else
          match x.body with
          | .store sp n lanes _ =>
            let core := ((t.sys.block r.block).map Block.coreRef).getD { tower := 0, core := 0 }
            ((t.map fun s => (s.moved core x.scratchpadBytes).setWarp r fun w => w.passStores id).perform r sp (storeElems n lanes)).finish
              r id fun w => w
          | _ => t

/-! ## Special functions and CRNG -/

/-- SFU_COMPLETION (R147): the results and the flags. -/
def execSfuCompletion (r : WarpRef) (id : Nat) (s : State) : Host.Outcome State Fault Refusal :=
  work s fun _ t =>
    match (t.sys.warp r).bind fun w => w.op id with
    | some x =>
      match x.body with
      | .sfu dst vals flags => t.finish r id fun w => (w.putWords dst vals).orFlags flags
      | _ => t
    | none => t

/-- CRNG_COMPLETION (R132): D and D + 1. -/
def execCrngCompletion (r : WarpRef) (id : Nat) (s : State) : Host.Outcome State Fault Refusal :=
  work s fun _ t =>
    match (t.sys.warp r).bind fun w => w.op id with
    | some x =>
      match x.body with
      | .crng dst vals => t.finish r id fun w => vals.foldl (fun w v => (w.setElem dst v.1 v.2.1).setElem (dst + 1) v.1 v.2.2) w
      | _ => t
    | none => t

/-! ## The Atomic Engine -/

/-- The scratchpad lines that an instruction of the engine needs, ascending (R289). -/
def Op.lines (x : Op) : List Nat :=
  match x.body with
  | .atomic _ .tsp _ _ lanes _ => lanes.foldl (fun ls y => NatSet.add ls (y.addr / 64)) []
  | _ => []

/-- A line that a core's engine has: the most recently used, kept until the engine has performed an instruction (R289 (d), (f)). -/
def Sys.keepLine (s : Sys) (c : CoreRef) (line : Nat) : Sys :=
  s.setCore c fun k =>
    let rest := k.hotLines.filter fun y => y != line
    { k with hotLines := (rest ++ [line]).drop (rest.length + 1 - 64), newLines := NatSet.add k.newLines line }

/-- A line requested at its home, once (R289 (b), (c)). -/
def Sys.requestLine (s : Sys) (c : CoreRef) (line : Nat) : Sys :=
  s.setTower c.tower fun t =>
    if t.lineRequests.contains (line, c.core) then t else { t with lineRequests := t.lineRequests ++ [(line, c.core)] }

/-- The lines of an instruction claimed in ascending order: the first that the engine does not hold is requested, and ends the claim.
DESIGN CHOICE: the order of the claim, under which no two engines wait for each other (log 119). -/
def Sys.claimLines (s : Sys) (c : CoreRef) : List Nat → Sys × Bool
  | [] => (s, true)
  | l :: ls => if (s.core c).hotLines.contains l then (s.keepLine c l).claimLines c ls else (s.requestLine c l, false)

/-- Is the request of a core for a line served now (R289 (b) to (d)): it is the first for the line, and no other engine has the line
without having performed an instruction since it took it? -/
def Tower.serves (t : Tower) (core line : Nat) : Bool :=
  (t.lineRequests.find? fun x => x.1 == line) == some (line, core) &&
    t.cores.zipIdx.all fun x => x.2 == core || !NatSet.has x.1.newLines line

/-- A line leaves its home, or the engine that holds it, for another engine. -/
def Sys.moveLine (s : Sys) (c : CoreRef) (line : Nat) : Sys :=
  (s.setTower c.tower fun t =>
    { t with lineRequests := t.lineRequests.filter fun x => x != (line, c.core)
             cores := t.cores.map fun k => { k with hotLines := k.hotLines.filter fun y => y != line } }).keepLine c line

/-- HOT_LINE_TRANSFER (R289): the home serves the oldest request for a line. The bytes have one order wherever the line resides, so the
transfer moves ownership alone. -/
def execHotLineTransfer (c : CoreRef) (line : Nat) (s : State) : Host.Outcome State Fault Refusal :=
  keepMemory s fun _ y => if (y.tower c.tower).serves c.core line then y.moveLine c line else y

/-- The result of an atomic on one lane (R162): the units written, the old value, poison and the flags. -/
def atomicLane (p : Phys) (b : Block) (w : Warp) (op : AtomicOp) (sp : Space) (wide : Bool) (x : AtomicLane) :
    Option (Nat × Nat × BitVec 5) :=
  let n := if wide then 8 else 4
  let v := loadView p b w [] sp x.addr n
  if v.2 then none
  else
    let r := atomicNew op (8 * n) v.1 x.b.toNat x.c.toNat
    some (v.1, r.1, r.2)

/-- One lane of an atomic performed at its home (R162, R154 (c)). -/
def Tx.atomicStep {o : Phys} (r : WarpRef) (op : AtomicOp) (sp : Space) (wide : Bool) (dst : Nat) (t : Tx o) (x : AtomicLane) :
    Tx o :=
  match t.sys.block r.block, t.sys.warp r with
  | some b, some w =>
    match atomicLane t.phys b w op sp wide x with
    | none => t.map fun s => s.setWarp r fun w => w.putLoaded dst x.lane wide 0 true
    | some (old, new, flags) =>
      (t.perform r sp [(x.addr, if wide then 8 else 4, BitVec.ofNat 64 new)]).map fun s =>
        s.setWarp r fun w => (w.putLoaded dst x.lane wide (BitVec.ofNat 64 old) false).orFlags flags
  | _, _ => t

/-- Has the engine this instruction to perform? -/
def Op.forAtomicEngine (x : Op) : Bool := match x.body with | .atomic .. | .contribute .. => true | _ => false

/-- The oldest instruction that a slice has at the Atomic Engine of a core (R162: in issue order), if no earlier access of its warp to the
same bytes holds it back. -/
def Sys.pendingAtomic (s : Sys) (c : CoreRef) (slice : Nat) : Option (WarpRef × Op) :=
  let xs := s.blocks.flatMap fun b =>
    if b.coreRef == c then
      b.warps.flatMap fun w =>
        if w.slice == slice then
          (w.ops.filter Op.forAtomicEngine).map fun x => ({ block := b.id, rank := w.rank : WarpRef }, w.heldBack x, x)
        else []
    else []
  match leastBy (fun (a b : WarpRef × Bool × Op) => decide (a.2.2.id < b.2.2.id)) xs with
  | some (r, false, x) => some (r, x)
  | _ => none

/-- The instruction that a core's engine performs next (R162): the one that it has taken, or from the first slice with one pending, in
rotating order, its oldest. -/
def Sys.nextAtomic (s : Sys) (c : CoreRef) : Option (WarpRef × Op) :=
  match (s.core c).taking with
  | some (r, id) => ((s.warp r).bind fun w => w.op id).map fun x => (r, x)
  | none =>
    let start := (s.tower c.tower).clock.toNat % 6
    ((List.range 6).map fun i => s.pendingAtomic c ((start + i) % 6)).findSome? id

/-- An atomic or AFADDO performed (R162, R164): every committing lane in ascending order, or its contributions accepted. -/
def Tx.performAtomic {o : Phys} (t : Tx o) (r : WarpRef) (x : Op) : Tx o :=
  match x.body with
  | .atomic op sp wide dst lanes _ => (lanes.foldl (Tx.atomicStep r op sp wide dst) t).finish r x.id fun w => w
  | .contribute n values =>
    match t.sys.block r.block with
    | none => t
    | some b => (t.map fun s => s.acceptContributions b r.rank n values).finish r x.id fun w => w
  | _ => t

/-- ATOMIC_ENGINE_ACCEPT (R162, R164, R289): the engine takes its next instruction, and performs it once it has the lines that it needs
and the byte budget allows it; at most one in a core cycle. -/
def execAtomicEngineAccept (c : CoreRef) (s : State) : Host.Outcome State Fault Refusal :=
  work s fun _ t =>
    let now := (t.sys.tower c.tower).clock.toNat
    match (if (t.sys.core c).acceptedAt == some now then none else t.sys.nextAtomic c) with
    | none => t
    | some (r, x) =>
      let y := (t.sys.setCore c fun k => { k with taking := some (r, x.id) }).claimLines c x.lines
      let t1 := t.map fun _ => y.1
      if !y.2 || !y.1.mayMove c x.scratchpadBytes then t1
      else (t1.map fun s => (s.moved c x.scratchpadBytes).setCore c fun k =>
        { k with taking := none, newLines := [], acceptedAt := some now }).performAtomic r x

/-- Ascending keys (R164). -/
def contributionBefore (a b : Contribution) : Bool :=
  if a.node != b.node then decide (a.node < b.node)
  else if a.stage != b.stage then decide (a.stage < b.stage)
  else if a.rank != b.rank then decide (a.rank < b.rank)
  else decide (a.lane < b.lane)

/-- The sum of a slot (R165): from −0, in ascending key order, equal keys in order of arrival, each addition rounded RN. -/
def slotSum (xs : List Contribution) : Word :=
  (sortBy contributionBefore xs).foldl (fun acc x =>
    BitVec.ofNat 32 (FloatFmt.fp32.deliver nearest false false (sumNums false [fp32 acc, fp32 x.value]).1).1) 0x80000000#32

/-- ACC_SLOT_SUM_DONE (R165): the sum is stored, the barrier arrived on, and the slot closed; an unmapped page aborts the
sweep. -/
def execAccSlotSumDone (c : CoreRef) (n : Nat) (s : State) : Host.Outcome State Fault Refusal :=
  work s fun _ t =>
    match (t.sys.core c).accSlots.find? fun a => a.number == n with
    | none => t
    | some a =>
      if a.values.length != a.count then t
      else
        let sum := slotSum a.values
        let opener := (t.sys.blocks ++ (t.sys.tower c.tower).saved.map SavedBlock.block).find? fun b => b.id == a.block
        match translateWindow t.phys t.sys c a.asid a.addr with
        | none =>
          let t1 := t.upd fun p s => (fillWindow p s c a.asid (a.addr / 65536)).closeSlot c n
          match opener with
          | some b => t1.abortSweep .windowFault b.stage a.addr b.sweep
          | none => t1
        | some pa =>
          (t.storeNum pa 4 sum.toNat).map fun s => (s.mapBlock a.block fun b => b.setBarrier a.barrier fun x => x.arrive 1).closeSlot c n

end Sys2Proof.Machine
end

