-- ==== Sys2Proof/Machine/CrossLane.lean ====
section
/-! DEFINITION. The cross-lane instructions (R91, R129 to R132). -/

namespace Sys2Proof.Machine

/-- A shuffle (R129): each active lane takes the element of its source lane, which may be inactive. Poison of an element
so read raises POISON. -/
def shuffle (m : Mnem) (f : Fields) (s : State) (src : Warp → Nat → Nat) : Host.Outcome State Fault Refusal :=
  let t := f.typeCode
  let a := f.a.toNat
  laneReadOp m f s (fun c e => e.lanes.flatMap fun l => elemReads t a (src c.w l)) fun c e =>
    c.w.putElems t f.d.toNat (e.lanes.map fun l => (l, c.w.rawElem t a (src c.w l)))

/-- SHFL.IDX: lane B mod W. -/
def execShflIdx (f : Fields) (s : State) : Host.Outcome State Fault Refusal :=
  shuffle .shflIdx f s fun w l => (if f.imm then f.immU else (w.elem f.b.toNat l).toNat) % 64

/-- SHFL.XOR: lane l xor (W ≫ k). -/
def execShflXor (f : Fields) (s : State) : Host.Outcome State Fault Refusal :=
  shuffle .shflXor f s fun _ l => l ^^^ (64 >>> f.immU)

/-- SHFL.UP: lane l − (W ≫ k), or l when negative. -/
def execShflUp (f : Fields) (s : State) : Host.Outcome State Fault Refusal :=
  shuffle .shflUp f s fun _ l => if l < 64 >>> f.immU then l else l - 64 >>> f.immU

/-- SHFL.DN: lane l + (W ≫ k), or l when at or above W. -/
def execShflDn (f : Fields) (s : State) : Host.Outcome State Fault Refusal :=
  shuffle .shflDn f s fun _ l => if 64 ≤ l + 64 >>> f.immU then l else l + 64 >>> f.immU

/-- The operator of REDL and SCANL on the bits of two elements (R130), with its flags. -/
def laneOperator (f : Fields) (ftz : Bool) (a b : Nat) : Nat × BitVec 5 :=
  let t := f.typeCode
  let wa := BitVec.ofNat 32 a
  let wb := BitVec.ofNat 32 b
  let minMax := fun (less : Bool) => let r := fp32MinMax less wa wb; (r.1.toNat, r.2)
  let int := fun (x : Int) => (intResult t f.sat x, (0 : BitVec 5))
  match f.sub.toNat with
  | 0 =>
    let r : Rounding := { mode := f.rnd }
    let x := sumNums (f.rnd == .rd) [fp32 wa, fp32 wb]
    let y := FloatFmt.fp32.deliver r false ftz x.1
    (y.1, x.2 ||| y.2)
  | 1 => minMax true
  | 2 => minMax false
  | 3 => int (intValue t a + intValue t b)
  | 4 => int (min (intValue t a) (intValue t b))
  | 5 => int (max (intValue t a) (intValue t b))
  | 6 => (a &&& b, 0)
  | 7 => (a ||| b, 0)
  | _ => (a ^^^ b, 0)

/-- The identity of the operator (R130). -/
def laneIdentity (f : Fields) : Nat :=
  let t := f.typeCode
  match f.sub.toNat with
  | 0 => 0x80000000
  | 1 => 0x7F800000
  | 2 => 0xFF800000
  | 4 => wrapBits (intBits t) (intMax t)
  | 5 => wrapBits (intBits t) (intMin t)
  | 6 => 2 ^ intBits t - 1
  | _ => 0

/-- The elements that enter: active lanes their own, the others the identity. -/
def laneInputs (f : Fields) (w : Warp) (e : LaneMask) : List Nat :=
  allLanes.map fun l => if e.getLsbD l then w.rawElem f.typeCode f.a.toNat l else laneIdentity f

/-- One step of REDL at distance d (R91), with the flags of one operation per lane pair. -/
def reduceStep (f : Fields) (ftz : Bool) (d : Nat) (v : List Nat) : List Nat × BitVec 5 :=
  let rs := allLanes.map fun l => laneOperator f ftz (v.getD (min l (l ^^^ d)) 0) (v.getD (max l (l ^^^ d)) 0)
  (rs.map Prod.fst, rs.foldl (fun a r => a ||| r.2) 0)

/-- The reduction tree of R91: the value of every lane after it, and the flags of its operations. -/
def reductionTree (f : Fields) (ftz : Bool) (v : List Nat) : List Nat × BitVec 5 :=
  [32, 16, 8, 4, 2, 1].foldl (fun acc d => let r := reduceStep f ftz d acc.1; (r.1, acc.2 ||| r.2)) (v, 0)

/-- One step of SCANL at distance d (R91). -/
def scanStep (f : Fields) (ftz : Bool) (v : List Nat) (d : Nat) : List Nat :=
  allLanes.map fun l => if l < d then v.getD l 0 else (laneOperator f ftz (v.getD (l - d) 0) (v.getD l 0)).1

/-- The inclusive prefixes of R91. -/
def scanPrefixes (f : Fields) (ftz : Bool) (v : List Nat) : List Nat := [1, 2, 4, 8, 16, 32].foldl (scanStep f ftz) v

/-- REDL (R91, R130): the total in every active lane. -/
def execRedl (f : Fields) (s : State) : Host.Outcome State Fault Refusal :=
  fixedOp .redl f s fun c e =>
    let r := reductionTree f c.w.ftz (laneInputs f c.w e)
    (c.w.putElems f.typeCode f.d.toNat (e.lanes.map fun l => (l, r.1.getD l 0))).orFlags r.2

/-- SCANL (R91, R130): the inclusive prefix, or with X = 1 the exclusive one. The flags are those of the operations of the reduction tree, to
which R130 limits both instructions (log 24). -/
def execScanl (f : Fields) (s : State) : Host.Outcome State Fault Refusal :=
  fixedOp .scanl f s fun c e =>
    let v := laneInputs f c.w e
    let r := scanPrefixes f c.w.ftz v
    let out := if f.x then laneIdentity f :: r else r
    (c.w.putElems f.typeCode f.d.toNat (e.lanes.map fun l => (l, out.getD l 0))).orFlags (reductionTree f c.w.ftz v).2

/-- VOTE (R131): a scalar from the active lanes; an empty active set leaves s[D] unchanged. -/
def execVote (f : Fields) (s : State) : Host.Outcome State Fault Refusal :=
  fixedOp .vote f s fun c e =>
    let v := fun l => c.w.elem f.a.toNat l
    let pred := fun l => v l != 0
    let bit := fun (b : Bool) => if b then (1 : DWord) else 0
    let r := match f.sub.toNat with
      | 0 => LaneMask.ofLanes (e.lanes.filter pred)
      | 1 => bit (e.lanes.any pred)
      | 2 => bit (e.lanes.all pred)
      | _ => bit (e.lanes.all fun l => v l == v (e.least.getD 0))
    if e == 0 then c.w else c.w.setScalar f.d.toNat r

/-- LANEID (R131). -/
def execLaneid (f : Fields) (s : State) : Host.Outcome State Fault Refusal :=
  vectorOp .laneid f s 0 fun _ l => l

/-- CRNG (R132): the operands and the key are read at issue; `hi` selects x2 and x3. An empty active set completes at
once (R54). -/
def crngOp (m : Mnem) (f : Fields) (s : State) (hi : Bool) : Host.Outcome State Fault Refusal :=
  issue m f s fun _ t c e flag =>
    let stream := bScalar c.w f .zero
    let key := if f.mod.getLsbD 0 then c.w.scalar f.c.toNat else c.w.rngkey
    let val := fun l =>
      let r := crng (c.w.elem f.a.toNat l) (c.w.elem (f.a.toNat + 1) l) stream key
      if hi then (l, r.x2, r.x3) else (l, r.x0, r.x1)
    if e == 0 then t.map fun y => y.completedOp c id
    else t.map fun y => y.startOp c m flag (.crng f.d.toNat (e.lanes.map val))

/-- CRNG.LO. -/
def execCrngLo (f : Fields) (s : State) : Host.Outcome State Fault Refusal := crngOp .crngLo f s false

/-- CRNG.HI. -/
def execCrngHi (f : Fields) (s : State) : Host.Outcome State Fault Refusal := crngOp .crngHi f s true

end Sys2Proof.Machine
end

