-- ==== Sys2Proof/Machine/Context.lean ====
section
/-! DEFINITION. The context record (R25, R286, R311 to R315): the bytes of a saved block in its tower's context pool, where the
spec gives them a place, the write of the record, and what a restore reads of it. -/

namespace Sys2Proof.Machine

/-! ## Layouts -/

/-- Byte i of a number. -/
def byteAt (x i : Nat) : Byte := BitVec.ofNat 8 (natBits x (8 * i + 7) (8 * i))

/-- CBYTES of a card (R286). DESIGN CHOICE: a chunk that writes one 4 KiB block more than once may pass the field's 4,096 bytes, and shows 4,096
(log 142). -/
def Card.cbytes (c : Card) : Nat := min 4096 (c.cnibs / 2)

/-- The progress record of a card slot (R286). -/
def Card.progress (c : Card) : Nat :=
  let st := match c.state with
    | .waiting => 0
    | .running => 1
    | .suspended => 2
  c.nextn % 2 ^ 64 + c.cbytes * 2 ^ 64 + st * 2 ^ 77 + (if c.retry then 2 ^ 79 else 0) + natBits c.addr 20 6 * 2 ^ 80

/-- Bytes rounded up to 4 KiB. -/
def roundPage (n : Nat) : Nat := (n + 4095) / 4096 * 4096

/-- A section with its poison map, one bit for 4 bytes (R314). -/
def withPoisonMap (n : Nat) : Nat := roundPage (n + n / 32)

/-- The byte of a section of 32-bit elements that a poison map follows: a poisoned unit reads zero with its bit set (R314). -/
def sectionByte (size off : Nat) (value : Nat → Word) (bad : Nat → Bool) : Byte :=
  if off < size then (if bad (off / 4) then 0 else byteAt (value (off / 4)).toNat (off % 4))
  else
    let k := 8 * (off - size)
    BitVec.ofNat 8 ((List.range 8).foldl (fun m i => if 4 * (k + i) < size && bad (k + i) then m + 2 ^ i else m) 0)

/-! ## Warp records (R313) -/

/-- A section of a warp record with its poison map, one bit for 4 bytes, behind which the next section follows at once (R313, R314, R354). -/
def withMap (n : Nat) : Nat := n + n / 32

/-- The offset of a warp's tile section. -/
def Warp.tilesAt (w : Warp) : Nat := 0x7000 + withMap (w.bays.length * 8192)

/-- The offset of a warp's private memory. -/
def Block.privAt (b : Block) (w : Warp) : Nat := w.tilesAt + withMap (b.tileCount * 16384)

/-- The bytes of a warp record. -/
def Block.warpRecord (b : Block) (w : Warp) : Nat := b.privAt w + withMap (roundPage (64 * b.hdr.lpriv))

/-- The bytes of a lane in the section of private memory. DESIGN CHOICE: LPRIV rounded up to whole poison units, so that each unit has a bit of
its own (log 143). -/
def Block.privStride (b : Block) : Nat := (b.hdr.lpriv + 3) / 4 * 4

/-- The key of the private byte at an offset of its section: lane after lane. None behind the last lane and behind a lane's LPRIV bytes. -/
def Block.privKey (b : Block) (a : Nat) : Option Nat :=
  if a < 64 * b.privStride && a % b.privStride < b.hdr.lpriv then some (512 * (a / b.privStride) + a % b.privStride) else none

/-- An entry of the bay map (R17): BAY and V. -/
def Warp.bayEntry (w : Warp) (e : Nat) : Byte :=
  match w.bays[e]? with
  | some b => BitVec.ofNat 8 (b % 64 + 64)
  | none => 0

/-- A byte of a warp record. The sections of slots, status registers, flags, tile control, pending instructions and store buffer have no
layout of bits in the spec; the bay map's eight entries stand first in its section. -/
def Block.recordByte (b : Block) (w : Warp) (off : Nat) : Option Byte :=
  let priv := roundPage (64 * b.hdr.lpriv)
  if off < 0x80 then none
  else if off < 0xB0 then some (byteAt w.perm.toNat (off - 0x80))
  else if off < 0xC0 then none
  else if off < 0xC8 then some (w.bayEntry (off - 0xC0))
  else if off < 0x200 then none
  else if off < 0x400 then some (byteAt (w.scalar ((off - 0x200) / 8)).toNat (off % 8))
  else if off < 0x440 then
    let n := (off - 0x400) / 8 + 1
    some (if n < 8 then byteAt (w.m.get n).toNat (off % 8) else 0)
  else if off < 0x800 then none
  else if off < 0x1040 then some (byteAt ((w.rs.flatMap RsEntry.bits).getD ((off - 0x800) / 16) 0) ((off - 0x800) % 16))
  else if off < 0x7000 then none
  else if off < w.tilesAt then some (sectionByte (w.bays.length * 8192) (off - 0x7000) (fun k => w.v.get k) (NatSet.has w.vPoison))
  else if off < b.privAt w then
    some (sectionByte (b.tileCount * 16384) (off - w.tilesAt) (fun k => w.tiles.get k) (NatSet.has w.tilePoison))
  else if off < b.warpRecord w then
    let byte := fun (a : Nat) => ((b.privKey a).map w.priv.get).getD 0
    some (sectionByte priv (off - b.privAt w) (fun k => byte (4 * k + 3) ++ byte (4 * k + 2) ++ byte (4 * k + 1) ++ byte (4 * k))
      fun k => (b.privKey (4 * k)).any (NatSet.has w.privPoison))
  else none

/-- The position of each of a block's warp records behind `at_`, in rank order, each on a 4 KiB boundary (R312). -/
def Block.warpRecords (b : Block) (at_ : Nat) : List Warp → List (Nat × Warp)
  | [] => []
  | w :: ws => (at_, w) :: b.warpRecords (at_ + roundPage (b.warpRecord w)) ws

/-! ## Block records (R312) -/

/-- The cards of a block, entered and not, in kick order (R307, R312). -/
def Sys.cardsOf (s : Sys) (b : Block) : List Card :=
  let k := s.core b.coreRef
  (k.cards.filter fun c => c.block == b.id) ++
    (match k.kick with | some q => if q.warp.block == b.id then q.cards else [] | none => [])

/-- The drain buffers that may travel with a block (R292, R317): those of its cards, and those that its slices may still take before
they stop, two for each slice that holds a warp of it. DESIGN CHOICE: the room counts the buffers that a slice may still take (log 118). -/
def Sys.drainRoom (s : Sys) (b : Block) : Nat :=
  let mine := ((s.cardsOf b).filter fun c => c.drain.isSome).length
  max mine (2 * ((b.warps.map Warp.slice).foldl NatSet.add []).length)

/-- The bytes of room for a block's record (R311). -/
def Sys.contextSize (s : Sys) (b : Block) : Nat :=
  0x5000 + withPoisonMap b.bsmBytes + 16384 * s.drainRoom b + (b.warps.map fun w => roundPage (b.warpRecord w)).sum

/-- The offset of the drain buffers, and of the warp records behind them. -/
def SavedBlock.drainsAt (x : SavedBlock) : Nat := 0x5000 + withPoisonMap x.block.bsmBytes

/-- The offset of the first warp record. -/
def SavedBlock.warpsAt (x : SavedBlock) : Nat := x.drainsAt + 16384 * (x.cards.filterMap Card.drain).length

/-- The end of the record, behind its last warp record. -/
def SavedBlock.recordEnd (x : SavedBlock) : Nat := x.warpsAt + (x.block.warps.map fun w => roundPage (x.block.warpRecord w)).sum

/-- A byte of a block record. The block header has no layout of bits in the spec; of a card entry it gives the order and the sizes of
the card, its shape record and its progress record. -/
def SavedBlock.recordByte (x : SavedBlock) (off : Nat) : Option Byte :=
  let b := x.block
  if off < 0x1000 then none
  else if off < 0x5000 then
    (x.cards[(off - 0x1000) / 256]?).bind fun c =>
      let j := off % 256
      if j < 64 then some (byteAt c.card j) else if j < 128 then some (byteAt c.shape (j - 64))
      else if j < 144 then some (byteAt c.progress (j - 128)) else none
  else if off < x.drainsAt then
    some (sectionByte b.bsmBytes (off - 0x5000)
      (fun k => b.bsm.get (4 * k + 3) ++ b.bsm.get (4 * k + 2) ++ b.bsm.get (4 * k + 1) ++ b.bsm.get (4 * k))
      fun k => NatSet.has b.bsmPoison (4 * k))
  else if off < x.warpsAt then
    let i := off - x.drainsAt
    ((x.cards.filterMap Card.drain)[i / 16384]?).map fun d => byteAt (d.1.get (i % 16384 / 4)).toNat (i % 4)
  else
    ((b.warpRecords x.warpsAt b.warps).find? fun y => decide (y.1 ≤ off) && decide (off < y.1 + b.warpRecord y.2)).bind fun y =>
      b.recordByte y.2 (off - y.1)

/-- The physical address of a tower's context pool (R311, R319). -/
def Sys.poolBase (s : Sys) (tower : Nat) : Nat :=
  (if tower == 0 then natBits s.device.globals.toNat 115 76 else natBits s.device.globals.toNat 179 140) * 4096

/-- The whole room written (R309 (c), (d)): the bytes of the record, free bytes where the spec gives none, and no poison. -/
def Tx.writeContext {o : Phys} (t : Tx o) (tower : Nat) (x : SavedBlock) : Tx o :=
  let base := t.sys.poolBase tower + x.room
  let free := t.sys.free
  (t.fill base x.size fun i => (x.recordByte i).getD (Config.freeByte (free + i))).map fun s => { s with free := s.free + x.size }

/-! ## The restore (R314, R315) -/

/-- A reconvergence stack read position by position: the entries so far and a TRAP first position that waits for its second; none
where it breaks R25 or a reserved bit is set. -/
def readPosition (acc : Option (List RsEntry × Option Nat)) (p : Nat) : Option (List RsEntry × Option Nat) :=
  acc.bind fun a =>
    let m : LaneMask := BitVec.ofNat 64 (natBits p 63 0)
    let pc : Pc := BitVec.ofNat 50 (natBits p 113 64)
    if natBits p 127 117 != 0 then none
    else match a.2 with
      | some q =>
        if natBits p 116 114 == 5 && natBits p 113 86 == 0 && decide (1 ≤ natBits p 85 78) && decide (natBits p 85 78 ≤ 187) then
          some (a.1 ++ [.trap (BitVec.ofNat 64 (natBits q 63 0)) (BitVec.ofNat 50 (natBits q 113 64)) m (BitVec.ofNat 8 (natBits p 71 64))
            (natBits p 77 72) (natBits p 85 78)], none)
        else none
      | none =>
        match natBits p 116 114 with
        | 1 => some (a.1 ++ [.join pc m], none)
        | 2 => some (a.1 ++ [.loop pc m], none)
        | 3 => some (a.1 ++ [.pend pc m], none)
        | 4 => some (a.1, some p)
        | _ => none

/-- The stack that positions hold. -/
def readStack (ps : List Nat) : Option (List RsEntry) :=
  (ps.foldl readPosition (some ([], none))).bind fun a => if a.2.isNone then some a.1 else none

/-- The elements of a section with their keys. -/
def Phys.readWords (p : Phys) (base size : Nat) (key : Nat → Nat) : Sparse 32 :=
  (List.range (size / 4)).foldl (fun m k => m.put (key k) (BitVec.ofNat 32 (p.num (base + 4 * k) 4))) []

/-- The poisoned units of a section, by their keys. -/
def Phys.readMap (p : Phys) (base size : Nat) (key : Nat → Nat) : NatSet :=
  (List.range (size / 4)).foldl (fun s k => if (p.byte (base + size + k / 8)).getLsbD (k % 8) then NatSet.add s (key k) else s) []

/-- The bytes of a section with their keys. -/
def Phys.readBytes (p : Phys) (base size : Nat) (key : Nat → Nat) : Sparse 8 :=
  (List.range size).foldl (fun m i => m.put (key i) (p.byte (base + i))) []

/-- A warp as its record holds it; what the spec gives no place for is as it was saved. None: R315 (a) or (c). -/
def Warp.readBack (w : Warp) (p : Phys) (b : Block) (base : Nat) : Option Warp :=
  let bays := w.bays.length * 8192
  let tiles := b.tileCount * 16384
  let priv := roundPage (64 * b.hdr.lpriv)
  let positions := (List.range w.rsp).map fun i => p.num (base + 0x800 + 16 * i) 16
  if p.num (base + 0x438) 8 != 0 || (List.range 8).any (fun e => (p.byte (base + 0xC0 + e)).getLsbD 7) then none
  else (readStack positions).map fun rs =>
    { w with
      perm := BitVec.ofNat 384 (p.num (base + 0x80) 48)
      s := (List.range 63).foldl (fun (m : Sparse 64) n => m.put n (BitVec.ofNat 64 (p.num (base + 0x200 + 8 * n) 8))) []
      m := (List.range 7).foldl (fun (m : Sparse 64) n => m.put (n + 1) (BitVec.ofNat 64 (p.num (base + 0x400 + 8 * n) 8))) []
      rs := rs
      v := p.readWords (base + 0x7000) bays id
      vPoison := p.readMap (base + 0x7000) bays id
      tiles := p.readWords (base + w.tilesAt) tiles id
      tilePoison := p.readMap (base + w.tilesAt) tiles id
      priv := (List.range priv).foldl (fun (m : Sparse 8) i => match b.privKey i with
        | some k => m.put k (p.byte (base + b.privAt w + i))
        | none => m) []
      privPoison := ((List.range (priv / 4)).filter fun k => (p.byte (base + b.privAt w + priv + k / 8)).getLsbD (k % 8)).foldl
        (fun s k => match b.privKey (4 * k) with
          | some u => NatSet.add s u
          | none => s) [] }

/-- The warps of a block as their records hold them. -/
def readWarps (p : Phys) (b : Block) (base : Nat) : List (Nat × Warp) → Option (List Warp)
  | [] => some []
  | y :: ys => (y.2.readBack p b (base + y.1)).bind fun w => (readWarps p b base ys).map fun ws => w :: ws

/-- Are the reserved bits of a card (R174) zero? -/
def cardReservedOk (card : Nat) : Bool := !natBit card 47 && natBits card 127 116 == 0 && natBits card 191 180 == 0

/-- Are the reserved bits of a shape record (R177) zero? -/
def shapeReservedOk (shape : Nat) : Bool :=
  natBits shape 31 4 == 0 && natBits shape 63 53 == 0 && natBits shape 511 384 == 0

/-- A card as its entry holds it; none where STATE is 11 or a reserved bit is set (R315 (b), (c)). Its STATE is that of the pool's
record, since a response to its fault may have come since the save. -/
def Card.readBack (c : Card) (p : Phys) (base : Nat) : Option Card :=
  let pr := p.num (base + 128) 16
  let bytes := natBits pr 76 64
  if natBits pr 78 77 == 3 || natBits pr 127 95 != 0 || !cardReservedOk (p.num base 64) || !shapeReservedOk (p.num (base + 64) 64) then none
  else some { c with
    card := p.num base 64, shape := p.num (base + 64) 64, nextn := natBits pr 63 0,
    cnibs := if bytes == c.cbytes then c.cnibs else 2 * bytes, page := if bytes == c.cbytes || bytes != 0 then c.page else none,
    retry := natBit pr 79, addr := 64 * natBits pr 94 80 }

/-- The cards of a block as their entries hold them, each with its drain buffer: the addresses of the next entry and buffer, and the entries
that the record still has. A card behind the 64th has none, and is as it was saved (log 75). -/
def readCards (p : Phys) (entry buffer : Nat) : Nat → List Card → Option (List Card)
  | _, [] => some []
  | n, c :: cs =>
    let own := c.drain.map fun d => (p.readWords buffer 16384 id, d.2)
    (if n == 0 then some c else c.readBack p entry).bind fun y =>
      (readCards p (entry + 256) (if c.drain.isSome then buffer + 16384 else buffer) (n - 1) cs).map fun ys => { y with drain := own } :: ys

/-- A saved block as its record in memory holds it (R315): none where the restore fails. A poisoned position of a stack, which has no
poison map, reads uncorrectable. -/
def SavedBlock.readBack (x : SavedBlock) (p : Phys) (base : Nat) : Option SavedBlock :=
  let b := x.block
  if (p.poison.any fun u => decide (base ≤ u) && decide (u < base + x.recordEnd)) || b.warps.any (fun w => !w.rsPoison.isEmpty) then none
  else
    (readWarps p b base (b.warpRecords x.warpsAt b.warps)).bind fun ws =>
      (readCards p (base + 0x1000) (base + x.drainsAt) 64 x.cards).map fun cs =>
        { x with
          cards := cs
          block := { b with
            warps := ws
            bsm := p.readBytes (base + 0x5000) b.bsmBytes id
            bsmPoison := p.readMap (base + 0x5000) b.bsmBytes fun k => 4 * k } }

end Sys2Proof.Machine
end

