-- ==== Sys2Proof/Machine/Tolerance.lean ====
section
/-! DEFINITION. Tolerance words and their exact logarithms (R146, R181, R192, R200, R207 to R212, R256, R274). -/

namespace Sys2Proof.Machine

/-- t of a tolerance word (R200). -/
def tolT (w : Nat) : Nat := w % 1024
/-- The retry count; 3 is read as 2. -/
def tolRetry (w : Nat) : Nat := min 2 (natBits w 11 10)
/-- The kind bit: 1 is REL. -/
def tolKind (w : Nat) : Nat := natBits w 12 12
/-- FORCE. -/
def tolForce (w : Nat) : Bool := natBit w 13
/-- Bits [13:10] of a word, in place. -/
def tolUpper (w : Nat) : Nat := natBits w 13 10 * 1024

/-- t clamped to 0 to 1023. -/
def clampT (x : Int) : Nat := (max 0 (min 1023 x)).toNat

/-- The least k with 2^k ≥ n, for n ≥ 1: ⌈log2 n⌉. -/
def ceilLog2 (n : Nat) : Nat := if n == 2 ^ n.log2 then n.log2 else n.log2 + 1

/-- ⌈16·log2 k⌉ (R208), exact by the 16th power; k = 0 is read as 1. -/
def ceil16Log2 (k : Nat) : Nat := ceilLog2 (max k 1 ^ 16)

/-- ⌈log2 (a/b)⌉ for positive a and b. -/
def ceilLog2Ratio (a b : Nat) : Int :=
  let k : Int := (a.log2 : Int) - b.log2
  let reaches := if 0 ≤ k then decide (a ≤ b * 2 ^ k.toNat) else decide (a * 2 ^ (-k).toNat ≤ b)
  if reaches then k else k + 1

/-- ⌊2^(n/16) × 2^p⌋, the floor of the 16th root of 2^(n + 16p). -/
def root16 (n p : Nat) : Nat := rootFloor (rootFloor (rootFloor (rootFloor (2 ^ (n + 16 * p)))))

/-- corr(d) = ⌈16·log2(1 + 2^(−d/16))⌉ (R200): the least n from 1 to 16 with 2^((n+d)/16) ≥ 2^(d/16) + 1. -/
def corr (d : Nat) : Nat :=
  if 256 ≤ d then 1
  else
    let need := root16 d 40 + 2 ^ 40
    ((List.range 16).find? fun i => decide (need ≤ root16 (i + 1 + d) 40)).getD 15 + 1

/-- The log-add t1 ⊕ t2 (R200). -/
def logAdd (a b : Nat) : Nat := clampT ((min a b : Nat) - (corr (max a b - min a b) : Int))

/-- The precision p of a format's float code (R73). -/
def codePrecision (c : Nat) : Nat := (FloatFmt.ofCode c).frac + 1

/-- The ladder of formats, narrowest first, as float codes (R181): E2M1, E5M2, E4M3, BF16, FP16, FP32. -/
def ladder : List Nat := [5, 4, 3, 2, 1, 0]

/-- t_conv of a format (R181): 16·p under RN and RA, else 16·(p − 1). -/
def convBound (c : Nat) (r : Rnd) : Nat :=
  match r with
  | .rn | .ra => 16 * codePrecision c
  | _ => 16 * (codePrecision c - 1)

/-- t_MMA for compute formats A and B and Kd positions (R192). -/
def mmaBound (a b kd : Nat) : Nat :=
  logAdd (logAdd (16 * codePrecision a) (16 * codePrecision b)) (384 - ceil16Log2 ((kd + 7) / 8))

/-- t_own of a word under a class entry (R146, R181, R192). -/
def ownBound (w : Nat) (c : ClassEntry) : Nat := min 1023 (tolT w + c.uOwn)

/-- The narrowest format of the ladder whose bound reaches t, else FP32. -/
def pickFormat (bound : Nat → Nat) (t : Nat) : Nat := (ladder.find? fun c => decide (t ≤ bound c)).getD 0

/-- The class entry of a spawn block and of a sweep without a table (R201). -/
def ClassEntry.default : ClassEntry := {}

/-- AUTO of a conversion (R181). -/
def autoConvert (b : Block) (tol : Nat) (r : Rnd) : Nat :=
  if tolForce tol || b.spawn then 0 else pickFormat (fun c => convBound c r) (ownBound tol b.entry)

/-- AUTO of an MMA (R192). -/
def autoMatrix (b : Block) (tol kd : Nat) : Nat :=
  if tolForce tol || b.spawn then 0 else pickFormat (fun c => mmaBound c c kd) (ownBound tol b.entry)

/-- The precision q of a .T form (R146). -/
def tolerantBits (b : Block) (tol : Nat) : Nat :=
  if b.spawn || tolForce tol || b.entry.kind != 2 then 24
  else
    let need := (ownBound tol b.entry + 15) / 16 + 2
    match (List.range 16).find? fun n => decide (need ≤ b.entry.init + n * b.entry.gain) with
    | none => 24
    | some n => max 1 (min 24 (b.entry.init + n * b.entry.gain - 2))

/-! ## The words that instructions write -/

/-- The t of the demand ⌈−16·log2 x⌉ of an FP32 value (R210, `.dem`). -/
def demandOf (x : Word) : Nat :=
  match fp32 x with
  | .nan _ => 1023
  | .inf s => if s then 1023 else 0
  | .fin s m e =>
    if m == 0 || s then 1023
    else if 0 ≤ leadExp m e then 0
    else clampT (-16 * e - ((m ^ 16).log2 : Int))

/-- The t of the certificate ⌊−16·log2 x⌋ of an FP32 value (R210, `.cert`). -/
def certificateOf (x : Word) : Nat :=
  match fp32 x with
  | .nan _ | .inf _ => 0
  | .fin s m e =>
    if m == 0 then 1023
    else if s || 0 ≤ leadExp m e then 0
    else clampT (-16 * e - (ceilLog2 (m ^ 16) : Int))

/-- 2^(−t/16) rounded RU to FP32 (R210, `.val`). -/
def valueOf (t : Nat) : Nat :=
  let q := t / 16
  let r := t % 16
  let x : Exact := if r == 0 then { neg := false, m := 1, e := -(q : Int) }
    else { neg := false, m := root16 (16 - r) 60, e := -(q : Int) - 61, sticky := true }
  (FloatFmt.fp32.round { mode := .ru } false false x).1

/-- c of CERT.REL: max(0, ⌈16·log2(|M| / |r|)⌉), for a finite M and a finite nonzero r; none when R212 (a) holds. -/
def cancellation (m r : Word) : Option Nat :=
  match fp32 m, fp32 r with
  | .fin _ a ea, .fin _ b eb =>
    if b == 0 then none
    else if a == 0 then some 0
    else some (ceilLog2Ratio (a ^ 16) (b ^ 16) + 16 * (ea - eb)).toNat
  | _, _ => none

/-- The REL form of a certificate (R212). -/
def relCertificate (w : Nat) (m r : Word) : Nat :=
  let t := match cancellation m r with
    | none => 0
    | some c => tolT w - c
  t + natBits w 11 10 * 1024 + 4096 + (if tolForce w then 8192 else 0)

/-- The share of a re-demanded child (R215). -/
def redemand (old δ : Nat) : Nat :=
  let t := min 1023 (tolT old + δ + 16)
  let retry := tolRetry old
  t + tolKind old * 4096 + (if retry < 2 then (retry + 1) * 1024 else 2 * 1024 + 8192)

/-- The share that a class entry gives an input (R208, `.in`): t + u_in + s, and ⌈16·log2 k⌉ under EQUAL. -/
def inputShare (c : ClassEntry) (w k : Nat) : Nat :=
  clampT ((tolT w : Int) + c.uIn + c.s + (if c.equal then (ceil16Log2 k : Int) else 0)) + tolUpper w

end Sys2Proof.Machine
end

