-- ==== Sys2Proof/Machine/Matrix.lean ====
section
/-! DEFINITION. Matrix instructions (R89, R173, R186 to R198, R291, R295): the format block and descriptors, the operand
fetches, the order of summation, and the tile operations. -/

namespace Sys2Proof.Machine

/-! ## The order among matrix instructions -/

/-- The tiles that an outstanding instruction reads or writes (R186). -/
def Op.tiles (x : Op) : List Nat :=
  match x.body with
  | .mma k => if k.byp then [k.tile, k.aTile] else [k.tile]
  | .tileZero t _ | .tileWrite t _ _ | .tileRead _ t _ _ | .tileCert _ t | .tileBypass t _ _ _ _ => [t]
  | _ => []

/-- Has an instruction's turn come on its tiles (R186, R195)? -/
def Warp.tileTurn (w : Warp) (x : Op) : Bool := !(w.earlier x.id).any fun y => y.tiles.any x.tiles.contains

/-- Will an outstanding instruction still write a tile or its control state (R186)? -/
def Op.writesTile (x : Op) (tile : Nat) : Bool :=
  match x.body with
  | .mma k => k.tile == tile
  | .tileZero t _ | .tileWrite t _ _ | .tileBypass t _ _ _ _ => t == tile
  | _ => false

/-! ## Issue -/

/-- May the core issue one more MMA in this window (R295)? -/
def Core.slewAllows (k : Core) : Bool := k.mstep == 0 || k.mmaNow + 1 ≤ k.mmaPrev + k.mstep

/-- One more MMA counted in the present window (R295). -/
def Sys.countMma (s : Sys) (c : CoreRef) : Sys := s.setRolled c fun k => { k with mmaNow := k.mmaNow + 1 }

/-- The window pages of pieces. -/
def piecePages (xs : List Piece) : List Nat :=
  xs.foldl (fun ps x => if x.1 then NatSet.add (NatSet.add ps (x.2.1 / 65536)) ((x.2.1 + x.2.2 - 1) / 65536) else ps) []

/-- The window pages of the operands that an MMA will read. -/
def MmaWork.pages (k : MmaWork) : List Nat := piecePages (k.rows.flatMap k.aPieces ++ k.bPieces)

/-- Do the pages of an MMA's operands find room in the miss queue, or is the queue empty (R239 (e))? -/
def Sys.mmaRoom (s : Sys) (c : Ctx) (k : MmaWork) : Bool :=
  (s.tower c.b.tower).walks.isEmpty || missRoom s c.b.coreRef c.b.asid k.pages

/-- MMA and MMAS at issue (R193). MMA.BYP waits for the earlier instructions that write its bypass tile, whose BYPF it checks (R186,
R188, R196, log 112). DEDUCED: with an empty active set it issues, and is counted (R295), without its other effects and checks (R54, log 12). -/
def mmaIssue (m : Mnem) (sparse byp : Bool) (f : Fields) (s : State) : Host.Outcome State Fault Refusal :=
  issue m f s fun _ t c e flag =>
    if byp && e != 0 && c.w.ops.any (fun x => x.writesTile f.a.toNat) then t.map fun y => y.hold c .bypassTile
    else if !(t.sys.rolledCore c.b.coreRef).slewAllows || !t.sys.sliceTurn c.b.coreRef .slew c.w.slice then t.map fun y => y.hold c .slew
    else if e == 0 then t.map fun y => (y.completedOp c id).countMma c.b.coreRef
    else
      let fa := (c.w.scalar f.c.toNat).toNat
      let trap := fun (k : Cause) (a : Nat) => t.raise c.ref c.z { cause := k, resume := e, addr := a } false
      if fa % 32 != 0 then trap .misaligned fa
      else if c.b.bsmBytes < fa + 32 then trap .bsmRange fa
      else
        let raw := (loadView t.phys c.b c.w c.w.ops .bsm fa 32).1
        let x := FormatBlock.parse raw
        let wait := readsHeld t.phys t.sys c.b c.w.ops [(.bsm, fa, 32)]
        let aDesc := if byp then 0 else c.w.scalar f.a.toNat
        let bDesc := c.w.scalar f.b.toNat
        let bypf := (c.w.tileCtl.getD f.a.toNat {}).bypf.toNat
        if wait.isSome then t.unlessHeld c wait t
        else if !x.fits sparse byp bypf || natBits aDesc.toNat 63 57 != 0 || natBits bDesc.toNat 63 57 != 0 then trap .mmaFormat fa
        else
          let kd := x.kd sparse
          let auto := autoMatrix c.b c.w.tol.toNat kd
          let fmtA := if x.auto then auto else x.afmt
          let fmtB := if x.auto then auto else x.bfmt
          let k : MmaWork :=
            { sparse := sparse, byp := byp, tile := f.d.toNat, aTile := f.a.toNat, aDesc := aDesc, bDesc := bDesc, fbAddr := fa,
              fb := raw, kd := kd, fmtA := fmtA, fmtB := fmtB, bound := mmaBound fmtA fmtB kd, ftz := c.w.ftz, active := e,
              start := if c.slot.resume.isSome then c.w.rpr.toNat else 0 }
          match k.misaligned, k.outside c.b with
          | some a, _ => trap .misaligned a
          | none, some a => trap .bsmRange a
          | none, none =>
            t.map fun y =>
              if !y.mmaRoom c k then y.hold c .translation
              else ((y.addOp c m flag false (.mma k)).setWarp c.ref fun w => w.setSlot c.z fun z => { z with hold := .rowFetch }).countMma
                c.b.coreRef

/-- MMA. -/
def execMma (f : Fields) (s : State) : Host.Outcome State Fault Refusal := mmaIssue .mma false false f s

/-- MMA.BYP (R196). -/
def execMmaByp (f : Fields) (s : State) : Host.Outcome State Fault Refusal := mmaIssue .mmaByp false true f s

/-- MMAS. -/
def execMmas (f : Fields) (s : State) : Host.Outcome State Fault Refusal := mmaIssue .mmas true false f s

/-- MMAS.BYP. -/
def execMmasByp (f : Fields) (s : State) : Host.Outcome State Fault Refusal := mmaIssue .mmasByp true true f s

/-! ## Operand fetches -/

/-- A failed read of an operand: the cause and FADDR. -/
abbrev OperandFault := Cause × Nat

/-- Bytes of the BSM as an operand, poison included. -/
def readBsm (p : Phys) (b : Block) (w : Warp) (earlier : List Op) (a n : Nat) : Except OperandFault Nat :=
  let v := loadView p b w earlier .bsm a n
  if v.2 then
    let bad := (List.range n).find? fun i => (loadView p b w earlier .bsm (a + i) 1).2
    .error (.poison, a + bad.getD 0 - (a + bad.getD 0) % 4)
  else .ok v.1

/-- The number that free bytes hold, by the addresses that they are read at. -/
def freeBytes (s : Sys) (a n : Nat) : Nat := bytesToNat ((List.range n).map fun i => Config.freeByte (s.free + a + i))

/-- Bytes of one window page as an operand; free bytes from a drawer that the block has given up (R193, R204). -/
def readPage (p : Phys) (s : Sys) (b : Block) (w : Warp) (earlier : List Op) (a n : Nat) : Except OperandFault Nat :=
  match translateWindow p s b.coreRef b.asid a with
  | none => .error (.windowFault, a)
  | some pa =>
    let v := loadView p b w earlier .tsp pa n
    if b.gaveUp p s pa n then .ok (freeBytes s a n)
    else if v.2 then
      let bad := (List.range n).find? fun i => (loadView p b w earlier .tsp (pa + i) 1).2
      .error (.poison, a + bad.getD 0 - (a + bad.getD 0) % 4)
    else .ok v.1

/-- A piece of an operand, read as a load of the warp (R193); a row may cross one page boundary. -/
def readPiece (p : Phys) (s : Sys) (b : Block) (w : Warp) (earlier : List Op) (x : Piece) : Except OperandFault Nat :=
  let (tsp, a, n) := x
  if !tsp then readBsm p b w earlier a n
  else
    let here := min n (65536 - a % 65536)
    match readPage p s b w earlier a here with
    | .error e => .error e
    | .ok v =>
      if here == n then .ok v
      else
        match readPage p s b w earlier (a + here) (n - here) with
        | .error e => .error e
        | .ok u => .ok (v + u * 256 ^ here)

/-- Has an earlier access of the warp that reads a piece's bytes, or writes them outside the store buffer, still to be performed (R221,
R222 (e))? -/
def piecesHeld (p : Phys) (s : Sys) (b : Block) (earlier : List Op) (xs : List Piece) : Bool :=
  let meets := fun (sp : Space) (a n : Nat) => earlier.any fun x => !x.writes && x.touches sp a n
  xs.any fun x =>
    let (tsp, a, n) := x
    if !tsp then meets .bsm a n
    else
      let here := min n (65536 - a % 65536)
      let part := fun (a n : Nat) => match translateWindow p s b.coreRef b.asid a with
        | some pa => meets .tsp pa n
        | none => false
      part a here || (here != n && part (a + here) (n - here))

/-- The scratchpad bytes of pieces (R294). -/
def pieceBytes (xs : List Piece) : Nat := (xs.map fun x => if x.1 then x.2.2 else 0).sum

/-- The metadata of a row are strictly ascending in each group and below M (R190). -/
def FormatBlock.metaOk (x : FormatBlock) (bits : Nat) : Bool :=
  (List.range (x.kd true / x.m)).all fun j =>
    (List.range x.n).all fun q =>
      let at_ := fun (q : Nat) => natBits bits (5 * (j * x.n + q) + 4) (5 * (j * x.n + q))
      at_ q < x.m && (q == 0 || at_ (q - 1) < at_ q)

/-- Is an element of a tile row poisoned? -/
def Warp.tileRowBad (w : Warp) (tile row first n : Nat) : Bool :=
  (List.range n).any fun j => NatSet.has w.tilePoison (4096 * tile + 64 * row + first + j)

/-- The stored elements of row i of a bypass tile, as FP32 words one after another (R196). DESIGN CHOICE (log 164): a row that MBYP has not
rounded is taken as it stands. -/
def Warp.bypassRow (w : Warp) (k : MmaWork) (i : Nat) : Nat :=
  let x := k.block
  (List.range (x.stored k.sparse)).foldl
    (fun v j => v + (w.tiles.get (4096 * k.aTile + 64 * i + x.bcol + j)).toNat * 2 ^ (32 * j)) 0

/-- The fetch of row i (R193): the elements, the scales, the metadata and the accumulator row. -/
def MmaWork.fetchRow (k : MmaWork) (p : Phys) (s : Sys) (b : Block) (w : Warp) (earlier : List Op) (i : Nat) :
    Except OperandFault (Nat × Nat × Nat × Nat) := do
  let x := k.block
  let read := readPiece p s b w earlier
  let ps := k.aPieces i
  let n := if k.byp then 0 else 1
  let elems ← if k.byp then
      (if w.tileRowBad k.aTile i x.bcol (x.stored k.sparse) then .error (.poison, 0) else .ok (w.bypassRow k i))
    else match ps[0]? with | some q => read q | none => .ok 0
  let scales ← if x.abl == 0 then .ok 0 else match ps[n]? with | some q => read q | none => .ok 0
  let bits ← match k.sparse, ps.getLast? with
    | true, some q => read q
    | _, _ => .ok 0
  if k.sparse && !x.metaOk bits then .error (.sparseMeta, x.metaAt + i * x.metaRow)
  else if w.tileRowBad k.tile i 0 64 then .error (.poison, 0)
  else .ok (i, elems, scales, bits)

/-- The fetch of B (R193): its rows and its scales. -/
def MmaWork.fetchB (k : MmaWork) (p : Phys) (s : Sys) (b : Block) (w : Warp) (earlier : List Op) :
    Except OperandFault (List Nat × Nat) := do
  let vs ← k.bPieces.mapM (readPiece p s b w earlier)
  .ok (vs.take k.kd, (vs.drop k.kd).headD 0)

/-! ## The order of summation (R89) -/

/-- A scale applied exactly (R87). -/
def Num.scale (x : Num) (e : Nat) : Num :=
  if e == 255 then .nan false
  else match x with
    | .fin s m g => .fin s m (g + (e : Int) - 127)
    | y => y

/-- An operand element: stored in one format, scaled, and converted to the compute format under AUTO, without flags (R192).
DEDUCED (log 163): FTZ is taken as 0. -/
def operandValue (x : FormatBlock) (stored compute : Nat) (raw : Nat) (scale : Option Nat) : Num :=
  let v := (FloatFmt.ofCode stored).value raw
  let u := match scale with
    | some e => Num.scale v e
    | none => v
  if x.auto then
    let g := FloatFmt.ofCode compute
    g.value (g.convert nearest x.csat false u).1
  else u

/-- Element j of a packed row. -/
def packedElement (c raw j : Nat) : Nat :=
  let w := (FloatFmt.ofCode c).bits
  natBits raw (w * j + w - 1) (w * j)

/-- Row i of A over dense k; an omitted position holds none (R89, R190). -/
def MmaWork.aValues (k : MmaWork) (r : Nat × Nat × Nat × Nat) : List (Option Num) :=
  let x := k.block
  let value := fun (q d : Nat) =>
    if k.byp then fp32 (BitVec.ofNat 32 (packedElement 0 r.2.1 q))
    else
      let e := if x.abl == 0 then none else some (natBits r.2.2.1 (8 * (d / x.abl) + 7) (8 * (d / x.abl)))
      operandValue x x.afmt k.fmtA (packedElement x.afmt r.2.1 q) e
  if !k.sparse then (List.range k.kd).map fun d => some (value d d)
  else
    let places := (List.range (x.kd true / x.m)).flatMap fun j =>
      (List.range x.n).map fun q =>
        let i := j * x.n + q
        (j * x.m + natBits r.2.2.2 (5 * i + 4) (5 * i), i)
    (List.range k.kd).map fun d => (places.find? fun y => y.1 == d).map fun y => value y.2 d

/-- Column j of B over k. -/
def MmaWork.bColumn (k : MmaWork) (j : Nat) : List Num :=
  let x := k.block
  ((k.bRows.getD []).zipIdx).map fun y =>
    let e := if x.bbl == 0 then none
      else
        let at_ := j * (k.kd / x.bbl) + y.2 / x.bbl
        some (natBits k.bScales (8 * at_ + 7) (8 * at_))
    operandValue x x.bfmt k.fmtB (packedElement x.bfmt y.1 j) e

/-- One group of eight products: the exact sum from +0, rounded once to FP32X. -/
def groupSum (xs : List (Option Num × Num)) : Num × BitVec 5 :=
  let prods := xs.filterMap fun x => x.1.map fun a => a.mul x.2
  let s := sumNums false (Num.fin false 0 0 :: prods.map Prod.fst)
  let r := roundX s.1
  (r.1, prods.foldl (fun f y => f ||| y.2) (s.2 ||| r.2))

/-- The groups in ascending k, each accumulated with one rounding. -/
def sumGroups : Nat → Num × BitVec 5 → List (Option Num × Num) → Num × BitVec 5
  | 0, acc, _ => acc
  | fuel + 1, acc, xs =>
    if xs.isEmpty then acc
    else
      let g := groupSum (xs.take 8)
      let s := sumNums false [acc.1, g.1]
      let r := roundX s.1
      sumGroups fuel (r.1, acc.2 ||| g.2 ||| s.2 ||| r.2) (xs.drop 8)

/-- One element: from the tile's value to its new value and the flags. -/
def matrixElement (ftz : Bool) (old : Word) (a : List (Option Num)) (b : List Num) : Word × BitVec 5 :=
  let s := sumGroups 33 (fp32 old, 0) (a.zip b)
  let r := FloatFmt.fp32.deliver nearest false ftz s.1
  (BitVec.ofNat 32 r.1, s.2 ||| r.2)

/-- A row computed and committed: the warp and the flags. -/
def MmaWork.commitRow (k : MmaWork) (cols : List (List Num)) (w : Warp) (r : Nat × Nat × Nat × Nat) : Warp × BitVec 5 :=
  let a := k.aValues r
  let base := 4096 * k.tile + 64 * r.1
  let vals := cols.zipIdx.map fun c => (base + c.2, matrixElement k.ftz (w.tiles.get (base + c.2)) a c.1)
  (vals.foldl (fun w v => { w with tiles := w.tiles.put v.1 v.2.1, tilePoison := NatSet.del w.tilePoison v.1 }) w,
   vals.foldl (fun f v => f ||| v.2.2) 0)

/-- The columns of B. -/
def MmaWork.columns (k : MmaWork) : List (List Num) := (List.range 64).map k.bColumn

/-- Rows below `limit` that this execution still has to write, ascending, computed and committed. -/
def MmaWork.commit (k : MmaWork) (limit : Nat) (w : Warp) : Warp × BitVec 5 :=
  let cols := k.columns
  (k.aRows.filter fun r => r.1 < limit).foldl (fun acc r =>
    let x := k.commitRow cols acc.1 r
    (x.1, acc.2 ||| x.2)) (w, 0)

/-- Elements of a row marked poisoned. -/
def Warp.poisonRow (w : Warp) (tile row : Nat) : Warp :=
  (List.range 64).foldl (fun w j =>
    { w with tiles := w.tiles.put (4096 * tile + 64 * row + j) 0
             tilePoison := NatSet.add w.tilePoison (4096 * tile + 64 * row + j) }) w

/-! ## MMA_ROW_FETCH and MMA_COMPLETION -/

/-- An outstanding MMA replaced. -/
def Sys.setMma (s : Sys) (r : WarpRef) (id : Nat) (k : MmaWork) : Sys :=
  s.setWarp r fun w => w.setOp id fun x => { x with body := .mma k }

/-- Every row has been fetched: the slot goes on. -/
def Sys.releaseSlot (p : Phys) (s : Sys) (r : WarpRef) (x : Op) (k : MmaWork) : Sys :=
  match s.block r.block with
  | none => s
  | some b =>
    let s1 := s.setMma r x.id { k with fetched := true }
    if k.restored then s1
    else s1.setWarp r fun w => w.setSlot x.slot fun z => { z.step (wordsAt p s b z.pc) with issued := z.issued + 1 }

namespace Tx

variable {o : Phys}

/-- A bad window table entry that a fetch has read is logged (R238). -/
def noteOperand (t : Tx o) (r : WarpRef) (e : OperandFault) : Tx o :=
  match t.sys.block r.block with
  | some b => if e.1 == .windowFault then t.upd fun p s => fillWindow p s b.coreRef b.asid (e.2 / 65536) else t
  | none => t

/-- A fault of an MMA at a row (R193): the finished rows commit, RPR and FLAGS are written, and the trap is taken. -/
def mmaFault (t0 : Tx o) (r : WarpRef) (x : Op) (k : MmaWork) (row : Nat) (e : OperandFault) : Tx o :=
  let t := t0.noteOperand r e
  let resume := LaneMask.ofLanes (k.active.lanes.filter fun i => row ≤ i)
  let t1 := t.map fun s => s.setWarp r fun w =>
    let y := k.commit row w
    { (y.1.orFlags y.2).dropOp x.id with rpr := BitVec.ofNat 8 row }
  (t1.raise r x.slot { cause := e.1, resume := resume, addr := e.2 } false).after r

/-- A failed fetch of a re-execution (R194): an unmapped page holds it, with a record; anything else poisons the rows. -/
def mmaHold (t0 : Tx o) (r : WarpRef) (b : Block) (x : Op) (k : MmaWork) (rows : List Nat) (e : OperandFault) : Tx o :=
  let t := t0.noteOperand r e
  if e.1 == .windowFault then
    (t.map fun s => s.setMma r x.id { k with waitPage := some (e.2 / 65536) }).appendError b.queue Cause.windowFault.code 1 0 b.stage
      b.node.toNat r.rank 0 e.2 0
  else
    t.upd fun p s =>
      let k1 := { k with bad := k.bad ++ rows, bRows := some (k.bRows.getD []) }
      if k1.remaining.isEmpty then s.releaseSlot p r x k1 else s.setMma r x.id k1

/-- The fills and the bytes of fetched pieces. -/
def fetchedPieces (t : Tx o) (b : Block) (xs : List Piece) : Tx o :=
  t.upd fun p s =>
    let s1 := ((piecePages xs).foldl (fun s pg => fillWindow p s b.coreRef b.asid pg) s).moved b.coreRef (pieceBytes xs)
    if b.handedBack s1 then { s1 with free := s1.free + 2 ^ 32 } else s1

end Tx

/-- MMA_ROW_FETCH (R193, R194, R291, R295): the fetch of B, or of the next row of A, ends, after the warp's earlier accesses to those bytes
and the whole fetch of an earlier restored MMA. A restored MMA counts in its window first, in its slice's turn. -/
def execMmaRowFetch (r : WarpRef) (id : Nat) (s : State) : Host.Outcome State Fault Refusal :=
  work s fun _ t =>
    match t.sys.block r.block, t.sys.warp r with
    | some b, some w =>
      match w.op id with
      | none => t
      | some x =>
        match x.body with
        | .mma k =>
          let early := w.earlier id
          let held := fun xs => piecesHeld t.phys t.sys b early xs
          let recount := k.restored && !k.counted
          if k.fetched || k.waitPage.isSome || !w.tileTurn x || (b.stopping && k.restored) || early.any Op.rereads
              || (recount && !((t.sys.rolledCore b.coreRef).slewAllows && t.sys.sliceTurn b.coreRef .slew w.slice)) then t
          else
            match k.bRows with
            | none =>
              if held k.bPieces || !t.sys.mayMove b.coreRef (pieceBytes k.bPieces) then t
              else
                let t0 := if recount then t.map fun s => s.countMma b.coreRef else t
                let k0 := { k with counted := k.restored }
                match k.fetchB t.phys t.sys b w early with
                | .error e => if k.restored then t0.mmaHold r b x k0 k.rows e else t.mmaFault r x k k.start e
                | .ok y =>
                  let t1 := t0.fetchedPieces b k.bPieces
                  let k1 := { k0 with bRows := some y.1, bScales := y.2 }
                  t1.upd fun p s => if k1.remaining.isEmpty then s.releaseSlot p r x k1 else s.setMma r id k1
            | some _ =>
              match k.remaining with
              | [] => t.upd fun p s => s.releaseSlot p r x k
              | i :: _ =>
                if held (k.aPieces i) || !t.sys.mayMove b.coreRef (pieceBytes (k.aPieces i)) then t
                else
                  match k.fetchRow t.phys t.sys b w early i with
                  | .error e => if k.restored then t.mmaHold r b x k [i] e else t.mmaFault r x k i e
                  | .ok y =>
                    let t1 := t.fetchedPieces b (k.aPieces i)
                    let k1 := { k with aRows := k.aRows ++ [y] }
                    t1.upd fun p s => if k1.remaining.isEmpty then s.releaseSlot p r x k1 else s.setMma r id k1
        | _ => t
    | _, _ => t

/-- A tile's control state changed. -/
def Warp.setTile (w : Warp) (n : Nat) (f : TileControl → TileControl) : Warp :=
  { w with tileCtl := w.tileCtl.zipIdx.map fun x => if x.2 == n then f x.1 else x.1 }

/-- TC with a bound added (R192, R196). -/
def TileControl.add (c : TileControl) (bound : Nat) : TileControl :=
  { c with tc := BitVec.ofNat 16 (logAdd (c.tc.toNat % 1024) bound) }

/-- Is the instruction an MMA? -/
def Op.isMma (x : Op) : Bool := match x.body with | .mma _ => true | _ => false

/-- MMA_COMPLETION (R193): the rows, then RPR, MCERT, TC, BYPF, FLAGS and the flag. DEDUCED: the MMAs of a warp complete in issue order, so that
a save never has an earlier one read its operands after a later one that is done (R194, R221 (b), log 133). -/
def execMmaCompletion (r : WarpRef) (id : Nat) (s : State) : Host.Outcome State Fault Refusal :=
  work s fun _ t =>
    match t.sys.warp r with
    | none => t
    | some w =>
      match w.op id with
      | none => t
      | some x =>
        match x.body with
        | .mma k =>
          if !k.fetched || !w.tileTurn x || (w.earlier id).any Op.isMma then t
          else
            t.finish r id fun w =>
              let y := k.commit 64 w
              let w1 := k.bad.foldl (fun w i => w.poisonRow k.tile i) y.1
              let w2 := w1.setTile k.tile fun c => { c.add k.bound with bypf := 7 }
              { w2.orFlags (k.flags ||| y.2) with rpr := 0, mcert := BitVec.ofNat 16 k.bound }
        | _ => t

/-! ## Tile operations -/

/-- A tile operation started; an empty active set completes it at once. DEDUCED: it then leaves TC, BYPF, MCERT and RPR as they are (R54, log 12). -/
def tileOp (m : Mnem) (f : Fields) (s : State) (body : Ctx → LaneMask → OpBody) : Host.Outcome State Fault Refusal :=
  issue m f s fun _ t c e flag =>
    t.map fun y => if e == 0 then y.completedOp c id else y.startOp c m flag (body c e)

/-- The column of MRD and MWR (R173). -/
def tileColumn (w : Warp) (f : Fields) : Nat := (bScalar w f .zero).toNat % 64

/-- MZERO (R195). -/
def execMzero (f : Fields) (s : State) : Host.Outcome State Fault Refusal :=
  tileOp .mzero f s fun _ e => .tileZero f.d.toNat e

/-- MRD (R195). -/
def execMrd (f : Fields) (s : State) : Host.Outcome State Fault Refusal :=
  tileOp .mrd f s fun c e => .tileRead f.d.toNat f.a.toNat (tileColumn c.w f) e

/-- MWR (R195). -/
def execMwr (f : Fields) (s : State) : Host.Outcome State Fault Refusal :=
  tileOp .mwr f s fun c e => .tileWrite f.d.toNat (tileColumn c.w f) (e.lanes.map fun l => (l, c.w.elem f.a.toNat l))

/-- MCERTR (R195). -/
def execMcertr (f : Fields) (s : State) : Host.Outcome State Fault Refusal :=
  tileOp .mcertr f s fun _ _ => .tileCert f.d.toNat f.a.toNat

/-- MBYP at issue (R196): the checks of its format block. -/
def execMbyp (f : Fields) (s : State) : Host.Outcome State Fault Refusal :=
  issue .mbyp f s fun _ t c e flag =>
    if e == 0 then t.map fun y => y.completedOp c id
    else
      let fa := (c.w.scalar f.a.toNat).toNat
      let trap := fun (k : Cause) => t.raise c.ref c.z { cause := k, resume := e, addr := fa } false
      if fa % 32 != 0 then trap .misaligned
      else if c.b.bsmBytes < fa + 32 then trap .bsmRange
      else
        let x := FormatBlock.parse (loadView t.phys c.b c.w c.w.ops .bsm fa 32).1
        let wait := readsHeld t.phys t.sys c.b c.w.ops [(.bsm, fa, 32)]
        if wait.isSome then t.unlessHeld c wait t
        else if !x.valid then trap .mmaFormat
        else
          t.map fun y => y.startOp c .mbyp flag
            (.tileBypass f.d.toNat x.dfmt ((rndOf (BitVec.ofNat 3 x.drnd)).getD .rn) x.dsat e)

/-- An element of a tile rounded to a format and held as FP32 (R196). -/
def bypassElement (fmt : Nat) (r : Rnd) (sat : Bool) (x : Word) : Word × BitVec 5 :=
  let g := FloatFmt.ofCode fmt
  let y := g.convert { mode := r } sat false (fp32 x)
  (BitVec.ofNat 32 (FloatFmt.fp32.convert nearest false false (g.value y.1)).1, y.2)

/-- MBYP's effect on the tile and the flags. DESIGN CHOICE: a poisoned element stays poisoned, and its rounding sets no flag (log 146). -/
def Warp.bypassTile (w : Warp) (tile fmt : Nat) (r : Rnd) (sat : Bool) (e : LaneMask) : Warp :=
  let keys := e.lanes.flatMap fun i => (List.range 64).map fun j => 4096 * tile + 64 * i + j
  let vals := (keys.filter fun k => !NatSet.has w.tilePoison k).map fun k => (k, bypassElement fmt r sat (w.tiles.get k))
  let w1 : Warp := { w with tiles := Sparse.putAll w.tiles (vals.map fun v => (v.1, v.2.1)) }
  (w1.orFlags (vals.foldl (fun f v => f ||| v.2.2) 0)).setTile tile fun c =>
    { c.add (convBound fmt r) with bypf := BitVec.ofNat 3 fmt }

/-- MZERO's effect. -/
def Warp.zeroTile (w : Warp) (tile : Nat) (e : LaneMask) : Warp :=
  let keys := e.lanes.flatMap fun i => (List.range 64).map fun j => 4096 * tile + 64 * i + j
  let w1 : Warp := { w with tiles := keys.foldl (fun m k => m.put k 0) w.tiles
                            tilePoison := keys.foldl NatSet.del w.tilePoison }
  w1.setTile tile fun c => { bypf := 7, tc := if e == BitVec.allOnes 64 then 0x03FF else c.tc }

/-- MWR's effect. -/
def Warp.writeTile (w : Warp) (tile col : Nat) (vals : List (Nat × Word)) : Warp :=
  let key := fun (l : Nat) => 4096 * tile + 64 * l + col
  let w1 : Warp := { w with tiles := Sparse.putAll w.tiles (vals.map fun v => (key v.1, v.2))
                            tilePoison := vals.foldl (fun p v => NatSet.del p (key v.1)) w.tilePoison }
  w1.setTile tile fun _ => { tc := 0, bypf := 7 }

/-- MRD's effect: a poisoned element carries its poison. -/
def Warp.readTile (w : Warp) (dst tile col : Nat) (e : LaneMask) : Warp :=
  e.lanes.foldl (fun v l =>
    let key := 4096 * tile + 64 * l + col
    if NatSet.has w.tilePoison key then v.spoilElem dst l else v.setElem dst l (w.tiles.get key)) w

/-- TILE_OP_COMPLETION (R195, R196): MZERO, MWR, MRD, MCERTR or MBYP is done, after every earlier matrix instruction of the
warp on the tile. -/
def execTileOpCompletion (r : WarpRef) (id : Nat) (s : State) : Host.Outcome State Fault Refusal :=
  work s fun _ t =>
    match t.sys.warp r with
    | none => t
    | some w =>
      match w.op id with
      | none => t
      | some x =>
        if !w.tileTurn x then t
        else
          match x.body with
          | .tileZero tile e => t.finish r id fun w => w.zeroTile tile e
          | .tileWrite tile col vals => t.finish r id fun w => w.writeTile tile col vals
          | .tileRead dst tile col e => t.finish r id fun w => w.readTile dst tile col e
          | .tileCert dst tile => t.finish r id fun w => w.setScalar dst ((w.tileCtl.getD tile {}).tc.setWidth 64)
          | .tileBypass tile fmt rnd sat e => t.finish r id fun w => w.bypassTile tile fmt rnd sat e
          | _ => t

end Sys2Proof.Machine
end

