-- ==== Sys2Proof/Machine/Engine.lean ====
section
/-! DEFINITION. Job cards and the engines that carry them (R174 to R185, R197, R283 to R288, R292 to R295): the checks of
KICK and MDRAIN, the kick register, the Dependency Checker, the chunks of the Copy Engine with their arrivals, suspension,
budgets and the slew window. Element sizes and addresses are in half-bytes, so that E2M1 elements are like any other. -/

namespace Sys2Proof.Machine

/-! ## Cards and shape records -/

/-- A job card with its shape record (R174, R177). -/
structure JobCard where
  op    : Nat
  bar   : Nat
  srcSp : Nat
  dstSp : Nat
  cfs   : Nat
  cfd   : Nat
  rnd   : Nat
  sat   : Bool
  shapeAt : Nat
  next  : Nat
  nv    : Bool
  src   : Nat
  dst   : Nat
  seed  : Word
  fillv : Nat
  /-- RD0, RD1, WR0, WR1 -/
  ranges : List Nat
  nd    : Nat
  esz   : Nat
  idx   : Nat
  ext   : List Nat
  clip  : List Nat
  /-- source and destination byte strides; dimension 0 has none -/
  ss    : List Int
  ds    : List Int
  reserved : Bool
deriving DecidableEq, Repr

/-- The fields of a card and of its shape record. -/
def JobCard.parse (card shape : Nat) : JobCard :=
  let stride := fun i => signedNat 32 (natBits shape (192 + 32 * i + 31) (192 + 32 * i))
  let sixteen := fun (base i : Nat) => natBits shape (base + 16 * i + 15) (base + 16 * i)
  { op := natBits card 3 0, bar := natBits card 7 4, srcSp := natBits card 10 8, dstSp := natBits card 13 11,
    cfs := natBits card 16 14, cfd := natBits card 19 17, rnd := natBits card 22 20, sat := natBit card 23,
    shapeAt := 64 * natBits card 46 32, next := 64 * natBits card 62 48, nv := natBit card 63,
    src := natBits card 115 64, dst := natBits card 179 128, seed := BitVec.ofNat 32 (natBits card 223 192),
    fillv := natBits card 255 224, ranges := (List.range 4).map fun i => natBits card (256 + 64 * i + 63) (256 + 64 * i),
    nd := natBits shape 1 0, esz := natBits shape 3 2, idx := natBits shape 52 32,
    ext := (List.range 4).map (sixteen 64), clip := (List.range 4).map (sixteen 128),
    ss := [0, stride 0, stride 1, stride 2], ds := [0, stride 3, stride 4, stride 5],
    reserved := !cardReservedOk card || !shapeReservedOk shape }

/-- The card of a card slot. -/
def Card.job (c : Card) : JobCard := .parse c.card c.shape

/-- GATHER_ROWS or SCATTER_ADD. -/
def JobCard.indexed (j : JobCard) : Bool := j.op == 2 || j.op == 3

/-- SCATTER_ADD or TILE_ADD: the destination is read and written. -/
def JobCard.adds (j : JobCard) : Bool := j.op == 3 || j.op == 6

/-- Does the op read a source in memory? -/
def JobCard.reads (j : JobCard) : Bool := 1 ≤ j.op && j.op ≤ 4

/-- The source element size in half-bytes (R177, R178); a tile element is FP32. -/
def JobCard.srcSize (j : JobCard) : Nat :=
  match j.op with
  | 1 | 2 => 2 * 2 ^ j.esz
  | 3 | 4 => (FloatFmt.ofCode j.cfs).bits / 4
  | _ => 8

/-- The destination element size in half-bytes, for the destination format code. -/
def JobCard.dstSize (j : JobCard) (fmt : Nat) : Nat :=
  match j.op with
  | 1 | 2 | 7 => 2 * 2 ^ j.esz
  | 3 => 8
  | _ => (FloatFmt.ofCode fmt).bits / 4

/-- Live positions of dimension k (R178). -/
def JobCard.live (j : JobCard) (k : Nat) : Nat :=
  if j.nd < k then 1
  else
    let c := j.clip.getD k 0
    if c == 0 then j.ext.getD k 0 else c

/-! ## The checks of KICK and MDRAIN -/

/-- The combination of OP, spaces and conversion fields (R175), for KICK or MDRAIN. -/
def JobCard.opOk (j : JobCard) (drain : Bool) : Bool :=
  let three := fun sp => 1 ≤ sp && sp ≤ 3
  let plain := j.cfs == 0 && j.cfd == 0 && j.rnd == 0 && !j.sat
  match j.op with
  | 1 => !drain && three j.srcSp && three j.dstSp && plain
  | 2 => !drain && (j.srcSp == 3 || j.srcSp == 2) && (j.dstSp == 1 || j.dstSp == 2) && plain
  | 3 => !drain && (j.srcSp == 1 || j.srcSp == 2) && (j.dstSp == 2 || j.dstSp == 3) && j.cfd == 0
  | 4 => !drain && three j.srcSp && three j.dstSp && (j.cfs != j.cfd || j.cfd == 7)
  | 5 => drain && j.srcSp == 0 && three j.dstSp && j.cfs == 0
  | 6 => drain && j.srcSp == 0 && three j.dstSp && j.cfs == 0 && j.cfd != 7
  | 7 => !drain && j.srcSp == 0 && three j.dstSp && plain
  | _ => false

/-- The fields of R174, R176, R177 and R179 that stand by themselves. -/
def JobCard.fieldsOk (j : JobCard) (fmt : Nat) : Bool :=
  let dims := (List.range 4).all fun k =>
    let e := j.ext.getD k 0
    let c := j.clip.getD k 0
    if j.nd < k then e == 0 && c == 0 && j.ss.getD k 0 == 0 && j.ds.getD k 0 == 0 else 1 ≤ e && c ≤ e
  let tile := j.op == 5 || j.op == 6
  let half := (j.reads && j.srcSize == 1) || j.dstSize fmt == 1
  !j.reserved && !(10 ≤ j.bar && j.bar ≤ 14) && j.srcSp ≤ 3 && j.dstSp ≤ 3 && j.cfs ≤ 5 && j.cfd != 6 && j.rnd ≤ 5 &&
  (j.srcSp != 0 || j.src == 0) && j.ranges.all (fun r => natBits r 2 0 ≤ 3 && (natBits r 2 0 == 0 || natBits r 17 4 != 0)) &&
  dims && (j.esz == 0 || j.op == 1 || j.op == 2 || j.op == 7) && j.idx % 4 == 0 && (j.idx == 0 || j.indexed) &&
  (!tile || (j.nd == 1 && j.ext.getD 0 0 == 64 && j.ext.getD 1 0 == 64 && j.ss.all (· == 0))) &&
  (!half || (j.ext.getD 0 0 % 2 == 0 && j.clip.getD 0 0 % 2 == 0))

/-- The lowest and highest half-byte that the live elements of an operand reach (R180); `rows` is the least and the greatest
row position. -/
def JobCard.span (j : JobCard) (base size : Nat) (st : List Int) (rows : Int × Int) : Int × Int :=
  let dim := fun (acc : Int × Int) (k : Nat) =>
    let r : Int × Int := if k == 1 then rows else (0, (j.live k : Int) - 1)
    let x := 2 * st.getD k 0 * r.1
    let y := 2 * st.getD k 0 * r.2
    (acc.1 + min x y, acc.2 + max x y)
  let lo : Int := 2 * base
  [1, 2, 3].foldl dim (lo, lo + (j.live 0 : Int) * size - 1)

/-- The greatest half-byte address of a space, plus one. -/
def spaceLimit (b : Block) (sp : Nat) : Int :=
  match sp with
  | 1 => 2 * b.bsmBytes
  | 2 => 2 * 2 ^ 32
  | 3 => 2 * 2 ^ 52
  | _ => 0

/-- An operand within its space and aligned to its element size (R180). -/
def JobCard.operandOk (j : JobCard) (b : Block) (sp base size : Nat) (st : List Int) (rows : Int × Int) : Bool :=
  let s := j.span base size st rows
  let bytes := size / 2
  0 ≤ s.1 && s.2 < spaceLimit b sp &&
  (bytes == 0 || (base % bytes == 0 && (List.range (j.nd + 1)).all fun k => st.getD k 0 % (bytes : Int) == 0))

/-- The index list at KICK: its entries for the live rows. -/
def JobCard.indexes (j : JobCard) (b : Block) : List Nat :=
  (List.range (j.live 1)).map fun i => bytesToNat ((List.range 4).map fun n => b.bsm.get (j.idx + 4 * i + n))

/-- The rows of source and destination (R178): by the index list where the op takes one. -/
def JobCard.rowSpan (j : JobCard) (b : Block) (byIndex : Bool) : Int × Int :=
  if byIndex then
    match j.indexes b with
    | [] => (0, 0)
    | x :: xs => ((xs.foldl min x : Nat), (xs.foldl max x : Nat))
  else (0, (j.live 1 : Int) - 1)

/-- Every BAD_CARD condition of R180 (c) fails. -/
def JobCard.ok (j : JobCard) (b : Block) (drain : Bool) (fmt : Nat) : Bool :=
  j.opOk drain && j.fieldsOk fmt && !(drain && j.nv) &&
  (!j.indexed || j.idx + 4 * j.live 1 ≤ b.bsmBytes) &&
  (!j.reads || j.operandOk b j.srcSp j.src j.srcSize j.ss (j.rowSpan b (j.op == 2))) &&
  j.operandOk b j.dstSp j.dst (j.dstSize fmt) j.ds (j.rowSpan b (j.op == 3))

/-- Does the card write main memory, or the scratchpad outside the block's drawer (R180)? -/
def JobCard.outside (j : JobCard) (b : Block) (fmt : Nat) : Bool :=
  let s := j.span j.dst (j.dstSize fmt) j.ds (j.rowSpan b (j.op == 3))
  j.dstSp == 3 || (j.dstSp == 2 && !(2 * (b.drawer : Int) ≤ s.1 && s.2 < 2 * ((b.drawer : Int) + b.drawerSize)))

/-- 64 bytes of a block's BSM as a number. -/
def bsmLine (b : Block) (a : Nat) : Nat := bytesToNat ((List.range 64).map fun i => b.bsm.get (a + i))

/-- The destination format fixed at KICK or MDRAIN (R181). -/
def JobCard.format (j : JobCard) (b : Block) (tol : BitVec 16) : Nat :=
  if j.cfd == 7 then autoConvert b tol.toNat ((rndOf (BitVec.ofNat 3 j.rnd)).getD .rn) else j.cfd

/-- What a chain's cards have in common: the block, the warp's rank, TOL, RNGKEY and the scope read at issue. -/
def Card.blank (c : Ctx) (scope : Nat) : Card :=
  { id := 0, block := c.b.id, rank := c.w.rank, addr := 0, card := 0, shape := 0, tol := c.w.tol, rngkey := c.w.rngkey, fmt := 0,
    scope := scope, asid := c.b.asid, drain := none }

/-- The chain at an address (R180): its cards in order, or the first failure with the failing card's address. DESIGN CHOICE (log 162): of a
seventeenth card the address is reported, and its own checks are not made. -/
def readChain (c : Ctx) (drain : Bool) (scope : Nat) : Nat → Nat → Except (Cause × Nat) (List Card)
  | 0, a => .error (.badCard, a)
  | fuel + 1, a =>
    if a % 64 != 0 then .error (.misaligned, a)
    else if c.b.bsmBytes < a + 64 then .error (.bsmRange, a)
    else
      let card := bsmLine c.b a
      let at_ := 64 * natBits card 46 32
      if c.b.bsmBytes < at_ + 64 then .error (.bsmRange, a)
      else
        let shape := bsmLine c.b at_
        let j := JobCard.parse card shape
        let fmt := j.format c.b c.w.tol
        if !j.ok c.b drain fmt then .error (.badCard, a)
        else
          let x : Card := { Card.blank c scope with addr := a, card := card, shape := shape, fmt := fmt }
          if !j.nv then .ok [x]
          else
            match readChain c drain scope fuel j.next with
            | .ok rest => .ok (x :: rest)
            | .error e => .error e

/-- Fresh numbers for the cards of a chain. -/
def Sys.numberCards (s : Sys) : List Card → List Card × Sys
  | [] => ([], s)
  | x :: xs =>
    let (id, s1) := s.next
    let (ys, s2) := s1.numberCards xs
    ({ x with id := id } :: ys, s2)

/-- A checked chain put into the kick register; its instruction is outstanding until the last card has entered. -/
def Sys.startChain (s : Sys) (c : Ctx) (m : Mnem) (flag : Option Nat) (cards : List Card) : Sys :=
  let effect := cards.any fun x => x.job.outside c.b x.fmt
  let (ys, s1) := (s.setEffect c.b.id effect).numberCards cards
  let op := s1.fresh
  (s1.startOp c m flag .kick).setCore c.b.coreRef fun k =>
    { k with kick := some { warp := c.ref, op := op, cards := ys }, kickAt := some (s.tower c.b.tower).clock.toNat }

/-- Does the kick register take no chain of this slice now (R283 (a) to (d)): it is occupied, it has taken a chain in this cycle, or another
slice that waits comes first? -/
def Sys.kickBusy (s : Sys) (c : Ctx) : Bool :=
  let k := s.core c.b.coreRef
  k.kick.isSome || k.kickAt == some (s.tower c.b.tower).clock.toNat || !s.sliceTurn c.b.coreRef .kickRegister c.w.slice

/-- KICK and MDRAIN share their waits (R180 (a), R283) and the traps of a failing card. -/
def chainOp (m : Mnem) (f : Fields) (s : State) (wait : Sys → Ctx → Option Hold) (drain : Bool)
    (snap : Ctx → Option (Sparse 32 × NatSet)) : Host.Outcome State Fault Refusal :=
  issue m f s fun _ t c e flag =>
    if !c.w.drained then t.map fun y => y.hold c .release
    else if t.sys.kickBusy c then t.map fun y => y.hold c .kickRegister
    else
      match wait t.sys c with
      | some h => t.map fun y => y.hold c h
      | none =>
        match readChain c drain f.scopeCode 16 (c.w.scalar f.a.toNat).toNat with
        | .error x => t.raise c.ref c.z { cause := x.1, resume := e, addr := x.2 } false
        | .ok cards => t.map fun y => y.startChain c m flag (cards.map fun x => { x with drain := snap c })

/-- KICK (R180). -/
def execKick (f : Fields) (s : State) : Host.Outcome State Fault Refusal :=
  chainOp .kick f s (fun _ _ => none) false fun _ => none

/-- The drain buffers in use on a Matrix Unit (R292 (b)): the cards of its slice that hold a snapshot, in the checker or in the
kick register. -/
def drainBuffers (s : Sys) (c : Ctx) : Nat :=
  let k := s.core c.b.coreRef
  let held := k.cards ++ (match k.kick with | some q => q.cards | none => [])
  (held.filter fun x => x.drain.isSome &&
    (match s.warp { block := x.block, rank := x.rank } with | some w => w.slice == c.w.slice | none => false)).length

/-- The snapshot of a tile (R197), with its poisoned elements. -/
def tileSnapshot (w : Warp) (tile : Nat) : Sparse 32 × NatSet :=
  let keys := List.range 4096
  (Sparse.putAll [] (keys.map fun k => (k, w.tiles.get (4096 * tile + k))),
   keys.filter fun k => NatSet.has w.tilePoison (4096 * tile + k))

/-- MDRAIN (R197): after every earlier matrix instruction on the tile, and with a drain buffer, the snapshot is taken. DESIGN
CHOICE: both waits stand at issue. -/
def execMdrain (f : Fields) (s : State) : Host.Outcome State Fault Refusal :=
  chainOp .mdrain f s
    (fun y c =>
      if c.w.ops.any (fun x => x.tiles.contains f.d.toNat) || 2 ≤ drainBuffers y c then some .drainBuffer else none)
    true fun c => some (tileSnapshot c.w f.d.toNat)

/-! ## The kick register and the Dependency Checker -/

/-- A footprint range (R179): its space, its block if the space is the BSM, and its bytes. -/
def cardRanges (c : Card) (write : Bool) : List (Nat × Nat × Nat × Nat) :=
  let rs := c.job.ranges
  let xs := if write then rs.drop 2 else rs.take 2
  (xs.filter fun r => natBits r 2 0 != 0).map fun r =>
    let sp := natBits r 2 0
    (sp, if sp == 1 then c.block else 0, 64 * natBits r 63 18, natBits r 17 4 * (if natBit r 3 then 65536 else 64))

/-- Do two lists of ranges overlap (R179)? -/
def rangesOverlap (xs ys : List (Nat × Nat × Nat × Nat)) : Bool :=
  xs.any fun x => ys.any fun y => x.1 == y.1 && x.2.1 == y.2.1 && rangesMeet x.2.2.1 x.2.2.2 y.2.2.1 y.2.2.2

/-- A later card waits for an earlier one (R179). -/
def Card.waitsFor (later earlier : Card) : Bool :=
  rangesOverlap (cardRanges later false) (cardRanges earlier true) ||
  rangesOverlap (cardRanges later true) (cardRanges earlier false) ||
  rangesOverlap (cardRanges later true) (cardRanges earlier true)

/-- The cards of a core that stand before a new one: those in its checker, and those of blocks saved from the core, which resume. -/
def Sys.earlierCards (s : Sys) (r : CoreRef) : List Card :=
  (s.core r).cards ++ ((s.tower r.tower).saved.filter fun x => x.block.core == r.core).flatMap SavedBlock.cards

/-- Every card that has not completed. -/
def Sys.allCards (s : Sys) : List Card :=
  s.towers.flatMap fun t =>
    (t.cores.flatMap fun k => k.cards ++ (match k.kick with | some q => q.cards | none => [])) ++ t.saved.flatMap SavedBlock.cards

/-- The cards that wait, one behind another, for some cards. -/
def Sys.waiters (s : Sys) : Nat → List Nat → List Nat
  | 0, ids => ids
  | fuel + 1, ids =>
    s.waiters fuel (ids ++ ((s.allCards.filter fun x => !ids.contains x.id && x.behind.any ids.contains).map Card.id))

/-- The cards of a core that stand before a card which enters its checker, or comes back to it: those that it overlaps, but for those that wait
for it already (R179, R284). DEDUCED: a card whose block has been saved in the meantime, and has not completed, stands before it still
(R225 (b), R227, log 123). -/
def Sys.cardsBefore (s : Sys) (r : CoreRef) (c : Card) : List Nat :=
  let mine := s.waiters s.allCards.length [c.id]
  ((s.earlierCards r).filter fun z => c.waitsFor z && !mine.contains z.id).map Card.id

/-- A card as it enters the checker. -/
def Sys.enteringCard (s : Sys) (r : CoreRef) (c : Card) : Card := { c with behind := s.cardsBefore r c }

/-- Is a card blocked (R284): has an earlier card that it overlaps not completed? -/
def Sys.cardBlocked (s : Sys) (c : Card) : Bool := !c.behind.isEmpty && s.allCards.any fun x => c.behind.contains x.id

/-- May a block's cards be started: it is resident and not stopping? -/
def Sys.mayRun (s : Sys) (c : Card) : Bool := match s.block c.block with | some b => !b.stopping | none => false

/-- The card that the Copy Engine of a core starts next (R285): the earliest that waits, is not blocked (R284), and whose block is not
stopping. -/
def Sys.nextCard (s : Sys) (r : CoreRef) : Option Card :=
  (s.core r).cards.find? fun c => c.state == .waiting && s.mayRun c && !s.cardBlocked c

/-- CARD_ENTER_CHECKER (R283): the next card of the chain enters while the checker has room; with the last one the KICK or
MDRAIN completes. -/
def execCardEnterChecker (r : CoreRef) (s : State) : Host.Outcome State Fault Refusal :=
  work s fun _ t =>
    let k := t.sys.core r
    match k.kick with
    | none => t
    | some q =>
      if 64 ≤ k.cards.length then t
      else
        match q.cards with
        | [] => (t.map fun s => s.setCore r fun k => { k with kick := none }).finish q.warp q.op fun w => w
        | x :: rest =>
          let t1 := t.map fun s => s.setCore r fun k =>
            { k with cards := k.cards ++ [s.enteringCard r x], kick := if rest.isEmpty then none else some { q with cards := rest } }
          if rest.isEmpty then t1.finish q.warp q.op fun w => w else t1

/-- A card changed. -/
def Sys.setCard (s : Sys) (r : CoreRef) (id : Nat) (f : Card → Card) : Sys :=
  s.setCore r fun k => { k with cards := updateWhere (fun x => x.id == id) f k.cards }

/-- CARD_START (R285): at most 8 cards run. -/
def execCardStart (r : CoreRef) (s : State) : Host.Outcome State Fault Refusal :=
  keepMemory s fun _ y =>
    if 8 ≤ ((y.core r).cards.filter fun c => c.state == .running).length then y
    else
      match y.nextCard r with
      | none => y
      | some c => y.setCard r c.id fun x => { x with state := .running }

/-! ## Elements -/

/-- The indexes of a linear index, dimension 0 first (R178). -/
def elementIndexes (ext : List Nat) (nd n : Nat) : List Nat :=
  match nd, ext with
  | 0, _ => [n]
  | m + 1, e :: rest => n % e :: elementIndexes rest m (n / e)
  | _ + 1, [] => [n]

/-- Is an element live? -/
def JobCard.isLive (j : JobCard) (ix : List Nat) : Bool :=
  ix.zipIdx.all fun x => (j.clip.getD x.2 0 == 0 || x.1 < j.clip.getD x.2 0)

/-- The number of elements. -/
def JobCard.total (j : JobCard) : Nat := (List.range (j.nd + 1)).foldl (fun n k => n * j.ext.getD k 0) 1

/-- The linear index of indexes, dimension 0 first. -/
def linearIndex (ext ix : List Nat) : Nat :=
  match ext, ix with
  | e :: es, i :: is => i + e * linearIndex es is
  | _, _ => 0

/-- Indexes moved on to the next live element in linear order, from dimension 0 up: a dimension that has passed its last
live position goes back to 0 and carries. -/
def nextLive (live : List Nat) (ix : List Nat) : Option (List Nat) :=
  match live, ix with
  | l :: ls, i :: is =>
    if i + 1 < l then some ((i + 1) :: is)
    else (nextLive ls is).map fun js => 0 :: js
  | _, _ => none

/-- The first live element at or after indexes that may be clipped. -/
def liveFrom (live : List Nat) (ix : List Nat) : Option (List Nat) :=
  match live, ix with
  | l :: ls, i :: is =>
    match liveFrom ls is with
    | none => none
    | some js =>
      if js != is then some (0 :: js)
      else if i < l then some (i :: is)
      else (nextLive ls is).map fun ks => 0 :: ks
  | _, _ => some []

/-- The live extents of the dimensions in use. -/
def JobCard.lives (j : JobCard) : List Nat := (List.range (j.nd + 1)).map j.live

/-- The linear index of the first live element at or after a linear index; none past the end. -/
def JobCard.liveAt (j : JobCard) (n : Nat) : Option Nat :=
  if j.total ≤ n then none
  else (liveFrom j.lives (elementIndexes j.ext j.nd n)).map (linearIndex j.ext)

/-- Why a card cannot perform its element: held for a memory that is not ready or for room in the miss queue (R239 (e)), a page not present, an unmapped window page,
or an invalid access (R183). -/
inductive CardStop where
  | notReady
  | notPresent (va : Nat) (write : Bool)
  | unmapped (offset : Nat)
  | invalid (addr : Nat)
  | evicted (addr : Nat)
deriving DecidableEq, Repr

/-- Where an element lies. -/
inductive Place where
  | bsm (a : Nat)
  | phys (pa : Nat)
deriving DecidableEq, Repr

/-- The place of an element at a byte address of a space (R176, R183, R230, R237). -/
def cardPlace (p : Phys) (s : Sys) (b : Block) (c : Card) (sp : Nat) (a : Int) (n : Nat) (rd wr : Bool) : Except CardStop Place :=
  if a < 0 then .error (.invalid (a % 2 ^ 52).toNat)
  else
    let x := a.toNat
    match sp with
    | 1 => if x + n ≤ b.bsmBytes then .ok (.bsm x) else .error (.invalid x)
    | 2 =>
      if 2 ^ 32 < x + n then .error (.invalid x)
      else if (cachedWindow s b.coreRef c.asid (x / 65536)).isNone && !missFree s b.coreRef then .error .notReady
      else match translateWindow p s b.coreRef c.asid x with
        | some pa => if s.memReady pa then .ok (.phys pa) else .error .notReady
        | none => .error (.unmapped x)
    | _ =>
      if 2 ^ 52 < x + n then .error (.invalid x)
      else if (cachedPage s b.coreRef c.asid x).isNone && !missFree s b.coreRef then .error .notReady
      else match translate p s b.coreRef c.asid x rd wr with
        | .held => .error .notReady
        | .ok pa =>
          match s.reach pa with
          | .ok => .ok (.phys pa)
          | .held => .error .notReady
          | .invalid => .error (.invalid x)
          | .evicted => .error (.evicted x)
        | .notPresent => .error (.notPresent x wr)
        | _ => .error (.invalid x)

/-- The source and destination half-byte addresses of an element (R178), by the index list as it stands now. -/
def JobCard.addresses (j : JobCard) (b : Block) (fmt : Nat) (ix : List Nat) : Int × Int :=
  let i := fun k => ix.getD k 0
  let index := bytesToNat ((List.range 4).map fun n => b.bsm.get (j.idx + 4 * i 1 + n))
  let row := fun (by_ : Bool) => if by_ then index else i 1
  let at_ := fun (base size : Nat) (st : List Int) (r : Nat) =>
    2 * (base : Int) + (i 0 * size : Nat) + 2 * ((r : Int) * st.getD 1 0 + (i 2 : Int) * st.getD 2 0 + (i 3 : Int) * st.getD 3 0)
  (at_ j.src j.srcSize j.ss (row (j.op == 2)), at_ j.dst (j.dstSize fmt) j.ds (row (j.op == 3)))

/-- Bytes that a half-byte size takes. -/
def sizeBytes (nibs : Nat) : Nat := max 1 (nibs / 2)

/-- An element read at its place: its bits, and whether it takes a byte from a poisoned unit. -/
def readPlace (p : Phys) (s : Sys) (b : Block) (x : Place) (addr : Int) (nibs : Nat) : Nat × Bool :=
  let n := sizeBytes nibs
  let v := match x with
    | .bsm a => (bytesToNat ((List.range n).map fun i => b.bsm.get (a + i)),
                 (List.range n).any fun i => NatSet.has b.bsmPoison (a + i - (a + i) % 4))
    | .phys pa => (p.num pa n, p.anyPoison pa n || s.hostBad pa n)
  if nibs == 1 then (if addr % 2 == 0 then v.1 % 16 else v.1 / 16, v.2) else v

namespace Tx

variable {o : Phys}

/-- An element written at its place (R244 (d), R245): a poisoned element marks its whole unit. DESIGN CHOICE: every agent sees the write at once,
also one beyond the KICK's scope, which may see it stale (R224 (d), log 140). -/
def writePlace (t : Tx o) (c : Card) (x : Place) (addr : Int) (nibs v : Nat) (bad : Bool) : Tx o :=
  match t.sys.block c.block with
  | none => t
  | some b =>
    let r : WarpRef := { block := c.block, rank := c.rank }
    let n := sizeBytes nibs
    let old := (readPlace t.phys t.sys b x 0 2).1
    let data := if nibs == 1 then (if addr % 2 == 0 then old / 16 * 16 + v % 16 else old % 16 + v % 16 * 16) else v
    match x with
    | .bsm a =>
      if bad then
        (List.range n).foldl (fun t i =>
          let u := a + i - (a + i) % 4
          t.putUnit r .bsm u ((List.range 4).map fun k => b.bsm.get (u + k), true)) t
      else
        (unitBases 4 [(a, n, BitVec.ofNat 64 data)]).foldl (fun t u =>
          match t.sys.block c.block with
          | none => t
          | some b =>
            let home := ((List.range 4).map fun k => b.bsm.get (u + k), NatSet.has b.bsmPoison u)
            t.putUnit r .bsm u (unitAfter u 4 home [(a, n, BitVec.ofNat 64 data)])) t
    | .phys pa => if bad then t.poisonBytes pa n else t.store pa (natToBytes n data)

end Tx

/-- The rounding of a card's conversion of element n (R181). -/
def Card.rounding (c : Card) (j : JobCard) (n : Nat) : Rounding :=
  match rndOf (BitVec.ofNat 3 j.rnd) with
  | some .sr => { mode := .sr, draw := srDraw c.rngkey j.seed n }
  | some m => { mode := m }
  | none => {}

/-- The side on which a place lies, and its address there: a BSM offset, or a physical address. -/
def Place.byteAt (x : Place) (i : Nat) : Bool × Nat :=
  match x with
  | .bsm a => (true, a + i)
  | .phys pa => (false, pa + i)

/-- May a card's source and destination share bytes (R184): both in the BSM, or both in memory, through whatever space and whatever it
declares? -/
def JobCard.mayShare (j : JobCard) : Bool := j.reads && ((j.srcSp == 1) == (j.dstSp == 1))

/-- Is a byte of the BSM, or of memory, in a poisoned unit or in a bad host completion? -/
def badByte (p : Phys) (s : Sys) (b : Block) (bsm : Bool) (a : Nat) : Bool :=
  if bsm then NatSet.has b.bsmPoison (a - a % 4) else p.poisoned a || s.hostBad a 1

/-- The bytes that the card is about to write, noted as they stand (R184), with their poison; the write of a poisoned element poisons its units
whole. -/
def noteWrite (p : Phys) (s : Sys) (b : Block) (x : Place) (nibs : Nat) (bad : Bool) : Noted :=
  let n := sizeBytes nibs
  let (bsm, a) := x.byteAt 0
  let unit := fun (k : Nat) => k - k % (if bsm then 4 else poisonUnit a)
  let first := if bad then unit a else a
  let last := if bad then unit (a + n - 1) + (if bsm then 4 else poisonUnit a) else a + n
  { bsm := bsm, addr := a, bytes := natToBytes n (readPlace p s b x 0 (2 * n)).1,
    badAt := first, bad := (List.range (last - first)).map fun i => badByte p s b bsm (first + i) }

/-- The bytes of a place, each with its poison, as they were before a noted write: what it changed as it found it, the rest as it is. -/
def undoWrite (bsm : Bool) (a : Nat) (bytes : List (Byte × Bool)) (w : Noted) : List (Byte × Bool) :=
  if w.bsm != bsm then bytes
  else bytes.zipIdx.map fun x =>
    let k := a + x.2
    (if w.addr ≤ k then w.bytes.getD (k - w.addr) x.1.1 else x.1.1, if w.badAt ≤ k then w.bad.getD (k - w.badAt) x.1.2 else x.1.2)

/-- What a place has held since the card began, newest first: as it stands, and as it was before each noted write that reached it; the writes
are given newest first. -/
def versions (bsm : Bool) (a : Nat) (bytes : List (Byte × Bool)) : List Noted → List (List (Byte × Bool))
  | [] => [bytes]
  | w :: ws =>
    if w.bsm == bsm && rangesMeet a bytes.length w.badAt w.bad.length then bytes :: versions bsm a (undoWrite bsm a bytes w) ws
    else versions bsm a bytes ws

/-- One of the values of a list: which, is a free choice (R184); of one value there is none. -/
def chooseVersion (xs : List (List (Byte × Bool))) (choice : Nat) : List (Byte × Bool) :=
  match xs with
  | [x] => x
  | _ => xs.getD (choice % xs.length) []

/-- A source element: its bits, and whether it is poisoned. Where the card has written, the element as a whole reads its original value or one that
a write of the card has left in it, with the poison of that value, by a free choice for each element (R184, log 43). -/
def Card.source (c : Card) (p : Phys) (s : Sys) (b : Block) (x : Place) (addr : Int) (nibs : Nat) : Nat × Bool :=
  let n := sizeBytes nibs
  let (bsm, a) := x.byteAt 0
  let now := (natToBytes n (readPlace p s b x 0 (2 * n)).1).zipIdx.map fun y => (y.1, badByte p s b bsm (a + y.2))
  let chosen := chooseVersion (versions bsm a now c.before.reverse) (Config.freeNat s.free)
  let v := bytesToNat (chosen.map Prod.fst)
  (if nibs == 1 then (if addr % 2 == 0 then v % 16 else v / 16) else v, chosen.any Prod.snd)

/-- An element performed: the state after it, its flags, and the bytes that the card has noted. -/
structure ElementDone (o : Phys) where
  tx     : Tx o
  flags  : BitVec 5 := 0
  before : List Noted

/-- A bad host completion that an element reads, at its source or at a destination that it adds to, is logged (R245, R303). -/
def Card.noteHost (c : Card) (s : Sys) (b : Block) (j : JobCard) (ix : List Nat) (p : Phys) : Sys :=
  let (sa, da) := j.addresses b c.fmt ix
  let note := fun (s : Sys) (sp : Nat) (a : Int) (nibs : Nat) (wr : Bool) =>
    match cardPlace p s b c sp (a / 2) (sizeBytes nibs) true wr with
    | .ok (.phys pa) => s.noteHost pa (sizeBytes nibs)
    | _ => s
  let s1 := if j.reads then note s j.srcSp sa j.srcSize false else s
  if j.adds then note s1 j.dstSp da (j.dstSize c.fmt) true else s1

/-- One element performed (R175, R178, R181, R183, R184): both ends are translated before anything is written. DESIGN CHOICE: the
destination is judged first, so that where both ends fail its fault is the element's (log 122). -/
def cardElement {o : Phys} (t : Tx o) (c : Card) (j : JobCard) (n : Nat) (ix : List Nat) : Except CardStop (ElementDone o) :=
  match t.sys.block c.block with
  | none => .error .notReady
  | some b =>
    let es := j.srcSize
    let ed := j.dstSize c.fmt
    let (sa, da) := j.addresses b c.fmt ix
    match cardPlace t.phys t.sys b c j.dstSp (da / 2) (sizeBytes ed) j.adds true with
    | .error e => .error e
    | .ok dp =>
      let src : Except CardStop (Nat × Bool) :=
        match j.op with
        | 7 => .ok ((if ed == 16 then j.fillv + j.fillv * 2 ^ 32 else j.fillv % 2 ^ (4 * ed)), false)
        | 5 | 6 =>
          let key := 64 * ix.getD 1 0 + ix.getD 0 0
          match c.drain with
          | some d => .ok ((d.1.get key).toNat, NatSet.has d.2 key)
          | none => .ok (0, false)
        | _ =>
          match cardPlace t.phys t.sys b c j.srcSp (sa / 2) (sizeBytes es) true false with
          | .error e => .error e
          | .ok sp => .ok (c.source t.phys t.sys b sp sa es)
      match src with
      | .error e => .error e
      | .ok (raw, bad) =>
        let t0 := (if c.before.isEmpty then t else t.map fun s => { s with free := s.free + 1 }).upd fun p s => c.noteHost s b j ix p
        let done := fun (v : Nat) (bad : Bool) (fl : BitVec 5) =>
          (.ok { tx := t0.writePlace c dp da ed v bad, flags := fl,
                 before := if j.mayShare then c.before ++ [noteWrite t.phys t.sys b dp ed bad] else [] } : Except CardStop (ElementDone o))
        if bad then done 0 true 0
        else if j.op < 3 || 6 < j.op then done raw false 0
        else
          let r := c.rounding j n
          let value := (FloatFmt.ofCode (if j.op ≤ 4 then j.cfs else 0)).value raw
          let g := FloatFmt.ofCode c.fmt
          if !j.adds then
            let y := g.convert r j.sat false value
            done y.1 false y.2
          else
            let old := readPlace t.phys t.sys b dp da ed
            if old.2 then done 0 true 0
            else
              let x := sumNums (r.mode == .rd) [g.value old.1, value]
              let y := g.convert r j.sat false x.1
              done y.1 false (x.2 ||| y.2)

/-! ## Chunks -/

/-- The state of a chunk at work: the next element, the half-bytes written and the flags; how it ended. -/
structure ChunkRun (o : Phys) where
  tx    : Tx o
  next  : Nat
  nibs  : Nat
  flags : BitVec 5
  /-- the bytes that the card has noted (R184) -/
  before : List Noted
  /-- the block of the destination in which the chunk lies, once it has an element (R182) -/
  page  : Option Int
  /-- half-bytes that the elements performed have moved to and from the memory side (R294) -/
  moved : Nat := 0
  stop  : Option CardStop := none
  /-- the chunk's last element is written -/
  full  : Bool := false
  /-- no live element is left -/
  done  : Bool := false

/-- The destination page translations of an element fill the caches, so that the elements after it hit. -/
def Tx.fillElement {o : Phys} (t : Tx o) (c : Card) (j : JobCard) (ix : List Nat) : Tx o :=
  t.upd fun p s =>
    match s.block c.block with
    | none => s
    | some b =>
      let (sa, da) := j.addresses b c.fmt ix
      let fill := fun (s : Sys) (sp : Nat) (a : Int) =>
        if a < 0 then s
        else match sp with
          | 2 => fillWindow p s b.coreRef c.asid (a.toNat / 65536)
          | 3 => fillPage p s b.coreRef c.asid a.toNat
          | _ => s
      fill (if j.reads then fill s j.srcSp (sa / 2) else s) j.dstSp (da / 2)

/-- The half-bytes of an element's place that the budget counts (R294): those of a scratchpad, of first-tier and second-tier memory and of the
fabric. -/
def Place.counted (x : Place) (s : Sys) (nibs : Nat) : Nat :=
  match x with
  | .bsm _ => 0
  | .phys pa => if s.region pa == .host then 0 else nibs

/-- The half-bytes that an element moves to and from the memory side; none where its place is not reached. -/
def Card.elementMoves (c : Card) (j : JobCard) (p : Phys) (s : Sys) (b : Block) (ix : List Nat) : Nat :=
  let (sa, da) := j.addresses b c.fmt ix
  let side := fun (sp : Nat) (a : Int) (nibs : Nat) (wr : Bool) =>
    match cardPlace p s b c sp (a / 2) (sizeBytes nibs) (!wr || j.adds) wr with
    | .ok x => x.counted s nibs
    | .error _ => 0
  side j.dstSp da (j.dstSize c.fmt) true + (if j.reads then side j.srcSp sa j.srcSize false else 0)

/-- Elements in linear order, at most `fuel`, up to the end of the chunk (R182): the maximal run in one aligned 4 KiB block of the
destination. What the translations of an element that stops have read and logged (R238) stays, unless it is only held. -/
def runChunk {o : Phys} (c : Card) (j : JobCard) (ed : Nat) (fuel : Nat) (x : ChunkRun o) : ChunkRun o :=
  match j.liveAt x.next with
  | none => { x with done := true }
  | some n =>
    let ix := elementIndexes j.ext j.nd n
    match x.tx.sys.block c.block with
    | none => { x with stop := some .notReady }
    | some b =>
      let q := (j.addresses b c.fmt ix).2 / 8192
      if x.page.any fun p => p != q then { x with next := n, full := true }
      else
        match fuel with
        | 0 => { x with next := n }
        | fuel + 1 =>
          let t := x.tx.fillElement c j ix
          match cardElement t { c with before := x.before } j n ix with
          | .error e => { x with tx := if e == .notReady then x.tx else t, next := n, stop := some e }
          | .ok y => runChunk c j ed fuel
            { x with tx := y.tx, next := n + 1, nibs := x.nibs + ed, flags := x.flags ||| y.flags, before := y.before, page := some q,
                     moved := x.moved + c.elementMoves j t.phys t.sys b ix }

namespace Tx

variable {o : Phys}

/-- A card's access is invalid, declined or fails twice (R183): the kicking block is aborted with CARD_FAULT, FADDR the address
(R237). -/
def cardFault (t : Tx o) (c : Card) (addr : Nat) : Tx o := t.abortBlock c.block .cardFault c.rank 0 addr 0

/-- A card stops at an element (R183, R241, R242, R287). -/
def stopCard (t : Tx o) (r : CoreRef) (c : Card) (e : CardStop) : Tx o :=
  match e with
  | .notReady => t
  | .invalid a => t.cardFault c a
  | .evicted a => t.abortBlock c.block .memberEvicted c.rank 0 a 0
  | .notPresent va wr =>
    let slot := ((t.sys.core r).cards.findIdx fun x => x.id == c.id) % 64
    let place := r.tower * 2 ^ 19 + r.core * 2 ^ 20 + slot * 2 ^ 26
    match t.reportFault (.card r c.id) 0 place c.asid va wr .notPresent with
    | (t1, none) => t1.cardFault c va
    | (t1, some id) => t1.map fun s => s.setCard r c.id fun x => { x with state := .suspended, faultId := some id }
  | .unmapped off =>
    match t.sys.block c.block with
    | none => t
    | some b =>
      (t.map fun s => (s.setCard r c.id fun x => { x with state := .suspended, waitPage := some (off / 65536) }).logError
        (.suspended 0 c.asid off)).appendError b.queue
        Cause.windowFault.code 1 0 b.stage b.node.toNat c.rank 0 off 0

/-- An arrival of a card (R167, R182), and what it lets go on. -/
def cardArrive (t : Tx o) (c : Card) (j : JobCard) (nibs : Nat) : Tx o :=
  if j.bar == 15 then t else t.map fun s => s.arriveAt c.block j.bar ((nibs + 1) / 2)

end Tx

/-- The elements at most that a chunk's move writes. -/
def transferLimit (x : TransferOutcome) (all : Nat) : Nat :=
  match x with
  | .ok => all
  | .part n | .error n => min n all

/-- Has the card begun a chunk that it has not finished: an element of it is written, or its transfer has failed once (R288)? -/
def Card.inChunk (c : Card) : Bool := c.page.isSome || c.retry

/-- CARD_CHUNK (R182, R183, R285, R288): elements of the chunk, as many as the transfer brings or acknowledges; with its last element the
chunk's arrival, but the last chunk's, which waits for the write-back. A transfer error is retried once, for the elements that were not
acknowledged. The elements performed count as moved, in whole bytes of the move (R294); a move that the budget does not allow performs none of
them. DESIGN CHOICE: after a second error FADDR is the card's DST, for which R183 names no address (log 121). -/
def execCardChunk (r : CoreRef) (id : Nat) (transfer : TransferOutcome) (s : State) : Host.Outcome State Fault Refusal :=
  work s fun _ t =>
    match (t.sys.core r).cards.find? fun c => c.id == id with
    | none => t
    | some c =>
      match t.sys.block c.block with
      | none => t
      | some b =>
        let j := c.job
        let x := runChunk c j (j.dstSize c.fmt) (transferLimit transfer (j.total + 1))
          { tx := t, next := c.nextn, nibs := c.cnibs, flags := c.cflags, before := c.before, page := c.page }
        let moves := (x.moved + 1) / 2
        if c.state != .running || c.written || !t.sys.mayMove r moves || (b.stopping && !c.inChunk) then t
        else
          let save := fun (f : Card → Card) => x.tx.map fun s =>
            (s.setCard r id fun y =>
              f { y with nextn := x.next, cnibs := x.nibs, page := x.page, cflags := x.flags &&& ~~~flagDZ, before := x.before }).moved r moves
          let retried := fun (t : Tx _) => if c.retry then t.map fun s => s.transient (.chunk r) else t
          match x.stop with
          | some e => (save fun y => y).stopCard r c e
          | none =>
            if x.done then retried (save fun y => { y with written := true, retry := false })
            else if x.full then (retried (save fun y => { y with cnibs := 0, page := none, retry := false })).cardArrive c j x.nibs
            else match transfer with
              | .error _ =>
                if c.retry then ((save fun y => y).map fun s => s.logError (.failed (.chunk r))).cardFault c j.dst
                else save fun y => { y with retry := true }
              | _ => save fun y => y

/-- CARD_COMPLETE (R181, R182): CHOSEN and CFLAGS, then the last arrival; the card leaves the checker. -/
def execCardComplete (r : CoreRef) (id : Nat) (s : State) : Host.Outcome State Fault Refusal :=
  work s fun _ t =>
    match (t.sys.core r).cards.find? fun c => c.id == id with
    | none => t
    | some c =>
      if !c.written then t
      else
        let j := c.job
        let t1 := t.writePlace c (.bsm (c.addr + 3)) 0 2 (c.fmt % 8 + 8 * c.cflags.toNat) false
        let t2 := if c.cnibs == 0 then t1 else t1.cardArrive c j c.cnibs
        t2.map fun s => s.setCore r fun k => { k with cards := k.cards.filter fun x => x.id != id }

/-- What a page walk for a card finds (R237): at an element that is not present or not permitted the card stops; a translation
fills the caches. -/
def Tx.walkCard {o : Phys} (t : Tx o) (r : CoreRef) (id : Nat) : Tx o :=
  match (t.sys.core r).cards.find? fun c => c.id == id with
  | none => t
  | some c =>
    let j := c.job
    match c.state == .running, j.liveAt c.nextn, t.sys.block c.block with
    | true, some n, some b =>
      let ix := elementIndexes j.ext j.nd n
      let (sa, da) := j.addresses b c.fmt ix
      let t1 := t.fillElement c j ix
      let dst := cardPlace t.phys t.sys b c j.dstSp (da / 2) (sizeBytes (j.dstSize c.fmt)) j.adds true
      let src := if j.reads then cardPlace t.phys t.sys b c j.srcSp (sa / 2) (sizeBytes j.srcSize) true false else .ok (.bsm 0)
      match dst, src with
      | .error e, _ | _, .error e => (t1.map fun s => s.setCard r id fun x => { x with nextn := n }).stopCard r c e
      | _, _ => t1
    | _, _, _ => t

/-! ## Intervals, windows and the engine control register -/

/-- BUDGET_INTERVAL (R293, R294): a new interval at CLOCK mod 256 = 0. -/
def execBudgetInterval (c : CoreRef) (s : State) : Host.Outcome State Fault Refusal :=
  keepMemory s fun _ y => y.setCore c fun k => k.rollInterval (y.tower c.tower).clock.toNat

/-- SLEW_WINDOW (R293, R295): a new window at CLOCK mod 64 = 0. -/
def execSlewWindow (c : CoreRef) (s : State) : Host.Outcome State Fault Refusal :=
  keepMemory s fun _ y => y.setCore c fun k => k.rollWindow (y.tower c.tower).clock.toNat

/-- ENGINE_CONTROL_WRITE (R293): OVC 11 is ignored, and so is a write with ec[15:10] not zero; the values come into force at the next
boundary. DESIGN CHOICE: a write with ec[63:32] not zero, for which R293 says only that they are zero, is ignored too (log 120). -/
def execEngineControlWrite (c : CoreRef) (v : DWord) (s : State) : Host.Outcome State Fault Refusal :=
  keepMemory s fun _ y =>
    let x := v.toNat
    if natBits x 15 10 != 0 || natBits x 63 32 != 0 then y
    else
      y.setRolled c fun k =>
        let ovc := if natBits x 1 0 == 3 then natBits k.control.toNat 1 0 else natBits x 1 0
        { k with control := BitVec.ofNat 64 (x - natBits x 1 0 + ovc) }

end Sys2Proof.Machine
end

