-- ==== Sys2Proof/Machine/SweepInstr.lean ====
section
/-! DEFINITION. Sweep and tolerance instructions (R199 to R217): node information and drawers, TAKE, SPAWN and SPWAIT, the
arithmetic of tolerance words, certificates, and tightened re-demands. -/

namespace Sys2Proof.Machine

/-- A trap of this chapter: its resume mask is the slot mask (R217). -/
def Ctx.sweepTrap (c : Ctx) (k : Cause) (addr : Nat) : TrapInfo := { cause := k, resume := c.slot.mask, addr := addr }

/-- An instruction of fixed latency that writes a scalar register or traps. -/
def scalarOrTrap (m : Mnem) (f : Fields) (s : State) (g : Sys → Ctx → Except TrapInfo Nat) : Host.Outcome State Fault Refusal :=
  issue m f s fun _ t c _ _ =>
    match g t.sys c with
    | .ok v => t.map fun y => y.putWarp c.ref ((c.w.setScalar f.d.toNat (BitVec.ofNat 64 v)).setSlot c.z fun z => z.step y.words)
    | .error i => t.raise c.ref c.z i false

/-! ## Node information and drawers -/

/-- NINFO.REC (R202). -/
def Block.record (b : Block) : Nat :=
  b.opClass + (if b.idemp then 2 ^ 8 else 0) + (if b.retain then 2 ^ 9 else 0) + (if b.rel then 2 ^ 10 else 0)
    + b.prog * 2 ^ 16 + b.warps.length * 2 ^ 24

/-- NINFO (R202): from the dispatch context. -/
def execNinfo (f : Fields) (s : State) : Host.Outcome State Fault Refusal :=
  scalarOrTrap .ninfo f s fun _ c =>
    let n := (bScalar c.w f .zero).toNat
    match f.sub.toNat with
    | 0 => if c.b.spawn || c.b.nchild ≤ n then .error (c.sweepTrap .childRange n) else .ok (c.b.first + n)
    | 1 => .ok (if c.b.spawn then 0 else c.b.user.toNat)
    | 2 => .ok (if c.b.spawn then 0 else c.b.record)
    | 3 => .ok (if c.b.spawn then 0 else c.b.share.toNat)
    | _ => .ok (if c.b.spawn then 0 else c.b.need)

/-- The drawer that CHDR names (R203). -/
def inputDrawer (s : Sys) (b : Block) (n : Nat) : Option Nat :=
  if b.spawn then none
  else if b.down then (if n == 0 then b.parentDrawer else none)
  else if n < b.nchild then (s.sweep b.sweep).bind fun w => w.drawerOf b.stage (b.first + n)
  else none

/-- CHDR (R203). -/
def execChdr (f : Fields) (s : State) : Host.Outcome State Fault Refusal :=
  scalarOrTrap .chdr f s fun y c =>
    let n := (bScalar c.w f .zero).toNat
    match inputDrawer y c.b n with
    | some a => .ok a
    | none => .error (c.sweepTrap .childRange n)

/-- A block that has taken is recorded with its sweep: its parent's drawer may go (R204, R254). -/
def Sys.noteTaken (s : Sys) (b : Block) : Sys :=
  if b.spawn || !b.down || !b.taken then s
  else
    s.setSweep b.sweep fun w =>
      if (w.run b.stage b.node.toNat).taken then w
      else ((w.setRun b.stage b.node.toNat fun r => { r with taken := true }).settleDownward b.stage).retry b.stage

/-- TAKE (R204). -/
def execTake (f : Fields) (s : State) : Host.Outcome State Fault Refusal :=
  issue .take f s fun _ t c _ _ =>
    if c.b.spawn || !c.b.down then t.raise c.ref c.z (c.sweepTrap .sweepContext 0) false
    else if c.b.parent == 0xFFFFFF then t.map fun y => y.completedOp c id
    else if !c.w.drained then t.map fun y => y.hold c .release
    else
      t.map fun y =>
        let y1 := y.completedOp c fun w => { w with took := true }
        match y1.block c.b.id with
        | some b => y1.noteTaken b
        | none => y1

/-! ## Spawning -/

/-- The items in a core's spawn queue (R262): those of its forming warps. -/
def Core.queued (k : Core) : Nat := (k.forming.map fun x => x.items.length).sum

/-- May an item join a forming warp: equal sweep, program and stage, and the warp neither full nor timed out (R262)? -/
def Forming.takes (g : Forming) (x : SpawnItem) : Bool :=
  !g.ready && g.sweep == x.sweep && g.prog == x.prog && g.stage == x.stage

/-- An item gathered into a forming warp (R262): full at 64 items. -/
def Sys.gather (s : Sys) (c : CoreRef) (x : SpawnItem) : Sys :=
  if (s.core c).forming.any fun g => g.takes x then
    let add := fun (g : Forming) => { g with items := g.items ++ [x], ready := decide (63 ≤ g.items.length) }
    s.setCore c fun k => { k with forming := updateWhere (fun g => g.takes x) add k.forming }
  else
    let (id, s1) := s.next
    let now := (s1.tower c.tower).clock.toNat
    s1.setCore c fun k =>
      { k with forming := k.forming ++ [{ id := id, sweep := x.sweep, prog := x.prog, stage := x.stage, items := [x], since := now }] }

/-- One item enqueued (R205, R262): in the queue, or in the sweep's spawn area when the queue is full; none when the spawn area is
exhausted. DESIGN CHOICE: with room in the queue a new item enters it ahead of those that stand in the spawn area still (log 153). -/
def Sys.enqueueItem (s : Sys) (c : CoreRef) (x0 : SpawnItem) : Option Sys :=
  let x := { x0 with seq := s.order }
  let s1 := { s with order := s.order + 1 }
  if (s1.core c).queued < 4096 then some (s1.gather c x)
  else
    match s1.sweep x.sweep with
    | none => none
    | some w =>
      if w.sparea == 0 || w.splen ≤ w.spawnArea.length then none
      else some (s1.setSweep x.sweep fun w => { w with spawnArea := w.spawnArea ++ [x] })

/-- Items enqueued in order; the flag says that every one found room. -/
def Sys.enqueueItems (s : Sys) (c : CoreRef) : List SpawnItem → Sys × Bool
  | [] => (s, true)
  | x :: xs =>
    match s.enqueueItem c x with
    | none => (s, false)
    | some s1 => s1.enqueueItems c xs

/-- The bytes of items that go to the spawn area (R262): 32 free bytes each, at a free place of the area, whose layout is not architectural. DESIGN
CHOICE: a place that cannot be reached is left as it is, since the spec names no fate for that access (log 68). -/
def Tx.spillItems {o : Phys} (w : Sweep) : Nat → Nat → Tx o → Tx o
  | _, 0, t => t
  | free, n + 1, t =>
    let va := w.sparea + 32 * (Config.freeNat free % w.splen)
    let t1 := match walkRange t.phys t.sys w.asid va 32 false true with
      | .ok pas => t.storeAt pas ((List.range 32).map fun i => Config.freeByte (free + 1 + i))
      | .error _ => t
    Tx.spillItems w (free + 33) n t1

/-- Items enqueued, those of the spawn area written to memory; the flag says that every one found room. -/
def Tx.enqueueItems {o : Phys} (t : Tx o) (c : CoreRef) (sweep : Nat) (xs : List SpawnItem) : Tx o × Bool :=
  let y := t.sys.enqueueItems c xs
  let area := fun (s : Sys) => ((s.sweep sweep).map fun w => w.spawnArea.length).getD 0
  let n := area y.1 - area t.sys
  let t1 := match t.sys.sweep sweep with
    | some w => Tx.spillItems w t.sys.free n t
    | none => t
  (t1.map fun _ => { y.1 with free := y.1.free + 33 * n }, y.2)

/-- SPAWN (R205). DESIGN CHOICE (log 165): an immediate above 255 is taken modulo 256. -/
def execSpawn (f : Fields) (s : State) : Host.Outcome State Fault Refusal :=
  issue .spawn f s fun _ t c e _ =>
    if e == 0 then t.map fun y => y.completedOp c id
    else if !c.w.drained then t.map fun y => y.hold c .release
    else
      let prog := (bScalar c.w f .zero).toNat % 256
      let item := fun (l : Nat) =>
        { sweep := c.b.sweep, prog := prog, stage := c.b.stage, arg0 := c.w.pair f.a.toNat l, arg1 := c.w.pair f.c.toNat l,
          spawner := c.b.id, core := c.b.core, seq := 0 : SpawnItem }
      let (t1, room) := (t.map fun s => s.setEffect c.b.id true).enqueueItems c.b.coreRef c.b.sweep (e.lanes.map item)
      if !room then t1.abortSweep .spawnArea c.b.stage 0 c.b.sweep
      else
        t1.map fun y =>
          ((y.setSweep c.b.sweep fun w => { w with items := w.items + e.count }).setBlock c.b.id fun b =>
            { b with spawnOutstanding := b.spawnOutstanding + e.count }).completedOp c id

/-- SPWAIT (R206). -/
def execSpwait (f : Fields) (s : State) : Host.Outcome State Fault Refusal :=
  issue .spwait f s fun _ t c _ _ =>
    t.map fun y =>
      if c.b.spawnOutstanding != 0 then y.hold c .spwait
      else y.putWarp c.ref (c.w.setSlot c.z fun z => z.step y.words)

/-! ## Tolerance words -/

/-- The word of operand A. -/
def Ctx.word (c : Ctx) (f : Fields) : Nat := (c.w.scalar f.a.toNat).toNat

/-- TOLSPL.IN (R208). -/
def execTolsplIn (f : Fields) (s : State) : Host.Outcome State Fault Refusal :=
  scalarOp .tolsplIn f s fun c => BitVec.ofNat 64 (inputShare c.b.entry (c.word f) (bScalar c.w f .zero).toNat)

/-- TOLSPL.OWN (R208). -/
def execTolsplOwn (f : Fields) (s : State) : Host.Outcome State Fault Refusal :=
  scalarOp .tolsplOwn f s fun c => BitVec.ofNat 64 (clampT ((tolT (c.word f) : Int) + c.b.entry.uOwn) + tolUpper (c.word f))

/-- TOLADD.LOG (R207). -/
def execToladdLog (f : Fields) (s : State) : Host.Outcome State Fault Refusal :=
  scalarOp .toladdLog f s fun c =>
    BitVec.ofNat 64 (logAdd (tolT (c.word f)) (tolT (c.w.scalar f.b.toNat).toNat) + tolUpper (c.word f))

/-- TOLADD.OFF (R207). -/
def execToladdOff (f : Fields) (s : State) : Host.Outcome State Fault Refusal :=
  scalarOp .toladdOff f s fun c =>
    BitVec.ofNat 64 (clampT ((tolT (c.word f) : Int) + (bScalar c.w f .sign).toInt) + tolUpper (c.word f))

/-- The result of FPICK: the format and the bound it achieves (R209). -/
def fpickResult (format bound : Nat) : DWord := BitVec.ofNat 64 (format + bound * 2 ^ 16)

/-- FPICK (R209): the matrix choice. -/
def execFpick (f : Fields) (s : State) : Host.Outcome State Fault Refusal :=
  scalarOp .fpick f s fun c =>
    let kd := max 1 (min (2 ^ 20) (bScalar c.w f .zero).toNat)
    let g := autoMatrix c.b (c.word f) kd
    fpickResult g (mmaBound g g kd)

/-- FPICK.CVT (R209): the conversion choice under RN. -/
def execFpickCvt (f : Fields) (s : State) : Host.Outcome State Fault Refusal :=
  scalarOp .fpickCvt f s fun c =>
    let g := autoConvert c.b (c.word f) .rn
    fpickResult g (convBound g .rn)

/-- TOLSET.DEM (R210). -/
def execTolsetDem (f : Fields) (s : State) : Host.Outcome State Fault Refusal :=
  scalarOp .tolsetDem f s fun c => BitVec.ofNat 64 (demandOf ((c.w.scalar f.a.toNat).setWidth 32))

/-- TOLSET.CERT (R210). -/
def execTolsetCert (f : Fields) (s : State) : Host.Outcome State Fault Refusal :=
  scalarOp .tolsetCert f s fun c => BitVec.ofNat 64 (certificateOf ((c.w.scalar f.a.toNat).setWidth 32))

/-- TOLSET.VAL (R210). -/
def execTolsetVal (f : Fields) (s : State) : Host.Outcome State Fault Refusal :=
  scalarOp .tolsetVal f s fun c => BitVec.ofNat 64 (valueOf (tolT (c.word f)))

/-- TOLSET.FLD (R210): t with the flag bits that the immediate gives. -/
def execTolsetFld (f : Fields) (s : State) : Host.Outcome State Fault Refusal :=
  scalarOp .tolsetFld f s fun c =>
    BitVec.ofNat 64 (tolT (c.word f) + 1024 * min 2 (natBits f.immU 1 0) + 4096 * natBits f.immU 3 2)

/-! ## Certificates -/

/-- What a CERT read of a drawer header found: the t that it contributes before the class's s, or a fault (R211, R217). -/
def headerBound (p : Phys) (s : Sys) (c : Ctx) (off : Nat) : Except TrapInfo (Option Nat) :=
  match translateWindow p s c.b.coreRef c.b.asid off with
  | none => .error (c.sweepTrap .windowFault off)
  | some pa =>
    let v := loadView p c.b c.w c.w.ops .tsp pa 4
    if v.2 then .error (c.sweepTrap .poison off)
    else .ok (if natBits v.1 17 16 == DrawerStatus.poisoned.code then none else some (v.1 % 1024))

/-- The inputs' bounds in order (R211). -/
def certInputs (p : Phys) (s : Sys) (c : Ctx) : Except TrapInfo (List (Option Nat)) :=
  if c.b.down then .ok (if c.b.parent == 0xFFFFFF then [] else [c.b.parentCert.map fun x => x % 1024])
  else (List.range c.b.nchild).mapM fun i => headerBound p s c ((inputDrawer s c.b i).getD 0)

/-- The headers that CERT reads and writes, where its window pages are mapped (R211). -/
def certRanges (p : Phys) (s : Sys) (c : Ctx) : List (Space × Nat × Nat) :=
  let at_ := fun (off : Nat) => ((translateWindow p s c.b.coreRef c.b.asid off).map fun pa => (Space.tsp, pa, 4)).toList
  at_ c.b.drawer ++ (if c.b.down then [] else (List.range c.b.nchild).flatMap fun i => at_ ((inputDrawer s c.b i).getD 0))

/-- The certificate of R211: own bound, then each input's, less the class's s. -/
def certWord (own : Nat) (inputs : List (Option Nat)) (sens : Int) (tol : BitVec 16) : Nat :=
  let t := inputs.foldl (fun t x => logAdd t (match x with | some h => clampT ((h : Int) - sens) | none => 0)) own
  t + 1024 * natBits tol.toNat 11 10 + (if tolForce tol.toNat then 8192 else 0)

/-- CERT and CERT.REL at issue: the inputs are read and the own header's page is translated. DESIGN CHOICE: the headers are read at issue, once
no earlier access to them is out (log 28); the spec says only that it is between the issue and the completion. -/
def certOp (m : Mnem) (f : Fields) (s : State) (rel : Warp → Option (Word × Word)) : Host.Outcome State Fault Refusal :=
  issue m f s fun _ t c _ flag =>
    if c.b.spawn then t.raise c.ref c.z (c.sweepTrap .sweepContext 0) false
    else
      match certInputs t.phys t.sys c, translateWindow t.phys t.sys c.b.coreRef c.b.asid c.b.drawer with
      | .error i, _ =>
        (if i.cause == .windowFault then t.upd fun p y => fillWindow p y c.b.coreRef c.b.asid (i.addr / 65536) else t).raise c.ref c.z i false
      | .ok _, none => (t.upd fun p y => fillWindow p y c.b.coreRef c.b.asid (c.b.drawer / 65536)).raise c.ref c.z (c.sweepTrap .windowFault c.b.drawer) false
      | .ok xs, some pa =>
        t.unlessHeld c (readsHeld t.phys t.sys c.b c.w.ops (certRanges t.phys t.sys c)) <| t.map fun y => y.startOp c m flag (.cert f.d.toNat (certWord (tolT (c.word f)) xs c.b.entry.s c.w.tol) pa (rel c.w))

/-- CERT (R211). -/
def execCert (f : Fields) (s : State) : Host.Outcome State Fault Refusal := certOp .cert f s fun _ => none

/-- CERT.REL (R212). -/
def execCertRel (f : Fields) (s : State) : Host.Outcome State Fault Refusal :=
  certOp .certRel f s fun w => some ((w.scalar f.b.toNat).setWidth 32, (w.scalar f.c.toNat).setWidth 32)

/-- CERT_COMPLETION (R211, R212): the header write is performed, after the warp's earlier accesses to those bytes (R221 (a)), and the
destination written. -/
def execCertCompletion (r : WarpRef) (id : Nat) (s : State) : Host.Outcome State Fault Refusal :=
  work s fun _ t =>
    match (t.sys.warp r).bind fun w => (w.op id).filter fun x => !w.heldBack x with
    | none => t
    | some x =>
      match x.body with
      | .cert dst word pa rel =>
        let v := match rel with
          | none => word
          | some q => relCertificate word q.1 q.2
        (t.storeNum pa 2 word).finish r id fun w => w.setScalar dst (BitVec.ofNat 64 v)
      | _ => t

/-! ## Tightened re-demand -/

/-- TIGHTEN (R214, R215): the checks in order, the wait as `.rel`, then the raised share and the re-dispatch.
DESIGN CHOICE (log 139): in a sweep of several stages, the run meant by "when it last retired" is the child's run at the block's own
stage. -/
def execTighten (f : Fields) (s : State) : Host.Outcome State Fault Refusal :=
  issue .tighten f s fun _ t c _ flag =>
    let n := (c.w.scalar f.a.toNat).toNat
    let deficit := min 1023 (bScalar c.w f .zero).toNat
    let busy := c.b.warps.any fun w => w.ops.any fun x => match x.body with | .tighten _ child _ => child == n | _ => false
    let trap := fun (k : Cause) (a : Nat) => t.raise c.ref c.z (c.sweepTrap k a) false
    if busy then t.map fun y => y.hold c .tightenTurn
    else if c.b.spawn || c.b.down then trap .sweepContext 0
    else if c.b.nchild ≤ n then trap .childRange n
    else
      match t.sys.sweep c.b.sweep with
      | none => t
      | some w =>
        let child := c.b.first + n
        match w.node child with
        | none => t
        | some x =>
          let at_ := (w.drawerOf c.b.stage child).getD 0
          if (!x.retain && x.count != 0) || (w.run c.b.stage child).effect then trap .tightenNoInput at_
          else if tolForce x.share.toNat then trap .tightenLimit at_
          else if !c.w.drained then t.map fun y => y.hold c .release
          else
            t.map fun y =>
              let share := BitVec.ofNat 16 (redemand x.share.toNat deficit)
              let y1 := y.setSweep c.b.sweep fun w => w.setNode child fun q => { q with share := share }
              let y2 := y1.setTower c.b.tower fun k =>
                { k with redispatches := k.redispatches ++ [{ sweep := c.b.sweep, node := child, stage := c.b.stage }] }
              y2.startOp c .tighten flag (.tighten f.d.toNat n deficit)

end Sys2Proof.Machine
end

