-- ==== Sys2Proof/Machine/Launch.lean ====
section
/-! DEFINITION. The launch of a sweep by a SWEEP packet (R249, R250, R252 to R256, R260, R267, R270, R271): the checks of the
descriptor, of the sensitivity table and of the tree, the measure and demand passes, and the admission of the root. -/

namespace Sys2Proof.Machine

/-! ## The descriptor -/

/-- The fields of a sweep descriptor (R249). -/
structure Descriptor where
  tree   : Nat
  nodes  : Nat
  root   : Nat
  dir    : Nat
  stages : Nat
  progs  : Nat
  shelf  : Nat
  cap    : Nat
  dsz    : Nat
  sens   : Nat
  demand : Nat
  shares : Nat
  pred   : Nat
  dove   : Nat
  bitmap : Nat
  sparea : Nat
  splen  : Nat
  pkto   : Nat
  cls    : Nat
  norst  : Bool
  tower  : Nat
deriving DecidableEq, Repr

/-- The fields of the 128 bytes. At stepping B0 a PKTO from 1 to 15 acts as 16 (R358). -/
def Descriptor.parse (d : Nat) : Descriptor :=
  { tree := natBits d 51 0, nodes := natBits d 87 64, root := natBits d 111 88, dir := natBits d 113 112,
    stages := natBits d 116 114 + 1, progs := natBits d 179 128, shelf := natBits d 223 192, cap := natBits d 247 224,
    dsz := natBits d 251 248, sens := natBits d 307 256, demand := natBits d 335 320, shares := natBits d 435 384,
    pred := natBits d 499 448, dove := natBits d 501 500, bitmap := natBits d 563 512, sparea := natBits d 627 576,
    splen := natBits d 671 640, pkto := if natBits d 687 672 == 0 then 2048 else max 16 (natBits d 687 672), cls := natBits d 694 693,
    norst := natBit d 695, tower := natBits d 708 708 }

/-- The size of a drawer. -/
def Descriptor.drawerSize (x : Descriptor) : Nat := 64 * 2 ^ x.dsz

/-- The checks of a descriptor submitted by a queue with an ASID (R249), in ascending bit position, each with the byte that holds
its field's lowest bit. -/
def descriptorChecks (d queue asid : Nat) : List (Nat × Bool) :=
  let x := Descriptor.parse d
  ([(0, x.tree % 32 != 0), (6, natBits d 63 52 != 0), (8, x.nodes == 0), (11, x.nodes ≤ x.root), (14, x.dir == 3),
    (14, natBits d 127 117 != 0), (16, x.progs % 8 != 0), (22, natBits d 191 180 != 0), (28, x.cap == 0 && x.dir != 2),
    (31, 10 < x.dsz || x.shelf % x.drawerSize != 0 || 2 ^ 32 < x.shelf + x.stages * x.cap * x.drawerSize),
    (31, natBits d 255 252 != 0), (32, x.sens % 64 != 0), (38, natBits d 319 308 != 0), (40, natBits d 335 334 != 0),
    (42, natBits d 383 336 != 0)] : List (Nat × Bool)) ++
  ([(48, x.shares % 64 != 0 || (x.dir == 2 && x.shares == 0)), (54, natBits d 447 436 != 0), (56, x.pred % 64 != 0),
    (62, x.dove != 0 && x.pred == 0), (62, natBits d 511 502 != 0), (64, x.bitmap % 64 != 0), (70, natBits d 575 564 != 0),
    (72, x.sparea % 4096 != 0), (78, natBits d 639 628 != 0), (86, natBits d 692 688 != queue), (86, x.cls == 3),
    (87, natBits d 707 696 != asid), (88, natBits d 1023 709 != 0)] : List (Nat × Bool))

/-! ## The sensitivity table -/

/-- 2^(−a/16) + 2^(−b/16) ≤ 1, decided exactly (R271 (c)): the sum is 1 only at a = b = 16, and elsewhere it differs from 1 by
far more than the error of 60 bits. -/
def weightsOk (a b : Nat) : Bool :=
  (a == 16 && b == 16) || (root16 (960 - a) 0 + root16 (960 - b) 0 + 2 ≤ 2 ^ 60)

/-- The fields of a table entry (R270). -/
def ClassEntry.parse (e : Nat) : ClassEntry :=
  { uOwn := natBits e 7 0, uIn := natBits e 15 8, s := signedNat 8 (natBits e 23 16), equal := natBits e 25 24 == 0,
    kind := natBits e 27 26, init := natBits e 39 32, gain := natBits e 47 40 }

/-- The checks of a table entry (R271). -/
def classOk (e : Nat) : Bool :=
  let x := ClassEntry.parse e
  let counts := fun (n : Nat) => 1 ≤ n && n ≤ 24
  natBits e 31 28 == 0 && natBits e 127 48 == 0 && natBits e 25 24 ≤ 1 && x.kind ≤ 2 &&
  (if x.kind == 2 then counts x.init && counts x.gain else x.init == 0 && x.gain == 0) && weightsOk x.uOwn x.uIn

/-- The entry of a class in a 1,024-byte table. -/
def tableEntry (t c : Nat) : Nat := natBits t (128 * c + 127) (128 * c)

/-- The class entry of an operator class (R201). -/
def classEntry (table : List ClassEntry) (c : Nat) : ClassEntry := table.getD c ClassEntry.default

/-! ## The measure pass -/

/-- Why a launch does not pass. -/
inductive LaunchStop where
  /-- LAUNCH_FAILED with a code and detail of R267 -/
  | fail (code detail : Nat)
  /-- an access that met a failed translation -/
  | fault (va : Nat) (w : Walk) (write : Bool)
  /-- held until the predecessor has passed launch (R260), or a memory is ready (R230) -/
  | hold
  /-- the predecessor failed or was aborted (R260) -/
  | predFailed
deriving DecidableEq, Repr

/-- A read under the sweep's ASID. -/
def launchRead (p : Phys) (s : Sys) (asid va n : Nat) : Except LaunchStop Nat :=
  match readVirtual p s asid va n with
  | .ok v => .ok v
  | .error (_, .held) => .error .hold
  | .error e => .error (.fault e.1 e.2 false)

/-- A node from its record (R250). -/
def Node.parse (index depth v : Nat) : Node :=
  { index := index, parent := natBits v 23 0, first := natBits v 47 24, count := natBits v 63 48, prog := natBits v 71 64,
    warps := natBits v 77 72, bsmu := natBits v 85 78, opClass := natBits v 91 86, idemp := natBit v 92, retain := natBit v 93,
    rel := natBit v 94, user := BitVec.ofNat 64 (natBits v 191 128), depth := depth }

/-- The record's values and reserved bits (R255 (a)). -/
def recordOk (v : Nat) : Bool :=
  natBits v 127 95 == 0 && natBits v 255 192 == 0 && 1 ≤ natBits v 77 72 && natBits v 77 72 ≤ 48 &&
  (natBits v 63 48 != 0 || natBits v 47 24 == 0)

/-- The walk in pre-order (R255): the nodes to visit with the node that listed them and their depth; the nodes visited, last
first. Every node is listed by at most one parent that its record accepts, so NODES + 1 visits are enough. -/
def measure (read : Nat → Except LaunchStop Nat) (nodes : Nat) : Nat → List (Nat × Nat × Nat) → List Node → Except LaunchStop (List Node)
  | 0, _, acc => .ok acc
  | _, [], acc => .ok acc
  | fuel + 1, (n, parent, depth) :: rest, acc =>
    match read n with
    | .error e => .error e
    | .ok v =>
      let x := Node.parse n depth v
      if x.parent != parent || !recordOk v || nodes < x.first + x.count then .error (.fail 0x13 n)
      else measure read nodes fuel (x.children.map (fun c => (c, n, depth + 1)) ++ rest) (x :: acc)

/-- The children of a node among measured nodes, with their need and hold. -/
def Node.among (x : Node) (done : List Node) : List Node :=
  done.filter fun c => x.first ≤ c.index && c.index < x.first + x.count

/-- The greatest of need(c_i) plus the holds in front of it, in canonical order (R253). -/
def needInOrder : List Node → Nat → Nat
  | [], _ => 0
  | c :: cs, h => max (c.need + h) (needInOrder cs (h + c.hold))

/-- need and hold of a node from its children's (R253, R254). -/
def Node.measured (down : Bool) (x : Node) (done : List Node) : Node :=
  let cs := x.among done
  let hold := if down then 0 else if x.retain then 1 + x.count else 1
  let need :=
    if cs.isEmpty then 1
    else if down then 1 + (cs.map Node.need).foldl max 0
    else
      let key := fun (c : Node) => (c.need : Int) - c.hold
      let order := sortBy (fun a b => decide (key b < key a) || (key a == key b && decide (a.index < b.index))) cs
      max (needInOrder order 0) ((cs.map Node.hold).sum + 1)
  { x with need := need, hold := hold }

/-- need and hold of every node; the list comes with children before parents and leaves in pre-order. -/
def measureNeeds (down : Bool) (visited : List Node) : List Node :=
  visited.foldl (fun done x => x.measured down done :: done) []

/-! ## The demand pass -/

/-- The share of a child (R256). -/
def childShare (table : List ClassEntry) (n c : Node) : BitVec 16 :=
  BitVec.ofNat 16 (tolT (inputShare (classEntry table n.opClass) (tolT n.share.toNat) n.count) + (if c.rel then 4096 else 0))

/-- The demand pass over nodes in pre-order (R256). -/
def demandPass (table : List ClassEntry) (demand root : Nat) (nodes : List Node) : List Node :=
  if tolT demand == 0 then nodes
  else
    let start := updateWhere (fun (x : Node) => x.index == root) (fun x => { x with share := BitVec.ofNat 16 demand }) nodes
    nodes.foldl (fun acc x =>
      match acc.find? fun y => y.index == x.index with
      | none => acc
      | some n =>
        updateWhere (fun c => n.first ≤ c.index && decide (c.index < n.first + n.count))
          (fun c => { c with share := childShare table n c }) acc) start

/-! ## Dovetails -/

/-- The predecessor that a descriptor names (R249, R260): the last launch under the ASID from that descriptor. -/
def Sys.predecessor (s : Sys) (asid pred : Nat) : Option Sweep :=
  s.sweeps.reverse.find? fun x => x.descriptor == pred && x.asid == asid

/-- Has a packet older than `pkt` a launch of that descriptor still ahead? -/
def Sys.launchAhead (s : Sys) (pkt asid descriptor : Nat) : Bool :=
  s.packets.any fun q => decide (q.id < pkt) && (s.queue q.ref.queue).field 79 68 == asid &&
    (match q.work with | .sweep d _ => d == descriptor | _ => false) && !s.sweeps.any fun w => w.pkt == q.id

/-- The check of a mapping to the predecessor (R260): the successor node that fails, or 0xFF_FFFF for the bitmap. DESIGN
CHOICE: unequal stage counts name node 0, and a longer successor its first node without a counterpart. -/
def dovetailFails (x : Descriptor) (w : Sweep) : Option Nat :=
  if w.bitmap == 0 then some 0xFFFFFF
  else if x.dove == 0 then none
  else if x.stages != w.stages then some 0
  else if x.dove != 3 && w.nodesN < x.nodes then some w.nodesN
  else none

/-! ## The launch -/

/-- What a launch computes before it writes. -/
structure Plan where
  desc  : Descriptor
  table : List ClassEntry
  /-- the table's bytes, when there is one -/
  bytes : Option Nat
  /-- nodes in pre-order, with need, hold and share -/
  nodes : List Node
  pred  : Option Nat
deriving DecidableEq, Repr

/-- Does the root of an ASID's page tables lie in own first-tier memory (R234)? -/
def Sys.rootInside (s : Sys) (e : Nat) : Bool := s.ownFirstTier (natBits e 51 12 * 4096)

/-- The predecessor's part (R260, R324): none to go on, or why the launch stops or waits. -/
def predecessorStop (s : Sys) (pkt asid : Nat) (x : Descriptor) : Option LaunchStop :=
  if x.pred == 0 then none
  else if s.launchAhead pkt asid x.pred then some .hold
  else
    match s.predecessor asid x.pred with
    | none => some .hold
    | some w => if w.phase == .aborted then some .predFailed else if w.passed then none else some .hold

/-- The sensitivity table (R252, R271). -/
def loadTable (p : Phys) (s : Sys) (asid sens : Nat) : Except LaunchStop (Option Nat) :=
  if sens == 0 then .ok none
  else
    match launchRead p s asid sens 1024 with
    | .error e => .error e
    | .ok t =>
      match (List.range 64).find? fun c => !classOk (tableEntry t c) with
      | some c => .error (.fail 0x12 c)
      | none => .ok (some t)

/-- The first window page of the shelf without a mapping (R252). -/
def shelfGap (p : Phys) (s : Sys) (asid : Nat) (x : Descriptor) : Option Nat :=
  let bytes := x.stages * x.cap * x.drawerSize
  if bytes == 0 then none
  else
    let first := x.shelf / 65536
    let last := (x.shelf + bytes - 1) / 65536
    ((List.range (last - first + 1)).find? fun i => (windowEntry p s asid x.tower (first + i)).isNone).map fun i => (first + i) * 65536

/-- A walk for the descriptor of a launch. DEDUCED: R252 judges ROOT after the descriptor, so this one walk starts at the table that ROOT names wherever
it lies, and the launch then fails with ASID_INVALID; every other walk from such a ROOT has a translation error (R234, R237, log 158). -/
def descriptorWalk (p : Phys) (s : Sys) (asid va : Nat) : Walk :=
  if s.contextHeld asid then .held
  else match asidEntry p s asid with
  | none => .error
  | some e =>
    let root := natBits e 51 12 * 4096
    if s.rootInside e then walkAddr p s asid va true false
    else match s.route root with
      | .held => .held
      | .ok =>
        match walkFrom p s va root 5 with
        | (_, some x) => s.routed (useEntry s x va true false)
        | (w, none) => w
      | _ => .invalid

/-- A launch's reading of its descriptor. -/
def readDescriptor (p : Phys) (s : Sys) (asid va : Nat) : Except (Nat × Walk) Nat :=
  (walkBytes (descriptorWalk p s asid) va 128).map (numAt p)

/-- The launch up to the sensitivity table, in the order of R252: the descriptor, and the bytes of the table if there is one. A table that
has been read and has passed is not read again (R271). -/
def planTable (p : Phys) (s : Sys) (pkt queue descriptor : Nat) (latched : Option (Option Nat)) : Except LaunchStop (Descriptor × Option Nat) := do
  let asid := (s.queue queue).field 79 68
  let ctx ← if s.contextHeld asid then .error .hold else match asidEntry p s asid with
    | none => .error (.fail 0x11 asid)
    | some e => .ok e
  let d ← match readDescriptor p s asid descriptor with
    | .ok d => .ok d
    | .error (_, .held) => .error .hold
    | .error e => .error (.fault e.1 e.2 false)
  match firstBad (descriptorChecks d queue asid) with
  | some off => .error (.fail 0x10 off)
  | none =>
    let x := Descriptor.parse d
    -- a SWEEP whose descriptor could not be read at its start waits for its tower here (R351)
    if !s.ready (26 + x.tower) then .error .hold
    else match predecessorStop s pkt asid x with
    | some e => .error e
    | none =>
      if !s.rootInside ctx || !(tableSet ctx x.tower).any s.tableInside then .error (.fail 0x11 asid)
      else
        match latched with
        | some t => .ok (x, t)
        | none => (loadTable p s asid x.sens).map fun t => (x, t)

/-- The passes of a launch over its tree, up to its writes (R252). -/
def planTree (p : Phys) (s : Sys) (asid : Nat) (x : Descriptor) (t : Option Nat) : Except LaunchStop Plan := do
  let table := match t with
    | none => []
    | some t => (List.range 64).map fun c => ClassEntry.parse (tableEntry t c)
  let visited ← measure (fun n => launchRead p s asid (x.tree + 32 * n) 32) x.nodes (x.nodes + 1) [(x.root, 0xFFFFFF, 0)] []
  match (List.range x.nodes).find? fun n => !visited.any fun y => y.index == n with
  | some n => .error (.fail 0x13 n)
  | none =>
    let nodes := measureNeeds (x.dir == 1) visited
    let need := ((nodes.find? fun y => y.index == x.root).map Node.need).getD 1
    if x.dir != 2 && x.cap < need then .error (.fail 0x14 (min need 0xFFFFFF))
    else
      match shelfGap p s asid x with
      | some off => .error (.fail 0x15 off)
      | none =>
        let pred := if x.pred == 0 then none else s.predecessor asid x.pred
        .ok { desc := x, table := table, bytes := t, nodes := demandPass table x.demand x.root nodes, pred := pred.map Sweep.id }

/-- The sweep that a plan launches. -/
def Plan.sweep (x : Plan) (id pkt queue asid descriptor : Nat) : Sweep :=
  let d := x.desc
  let nodes := sortBy (fun (a b : Node) => decide (a.index < b.index)) x.nodes
  { id := id, pkt := pkt, queue := queue, cls := d.cls, asid := asid, tower := d.tower, dir := d.dir, descriptor := descriptor,
    root := d.root, nodesN := d.nodes, stages := d.stages, progs := d.progs, shelf := d.shelf, cap := d.cap,
    drawerSize := d.drawerSize, bitmap := d.bitmap, sparea := d.sparea, splen := d.splen, pkto := d.pkto, norst := d.norst,
    dove := d.dove, pred := x.pred, table := x.table, hasTable := d.sens != 0, nodes := nodes,
    runs := (List.range d.stages).flatMap fun st => nodes.map fun n => { node := n.index, stage := st },
    pool := [], headers := [], headerFault := [], spawnArea := [], items := 0, phase := .running, passed := true }

/-- What stands of a launch that did not pass: its descriptor, so that a successor finds it (R260). -/
def failedSweep (pkt queue asid descriptor : Nat) : Sweep :=
  { id := 0, pkt := pkt, queue := queue, cls := 0, asid := asid, tower := 0, dir := 0, descriptor := descriptor, root := 0, nodesN := 0,
    stages := 0, progs := 0, shelf := 0, cap := 0, drawerSize := 0, bitmap := 0, sparea := 0, splen := 0, pkto := 0, norst := false,
    dove := 0, pred := none, table := [], hasTable := false, nodes := [], runs := [], pool := [], headers := [], headerFault := [],
    spawnArea := [], items := 0, phase := .aborted, passed := false }

namespace Tx

variable {o : Phys}

/-- A launch that fails (R252, R267), an error event of a queue item. -/
def launchFailed (t : Tx o) (pkt queue descriptor kind code detail : Nat) : Tx o :=
  t.map fun s =>
    let asid := (s.queue queue).field 79 68
    { ((s.notePacket pkt kind 0 code).setPacket pkt fun q => { q with work := .done kind 0 code detail, fault := none }) with
      sweeps := s.sweeps ++ [failedSweep pkt queue asid descriptor] }

/-- A launch access that met a failed translation (R252, R327). -/
def launchFault (t : Tx o) (pkt queue descriptor tower va : Nat) (w : Walk) (write : Bool) : Tx o :=
  let asid := (t.sys.queue queue).field 79 68
  match t.reportFault (.packet pkt) 1 (tower * 2 ^ 19 + queue * 2 ^ 32) asid va write w with
  | (t1, none) => t1.launchFailed pkt queue descriptor 1 0x17 0
  | (t1, some id) =>
    if w.result == 0 then t1.map fun s => s.setPacket pkt fun q => { q with fault := some id }
    else t1.launchFailed pkt queue descriptor 1 0x17 id

/-- Bytes written under an ASID: the first failure, if there is one. -/
def writeVirtual (t : Tx o) (asid va : Nat) (bs : List Byte) : Tx o × Option (Nat × Walk) :=
  match walkRange t.phys t.sys asid va bs.length false true with
  | .ok pas => (t.storeAt pas bs, none)
  | .error e => (t, some e)

/-- Writes one after another, up to the first failure. -/
def writeAll (t : Tx o) (asid : Nat) : List (Nat × List Byte) → Tx o × Option (Nat × Walk)
  | [] => (t, none)
  | x :: xs =>
    match t.writeVirtual asid x.1 x.2 with
    | (t1, none) => t1.writeAll asid xs
    | r => r

end Tx

/-- The writes of a launch (R252, R256): the share array, then the zeros of the completion bitmap. -/
def Plan.writes (x : Plan) : List (Nat × List Byte) :=
  let d := x.desc
  (if d.shares == 0 || tolT d.demand == 0 then [] else x.nodes.map fun n => (d.shares + 2 * n.index, natToBytes 2 n.share.toNat)) ++
  (if d.dir == 2 || d.bitmap == 0 then []
   else (List.range ((d.stages * d.nodes + 7) / 8)).map fun i => (d.bitmap + i, [0]))

/-- Every completion bit of a sweep set (R259). -/
def Tx.setAllBits {o : Phys} (t : Tx o) (w : Sweep) : Tx o :=
  (List.range w.stages).foldl (fun t st => (List.range w.nodesN).foldl (fun t n => t.setBit w st n) t) t

/-- A launch that passes (R252): a DEMAND sweep completes with its pass; another is admitted. -/
def Tx.launchPassed {o : Phys} (t : Tx o) (x : Plan) (pkt queue descriptor : Nat) : Tx o :=
  let asid := (t.sys.queue queue).field 79 68
  let w := x.sweep t.sys.nextSweep pkt queue asid descriptor
  let t1 := t.map fun s =>
    let ms := match x.bytes with
      | some b => s.device.measurements ++ [.table (sha3 (natToBytes 1024 b))]
      | none => s.device.measurements
    { s with nextSweep := s.nextSweep + 1, device := { s.device with measurements := ms } }
  if x.desc.dir == 2 then
    (t1.setAllBits w).map fun s =>
      ({ s with sweeps := s.sweeps ++ [{ w with phase := .complete, runs := [] }] }).setPacket pkt fun q =>
        { q with work := .done 0 0 0 0, fault := none }
  else t1.map fun s => { s with sweeps := s.sweeps ++ [w.admitRoot] }

/-- A launch that stops (R252, R260, R327). -/
def Tx.launchStop {o : Phys} (t : Tx o) (pkt queue descriptor : Nat) (e : LaunchStop) : Tx o :=
  let asid := (t.sys.queue queue).field 79 68
  match e with
  | .hold => t
  | .predFailed =>
    ((t.launchFailed pkt queue descriptor 0 0x20 Cause.predFailed.code.toNat).map fun s => s.logError (.aborted .predFailed 0 0 0xFFFFFF)).appendError
      queue Cause.predFailed.code 2 1 0 0xFFFFFF 0 0 0 0
  | .fail code detail =>
    let t1 := match code == 0x15, readVirtual t.phys t.sys asid descriptor 128 with
      | true, .ok d => t.upd fun p s => s.noteWindow p asid (Descriptor.parse d).tower (detail / 65536)
      | _, _ => t
    t1.launchFailed pkt queue descriptor 1 code detail
  | .fault va w wr =>
    -- the tower of the record is the descriptor's, once it has been read
    let tower := match readDescriptor t.phys t.sys asid descriptor with
      | .ok d => (Descriptor.parse d).tower
      | .error _ => 0
    t.launchFault pkt queue descriptor tower va w wr

/-- The reads of a launch up to its table noted (R303). -/
def Tx.noteTable {o : Phys} (t : Tx o) (asid descriptor : Nat) : Tx o :=
  if t.sys.inputs.hostErrors.isEmpty then t
  else
    let t1 := t.noteRead asid descriptor 128
    match readVirtual t.phys t.sys asid descriptor 128 with
    | .ok d => if (Descriptor.parse d).sens == 0 then t1 else t1.noteRead asid (Descriptor.parse d).sens 1024
    | .error _ => t1

/-- The readings of the node records noted (R303). -/
def Tx.noteTree {o : Phys} (t : Tx o) (asid : Nat) (x : Descriptor) : Tx o :=
  if t.sys.inputs.hostErrors.isEmpty then t
  else (List.range x.nodes).foldl (fun t n => t.noteRead asid (x.tree + 32 * n) 32) t

/-- The writes of a launch, then its last check (R252, R260). -/
def Tx.launchWrites {o : Phys} (t : Tx o) (pkt queue descriptor : Nat) (x : Plan) : Tx o :=
  let asid := (t.sys.queue queue).field 79 68
  match t.writeAll asid x.writes with
  | (t1, some (_, .held)) => t1
  | (t1, some e) => (t1.noteTree asid x.desc).launchFault pkt queue descriptor x.desc.tower e.1 e.2 true
  | (t0, none) =>
    let t1 := t0.noteTree asid x.desc
    let fails := x.pred.bind fun id => (t1.sys.sweep id).bind fun w => dovetailFails x.desc w
    match fails with
    | some n => if x.desc.dir == 2 then t1.launchPassed x pkt queue descriptor else t1.launchFailed pkt queue descriptor 1 0x16 n
    | none => t1.launchPassed x pkt queue descriptor

/-- A launch tried (R252, R260): it passes, fails, waits for the host or is held. An access that waited walks again, and the
passes before it are made again with it, but for the sensitivity table, which is read once (R271). -/
def Tx.tryLaunch {o : Phys} (t : Tx o) (pkt : Nat) : Tx o :=
  match t.sys.packet pkt with
  | none => t
  | some q =>
    match q.work with
    | .sweep descriptor latched =>
      if q.fault.isSome || (t.sys.sweeps.any fun w => w.pkt == pkt) then t
      else
        let queue := q.ref.queue
        let asid := (t.sys.queue queue).field 79 68
        let noted := if latched.isSome then t else t.noteTable asid descriptor
        match planTable t.phys t.sys pkt queue descriptor latched with
        | .error .hold => t
        | .error e => noted.launchStop pkt queue descriptor e
        | .ok y =>
          let t1 := noted.map fun s => s.setPacket pkt fun q => { q with work := .sweep descriptor (some y.2) }
          match planTree t1.phys t1.sys asid y.1 y.2 with
          | .error .hold => t1
          | .error e => (t1.noteTree asid y.1).launchStop pkt queue descriptor e
          | .ok x => t1.launchWrites pkt queue descriptor x
    | _ => t

/-- A started packet of a header, if there is one. -/
def Sys.startedPacket (s : Sys) (p : PacketRef) : Option Packet := s.packets.find? fun q => q.ref == p

/-- A packet started (R324): what it still has to do. -/
def Sys.openPacket (s : Sys) (p : PacketRef) (work : PacketWork) : Nat × Sys :=
  let (id, s1) := s.next
  (id, { s1 with packets := s1.packets ++ [{ id := id, ref := p, work := work, waits := match work with | .wait .. => true | _ => false }] })

/-- SWEEP (R252): the packet starts, and its launch is tried; a launch that was held is tried again. -/
def execSweep (p : PacketRef) (descriptor : Nat) (s : State) : Host.Outcome State Fault Refusal :=
  work s fun _ t =>
    match t.sys.startedPacket p with
    | some q => t.tryLaunch q.id
    | none =>
      let (id, y) := t.sys.openPacket p (.sweep descriptor none)
      (t.map fun _ => y).tryLaunch id

end Sys2Proof.Machine
end

