-- ==== Sys2Proof/Machine/Sequencer.lean ====
section
/-! DEFINITION. The Sweep Sequencer at work (R18, R19, R31 to R33, R201, R226, R251, R259, R260, R262 to R265, R315, R316):
program headers, admission to a core, dispatch of blocks, grants, spawned items and retires. -/

namespace Sys2Proof.Machine

/-! ## Program headers -/

/-- The fields of a node program header (R32). -/
def ProgramHeader.parse (h : Nat) : ProgramHeader :=
  { entry := .ofAddr (natBits h 51 0), tvec := .ofAddr (natBits h 115 64), proRegs := natBits h 136 128, fullRegs := natBits h 145 137,
    acc := natBits h 149 146, bsmu := natBits h 157 150, lpriv := natBits h 167 158,
    preload := BitVec.ofNat 10 (natBits h 177 168), ftz := natBit h 178 }

/-- The checks of a header (R32). -/
def headerValid (h : Nat) : Bool :=
  let x := ProgramHeader.parse h
  natBits h 1 0 == 0 && natBits h 63 52 == 0 && natBits h 65 64 == 0 && natBits h 127 116 == 0 && 1 ≤ x.proRegs && x.proRegs ≤ 256 &&
  (x.fullRegs == 0 || (x.proRegs ≤ x.fullRegs && x.fullRegs ≤ 256)) && x.acc ≤ 8 && x.lpriv ≤ 512 && natBits h 511 179 == 0

/-- Entry `prog` of the program table and the header that it names (R259); none when the header is invalid. DESIGN CHOICE: an entry that is no
multiple of 64, or that lies beyond the address space, names no valid header; R32 aligns headers to 64 B and lists neither case (log 137). -/
def readHeader (p : Phys) (s : Sys) (w : Sweep) (prog : Nat) : Except (Nat × Walk) (Option ProgramHeader) := do
  let a ← readVirtual p s w.asid (w.progs + 8 * prog) 8
  if a % 64 != 0 || 2 ^ 52 ≤ a then .ok none
  else
    let h ← readVirtual p s w.asid a 64
    .ok (if headerValid h then some (.parse h) else none)

/-- A header that has been read: the header, or none when it is invalid or could not be read. -/
def Sweep.heldHeader (w : Sweep) (prog : Nat) : Option (Option ProgramHeader) :=
  (w.headers.find? fun x => x.1 == prog).map Prod.snd

/-- A header read for dispatch and kept (R259); a page that is not present waits with a fault record, and a memory that is not ready
holds the read (R230). -/
def Tx.loadHeader {o : Phys} (t : Tx o) (sweep prog : Nat) : Tx o :=
  match t.sys.sweep sweep with
  | none => t
  | some w =>
    if (w.heldHeader prog).isSome || w.headerFault.any (fun x => x.1 == prog) then t
    else
      let keep := fun (t : Tx o) (h : Option ProgramHeader) =>
        t.map fun s => s.setSweep sweep fun w => { w with headers := w.headers ++ [(prog, h)] }
      match readHeader t.phys t.sys w prog with
      | .ok h =>
        let t1 := t.noteRead w.asid (w.progs + 8 * prog) 8
        keep (match readVirtual t.phys t.sys w.asid (w.progs + 8 * prog) 8 with
          | .ok a => if a % 64 == 0 && a < 2 ^ 52 then t1.noteRead w.asid a 64 else t1
          | .error _ => t1) h
      | .error (_, .held) => t
      | .error e =>
        match t.reportFault (.header sweep prog) 1 (w.tower * 2 ^ 19 + w.queue * 2 ^ 32) w.asid e.1 false e.2 with
        | (t1, none) => keep t1 none
        | (t1, some id) =>
          if e.2.result == 0 then t1.map fun s => s.setSweep sweep fun w => { w with headerFault := w.headerFault ++ [(prog, id)] }
          else keep t1 none

/-! ## Admission to a core (R18) -/

/-- Bays for a number of registers (R17). -/
def baysFor (regs : Nat) : Nat := (regs + 31) / 32

/-- The bays of the prologue allotment. -/
def ProgramHeader.proBays (h : ProgramHeader) : Nat := baysFor h.proRegs

/-- The bays of the full allotment. -/
def ProgramHeader.fullBays (h : ProgramHeader) : Nat := if h.fullRegs == 0 then h.proBays else baysFor h.fullRegs

/-- Does a block fit some placement (R18)? -/
def ProgramHeader.fits (h : ProgramHeader) (warps units : Nat) : Bool :=
  let tiles := if h.acc == 0 then 16 else 16 / h.acc
  warps ≤ 6 * min 16 (min (64 / h.fullBays) tiles) && units ≤ 512

/-- The warps on a slice of a core, with their blocks. -/
def Sys.sliceWarps (s : Sys) (c : CoreRef) (k : Nat) : List (Block × Warp) :=
  (s.coreBlocks c).flatMap fun b => (b.warps.filter fun w => w.slice == k).map fun w => (b, w)

/-- The bays that a warp holds on its slice. -/
def Sys.usedBays (s : Sys) (c : CoreRef) (k : Nat) : List Nat := (s.sliceWarps c k).flatMap fun x => x.2.bays

/-- The tiles in use on a slice. -/
def Sys.usedTiles (s : Sys) (c : CoreRef) (k : Nat) : Nat := ((s.sliceWarps c k).map fun x => x.1.tileCount).sum

/-- The BSM units in use on a core. -/
def Sys.usedUnits (s : Sys) (c : CoreRef) : List Nat := (s.coreBlocks c).flatMap Block.units

/-- The room of a slice while a block is placed: free warp slots, free bays, and the block's warps already there. -/
structure SliceRoom where
  slots  : Nat
  bays   : Nat
  placed : Nat := 0
deriving DecidableEq, Repr

/-- The rooms of the six slices of a core. -/
def Sys.rooms (s : Sys) (c : CoreRef) : List SliceRoom :=
  (List.range 6).map fun k => { slots := 16 - (s.sliceWarps c k).length, bays := 64 - (s.usedBays c k).length }

/-- The slice for the next warp (R18): the most free bays among those with room, ties to the lower number. -/
def chooseSlice (h : ProgramHeader) (rooms : List SliceRoom) : Option Nat :=
  let ok := fun (r : SliceRoom) =>
    1 ≤ r.slots && h.proBays ≤ r.bays && (r.placed + 1) * h.fullBays ≤ 64 && (r.placed + 1) * h.acc ≤ 16
  (leastBy (fun (a b : SliceRoom × Nat) => decide (b.1.bays < a.1.bays)) (rooms.zipIdx.filter fun x => ok x.1)).map Prod.snd

/-- The slices of `n` warps in rank order. -/
def placeWarps (h : ProgramHeader) : Nat → List SliceRoom → Option (List Nat)
  | 0, _ => some []
  | n + 1, rooms =>
    match chooseSlice h rooms with
    | none => none
    | some k =>
      let take := fun (x : SliceRoom × Nat) =>
        if x.2 == k then { slots := x.1.slots - 1, bays := x.1.bays - h.proBays, placed := x.1.placed + 1 : SliceRoom } else x.1
      (placeWarps h n (rooms.zipIdx.map take)).map (k :: ·)

/-- Full allotments promised to a block and not acquired, in bays (R18 (b)). -/
def Block.promised (b : Block) : Nat :=
  if b.granted || b.hdr.fullRegs == 0 then 0 else b.warps.length * (b.hdr.fullBays - b.hdr.proBays)

/-- Is a core in service (R351, R352)? -/
def Sys.coreReady (s : Sys) (c : CoreRef) : Bool := s.ready (26 + c.tower) && (s.core c).usable

/-- Admission of a block to a core (R18), by the factor in force at its CLOCK (R293): the slices of its warps, or none. -/
def Sys.admits (s : Sys) (c : CoreRef) (h : ProgramHeader) (warps units : Nat) : Option (List Nat) :=
  if !s.coreReady c || 512 < units then none
  else
    match placeWarps h warps (s.rooms c) with
    | none => none
    | some ks =>
      let free := ((s.rooms c).map SliceRoom.bays).sum - warps * h.proBays
      let promised := ((s.coreBlocks c).map Block.promised).sum + warps * (h.fullBays - h.proBays)
      let tilesFree := (List.range 6).all fun k => (ks.filter (· == k)).length * h.acc + s.usedTiles c k ≤ 16
      let now := h.fullRegs != 0 || (tilesFree && (s.usedUnits c).length + units ≤ 512)
      if 2 * promised ≤ (2 + (s.rolledCore c).ovc) * free && now then some ks else none

/-- The resident warps of a core. -/
def Sys.residentWarps (s : Sys) (c : CoreRef) : Nat := ((s.coreBlocks c).map fun b => b.warps.length).sum

/-- The core that a block goes to (R259): the fewest resident warps among those that are open to it and have room for it, ties to the lower
number. -/
def Sys.coreWith (s : Sys) (tower : Nat) (open_ : CoreRef → Bool) (h : ProgramHeader) (warps units : Nat) : Option (CoreRef × List Nat) :=
  let cs := (List.range 36).filter fun k => open_ ⟨tower, k⟩
  let order := sortBy (fun (a b : Nat × Nat) => decide (a.1 < b.1)) (cs.map fun k => (s.residentWarps ⟨tower, k⟩, k))
  order.findSome? fun x => (s.admits ⟨tower, x.2⟩ h warps units).map fun ks => (⟨tower, x.2⟩, ks)

/-- The core that a new block goes to (R259). -/
def Sys.coreFor (s : Sys) (tower : Nat) (h : ProgramHeader) (warps units : Nat) : Option (CoreRef × List Nat) :=
  s.coreWith tower (fun _ => true) h warps units

/-- Slot numbers and bays for warps placed on slices, in rank order. DESIGN CHOICE: of a slice's free warp slots and bays, which R18 does
not tell apart, the lowest numbers (log 124). -/
def allocate (slots bays : List (Nat × Nat)) (n : Nat) : List Nat → List (Nat × Nat × List Nat)
  | [] => []
  | k :: ks =>
    let slot := ((List.range 16).find? fun i => !slots.contains (k, i)).getD 0
    let mine := ((List.range 64).filter fun i => !bays.contains (k, i)).take n
    (k, slot, mine) :: allocate ((k, slot) :: slots) (mine.map (fun i => (k, i)) ++ bays) n ks

/-- The places of warps on a core. -/
def Sys.allocateWarps (s : Sys) (c : CoreRef) (n : Nat) (ks : List Nat) : List (Nat × Nat × List Nat) :=
  let ws := (s.coreBlocks c).flatMap Block.warps
  allocate (ws.map fun w => (w.slice, w.warpSlot)) (ws.flatMap fun w => w.bays.map fun i => (w.slice, i)) n ks

/-- The BSM units of a core that a block takes. DESIGN CHOICE: of the free ones, which R18 does not tell apart, the lowest (log 124). -/
def Sys.freeUnits (s : Sys) (c : CoreRef) (n : Nat) : List Nat :=
  let used := s.usedUnits c
  ((List.range 512).filter fun i => !used.contains i).take n

/-! ## A new block -/

/-- What R33 preloads by header bit: scalar registers. -/
def Block.scalarPreloads (b : Block) : List (Nat × Nat × Nat) :=
  [(0, 1, b.node.toNat), (1, 2, b.nchild), (2, 3, b.drawer), (3, 4, b.share.toNat), (4, 5, b.user.toNat), (5, 6, b.stage),
   (6, 7, b.sweep), (7, 8, b.depth.toNat)]

/-- The lane index in every lane of v0. -/
def laneIndexes : List (Nat × Word) := allLanes.map fun l => (l, BitVec.ofNat 32 l)

/-- A warp at dispatch (R20, R23, R31, R33). -/
def Block.newWarp (b : Block) (rank slice slot : Nat) (bays : List Nat) : Warp :=
  let h := b.hdr
  let s := (b.scalarPreloads.filter fun x => h.preload.getLsbD x.1).map fun x => (x.2.1, BitVec.ofNat 64 x.2.2)
  let v0 := if h.preload.getLsbD 8 then laneIndexes else []
  let v1 := if h.preload.getLsbD 9 then allLanes.map fun l => (64 + l, BitVec.ofNat 32 rank) else []
  { rank := rank, slice := slice, warpSlot := slot, bays := bays, s := Sparse.putAll [] s, v := Sparse.putAll [] (v0 ++ v1),
    tileCtl := List.replicate b.tileCount {}, ftz := h.ftz, tvec := h.tvec, tol := b.share,
    slotA := .at h.entry (BitVec.allOnes 64) }

/-- The preloads of a spawn block (R13), in place of those of R33. DESIGN CHOICE: s3 and s8, for which the spec gives a spawn block no value,
are 0 (log 67). -/
def Warp.spawnLoads (w : Warp) (b : Block) (items : List SpawnItem) : Warp :=
  let args := items.zipIdx.flatMap fun x =>
    [(2 * 64 + x.2, x.1.arg0.setWidth 32), (3 * 64 + x.2, x.1.arg0.extractLsb' 32 32),
     (4 * 64 + x.2, x.1.arg1.setWidth 32), (5 * 64 + x.2, x.1.arg1.extractLsb' 32 32)]
  { w with
    v := Sparse.putAll w.v (laneIndexes ++ args)
    s := Sparse.putAll w.s [(1, 0xFFFFFF), (6, BitVec.ofNat 64 b.stage), (7, BitVec.ofNat 64 b.sweep)]
    slotA := .at b.hdr.entry (LaneMask.ofLanes (List.range items.length)) }

/-- A block put on a core: its warps with their places, its units when it has no acquire phase (R19 (e)), and its number. -/
def Sys.seat (s : Sys) (b0 : Block) (c : CoreRef) (ks : List Nat) (f : Block → Warp → Warp) : Sys :=
  let (id, s1) := s.next
  let units := if b0.hdr.fullRegs == 0 then s.freeUnits c b0.bsmUnits else []
  let b1 : Block := { b0 with id := id, tower := c.tower, core := c.core, coreNo := (s.core c).nextNo % 65536,
                              granted := b0.hdr.fullRegs == 0, units := units, since := (s.tower c.tower).clock.toNat,
                              barriers := List.replicate 10 {} }
  let places := s.allocateWarps c b0.hdr.proBays ks
  let ws := places.zipIdx.map fun x => f b1 (b1.newWarp x.2 x.1.1 x.1.2.1 x.1.2.2)
  { (s1.setCore c fun k => { k with nextNo := k.nextNo + 1 }) with blocks := s1.blocks ++ [{ b1 with warps := ws }] }

/-- The parent's bound that a downward dispatch latches (R211); none: POISONED, or a poisoned header. -/
def latchParent (p : Phys) (s : Sys) (w : Sweep) (stage parent : Nat) : Option Nat :=
  ((w.drawerOf stage parent).bind fun off => towerWindow p s w.asid w.tower off).bind fun pa =>
    if p.anyPoison pa 8 then none
    else
      let v := p.num pa 4
      if natBits v 17 16 == DrawerStatus.poisoned.code then none else some (natBits v 15 0)

/-- The reading of the window entry of the drawer that a downward dispatch looks at, which is logged where it is bad (R234, R238). -/
def noteParent (p : Phys) (s : Sys) (w : Sweep) (stage parent : Nat) : Sys :=
  match w.drawerOf stage parent with
  | some off => s.noteWindow p w.asid w.tower (off / 65536)
  | none => s

/-- The units of a block's BSM: the record's, or the header's (R32, R250). -/
def Node.units (x : Node) (h : ProgramHeader) : Nat := if x.bsmu == 0 then h.bsmu else x.bsmu

/-- The block of a node at a stage (R202, R259). -/
def Node.block (x : Node) (w : Sweep) (stage : Nat) (h : ProgramHeader) : Block :=
  { id := 0, tower := w.tower, core := 0, sweep := w.id, asid := w.asid, queue := w.queue, node := BitVec.ofNat 24 x.index,
    stage := stage, parent := BitVec.ofNat 24 x.parent, first := x.first, nchild := x.count, depth := BitVec.ofNat 24 x.depth,
    prog := x.prog, opClass := x.opClass, idemp := x.idemp, retain := x.retain, rel := x.rel, norst := w.norst, down := w.down,
    user := x.user, need := if w.down then 0 else x.need, share := x.share, entry := classEntry w.table x.opClass, hdr := h,
    bsmUnits := x.units h, drawer := (w.drawerOf stage x.index).getD 0, drawerSize := w.drawerSize }

/-- A run that takes its drawer (R251), with the tries that a downward dispatch makes (R257). -/
def Sweep.takeDrawer (w : Sweep) (stage n : Nat) : Sweep :=
  let v := w.setRun stage n fun r => { r with state := .dispatched, drawer := some (w.freeSlot stage) }
  if w.down then v.retry stage else v

namespace Tx

variable {o : Phys}

/-- A dispatch of a node (R259): a new one takes its drawer; the header is written PENDING (R251); the block is latched and
seated. A restart keeps its admission time, its cycles, its count of poison restarts and the share that it was dispatched with
(R19 (d), R264). DEDUCED: it keeps the parent's drawer and certificate that its first dispatch latched (R203, R211), since a TAKE before the
restart may have freed the parent's drawer (log 69). -/
def dispatchNode (t : Tx o) (sweep stage n : Nat) (c : CoreRef) (ks : List Nat) (h : ProgramHeader) (again : Option Restart)
    (redo : Bool) : Tx o :=
  let t1 := if again.isSome || redo then t else t.map fun s => s.setSweep sweep fun w => w.takeDrawer stage n
  let t2 := t1.writeHeader sweep stage n .pending (some 0)
  match t2.sys.sweep sweep with
  | none => t2
  | some w =>
    match w.phase == .running, w.node n with
    | true, some x =>
      t2.upd fun p s0 =>
        let b := x.block w stage h
        let latches := w.down && x.parent != 0xFFFFFF && again.isNone
        let s := if latches then noteParent p s0 w stage x.parent else s0
        let order := s.order
        let b1 : Block :=
          { b with
            redispatch := redo
            parentDrawer := if latches then w.drawerOf stage x.parent else none
            parentCert := if latches then latchParent p s w stage x.parent else none
            admitted := order }
        let b2 : Block := match again with
          | none => b1
          | some r => { b1 with redispatch := r.redispatch, admitted := r.admitted, resident := r.resident, poisonRestart := r.poisonUsed,
                                share := r.share, parentDrawer := r.parentDrawer, parentCert := r.parentCert }
        { s with order := order + 1 }.seat b2 c ks fun _ w => w
    | _, _ => t2

/-- A node that is aborted in place of its dispatch (R18, R32). -/
def refuseNode (t : Tx o) (sweep stage n : Nat) : Tx o := t.abortNode sweep stage n .badHeader

/-- The dispatch of a forming warp as a spawn block (R13, R262). DESIGN CHOICE: its PARENT is 0xFFFFFF, its DEPTH 0 and its drawer 0, since it
has no node (log 67). -/
def dispatchSpawn (t : Tx o) (c : CoreRef) (g : Forming) (ks : List Nat) (h : ProgramHeader) : Tx o :=
  t.map fun s =>
    match s.sweep g.sweep with
    | none => s
    | some w =>
      let b : Block :=
        { id := 0, tower := w.tower, core := c.core, sweep := w.id, asid := w.asid, queue := w.queue, spawn := true, stage := g.stage,
          prog := g.prog, down := w.down, hdr := h, bsmUnits := h.bsmu, spawners := g.items.map SpawnItem.spawner, admitted := s.order }
      let s1 := { s with order := s.order + 1 }.setCore c fun k => { k with forming := k.forming.filter fun x => x.id != g.id }
      s1.seat b c ks fun b w => w.spawnLoads b g.items

/-- A spawn block that is aborted in place of its dispatch (R205, R259). DESIGN CHOICE (log 166): its items count as retired. -/
def refuseSpawn (t : Tx o) (c : CoreRef) (g : Forming) : Tx o :=
  match t.sys.sweep g.sweep with
  | none => t
  | some w =>
    let b : Block := { id := 0, tower := w.tower, core := c.core, sweep := w.id, queue := w.queue, spawn := true, stage := g.stage,
                       spawners := g.items.map SpawnItem.spawner }
    let t1 := t.map fun s => s.setCore c fun k => { k with forming := k.forming.filter fun x => x.id != g.id }
    let t2 := (t1.map fun s => s.logError (.aborted .badHeader w.id g.stage 0xFFFFFF)).appendError w.queue Cause.badHeader.code 2 0 g.stage 0xFFFFFF 0 0 0 0
    (t2.map fun s => s.itemsRetired b).checkEnd g.sweep

end Tx

/-! ## Restoring a saved block (R315, R316) -/

/-- The header as a restore counts it: a granted block needs its full allotment at once (R316). -/
def SavedBlock.needs (x : SavedBlock) : ProgramHeader :=
  let h := x.block.hdr
  if x.block.granted then { h with proRegs := max h.proRegs h.fullRegs, fullRegs := 0 } else h

/-- The only core that may take the block back: the one with an open slot that it opened or used (R290). -/
def SavedBlock.only (s : Sys) (x : SavedBlock) : Option Nat :=
  let b := x.block
  if (s.core b.coreRef).accSlots.any fun a => a.block == b.id || NatSet.has b.usedSlots a.number then some b.core else none

/-- Has a core's checker room for the block's cards, or for the first 64 of them, which do not enter among those of a chain (R283)? DESIGN CHOICE:
a core without it does not take the block back yet (log 65). -/
def checkerRoom (s : Sys) (c : CoreRef) (x : SavedBlock) : Bool :=
  x.cards.isEmpty || ((s.core c).kick.isNone && decide ((s.core c).cards.length + min 64 x.cards.length ≤ 64))

/-- May a core take the block back (R290, R316)? -/
def SavedBlock.mayEnter (s : Sys) (x : SavedBlock) (c : CoreRef) : Bool :=
  (match x.only s with | some k => k == c.core | none => true) && checkerRoom s c x

/-- A restored card behind the cards of other blocks on its new core that it overlaps, but for those that wait for it already (R179, R284,
log 123). -/
def Sys.orderCard (s : Sys) (r : CoreRef) (y : Card) : Sys :=
  let own := (s.allCards.filter fun z => z.block == y.block).map Card.id
  s.setCard r y.id fun c => { c with behind := c.behind ++ (s.cardsBefore r y).filter fun i => !own.contains i }

/-- The cards of a restored block behind its 64th, which stand in the kick register and enter the checker as its slots are freed (R283, log 75);
the KICK that brought them is done. -/
def restChain (block : Nat) (cards : List Card) : Option KickChain :=
  match cards.drop 64 with
  | [] => none
  | y :: ys => some { warp := { block := block, rank := y.rank }, op := 0, cards := y :: ys }

/-- A restored block on its core: new places and units, its cards behind those in the checker, its stores to drain first. TIGHTENs whose
child has retired since complete now (R216). -/
def Sys.reseat (s : Sys) (x : SavedBlock) (c : CoreRef) (ks : List Nat) : Sys :=
  let b := x.block
  let places := s.allocateWarps c x.needs.proBays ks
  let ws := (b.warps.zip places).map fun y =>
    let w := x.tightened.foldl (fun (w : Warp) z => w.completeTighten z.1 z.2) y.1
    { w with slice := y.2.1, warpSlot := y.2.2.1, bays := y.2.2.2, draining := (w.ops.filter Op.isStore).map Op.id }
  let b1 : Block := { b with tower := c.tower, core := c.core, coreNo := (s.core c).nextNo % 65536,
                             units := if b.granted then s.freeUnits c b.bsmUnits else [],
                             since := (s.tower c.tower).clock.toNat, stopping := false, warps := ws }
  let back := x.cards.map fun y => { y with state := if y.state == .running then CardState.waiting else y.state }
  let s1 := s.setTower c.tower fun t => { t with saved := t.saved.filter fun y => y.block.id != b.id }
  let s2 : Sys :=
    { (s1.setCore c fun k =>
        { k with nextNo := k.nextNo + 1, cards := k.cards ++ back.take 64, kick := (restChain b.id back).orElse fun _ => k.kick }) with
      blocks := s1.blocks ++ [b1] }
  (back.take 64).foldl (fun s y => s.orderCard c y) s2

/-- A saved block aborted: it leaves the pool with its cards and their suspensions (R302). -/
def Tx.abortSaved {o : Phys} (t : Tx o) (x : SavedBlock) (cause : Cause) (rank faddr : Nat) : Tx o :=
  let b := { x.block with since := (t.sys.tower x.block.tower).clock.toNat }
  let t1 := t.map fun s =>
    { (s.setTower b.tower fun k => { k with saved := k.saved.filter fun y => y.block.id != b.id }) with
      faults := s.faults.filter fun f => !(x.cards.filterMap Card.faultId).contains f.id }
  t1.abortThe b cause rank 0 faddr 0

/-- A saved block whose record does not restore fails (R315). -/
def Tx.failRestore {o : Phys} (t : Tx o) (x : SavedBlock) : Tx o := t.abortSaved x .contextRestore 0 0

/-! ## Readiness -/

/-- The completion bit of a predecessor that stands for a node of its successor (R260). -/
def Sweep.predecessorBit (w v : Sweep) (stage n : Nat) : Nat :=
  let m := match w.dove with
    | 1 => n
    | 2 => match v.node n with
      | some x => if x.parent == 0xFFFFFF then v.root else x.parent
      | none => v.root
    | _ => v.root
  stage * v.nodesN + m

/-- The predecessor's part of a node's readiness (R260): its completion for NONE, else the completion bit of the mapped node. DESIGN CHOICE: a bit
that can no longer be read leaves the node not ready, without a record of the fault (log 151). -/
def predecessorReady (p : Phys) (s : Sys) (w : Sweep) (stage n : Nat) : Bool :=
  match w.pred.bind s.sweep with
  | none => true
  | some v =>
    if w.dove == 0 then v.phase == .complete
    else
      let bit := w.predecessorBit v stage n
      match readVirtual p s v.asid (v.bitmap + bit / 8) 1 with
      | .ok y => natBit y (bit % 8)
      | .error _ => false

/-- The readings of completion bits for nodes that have become ready, noted (R303). -/
def Sys.noteBits (p : Phys) (s : Sys) (w : Sweep) (xs : List Run) : Sys :=
  match w.pred.bind s.sweep with
  | none => s
  | some v =>
    if w.dove == 0 then s
    else xs.foldl (fun s r => s.noteRead p v.asid (v.bitmap + w.predecessorBit v r.stage r.node / 8) 1) s

/-- The inputs of a node at a stage are ready (R259, R260). -/
def inputsReady (p : Phys) (s : Sys) (w : Sweep) (stage : Nat) (x : Node) : Bool :=
  let retired := fun (st n : Nat) => (w.run st n).state == .retired
  (stage == 0 || retired (stage - 1) x.index) &&
  (if w.down then x.parent == 0xFFFFFF || retired stage x.parent else x.children.all (retired stage)) &&
  predecessorReady p s w stage x.index

/-- Has a node of a tower's running sweep become ready, which has not been noted yet? -/
def newlyReady (p : Phys) (s : Sys) (tower : Nat) (w : Sweep) (r : Run) : Bool :=
  w.tower == tower && w.phase == .running && r.readyAt.isNone && (w.node r.node).any (inputsReady p s w r.stage)

/-- Nodes that have become ready are noted with the time. -/
def markReady (p : Phys) (s : Sys) (tower : Nat) : Sys :=
  let now := (s.tower tower).clock.toNat
  let s1 := if s.inputs.hostErrors.isEmpty then s
    else s.sweeps.foldl (fun (y : Sys) w => y.noteBits p w (w.runs.filter (newlyReady p s tower w))) s
  { s1 with sweeps := s.sweeps.map fun w =>
      { w with runs := w.runs.map fun r => if newlyReady p s tower w r then { r with readyAt := some now } else r } }

/-! ## The dispatch decision (R259, R265) -/

/-- A ready and admitted node that has not been dispatched. -/
structure Candidate where
  sweep : Nat
  queue : Nat
  stage : Nat
  ready : Nat
  node  : Nat
deriving DecidableEq, Repr

/-- The new nodes of a tower whose inputs are ready and whose subtree is admitted. -/
def candidates (s : Sys) (tower : Nat) : List Candidate :=
  s.sweeps.flatMap fun w =>
    if w.tower != tower || w.phase != .running then []
    else w.runs.filterMap fun r =>
      match r.state, r.readyAt with
      | .admitted, some at_ => some { sweep := w.id, queue := w.queue, stage := r.stage, ready := at_, node := r.node }
      | _, _ => none

/-- The order within a queue (R259 (e)). -/
def Candidate.before (a b : Candidate) : Bool :=
  if a.stage != b.stage then decide (a.stage < b.stage)
  else if a.ready != b.ready then decide (a.ready < b.ready)
  else if a.node != b.node then decide (a.node < b.node)
  else decide (a.sweep < b.sweep)

/-- What a dispatch of a candidate would do now. -/
inductive Verdict where
  /-- its header waits, or no core admits it -/
  | wait
  /-- it is chosen and aborted -/
  | refuse
  | place (c : CoreRef) (ks : List Nat) (h : ProgramHeader)
deriving DecidableEq, Repr

/-- Where a node with a header may go. -/
def placeNode (s : Sys) (tower : Nat) (x : Node) (h : Option (Option ProgramHeader)) : Verdict :=
  match h with
  | none => .wait
  | some none => .refuse
  | some (some h) =>
    if !h.fits x.warps (x.units h) then .refuse
    else
      match s.coreFor tower h x.warps (x.units h) with
      | some (c, ks) => .place c ks h
      | none => .wait

/-- The verdict on a candidate. -/
def Candidate.verdict (s : Sys) (x : Candidate) : Verdict :=
  match s.sweep x.sweep with
  | none => .wait
  | some w =>
    match w.node x.node with
    | none => .wait
    | some n => placeNode s w.tower n (w.heldHeader n.prog)

/-- The first dispatchable new node of each queue. -/
def dispatchable (s : Sys) (tower : Nat) : List (Nat × Candidate × Verdict) :=
  let cs := sortBy Candidate.before (candidates s tower)
  (List.range 32).filterMap fun q =>
    (cs.filter fun x => x.queue == q).findSome? fun x =>
      match x.verdict s with
      | .wait => none
      | v => some (q, x, v)

/-- The arbitration of R265: the queue that is served, and the tower's deficits and pointers after it. -/
def arbitrate (s : Sys) (t : Tower) (qs : List Nat) : Option Nat × Tower :=
  let unit := fun (q : Nat) => ((s.queue q).weight : Int) * 4096
  let def_ := fun (t : Tower) (q : Nat) => t.deficit.getD q 0
  let cls := fun (q : Nat) => (s.queue q).cls
  let cap := fun (t : Tower) =>
    { t with deficit := t.deficit.zipIdx.map fun x => if qs.contains x.2 then x.1 else min x.1 (unit x.2) }
  match (qs.map cls).min? with
  | none => (none, cap t)
  | some k =>
    let own := qs.filter fun q => cls q == k
    let rounds := (own.map fun q => (max 0 ((unit q - def_ t q) / unit q)).toNat).min?.getD 0
    let t1 := if own.any fun q => 0 < def_ t q then t
      else { t with deficit := t.deficit.zipIdx.map fun x => if own.contains x.2 then x.1 + rounds * unit x.2 else x.1 }
    let e := own.filter fun q => 0 < def_ t1 q
    let at_ := t.classPtr.getD k 0
    match leastBy (fun (a b : Nat) => decide ((a + 32 - at_) % 32 < (b + 32 - at_) % 32)) e with
    | none => (none, cap t1)
    | some q => (some q, cap { t1 with classPtr := t1.classPtr.set k ((q + 1) % 32) })

/-- The spawn blocks that may go (R262): ready forming warps of the tower, lowest core first. -/
def readySpawns (s : Sys) (tower : Nat) : List (CoreRef × Forming) :=
  (List.range 36).flatMap fun k => ((s.core ⟨tower, k⟩).forming.filter Forming.ready).map fun g => (⟨tower, k⟩, g)

/-- The verdict on a spawn block: only its own core may take it (R259). -/
def spawnVerdict (s : Sys) (c : CoreRef) (g : Forming) : Verdict :=
  match (s.sweep g.sweep).bind fun w => w.heldHeader g.prog with
  | none => .wait
  | some none => .refuse
  | some (some h) =>
    if !h.fits 1 h.bsmu then .refuse
    else
      match s.admits c h 1 h.bsmu with
      | some ks => .place c ks h
      | none => .wait

/-- The verdict on a restart or a re-dispatch. -/
def againVerdict (s : Sys) (sweep node : Nat) : Verdict :=
  match s.sweep sweep with
  | none => .wait
  | some w =>
    match w.node node with
    | none => .wait
    | some x => placeNode s w.tower x (w.heldHeader x.prog)

/-- The block that is dispatched next (R259 (a) to (d)). -/
inductive Choice where
  | restore (x : SavedBlock) (c : CoreRef) (ks : List Nat)
  | restart (r : Restart) (v : Verdict)
  | redispatch (r : Redispatch) (v : Verdict)
  | spawn (c : CoreRef) (g : Forming) (v : Verdict)
  | none
deriving DecidableEq, Repr

/-- The first available block in front of the new nodes. DEDUCED: "oldest" is the earliest admission time, as in R19 (d). DESIGN CHOICE: of several
restarts, or of several re-dispatches, that wait, for which R259 (b) and (c) give no order, the one flushed, or asked for, earliest that some core
admits goes first (log 152). -/
def chooseFirst (s : Sys) (tower : Nat) : Choice :=
  let t := s.tower tower
  let done := t.saved.filter fun x => !t.records.any fun r => r.block == x.block.id && r.state != 3
  let olds := sortBy (fun (a b : SavedBlock) => decide (a.block.admitted < b.block.admitted)) done
  let restore := olds.findSome? fun x =>
    (s.coreWith tower (x.mayEnter s) x.needs x.block.warps.length x.block.bsmUnits).map fun y => Choice.restore x y.1 y.2
  let usable := fun (v : Verdict) => v != .wait
  let restart := (t.restarts.filter fun r => r.page.isNone).findSome? fun r =>
    let v := againVerdict s r.sweep r.node
    if usable v then some (Choice.restart r v) else none
  let redo := t.redispatches.findSome? fun r =>
    let v := againVerdict s r.sweep r.node
    if usable v then some (Choice.redispatch r v) else none
  let spawn := (readySpawns s tower).findSome? fun x =>
    let v := spawnVerdict s x.1 x.2
    if usable v then some (Choice.spawn x.1 x.2 v) else none
  ((restore.orElse fun _ => restart).orElse fun _ => redo.orElse fun _ => spawn).getD .none

/-- The headers that the coming dispatches need (R259). -/
def headersNeeded (s : Sys) (tower : Nat) : List (Nat × Nat) :=
  let ofNode := fun (sweep node : Nat) => ((s.sweep sweep).bind fun w => w.node node).map fun x => (sweep, x.prog)
  ((candidates s tower).filterMap fun x => ofNode x.sweep x.node) ++
  ((s.tower tower).restarts.filterMap fun r => ofNode r.sweep r.node) ++
  ((s.tower tower).redispatches.filterMap fun r => ofNode r.sweep r.node) ++
  ((readySpawns s tower).map fun x => (x.2.sweep, x.2.prog))

namespace Tx

variable {o : Phys}

/-- The cycle of a tower's dispatch noted (R259: at most one for each). -/
def noteDispatch (t : Tx o) (tower : Nat) : Tx o :=
  t.map fun s => s.setTower tower fun k => { k with dispatchedAt := some k.clock.toNat }

/-- The chosen block dispatched. -/
def carryOut (t : Tx o) (tower : Nat) : Choice → Tx o
  | .none => t
  | .restore x c ks =>
    match x.readBack t.phys (t.sys.poolBase tower + x.room) with
    | some y => t.map fun s => s.reseat y c ks
    | none => t.failRestore x
  | .restart r v =>
    let t1 := t.map fun s => s.setTower tower fun k => { k with restarts := k.restarts.filter fun y => y != r }
    match v with
    | .place c ks h => t1.dispatchNode r.sweep r.stage r.node c ks h (some r) false
    | _ => t1.refuseNode r.sweep r.stage r.node
  | .redispatch r v =>
    let t1 := t.map fun s => s.setTower tower fun k => { k with redispatches := k.redispatches.erase r }
    match v with
    | .place c ks h => t1.dispatchNode r.sweep r.stage r.node c ks h none true
    | _ => t1.refuseNode r.sweep r.stage r.node
  | .spawn c g v =>
    match v with
    | .place c ks h => t.dispatchSpawn c g ks h
    | _ => t.refuseSpawn c g

/-- The dispatch of a new node, by the arbitration. -/
def dispatchNew (t : Tx o) (tower : Nat) : Tx o :=
  let ds := dispatchable t.sys tower
  let (q, k) := arbitrate t.sys (t.sys.tower tower) (ds.map fun x => x.1)
  let t1 := t.map fun s => s.setTower tower fun _ => k
  match q.bind fun q => ds.find? fun x => x.1 == q with
  | none => t1
  | some (_, x, v) =>
    match v with
    | .place c ks h => (t1.noteDispatch tower).dispatchNode x.sweep x.stage x.node c ks h none false
    | _ => (t1.noteDispatch tower).refuseNode x.sweep x.stage x.node

end Tx

/-- Has a tower dispatched a block in this core cycle (R259)? -/
def Tower.dispatched (t : Tower) : Bool := t.dispatchedAt == some t.clock.toNat

/-- BLOCK_DISPATCH (R259): headers are read, and at most one block of the tower is dispatched in a core cycle. -/
def execBlockDispatch (tower : Nat) (s : State) : Host.Outcome State Fault Refusal :=
  work s fun _ t =>
    let t1 := t.upd fun p s => markReady p (s.blocks.foldl (fun s b => if b.tower == tower then s.noteTaken b else s) s) tower
    let t2 := (headersNeeded t1.sys tower).foldl (fun t x => t.loadHeader x.1 x.2) t1
    if (t2.sys.tower tower).dispatched then t2
    else
      match chooseFirst t2.sys tower with
      | .none => t2.dispatchNew tower
      | c => (t2.noteDispatch tower).carryOut tower c

/-! ## Grants -/

/-- Can the grant be made (R19 (b))? -/
def grantPossible (s : Sys) (b : Block) : Bool :=
  let c := b.coreRef
  let more := b.hdr.fullBays - b.hdr.proBays
  ((List.range 6).all fun k =>
    let n := (b.warps.filter fun w => w.slice == k).length
    n * more + (s.usedBays c k).length ≤ 64 && n * b.hdr.acc + s.usedTiles c k ≤ 16) &&
  (s.usedUnits c).length + b.bsmUnits ≤ 512

/-- The further bays of a block's warps, in rank order: the lowest free ones (DESIGN CHOICE, log 124). -/
def Sys.grantBays (s : Sys) (b : Block) : List (List Nat) :=
  let ws := (s.coreBlocks b.coreRef).flatMap Block.warps
  (allocate [] (ws.flatMap fun w => w.bays.map fun i => (w.slice, i)) (b.hdr.fullBays - b.hdr.proBays)
    (b.warps.map Warp.slice)).map fun x => x.2.2

/-- Is the instruction a REGACQ that waits? -/
def Op.isRegacq (x : Op) : Bool := match x.body with | .regacq _ => true | _ => false

/-- A warp granted its allotment: its bays and tiles, zeroed, and every REGACQ of it completes (R19, R113). The elements of a register beyond the
bays that it has are those of the new bays. -/
def Warp.grant (w : Warp) (bays : List Nat) (tiles : Nat) : Warp :=
  let waiting := w.ops.filterMap fun x => match x.body with | .regacq n => some (x.slot, n) | _ => none
  let old := elemKey (32 * w.bays.length) 0
  let w1 : Warp := { w with bays := w.bays ++ bays, v := w.v.filter fun x => decide (x.1 < old), vPoison := w.vPoison.filter fun k => decide (k < old),
                            tileCtl := List.replicate tiles {}, tiles := [], tilePoison := [],
                            ops := w.ops.filter fun x => !x.isRegacq, clearing := w.cleared (w.ops.filter Op.isRegacq) }
  waiting.foldl (fun v x => v.setSlot x.1 fun z => { z.step x.2 with issued := z.issued + 1 }) w1

/-- REGACQ_GRANT (R19 (b), (c)): all of it in one step. -/
def execRegacqGrant (id : Nat) (s : State) : Host.Outcome State Fault Refusal :=
  work s fun _ t =>
    match t.sys.block id with
    | none => t
    | some b =>
      if !b.regRequest || b.granted || b.stopping || !grantPossible t.sys b then t
      else
        let t1 := t.map fun s =>
          let bays := s.grantBays b
          s.setBlock id fun x =>
            { x with granted := true, regRequest := false, units := s.freeUnits b.coreRef b.bsmUnits, bsm := [], bsmPoison := [],
                     warps := (x.warps.zip bays).map fun y => y.1.grant y.2 b.hdr.acc }
        b.warps.foldl (fun t w => t.after { block := id, rank := w.rank }) t1

/-! ## Spawned items -/

/-- SPAWN_PACK_TIMEOUT (R262): PKTO core cycles after the first item arrived, the forming warp is to be dispatched. -/
def execSpawnPackTimeout (c : CoreRef) (id : Nat) (s : State) : Host.Outcome State Fault Refusal :=
  keepMemory s fun _ y =>
    let now := (y.tower c.tower).clock.toNat
    y.setCore c fun k =>
      { k with forming := k.forming.map fun g =>
          if g.id == id && ((y.sweep g.sweep).map Sweep.pkto).getD 2048 ≤ now - g.since then { g with ready := true } else g }

/-- The next item of a core in the spawn areas: the one that arrived first. -/
def Sys.nextSpilled (s : Sys) (c : CoreRef) : Option SpawnItem :=
  leastBy (fun (a b : SpawnItem) => decide (a.seq < b.seq))
    ((s.sweeps.filter fun w => w.tower == c.tower).flatMap fun w => w.spawnArea.filter fun x => x.core == c.core)

/-- SPAWN_AREA_REFILL (R262): an item returns to the queue as room appears. -/
def execSpawnAreaRefill (c : CoreRef) (s : State) : Host.Outcome State Fault Refusal :=
  keepMemory s fun _ y =>
    if 4096 ≤ (y.core c).queued then y
    else
      match y.nextSpilled c with
      | none => y
      | some x => (y.setSweep x.sweep fun w => { w with spawnArea := w.spawnArea.filter fun z => z.seq != x.seq }).gather c x

/-! ## Retire -/

/-- The conditions of R226. -/
def Sys.mayRetire (s : Sys) (b : Block) : Bool :=
  let k := s.core b.coreRef
  b.warps.all Warp.exited && !k.cards.any (fun x => x.block == b.id) &&
  !(match k.kick with | some q => q.warp.block == b.id | none => false) &&
  !k.accSlots.any (fun a => a.block == b.id && a.count ≤ a.received)

/-- BLOCK_RETIRE (R226, R259). -/
def execBlockRetire (id : Nat) (s : State) : Host.Outcome State Fault Refusal :=
  work s fun _ t =>
    match t.sys.block id with
    | none => t
    | some b =>
      if !t.sys.mayRetire b then t
      else ((t.map fun s => s.noteTaken b).retireBlock b).upd fun p s => markReady p s b.tower

end Sys2Proof.Machine
end

