-- ==== Sys2Proof/Machine/Preempt.lean ====
section
/-! DEFINITION. Pre-emption (R19 (d), R194, R216, R266, R279, R307 to R316): requests, room in the context pool, the stop
points of the units, and the save. -/

namespace Sys2Proof.Machine

/-! ## Eligibility -/

/-- Is the slot at a stop point (R68): invalid, at a header, held at issue by an instruction that has performed nothing, be it by a full
in-flight counter or store buffer, or kept from issuing by a TRAP pair (R100)? A waiting trap enters first (R300). -/
def atStop (p : Phys) (s : Sys) (b : Block) (w : Warp) (z : SlotId) : Bool :=
  let y := w.slot z
  !y.valid || (y.trap.isNone && (y.left == 0 || (y.hold != .none && y.hold != .rowFetch) || w.trapBlocked z || (slotCrowded p s b w z).isSome))

/-! ## The room of a context (R311, R312) -/

/-- The size of a tower's context pool in bytes (R319). -/
def Sys.poolSize (s : Sys) (tower : Nat) : Nat :=
  (if tower == 0 then natBits s.device.globals.toNat 127 116 else natBits s.device.globals.toNat 191 180) * 0x100000

/-- The request records that are busy: not free and not done (R308). -/
def Tower.busy (t : Tower) : List PreemptRecord := t.records.filter fun r => r.state != 3

/-- The rooms in use: offset and size. -/
def Tower.rooms (t : Tower) : List (Nat × Nat) :=
  (t.saved.map fun x => (x.room, x.size)) ++ t.busy.map fun r => (r.room, r.size)

/-- The lowest offset at which `n` bytes are free. DESIGN CHOICE: first fit. -/
def findRoom (rooms : List (Nat × Nat)) (size n : Nat) : Option Nat :=
  let starts := sortBy (fun (a b : Nat) => decide (a < b)) (0 :: rooms.map fun x => x.1 + x.2)
  starts.find? fun a => decide (a + n ≤ size) && !rooms.any fun x => rangesMeet a n x.1 x.2

/-! ## Requests (R308 to R311) -/

/-- Has a warp an MMA outstanding? -/
def Warp.hasMma (w : Warp) : Bool := w.ops.any fun x => match x.body with | .mma _ => true | _ => false

/-- NEED (R308). -/
def Block.need16 (b : Block) : BitVec 16 :=
  let bits := (b.warps.map fun w => 2 ^ w.slice) ++ ((b.warps.filter Warp.hasMma).map fun w => 2 ^ (6 + w.slice))
  bits.foldl (fun v x => v ||| BitVec.ofNat 16 x) 0xF000

/-- Is a TIGHTEN of the block outstanding? -/
def Block.tightening (b : Block) : Bool :=
  b.warps.any fun w => w.ops.any fun x => match x.body with | .tighten .. => true | _ => false

/-- What a request came to. -/
inductive RequestEnd where
  /-- made, merged into an earlier one, or served by a flush; or the block is gone -/
  | taken
  /-- 16 records are busy -/
  | waits
  /-- no room -/
  | refused
deriving DecidableEq, Repr

/-- R310: a flush and restart in place of saving. -/
def Block.flushes (b : Block) (reason : PreemptReason) : Bool :=
  (reason == .highLatency || reason == .hostRequest) && b.restartable && !b.tightening

/-- A new request record with its room, in the lowest record that is not busy. -/
def Tower.newRecord (t : Tower) (b : Block) (reason : PreemptReason) (room size : Nat) (ftime : DWord) (now : Nat) : PreemptRecord :=
  { index := ((List.range 16).find? fun i => !t.busy.any fun r => r.index == i).getD 0, need := b.need16, ack := 0,
    reason := reason, state := 1, core := b.core, coreNo := b.coreNo, block := b.id, t0 := ftime, at_ := now, room := room, size := size }

/-- A request record made for a block; a done record in its place is freed. -/
def Sys.makeRecord (s : Sys) (b : Block) (reason : PreemptReason) (room size : Nat) : Sys :=
  s.setTower b.tower fun k =>
    let r := k.newRecord b reason room size s.ftime s.now
    { k with records := (k.records.filter fun x => x.index != r.index) ++ [r], waiting := k.waiting.filter fun x => x.1 != b.id }

namespace Tx

variable {o : Phys}

/-- A request for a block (R309 (a), R310, R311): merged into an earlier one, waiting for a free record, or made. A flush, a refusal and an
abort end its record. -/
def requestPreempt (t : Tx o) (id : Nat) (reason : PreemptReason) : Tx o × RequestEnd :=
  match t.sys.block id with
  | none => (t, .taken)
  | some b =>
    let w := t.sys.tower b.tower
    let make := fun (room size : Nat) => t.map fun s => s.makeRecord b reason room size
    if w.busy.any fun r => r.block == id then (t, .taken)
    else if 16 ≤ w.busy.length then
      (if w.waiting.any fun x => x.1 == id then t
       else t.map fun s => s.setTower b.tower fun k => { k with waiting := k.waiting ++ [(id, reason)] }, .waits)
    else if b.flushes reason then ((make 0 0).flush b none false, .taken)
    else
      let size := t.sys.contextSize b
      match findRoom w.rooms (t.sys.poolSize b.tower) size with
      | none =>
        if reason == .acquireDeadlock then ((make 0 0).abortBlock id .contextPool 0 0 0 0, .taken)
        else ((make 0 0).map fun s => s.setTower b.tower fun k => k.endRecord id, .refused)
      | some room => ((make room size).map fun s => s.setBlock id fun b => { b with stopping := true }, .taken)

/-- Requests for blocks in order, until one is not refused. -/
def requestFirst (t : Tx o) (reason : PreemptReason) : List Nat → Tx o
  | [] => t
  | id :: rest =>
    match t.requestPreempt id reason with
    | (t1, .refused) => requestFirst t1 reason rest
    | (t1, _) => t1

end Tx

/-- Blocks from the youngest to the oldest by admission time (R19 (d)). -/
def youngestFirst (bs : List Block) : List Nat :=
  (sortBy (fun (a b : Block) => decide (b.admitted < a.admitted)) bs).map Block.id

/-- PREEMPT_REQUEST (R309). -/
def execPreemptRequest (id : Nat) (reason : PreemptReason) (s : State) : Host.Outcome State Fault Refusal :=
  work s fun _ t => (t.requestPreempt id reason).1

/-- Does every resident block on a core wait for a grant that cannot be made (R19 (d))? -/
def acquireDeadlocked (s : Sys) (c : CoreRef) : Bool :=
  let bs := s.coreBlocks c
  !bs.isEmpty && bs.all (fun b => b.regRequest && !b.granted && !b.stopping) && !bs.any (grantPossible s)

/-- ACQUIRE_DEADLOCK_EVICTION (R19 (d)). -/
def execAcquireDeadlockEviction (c : CoreRef) (s : State) : Host.Outcome State Fault Refusal :=
  work s fun _ t =>
    if acquireDeadlocked t.sys c then t.requestFirst .acquireDeadlock ((youngestFirst (t.sys.coreBlocks c)).take 1) else t

/-- Is the program header of a node held (R259, R265)? -/
def headerHeld (s : Sys) (sweep node : Nat) : Bool :=
  ((s.sweep sweep).bind fun w => (w.node node).bind fun n => w.heldHeader n.prog).isSome

/-- The HIGH queue's node that R266 serves: the oldest dispatchable new node of each HIGH queue, whose header is held, when it has waited
longer than the queue's tolerance and no core admits it. The wait is counted in core cycles at the present clock, 5 cycles per µs for
each code. -/
def highWaiting (s : Sys) (tower : Nat) (code : Nat) : Bool :=
  let now := (s.tower tower).clock.toNat
  (List.range 32).any fun q =>
    (s.queue q).cls == 0 &&
      match leastBy (fun (a b : Candidate) => if a.ready != b.ready then decide (a.ready < b.ready) else a.before b)
          ((candidates s tower).filter fun x => x.queue == q && headerHeld s x.sweep x.node) with
      | none => false
      | some x => x.verdict s == .wait && decide ((s.queue q).ltol * 5 * code < now - x.ready)

/-- HIGH_LATENCY_PREEMPT (R266): the youngest BULK block, or on a refusal the next youngest (R311); once per core cycle. -/
def execHighLatencyPreempt (tower : Nat) (s : State) : Host.Outcome State Fault Refusal :=
  work s fun _ t =>
    let k := t.sys.tower tower
    if k.highAt != some k.clock.toNat && highWaiting t.sys tower t.sys.clockCode then
      (t.map fun s => s.setTower tower fun k => { k with highAt := some k.clock.toNat }).requestFirst .highLatency
        (youngestFirst (t.sys.blocks.filter fun b => b.tower == tower && (t.sys.queue b.queue).cls == 2 && !b.stopping))
    else t

/-- Does a re-dispatch whose header is held wait for a core that admits it (R279)? -/
def redispatchStuck (s : Sys) (tower : Nat) : Bool :=
  (s.tower tower).redispatches.any fun r => againVerdict s r.sweep r.node == .wait && headerHeld s r.sweep r.node

/-- REDISPATCH_ROOM_PREEMPT (R279): no core admits a re-dispatch, and the youngest block that waits in TIGHTEN goes; once per core cycle. -/
def execRedispatchRoomPreempt (tower : Nat) (s : State) : Host.Outcome State Fault Refusal :=
  work s fun _ t =>
    let k := t.sys.tower tower
    if k.roomAt != some k.clock.toNat && redispatchStuck t.sys tower then
      (t.map fun s => s.setTower tower fun k => { k with roomAt := some k.clock.toNat }).requestFirst .redispatchRoom
        (youngestFirst (t.sys.blocks.filter fun b => b.tower == tower && b.tightening && !b.stopping))
    else t

/-! ## Stopping (R307) -/

/-- An instruction that a slice lets complete before it stops (R307), with room in the checker or without; the rest stays with the context: a
store that has not been sent to its home, a waiting arrival, an MMA whose rows are fetched and the tile operations behind it, a TIGHTEN and a
REGACQ. DEDUCED: a KICK or MDRAIN completes while the checker takes its cards; the cards that a full checker does not take are saved with the
block's (log 75). -/
def Op.mustComplete (x : Op) (room : Bool) : Bool :=
  match x.body with
  | .load .. | .loadPerm _ | .atomic .. | .contribute .. | .sfu .. | .crng .. | .cert .. => true
  | .store sp .. => sp == .priv || x.passed
  | .mma k => !k.fetched && !k.restored
  | .kick => room
  | _ => false

/-- Has a warp stopped? -/
def warpStopped (p : Phys) (s : Sys) (b : Block) (w : Warp) : Bool :=
  let room := decide ((s.core b.coreRef).cards.length < 64)
  atStop p s b w .A && atStop p s b w .B && !w.ops.any fun x => x.mustComplete room

/-- The ACK bit of a unit (R308). -/
def stopBit (u : StopUnit) : Nat :=
  match u with
  | .slice n => if n < 6 then n else 16
  | .matrix n => if n < 6 then 6 + n else 16
  | .copyEngine => 12
  | .atomicEngine => 13
  | .packingUnit => 14
  | .sequencer => 15

/-- Has a unit reached its stop point for a block (R307)? -/
def unitStopped (p : Phys) (s : Sys) (b : Block) (u : StopUnit) : Bool :=
  match u with
  | .slice n => (b.warps.filter fun w => w.slice == n).all (warpStopped p s b)
  | .matrix n => (b.warps.filter fun w => w.slice == n).all fun w => w.ops.all fun x => match x.body with
      | .mma k => k.fetched || k.restored
      | _ => true
  | .copyEngine => (s.core b.coreRef).cards.all fun c => c.block != b.id || c.state != .running || (!c.inChunk && !c.written)
  | .atomicEngine => b.warps.all fun w => w.ops.all fun x => match x.body with
      | .atomic .. | .contribute .. => false
      | _ => true
  | .packingUnit | .sequencer => true

/-! ## The save (R309, R312, R313) -/

/-- The row at which the Matrix Unit stops an MMA that has all its rows (R194): the spec leaves open how many it has
finished. -/
def stopRow (free : Nat) (k : MmaWork) : Nat := max k.start ((Config.freeByte free).toNat % 65)

/-- An MMA as it is saved: its rows below the stop row final, the operands to be read again (R194). DESIGN CHOICE (log 160): RPR holds the
stop row from here until the MMA completes, and SRD returns it. -/
def saveMma (w : Warp) (k : MmaWork) (row : Nat) : Warp × MmaWork :=
  let y := k.commit row w
  let w1 := (k.bad.filter fun i => i < row).foldl (fun w i => w.poisonRow k.tile i) y.1
  ({ w1 with rpr := BitVec.ofNat 8 row },
   { k with start := row, bRows := none, bScales := 0, aRows := [], bad := [], fetched := false, restored := true, counted := false,
            waitPage := none, flags := k.flags ||| y.2 })

/-- A warp as it is saved: its first MMA stopped at a row, the later ones not begun, its REGACQ to be executed again and its
KICK done with its cards. -/
def Warp.save (w : Warp) (free : Nat) : Warp :=
  let w0 := { w with ops := w.ops.filter fun x => match x.body with | .regacq _ | .kick => false | _ => true, clearing := [] }
  let mmas := w0.ops.filter fun x => match x.body with | .mma _ => true | _ => false
  let w1 := mmas.zipIdx.foldl (fun (v : Warp) x =>
    match x.1.body with
    | .mma k =>
      let first := x.2 == 0 && k.fetched && v.tileTurn x.1
      let y := if first then saveMma v k (stopRow free k) else
        (v, { k with bRows := none, bScales := 0, aRows := [], bad := [], fetched := false, restored := true, counted := false, waitPage := none })
      y.1.setOp x.1.id fun z => { z with body := .mma y.2 }
    | _ => v) w0
  let again := fun (z : PcSlot) => if z.hold == .regacq then { z with hold := .none } else z
  (w1.setSlot .A again).setSlot .B again

/-- A block as it is saved. -/
def Block.save (b : Block) (free now : Nat) : Block :=
  { b with warps := b.warps.zipIdx.map fun x => x.1.save (free + x.2), regRequest := false, units := [], stopping := false,
           resident := b.resident + (now - b.since), since := now }

/-- The cards of a block's chain that have not entered the checker placed behind the core's cards, as they would enter (R307). -/
def Sys.enterChain (s : Sys) (b : Block) : Sys :=
  match (s.core b.coreRef).kick with
  | none => s
  | some q =>
    if q.warp.block != b.id then s
    else q.cards.foldl (fun s x => s.setCore b.coreRef fun k => { k with cards := k.cards ++ [s.enteringCard b.coreRef x] })
      (s.setCore b.coreRef fun k => { k with kick := none })

/-- R309 (c): the context is written and the block's resources are free. Its open ordered slots stay on the core, and its cards are saved as
they stand (R288). -/
def Sys.saveContext (s0 : Sys) (b : Block) (r : PreemptRecord) : Sys :=
  let s := s0.enterChain b
  let now := (s.tower b.tower).clock.toNat
  let x : SavedBlock := { block := b.save s.free now, cards := s.cardsOf b, room := r.room, size := r.size }
  let s1 := { s with free := s.free + b.warps.length }.dropBlock b
  s1.setTower b.tower fun t =>
    { t with saved := t.saved ++ [x]
             records := updateWhere (fun y => y.index == r.index) (fun _ => { r with state := 2, ack := r.need }) t.records }

/-- Has a slice acknowledged that it has stopped for a block (R308)? None of its slots issues for the block any more. -/
def Sys.sliceHalted (s : Sys) (b : Block) (slice : Nat) : Bool :=
  (s.tower b.tower).records.any fun r => r.block == b.id && r.state == 1 && r.ack.getLsbD (stopBit (.slice slice))

/-- UNIT_STOP_ACK (R307, R309 (b), (c)): a unit named in NEED that has reached its stop point sets its bit. -/
def execUnitStopAck (tower i : Nat) (u : StopUnit) (s : State) : Host.Outcome State Fault Refusal :=
  keepMemory s fun p y =>
    match (y.tower tower).records.find? fun r => r.index == i with
    | none => y
    | some r =>
      match y.block r.block with
      | none => y
      | some b =>
        if r.state != 1 || !r.need.getLsbD (stopBit u) || !unitStopped p y b u then y
        else
          let r1 := { r with ack := r.ack ||| (1#16 <<< stopBit u) }
          if r1.ack == r1.need then y.saveContext b r1
          else y.setTower tower fun t => { t with records := updateWhere (fun x => x.index == i) (fun _ => r1) t.records }

/-- CONTEXT_SAVE_DONE (R309 (d)): the write is performed, and the record is done. -/
def execContextSaveDone (tower i : Nat) (s : State) : Host.Outcome State Fault Refusal :=
  work s fun _ t =>
    let k := t.sys.tower tower
    let saved := (k.records.find? fun r => r.index == i && r.state == 2).bind fun r => k.saved.find? fun x => x.block.id == r.block
    let t1 := match saved with
      | some x => t.writeContext tower x
      | none => t
    t1.map fun y => y.setTower tower fun k =>
      { k with records := updateWhere (fun r => r.index == i && r.state == 2) PreemptRecord.ended k.records }

end Sys2Proof.Machine
end

