-- ==== Sys2Proof/Machine/Packets.lean ====
section
/-! DEFINITION. The Command Processor at work on its queues (R240, R321 to R327): the start of packets, what
each packet does, the faults that the host serves, invalidations, completions and MSI-X. -/

namespace Sys2Proof.Machine

/-! ## The start of packets (R320, R324) -/

/-- The ASID of a queue. -/
def Sys.queueAsid (s : Sys) (q : Nat) : Nat := (s.queue q).field 79 68

/-- The started packets of a queue. -/
def Sys.live (s : Sys) (q : Nat) : List Packet := s.packets.filter fun x => x.ref.queue == q

/-- Does a fetch of the queue's ring wait on the host (R327)? -/
def Sys.fetchWaits (s : Sys) (q : Nat) : Bool :=
  s.faults.any fun f => f.owner == .ring q && !s.ringWrites.any (fun w => w.fault == some f.id) &&
    !s.packets.any fun x => x.fault == some f.id

/-- May the queue start its next packet, if its BARRIER allows it? A packet that has found an error or timed out stops the queue
(R323). -/
def Sys.mayStart (s : Sys) (q : Nat) : Bool :=
  let x := s.queue q
  s.ready 1 && x.field 106 106 == 1 && x.field 107 107 == 0 && x.field 191 160 != x.field 159 128 &&
  !(s.live q).any (fun p => p.waits || match p.work with | .done k _ _ _ => 2 ≤ k | _ => false) && !s.fetchWaits q

/-- Does an operation of a queue wait at its start: a SWEEP for a tower whose TWR bit is clear (R351)? The tower is the descriptor's. While it is
held, so that the tower is not known, the packet waits until both towers are ready. DESIGN CHOICE: one whose reading fails waits only while neither
tower is ready; then it starts, and meets the failure at its launch (log 156). -/
def sweepWaits (p : Phys) (s : Sys) (q : Nat) (i : Instr) : Bool :=
  match i with
  | .sweep _ descriptor =>
    match readDescriptor p s (s.queueAsid q) descriptor with
    | .ok d => !s.ready (26 + (Descriptor.parse d).tower)
    | .error (_, .held) => !(s.ready 26 && s.ready 27)
    | .error _ => !s.ready 26 && !s.ready 27
  | _ => false

/-- A ring or signal access of the Command Processor that failed (R327): it waits, or it is lost. -/
def Tx.ringFault {o : Phys} (t : Tx o) (q : Nat) (e : Nat × Walk) (write : Bool) : Tx o × Option Nat :=
  let asid := t.sys.queueAsid q
  match t.reportFault (.ring q) 3 (q * 2 ^ 32) asid e.1 write e.2 with
  | (t1, none) => (t1.ringLost q asid e.1, none)
  | (t1, some id) => if e.2.result == 0 then (t1, some id) else (t1.ringLost q asid e.1, none)

/-- The start of a queue's next packet (R324): the state after it, and the operation that it starts. A memory that is not ready holds the
fetch (R230). -/
def startPacket (q : Nat) (s : State) : State × Option Instr :=
  if !s.sys.mayStart q then (s, none)
  else
    let x := s.sys.queue q
    let rptr := x.field 191 160
    let va := x.field 51 0 + 64 * (rptr % 2 ^ (x.field 67 64 + 4))
    match readVirtual s.phys s.sys (s.sys.queueAsid q) va 64 with
    | .error (_, .held) => (s, none)
    | .error e => (((Tx.start s).ringFault q e false).1.state, none)
    | .ok v =>
      let p := packetRef q (BitVec.ofNat 32 rptr) v
      if (p.barrier && !(s.sys.live q).isEmpty) || sweepWaits s.phys s.sys q (decodePacket p v) then (s, none)
      else
        let y := (s.sys.noteRead s.phys (s.sys.queueAsid q) va 64).setQueue q fun x => x.setField 191 160 (rptr + 1)
        ({ s with sys := { y with starting := some p } }, some (decodePacket p v))

/-- A packet's work replaced by its completion. -/
def Sys.endPacket (s : Sys) (id kind pcode code detail : Nat) : Sys :=
  (s.notePacket id kind pcode code).setPacket id fun p => { p with work := .done kind pcode code detail, fault := none }

/-- A packet that completes at its start. -/
def Sys.donePacket (s : Sys) (p : PacketRef) (kind pcode detail : Nat) : Sys :=
  let y := s.openPacket p (.done kind pcode 0 detail)
  y.2.notePacket y.1 kind pcode 0

/-- NOP (R322): it completes at its start. -/
def execNopPacket (s : State) : Host.Outcome State Fault Refusal :=
  keepMemory s fun _ y =>
    match y.starting with
    | none => y
    | some p => { y with starting := none }.donePacket p 0 0 0

/-- BAD_PACKET (R323). -/
def execBadPacket (p : PacketRef) (offset : Nat) (s : State) : Host.Outcome State Fault Refusal :=
  keepMemory s fun _ y => y.donePacket p 3 1 offset

/-- A packet opened at its start, or found again when its operation is tried once more. -/
def Tx.openWork {o : Phys} (t : Tx o) (p : PacketRef) (w : PacketWork) : Tx o × Nat :=
  match t.sys.startedPacket p with
  | some x => (t, x.id)
  | none =>
    let (id, y) := t.sys.openPacket p w
    (t.map fun _ => y, id)

/-! ## COPY (R322, R245) -/

/-- Why a COPY or SIGNAL access stops. -/
inductive AccessStop where
  | held
  /-- a translation that failed, at an address -/
  | fault (va : Nat) (w : Walk)
  /-- an unmapped window page, which has no fault record -/
  | unmapped
deriving DecidableEq, Repr

/-- A main-memory byte of the Command Processor. That a part is EVICTED stops cards alone (R341). -/
def mainByte (p : Phys) (s : Sys) (asid va : Nat) (rd wr : Bool) : Except AccessStop Nat :=
  if 2 ^ 52 ≤ va then .error (.fault (va % 2 ^ 52) .invalid)
  else
    match walkAddr p s asid va rd wr with
    | .ok pa => .ok pa
    | .held => .error .held
    | w => .error (.fault va w)

/-- A byte of a COPY operand. An access to a scratchpad is held until the tower is ready (R230, R351). -/
def copyByte (x : CopyOperand) (p : Phys) (s : Sys) (asid i : Nat) (wr : Bool) : Except AccessStop Nat :=
  match x with
  | .main va => mainByte p s asid (va + i) (!wr) wr
  | .window t off =>
    if !s.ready (26 + t) then .error .held
    else match towerWindow p s asid t (off + i) with
      | some pa => .ok pa
      | none => .error .unmapped

/-- The destination offset of an operand. -/
def copyBase (x : CopyOperand) : Nat := match x with | .main va => va | .window _ o => o

/-- The places of consecutive bytes of a COPY from an offset on: (source, destination) pairs up to the first stop, with whether
the stop is at the destination. -/
def copyPlaces (src dst : CopyOperand) (p : Phys) (s : Sys) (asid : Nat) : Nat → Nat → List (Nat × Nat) × Option (AccessStop × Bool)
  | 0, _ => ([], none)
  | n + 1, i =>
    match copyByte src p s asid i false with
    | .error e => ([], some (e, false))
    | .ok a =>
      match copyByte dst p s asid i true with
      | .error e => ([], some (e, true))
      | .ok b =>
        let r := copyPlaces src dst p s asid n (i + 1)
        ((a, b) :: r.1, r.2)

namespace Tx

variable {o : Phys}

/-- Bytes moved from places to places; every destination unit that takes a byte from a poisoned unit, or of a bad host completion, is
poisoned (R245), and the completion is logged (R303). -/
def moveBytes (t : Tx o) (xs : List (Nat × Nat)) : Tx o :=
  let p := t.phys
  let s := t.sys
  let t1 := (t.storeAt (xs.map Prod.snd) (xs.map fun x => p.byte x.1)).map fun s => s.noteHostAt (xs.map Prod.fst)
  (xs.filter fun x => p.poisoned x.1 || s.hostBad x.1 1).foldl (fun t x => t.mark (poisonBase x.2) true) t1

/-- A COPY from an offset on, a 32-byte piece of the destination at a time: the offset reached and the stop. -/
def copyBytes (src dst : CopyOperand) (asid len : Nat) : Nat → Tx o → Nat → Tx o × Nat × Option (AccessStop × Bool)
  | 0, t, i => (t, i, none)
  | fuel + 1, t, i =>
    if len ≤ i then (t, i, none)
    else
      let n := min (len - i) (32 - (copyBase dst + i) % 32)
      let r := copyPlaces src dst t.phys t.sys asid n i
      let t1 := t.moveBytes r.1
      match r.2 with
      | some e => (t1, i + r.1.length, some e)
      | none => copyBytes src dst asid len fuel t1 (i + n)

/-- A fault of a COPY or SIGNAL access (R327): it waits for the host, or ends the packet. -/
def operandFault (t : Tx o) (id queue va : Nat) (w : Walk) (write : Bool) (pcode detail : Nat) : Tx o :=
  match t.reportFault (.packet id) 2 (queue * 2 ^ 32) (t.sys.queueAsid queue) va write w with
  | (t1, none) => t1.map fun s => s.endPacket id 3 pcode 0 detail
  | (t1, some f) =>
    if w.result == 0 then t1.map fun s => s.setPacket id fun p => { p with fault := some f }
    else t1.map fun s => s.endPacket id 3 pcode 0 detail

/-- A bad window table entry that a COPY has read is logged (R238). -/
def noteCopyPage (t : Tx o) (x : CopyOperand) (asid off : Nat) : Tx o :=
  match x with
  | .main _ => t
  | .window tower base => t.upd fun p s => s.noteWindow p asid tower ((base + off) / 65536)

/-- A COPY carried on. -/
def runCopy (t : Tx o) (id : Nat) : Tx o :=
  match t.sys.packet id with
  | none => t
  | some q =>
    match q.work with
    | .copy src dst len off =>
      if q.fault.isSome then t
      else
        let r := t.copyBytes src dst (t.sys.queueAsid q.ref.queue) len (len + 1) off
        let t1 := r.1.map fun s => s.setPacket id fun p => { p with work := .copy src dst len r.2.1 }
        match r.2.2 with
        | none => t1.map fun s => s.endPacket id 0 0 0 0
        | some (.held, _) => t1
        | some (.unmapped, wr) => (t1.noteCopyPage (if wr then dst else src) (t.sys.queueAsid q.ref.queue) r.2.1).map fun s => s.endPacket id 3 3 0 r.2.1
        | some (.fault va w, wr) => t1.operandFault id q.ref.queue va w wr 3 r.2.1
    | _ => t

/-- A SIGNAL carried on (R322). -/
def runSignal (t : Tx o) (id : Nat) : Tx o :=
  match t.sys.packet id with
  | none => t
  | some q =>
    match q.work with
    | .signal va value add =>
      if q.fault.isSome then t
      else
        match mainByte t.phys t.sys (t.sys.queueAsid q.ref.queue) va add true with
        | .ok pa =>
          let v := if add then value + BitVec.ofNat 64 (t.phys.num pa 8) else value
          let t1 := if add then t.noteRead (t.sys.queueAsid q.ref.queue) va 8 else t
          (t1.storeNum pa 8 v.toNat).map fun s => s.endPacket id 0 0 0 0
        | .error .held => t
        | .error .unmapped => t.map fun s => s.endPacket id 3 5 0 0
        | .error (.fault a w) => t.operandFault id q.ref.queue a w true 5 0
    | _ => t

end Tx

/-- COPY (R322). -/
def execCopy (p : PacketRef) (src dst : CopyOperand) (len : Nat) (s : State) : Host.Outcome State Fault Refusal :=
  work s fun _ t =>
    let (t1, id) := t.openWork p (.copy src dst len 0)
    t1.runCopy id

/-- SIGNAL (R322). -/
def execSignal (p : PacketRef) (signal : Nat) (value : DWord) (add : Bool) (s : State) : Host.Outcome State Fault Refusal :=
  work s fun _ t =>
    let (t1, id) := t.openWork p (.signal signal value add)
    t1.runSignal id

/-! ## WAIT (R325) -/

/-- Time in microseconds since a time in picoseconds. -/
def Sys.since (s : Sys) (t : Nat) : Nat := (s.now - t) / 1000000

/-- An evaluation of a WAIT (R325). -/
def Tx.evaluate {o : Phys} (t : Tx o) (id : Nat) : Tx o :=
  match t.sys.packet id with
  | none => t
  | some q =>
    match q.work with
    | .wait va value timeout started false =>
      match mainByte t.phys t.sys (t.sys.queueAsid q.ref.queue) va true false with
      | .ok pa =>
        let t1 := t.noteRead (t.sys.queueAsid q.ref.queue) va 8
        if value.toNat ≤ t.phys.num pa 8 then t1.map fun s => s.endPacket id 0 0 0 0 else t1
      | .error .held => t
      | .error (.fault _ .notPresent) => t.map fun s => s.setPacket id fun p => { p with work := .wait va value timeout started true }
      | .error _ => t.map fun s => s.endPacket id 3 2 0 0
    | _ => t

/-- WAIT (R325): it starts, and is evaluated. -/
def execWait (p : PacketRef) (signal : Nat) (value : DWord) (timeout : Nat) (s : State) : Host.Outcome State Fault Refusal :=
  work s fun _ t =>
    let (t1, id) := t.openWork p (.wait signal value timeout t.sys.now false)
    t1.evaluate id

/-- WAIT_EVALUATE (R325, R326 (a)). -/
def execWaitEvaluate (id : Nat) (s : State) : Host.Outcome State Fault Refusal := work s fun _ t => t.evaluate id

/-- WAIT_TIMEOUT (R325): the last evaluation fails as the timeout elapses. -/
def execWaitTimeout (id : Nat) (s : State) : Host.Outcome State Fault Refusal :=
  work s fun _ t =>
    match t.sys.packet id with
    | none => t
    | some q =>
      match q.work with
      | .wait _ _ timeout started _ =>
        if timeout == 0 || t.sys.since started < timeout then t
        else
          let t1 := t.evaluate id
          match (t1.sys.packet id).map Packet.work with
          | some (.wait ..) => t1.map fun s => s.endPacket id 2 0 0 0
          | _ => t1
      | _ => t

/-- PAGE_REQUEST_RESPONSE (R325): after a success the tables are walked again. -/
def execPageRequestResponse (id : Nat) (ok : Bool) (s : State) : Host.Outcome State Fault Refusal :=
  work s fun _ t =>
    match (t.sys.packet id).map Packet.work with
    | some (.wait va value timeout started true) =>
      if ok then (t.map fun s => s.setPacket id fun p => { p with work := .wait va value timeout started false }).evaluate id
      else t.map fun s => s.endPacket id 3 2 0 0
    | _ => t

/-! ## MAP (R238, R240, R322) -/

/-- A MAP of window pages carried on: the entries written, then the invalidation in progress. A memory that is not ready holds the reading of
the context table and the writes (R230). -/
def Tx.runMap {o : Phys} (t : Tx o) (id : Nat) : Tx o :=
  match t.sys.packet id with
  | none => t
  | some q =>
    match q.work with
    | .map tower first count phys =>
      let asid := t.sys.queueAsid q.ref.queue
      if t.sys.contextHeld asid then t
      else
        match windowTable t.phys t.sys asid tower with
        | none => t.map fun s => s.endPacket id 3 4 0 0
        | some base =>
          if 65536 < first + count || (match phys with | some n => 3072 < n + count | none => false) then t.map fun s => s.endPacket id 3 4 0 0
          else if (List.range count).any fun i => !t.sys.memReady (base + 8 * (first + i)) then t
          else
            let entry := fun (i : Nat) => match phys with | some n => 1 + 2 * (n + i) | none => 0
            let t1 := (List.range count).foldl (fun t i => t.storeNum (base + 8 * (first + i)) 8 (entry i)) t
            t1.map fun s => s.setPacket id fun p => { p with work := .invalidate true tower first count }
    | _ => t

/-- A MAP of window pages: it starts, and is carried on. -/
def mapPages (p : PacketRef) (tower first count : Nat) (phys : Option Nat) (s : State) : Host.Outcome State Fault Refusal :=
  work s fun _ t =>
    let (t1, id) := t.openWork p (.map tower first count phys)
    t1.runMap id

/-- MAP, OP 00 (R322). -/
def execMapRun (p : PacketRef) (tower first count phys : Nat) (s : State) : Host.Outcome State Fault Refusal :=
  mapPages p tower first count (some phys) s

/-- MAP, OP 01 (R322). -/
def execUnmapRun (p : PacketRef) (tower first count : Nat) (s : State) : Host.Outcome State Fault Refusal :=
  mapPages p tower first count none s

/-- MAP, OP 10 (R322). -/
def execInvalidatePages (p : PacketRef) (va pages : Nat) (s : State) : Host.Outcome State Fault Refusal :=
  keepMemory s fun _ y =>
    if (y.startedPacket p).isSome then y else (y.openPacket p (.invalidate false 0 va pages)).2

/-- Does an outstanding access of a block use a window page of a range (R240 (b))? CERT uses that of its own drawer's header. -/
def Block.uses (b : Block) (first count : Nat) : Bool :=
  b.warps.any fun w => w.ops.any fun x =>
    let pages := match x.body with
      | .load .tsp _ _ _ ps | .store .tsp _ _ ps | .atomic _ .tsp _ _ _ ps => ps
      | .cert .. => [b.drawer / 65536]
      | _ => []
    pages.any fun n => first ≤ n && n < first + count

/-- Is an access with an old translation still to be performed (R240 (b))? A card's elements are performed as they are
translated. -/
def Sys.inFlight (s : Sys) (window : Bool) (asid base n : Nat) : Bool :=
  window && (s.blocks ++ s.towers.flatMap fun t => t.saved.map SavedBlock.block).any fun b => b.asid == asid && b.uses base n

/-- Does an invalidation cover an entry? -/
def TlbEntry.covered (e : TlbEntry) (window : Bool) (asid base n : Nat) : Bool :=
  e.asid == asid && e.window == window &&
    (if window then base ≤ e.base && e.base < base + n else rangesMeet e.base e.size base (4096 * n))

/-- Every translation cache of the part drops the entries of a range, and so do the walks that have their result (R240 (a)); a MAP of window
pages names one tower's table, and the caches of both towers drop the entries of these pages. -/
def Sys.dropEntries (s : Sys) (window : Bool) (asid base n : Nat) : Sys :=
  let keep := fun (l : List TlbEntry) => l.filter fun e => !e.covered window asid base n
  { s with towers := s.towers.map fun x =>
      { x with tlb := keep x.tlb, walks := keep x.walks, cores := x.cores.map fun k => { k with tlb := keep k.tlb } } }

/-- A card that waits for a window page goes on (R242, R322). -/
def Card.wake (c : Card) (asid : Nat) (mapped : Nat → Bool) : Card :=
  match c.waitPage with
  | some n => if c.asid == asid && mapped n then { c with waitPage := none, state := .waiting } else c
  | none => c

/-- An MMA re-execution that waits for a window page goes on (R194). -/
def Warp.wakeMma (w : Warp) (mapped : Nat → Bool) : Warp :=
  { w with ops := w.ops.map fun x =>
      match x.body with
      | .mma k => match k.waitPage with
        | some n => if mapped n then { x with body := .mma { k with waitPage := none } } else x
        | none => x
      | _ => x }

/-- Everything that waits for window pages now mapped goes on (R194, R242, R264, R322). -/
def Sys.wakePages (s : Sys) (asid tower : Nat) (mapped : Nat → Bool) : Sys :=
  let ofSweep := fun (id : Nat) => match s.sweep id with | some w => w.asid == asid | none => false
  let wake := fun (c : Card) => c.wake asid mapped
  let s1 := s.setTower tower fun t =>
    { t with
      restarts := t.restarts.map fun r => match r.page with
        | some n => if ofSweep r.sweep && mapped n then { r with page := none } else r
        | none => r
      cores := t.cores.map fun k => { k with cards := k.cards.map wake }
      saved := t.saved.map fun x => { x with cards := x.cards.map wake } }
  { s1 with blocks := s1.blocks.map fun b =>
      if b.tower == tower && b.asid == asid then { b with warps := b.warps.map fun w => w.wakeMma mapped } else b }

/-- INVALIDATION_COMPLETE (R240, R322): the MAP packet is done. -/
def execInvalidationComplete (id : Nat) (s : State) : Host.Outcome State Fault Refusal :=
  keepMemory s fun p y =>
    match y.packet id with
    | none => y
    | some q =>
      match q.work with
      | .invalidate window tower base n =>
        let asid := y.queueAsid q.ref.queue
        if y.inFlight window asid base n then y
        else
          let y1 := y.dropEntries window asid base n
          let mapped := fun (pg : Nat) => base ≤ pg && pg < base + n && (windowEntry p y1 asid tower pg).isSome
          (if window then y1.wakePages asid tower mapped else y1).endPacket id 0 0 0 0
      | _ => y

/-- PAGE_WALK_COMPLETE (R237 to R239, R241, R242): a walk for a card, a page or a window page ends; a walk of the miss queue leaves it. -/
def execPageWalkComplete (c : CoreRef) (req : WalkRequest) (s : State) : Host.Outcome State Fault Refusal :=
  work s fun _ t =>
    match req with
    | .card id => t.walkCard c id
    | .page asid va => t.map fun s => endWalk s c asid false va
    | .window asid n => t.map fun s => endWalk s c asid true n

/-! ## Completion (R323, R326) -/

/-- The record of a completion (R323). -/
def completionRecord (tag kind pcode code detail ftime : Nat) : Nat :=
  tag + kind * 2 ^ 16 + pcode * 2 ^ 18 + code * 2 ^ 24 + detail % 2 ^ 32 * 2 ^ 32 + ftime * 2 ^ 64

namespace Tx

variable {o : Phys}

/-- A completion whose record or signal cannot be reached: the packet waits for the memory (R230) or for the host, or its completion is lost
(R327). -/
def completionFault (t : Tx o) (q : Packet) (e : Nat × Walk) (write : Bool) : Tx o :=
  if e.2 == .held then t
  else
    match t.ringFault q.ref.queue e write with
    | (t1, some f) => t1.map fun s => s.setPacket q.id fun p => { p with fault := some f }
    | (t1, none) => t1.map fun s => { s with packets := s.packets.filter fun x => x.id != q.id }

/-- The record, the signal and the vector (R323). -/
def complete (t : Tx o) (q : Packet) (kind pcode code detail : Nat) : Tx o :=
  let n := q.ref.queue
  let x := t.sys.queue n
  let asid := t.sys.queueAsid n
  let csig := x.field 243 192
  let t0 := if 2 ≤ kind then t.map fun s => s.setQueue n fun x => x.setField 107 107 1 else t
  match readVirtual t0.phys t0.sys asid csig 8 with
  | .error e => t0.completionFault q e false
  | .ok v =>
    let va := x.field 307 256 + 16 * (v % 2 ^ (x.field 311 308 + 8))
    match walkRange t0.phys t0.sys asid va 16 false true with
    | .error e => t0.completionFault q e true
    | .ok pas =>
      let r := completionRecord q.ref.tag.toNat kind pcode code detail t0.sys.ftime.toNat
      let t1 := t0.storeAt pas (natToBytes 16 r)
      match walkRange t1.phys t1.sys asid csig 8 false true with
      | .error e => t1.completionFault q e true
      | .ok ps =>
        ((t1.noteRead asid csig 8).storeAt ps (natToBytes 8 (v + 1))).map fun s =>
          { s with packets := s.packets.filter fun x => x.id != q.id }.raise n

end Tx

/-- PACKET_COMPLETION (R323). -/
def execPacketCompletion (id : Nat) (s : State) : Host.Outcome State Fault Refusal :=
  work s fun _ t =>
    match t.sys.packet id with
    | none => t
    | some q =>
      match q.work, q.fault with
      | .done kind pcode code detail, none => t.complete q kind pcode code detail
      | _, _ => t

/-- MSIX_DELIVERY (R323, R326 (b)): a pending vector is raised when it is unmasked. -/
def execMsixDelivery (v : Nat) (s : State) : Host.Outcome State Fault Refusal :=
  keepMemory s fun _ y =>
    if NatSet.has y.device.msix v && !NatSet.has y.device.masked v then
      { y with device := { y.device with msix := NatSet.del y.device.msix v, raised := y.device.raised ++ [v] } }
    else y

/-! ## Responses of the host (R241, R327) -/

/-- A card changed wherever it is: in a checker or in the context pool. -/
def Sys.mapCard (s : Sys) (id : Nat) (f : Card → Card) : Sys :=
  let g := fun (l : List Card) => updateWhere (fun (c : Card) => c.id == id) f l
  { s with towers := s.towers.map fun t =>
      { t with cores := t.cores.map fun k => { k with cards := g k.cards }
               saved := t.saved.map fun x => { x with cards := g x.cards } } }

/-- A suspension taken from the list. -/
def Sys.takeFault (s : Sys) (id : Nat) : Option (Suspension × Sys) :=
  (s.faults.find? fun f => f.id == id).map fun f => (f, { s with faults := s.faults.filter fun x => x.id != id })

namespace Tx

variable {o : Phys}

/-- The access that waited walks the tables again. -/
def resume (t : Tx o) (f : Suspension) : Tx o :=
  match f.owner with
  | .card _ id => t.map fun s => s.mapCard id fun c => { c with faultId := none, state := .waiting }
  | .packet id =>
    let t1 := t.map fun s => s.setPacket id fun p => { p with fault := none }
    match (t1.sys.packet id).map Packet.work with
    | some (.sweep ..) => t1.tryLaunch id
    | some (.copy ..) => t1.runCopy id
    | some (.signal ..) => t1.runSignal id
    | _ => t1
  | .header sweep prog =>
    (t.map fun s => s.setSweep sweep fun w => { w with headerFault := w.headerFault.filter fun x => x.1 != prog }).loadHeader sweep prog
  | .ring q =>
    if t.sys.ringWrites.any fun w => w.fault == some f.id then t.retryRecords q
    else t.map fun s => { s with packets := s.packets.map fun p => if p.fault == some f.id then { p with fault := none } else p }

/-- A card's block aborted wherever it is (R183). -/
def declineCard (t : Tx o) (id va : Nat) : Tx o :=
  match (t.sys.towers.flatMap fun k => k.cores.flatMap Core.cards).find? fun c => c.id == id with
  | some c => t.cardFault c va
  | none =>
    match (t.sys.towers.flatMap Tower.saved).find? fun x => x.cards.any fun c => c.id == id with
    | none => t
    | some x =>
      t.abortSaved x .cardFault (((x.cards.find? fun c => c.id == id).map Card.rank).getD 0) va

/-- The access that waited ends. -/
def decline (t : Tx o) (f : Suspension) : Tx o :=
  match f.owner with
  | .card _ id => t.declineCard id f.va
  | .packet id =>
    match t.sys.packet id with
    | none => t
    | some q =>
      match q.work with
      | .sweep descriptor _ => t.launchFailed id q.ref.queue descriptor 1 0x17 f.id
      | .copy _ _ _ off => t.map fun s => s.endPacket id 3 3 0 off
      | _ => t.map fun s => s.endPacket id 3 5 0 0
  | .header sweep prog =>
    t.map fun s => s.setSweep sweep fun w =>
      { w with headerFault := w.headerFault.filter fun x => x.1 != prog, headers := w.headers ++ [(prog, none)] }
  | .ring q =>
    ((t.map fun s => { s with ringWrites := s.ringWrites.filter fun x => x.fault != some f.id,
                              packets := s.packets.filter fun p => p.fault != some f.id }).ringLost q f.asid f.va).retryRecords q

end Tx

/-- FAULT_RESPONSE_RESUME (R327). -/
def execFaultResponseResume (id : Nat) (s : State) : Host.Outcome State Fault Refusal :=
  work s fun _ t =>
    match t.sys.takeFault id with
    | none => t
    | some (f, y) => (t.map fun _ => y).resume f

/-- FAULT_RESPONSE_DECLINE (R327). -/
def execFaultResponseDecline (id : Nat) (s : State) : Host.Outcome State Fault Refusal :=
  work s fun _ t =>
    match t.sys.takeFault id with
    | none => t
    | some (f, y) => (t.map fun _ => y).decline f

/-! ## Queue registers (R320) -/

/-- May EN := 1 succeed (R320)? -/
def Queue.enableOk (q : Queue) : Bool :=
  q.field 67 64 ≤ 12 && q.field 81 80 != 3 && q.field 89 82 != 0 && q.field 107 107 == 0 && q.field 51 0 % 4096 == 0 &&
  q.field 243 192 % 8 == 0 && q.field 307 256 % 4096 == 0 && q.field 371 320 % 4096 == 0

/-- A WPTR more than the ring's packets ahead of RPTR halts the queue (R320). -/
def Queue.checkAhead (q : Queue) : Queue :=
  if 2 ^ (q.field 67 64 + 4) < (q.field 159 128 + 2 ^ 32 - q.field 191 160) % 2 ^ 32 then q.setField 107 107 1 else q

/-- A write of EN := 1: the check, and CLASS, WEIGHT and LTOL latched (R265, R320). -/
def Queue.enable (q : Queue) : Queue :=
  if q.field 106 106 == 1 || !q.enableOk then q
  else { (q.setField 106 106 1) with cls := q.field 81 80, weight := q.field 89 82, ltol := q.field 105 90 }.checkAhead

/-- A write of EN := 0, which clears HALT. -/
def Queue.disable (q : Queue) : Queue := (q.setField 106 106 0).setField 107 107 0

/-- A write of WPTR, the doorbell. -/
def Queue.ring (q : Queue) (w : Nat) : Queue := (q.setField 159 128 w).checkAhead

/-- An access of the host to the device registers while the Command Processor does not run: it is held until it does (R230, R351); in recovery
only the recovery window answers (R329). -/
def Sys.holdAccess (s : Sys) (i : Instr) : Sys :=
  if s.device.recovery then s else { s with heldAccesses := s.heldAccesses ++ [i] }

/-- An access of the host to the device registers. -/
def Sys.hostAccess (s : Sys) (i : Instr) (f : Sys → Sys) : Sys := if s.ready 1 then f s else s.holdAccess i

/-- QUEUE_DOORBELL (R320). -/
def execQueueDoorbell (q : Nat) (wptr : Word) (s : State) : Host.Outcome State Fault Refusal :=
  keepMemory s fun _ y => y.hostAccess (.queueDoorbell q wptr) fun y => y.setQueue q fun x => x.ring wptr.toNat

/-- QUEUE_ENABLE (R320). -/
def execQueueEnable (q : Nat) (s : State) : Host.Outcome State Fault Refusal :=
  keepMemory s fun _ y => y.hostAccess (.queueEnable q) fun y => y.setQueue q Queue.enable

/-- QUEUE_DISABLE (R320). -/
def execQueueDisable (q : Nat) (s : State) : Host.Outcome State Fault Refusal :=
  keepMemory s fun _ y => y.hostAccess (.queueDisable q) fun y => y.setQueue q Queue.disable

end Sys2Proof.Machine
end

