-- ==== Sys2Proof/Machine/Market.lean ====
section
/-! DEFINITION. The market clock (R330 to R341, R347) and fabric time (R333): the tariff board, bells, posts, joins, leaves,
silence, isolation, late notices and the MARKET packets. -/

namespace Sys2Proof.Machine

/-! ## Bells and the board -/

/-- The nanoseconds between two bells (R332). -/
def bellNs : Nat := 100000

/-- The current bell (R332). -/
def Sys.bellNow (s : Sys) : Nat := s.ftime.toNat / bellNs

/-- The market state changed. -/
def Sys.setMarket (s : Sys) (f : Market → Market) : Sys := { s with market := f s.market }

/-- A member's entry. -/
def Market.entry (m : Market) (stall : Nat) : Option BoardEntry := m.board.find? fun e => e.stall == stall

/-- A member's entry changed. -/
def Market.setEntry (m : Market) (stall : Nat) (f : BoardEntry → BoardEntry) : Market :=
  { m with board := updateWhere (fun e => e.stall == stall) f m.board }

/-- An entry put in the place of a stall's earlier one, in ascending order of stalls. -/
def Market.enter (m : Market) (e : BoardEntry) : Market :=
  { m with board := insertBy (fun (a b : BoardEntry) => decide (a.stall < b.stall)) e (m.board.filter fun x => x.stall != e.stall) }

/-- A new entry. DESIGN CHOICE: its code is 188 until a post of it is in force. -/
def newEntry (stall : Nat) (st : MemberState) (last code : Nat) (at_ : Option Nat) : BoardEntry :=
  { stall := stall, code := code, state := st, inForce := (0, 0), pending := [], last := last, exit := 0, activeAt := at_, leaveAt := none }

end Sys2Proof.Machine

namespace Sys2Proof

/-- Is a post (effective bell, sequence number) newer than the one in force? DEDUCED: sequence numbers compare modulo 2^16. -/
def newerPost (p f : Nat × Nat) : Bool :=
  let d := (p.2 + 65536 - f.2) % 65536
  f.1 < p.1 || (f.1 == p.1 && 0 < d && d < 32768)

/-- The pending code that takes effect at a bell: of the posts with that bell, the one with the highest sequence number (R332). -/
def BoardEntry.pendingAt (e : BoardEntry) (b : Nat) : Option Nat :=
  (e.pending.foldl (fun (acc : Option (Nat × Nat × Nat)) x =>
    if x.1 != b then acc
    else match acc with
      | some y => if newerPost (x.1, x.2.1) (y.1, y.2.1) then some x else acc
      | none => some x) none).map fun x => x.2.2

end Sys2Proof

namespace Sys2Proof.Machine

/-- The entry as the 192 bits of R331: P1 is the first bell with a pending code. Of several posts with one bell it shows the code that takes effect
there (R332). -/
def boardBits (e : BoardEntry) : Nat :=
  let st := match e.state with
    | .none => 0
    | .active => 1
    | .joining => 2
    | .leaving => 3
    | .silent => 4
    | .evicted => 5
  let p1 := ((e.pending.map fun x => x.1).min?).getD 0
  let at_ := e.pendingAt
  e.code + st * 2 ^ 8 + (at_ p1).getD 0 * 2 ^ 16 + (at_ (p1 + 1)).getD 0 * 2 ^ 24 + (if (at_ p1).isSome then 2 ^ 32 else 0)
    + (if (at_ (p1 + 1)).isSome then 2 ^ 33 else 0) + e.last * 2 ^ 48 + p1 * 2 ^ 96 + e.exit * 2 ^ 144

/-- The desired code (R335 (a)). -/
def Market.desired (m : Market) : Nat := min m.ceiling (min m.power (min m.thermal m.sensor))

/-! ## Sending (R334 to R337) -/

/-- A stall sends while fabric time is neither UNSET nor LOST (R333). -/
def Sys.maySend (s : Sys) : Bool := s.time.state != .unset && s.time.state != .lost

/-- A record sent on every port of the forward mask (R334, R336); the sender's own post goes on its board (R335). Every record is a post (R334), and
puts the next heartbeat off; those of a code carry the code last posted. -/
def Sys.send (s : Sys) (kind code eff stall : Nat) (to_ : Option Nat) (board : List BoardEntry) : Sys :=
  if !s.maySend then s
  else
    let b := s.bellNow
    s.setMarket fun m =>
      let q := m.seq.toNat
      let p : PostRecord := { market := m.number, stall := stall, code := code, send := b, eff := eff, epoch := m.epoch.toNat, seq := q }
      let r : SentRecord := { ports := m.forward, kind := kind, post := p, to_ := to_, board := board }
      let m1 : Market := { m with seq := m.seq + 1, sentPosts := m.sentPosts + 1, sent := m.sent ++ [r] }
      let m2 : Market := { m1 with lastPosted := if kind ≤ 3 then some code else m1.lastPosted, lastPost := b }
      m2.setEntry m.stall fun e =>
        { e with last := max e.last b, pending := if kind ≤ 3 then e.pending ++ [(eff, q, code)] else e.pending }

/-- A post of this stall's desired code when it has changed (R335 (a)): a NOTICE when it is lower, else a POST. -/
def Sys.repost (s : Sys) : Sys :=
  let m := s.market
  let d := m.desired
  if !m.member || !s.maySend || m.lastPosted == some d then s
  else
    let kind := match m.lastPosted with | some c => if d < c then 1 else 0 | none => 0
    s.send kind d (s.bellNow + 2) m.stall none []

/-- A late notice of the power or the thermal limit (R337), when no notice has taken effect: the tariff stands above the code. The local
limit falls to the code, a member sends a LATE post, and LATE_NOTICE and the vector follow. At stepping B0 a second LATE of the same SEND
bell within 2 µs of the first counts no more (R359). DESIGN CHOICE (log 159): of three or more in one bell, the 2 µs are measured from the
last one sent. -/
def Sys.late (s : Sys) (thermal : Bool) (code : Nat) : Sys :=
  let b := s.bellNow
  let m := s.market
  if m.tariff ≤ code then s
  else
    let sends := m.member && s.maySend
    let again := sends && (match m.lastLate with | some (c, t) => c == b && decide (s.now - t ≤ 2000000) | none => false)
    let s1 := s.setMarket fun m => if thermal then { m with lateThermal := some code } else { m with latePower := some code }
    let s2 := if sends then s1.send 2 code (b + 2) m.stall none [] else s1
    let s3 := s2.setMarket fun m =>
      { m with lastLate := if sends then some (b, s.now) else m.lastLate, lateNotices := if again then m.lateNotices else m.lateNotices + 1 }
    if again then s3 else s3.raise 34

/-- The limits of late notices lifted (R337): each when the tariff is at or below its code, or when it no longer bites. -/
def Sys.lift (s : Sys) : Sys :=
  s.setMarket fun m =>
    let keep := fun (bites : Bool) (x : Option Nat) => if bites then x.filter fun c => decide (c < m.tariff) else none
    { m with latePower := keep m.powerBites m.latePower, lateThermal := keep m.thermalBites m.lateThermal }

/-- The thermal code by the band of the hottest reading, at the first sample of a band and at each bell (R343). -/
def Sys.thermalStep (s : Sys) : Sys :=
  match s.power.band with
  | 0 => s.setMarket fun m => { m with thermal := 188, thermalBites := false }
  | 1 => s.setMarket fun m => { m with thermal := max 47 (m.thermal - 4), thermalBites := false }
  | _ =>
    let c := max 47 (s.clockCode - 8)
    (s.setMarket fun m => { m with thermal := c, thermalBites := true }).late true c

end Sys2Proof.Machine

namespace Sys2Proof

/-! ## The bell (R332) -/

/-- Step 2 of a bell for one member. -/
def BoardEntry.putInForce (e : BoardEntry) (b : Nat) : BoardEntry :=
  let due := e.pending.filter fun x => x.1 ≤ b
  let e1 := due.foldl (fun (e : BoardEntry) x =>
    if newerPost (x.1, x.2.1) e.inForce then { e with inForce := (x.1, x.2.1), code := x.2.2 } else e) e
  { e1 with pending := e.pending.filter fun x => b < x.1 }

/-- Step 1 of a bell for one member (R338 to R340): its entry after it, none when it has left, and whether its membership
changes. The own entry is never silent to itself. -/
def BoardEntry.transition (e : BoardEntry) (own b : Nat) : Option BoardEntry × Bool :=
  let due := fun (x : Option Nat) => match x with | some n => n ≤ b | none => false
  if e.state != .evicted && due e.leaveAt then (none, true)
  else
    match e.state with
    | .joining => if due e.activeAt then (some { e with state := .active, activeAt := none }, true) else (some e, false)
    | .active | .leaving =>
      if e.stall != own && e.last + 50 ≤ b then (some { e with state := .silent, exit := e.last + 100, activeAt := none }, true)
      else (some e, false)
    | .silent =>
      if due e.activeAt && e.activeAt.getD 0 < e.exit then
        (some { e with state := .active, activeAt := none, exit := e.leaveAt.getD 0 }, true)
      else if e.exit ≤ b then (some { e with state := .evicted, code := 0, pending := [], activeAt := none }, true)
      else (some e, false)
    | _ => (some e, false)

/-- A post of a member heard, whatever it carries (R334, R340): LAST, and the bell at which a SILENT member turns ACTIVE again. -/
def BoardEntry.hearPost (e : BoardEntry) (p : PostRecord) : BoardEntry :=
  let revive := e.state == .silent && decide (e.last < p.send)
  { e with last := max e.last p.send
           activeAt := if revive then some (match e.activeAt with | some a => min a p.eff | none => p.eff) else e.activeAt }

/-- A post of a member put on its entry (R332, R336, R340). -/
def BoardEntry.addPost (e : BoardEntry) (p : PostRecord) : BoardEntry :=
  { e.hearPost p with pending := e.pending ++ [(p.eff, p.seq, p.code)] }

/-- Does a member's code count (R332)? -/
def BoardEntry.counts (e : BoardEntry) : Bool := e.state == .active || e.state == .leaving || e.state == .silent

end Sys2Proof

namespace Sys2Proof.Machine

/-- The stall is a member no more: its board is clear, its tariff 188, and a JOIN that had not ended fails (R333, R339). -/
def Sys.gone (s : Sys) : Sys :=
  let s1 := match s.market.join with
    | some j => if j.activeAt.isSome then s.endPacket j.pkt 2 0 0 0 else s
    | none => s
  s1.setMarket fun m =>
    { m with board := [], tariff := 188, isolated := false, lostLimit := false, lastPosted := none,
             join := match m.join with | some j => if j.activeAt.isSome then none else some j | none => none }

/-- The founding of a market of one at a bell (R338). -/
def Sys.foundMarket (s : Sys) (b : Nat) : Sys :=
  match s.market.join with
  | some j =>
    if j.found && j.since < b then
      (s.setMarket fun m =>
        { m with board := [newEntry m.stall .active b m.desired none], epoch := 0, join := none, lastPosted := some m.desired,
                 lastPost := b, heard := b, lostLimit := s.time.state == .lost }).endPacket j.pkt 0 0 0 0
    else s
  | none => s

/-- Steps 1 to 3 of a bell (R332): memberships, codes and the tariff. -/
def Sys.bellBoard (s : Sys) (b : Nat) : Sys :=
  let founded := match s.market.join with | some j => j.found && decide (j.since < b) | none => false
  let s1 := s.foundMarket b
  let own := s1.market.stall
  let rs := s1.market.board.map fun e => e.transition own b
  let changed := founded || rs.any Prod.snd
  let silent := (s1.market.board.zip rs).any fun x => x.1.state != .silent && (match x.2.1 with | some e => e.state == .silent | none => false)
  let left := (s1.market.board.zip rs).any fun x => x.1.stall == own && x.2.1.isNone
  let s2 := if left then s1.gone else s1.setMarket fun m => { m with board := rs.filterMap Prod.fst }
  let s3 := if silent then s2.raise 34 else s2
  s3.setMarket fun m =>
    let board := m.board.map fun e => if e.state == .evicted then e else e.putInForce b
    let codes := (board.filter BoardEntry.counts).map BoardEntry.code
    { m with board := board, epoch := if changed then m.epoch + 1 else m.epoch,
             tariff := if m.member then (codes.min?).getD 188 else 188 }

/-- Isolation at a bell (R341): it begins with no post of another member heard since bell b − 50, and ends at the first bell after one has
been heard again. DEDUCED: it ends too where every other member is EVICTED, since a market of one stall is never isolated (log 129). -/
def Sys.bellIsolation (s : Sys) (b : Nat) : Sys :=
  let m := s.market
  let others := m.board.any fun e => e.stall != m.stall && e.state != .evicted
  if m.isolated then (if !m.member || !others || m.isolatedAt ≤ m.heard then s.setMarket fun m => { m with isolated := false } else s)
  else if m.member && others && decide (50 < b - m.heard) then
    (s.setMarket fun m => { m with isolated := true, isolatedAt := b }).raise 34
  else s

/-- Packets that end at a bell (R347): a JOIN whose joiner turns ACTIVE, or with KIND 10 one that is LEAVING then (R339, log 92), and a LEAVE or
POST whose bell has come. -/
def Sys.bellPackets (s : Sys) (b : Nat) : Sys :=
  let s1 := match s.market.join with
    | some j =>
      match j.activeAt with
      | some a =>
        if a ≤ b then (s.endPacket j.pkt (if s.market.own == MemberState.active then 0 else 2) 0 0 0).setMarket fun m => { m with join := none } else s
      | none => s
    | none => s
  { s1 with packets := s1.packets.map fun (p : Packet) =>
      match p.work with
      | .untilBell e => if e ≤ b then { p with work := .done 0 0 0 0 } else p
      | _ => p }

/-- Bell b at a stall (R332, R338 to R341, R343). -/
def Sys.ringBell (s : Sys) (b : Nat) : Sys :=
  let s1 := ({ s with time := { s.time with bell := b } }.bellBoard b).bellIsolation b
  let s2 := if s1.power.band == 0 then s1 else s1.thermalStep
  (s2.lift.repost).bellPackets b

/-- Every bell up to the local count, in order. -/
def Sys.ringBells (s : Sys) : Sys :=
  let first := s.time.bell + 1
  (List.range (s.time.count / bellNs + 1 - first)).foldl (fun s i => s.ringBell (first + i)) s

/-- BELL (R332). -/
def execBell (s : State) : Host.Outcome State Fault Refusal :=
  keepMemory s fun _ y =>
    if y.time.state != .unset && (y.time.bell + 1) * bellNs ≤ y.time.count then y.ringBell (y.time.bell + 1) else y

/-! ## Fabric time (R333) -/

/-- The local counter advanced by nanoseconds; while it is held it stands still until fabric time reaches it. -/
def FabricTime.advance (t : FabricTime) (ns : Nat) : FabricTime :=
  { t with count := t.count + (ns - t.behind), behind := t.behind - ns }

/-- Time passes: the reference clock advances the local counter. -/
def Sys.passTime (s : Sys) (ps : Nat) : Sys :=
  { s with now := s.now + ps, time := s.time.advance ((s.now + ps) / 1000 - s.now / 1000) }

/-- The local counter set towards a fabric time: stepped forward, or held until fabric time reaches it. -/
def FabricTime.adjust (t : FabricTime) (w : Nat) : FabricTime :=
  if t.count ≤ w then { t with count := w, behind := 0 } else { t with behind := t.count - w }

/-- TIME_PULSE (R333): one more microsecond of fabric time, which the local count follows in LOCKED; in HOLDOVER and LOST it goes on by the
reference clock alone, and in UNSET no fabric time is known. -/
def execTimePulse (s : State) : Host.Outcome State Fault Refusal :=
  keepMemory s fun _ y =>
    let f := y.time.pulse + 1000
    { y with time := { (if y.time.state == .locked then y.time.adjust f else y.time) with pulse := f } }

/-- HOLDOVER entered. -/
def Sys.holdover (s : Sys) : Sys :=
  { s with time := { s.time with state := .holdover, heldSince := s.now, agree := 0 } }.raise 34

/-- LOCKED entered: from LOST a member is a member no more. -/
def Sys.lock (s : Sys) : Sys :=
  match s.time.state with
  | .unset => { s with time := { s.time with state := .locked, bell := s.time.count / bellNs } }
  | .lost =>
    let s1 := { s with time := { s.time with state := .locked } }
    if s1.market.member then s1.gone.raise 34 else s1.setMarket fun m => { m with lostLimit := false }
  | _ => { s with time := { s.time with state := .locked } }

/-- TIME_WORD (R333): agreement is counted, the counter is stepped or held, skipped bells ring, and HOLDOVER or LOCKED is
entered. DEDUCED: the word that first sets the counter in UNSET does not count as agreeing. -/
def execTimeWord (s : State) : Host.Outcome State Fault Refusal :=
  keepMemory s fun _ y =>
    let w := y.inputs.timeWord.toNat
    let t := y.time
    let agrees := w ≤ t.count + 1000 && t.count ≤ w + 1000
    let t1 := { t with agree := if agrees then t.agree + 1 else 0, pulse := w - w % 1000 }
    match t.state with
    | .unset =>
      let y1 := { y with time := { t1 with count := w, behind := 0 } }
      if 3 ≤ t1.agree then y1.lock else y1
    | st =>
      let y1 := { y with time := t1.adjust w }.ringBells
      if st == .locked then (if agrees then y1 else y1.holdover)
      else if 3 ≤ t1.agree then y1.lock else y1

/-- PULSE_MISSED (R333). -/
def execPulseMissed (s : State) : Host.Outcome State Fault Refusal :=
  keepMemory s fun _ y =>
    if y.time.state == .locked then y.holdover else { y with time := { y.time with agree := 0 } }

/-- HOLDOVER_TIMEOUT (R333): after 10 ms of HOLDOVER. -/
def execHoldoverTimeout (s : State) : Host.Outcome State Fault Refusal :=
  keepMemory s fun _ y =>
    if y.time.state == .holdover && 10000 ≤ y.since y.time.heldSince then
      { y with time := { y.time with state := .lost } }.setMarket fun m => { m with lostLimit := m.member }
    else y

/-! ## Records received (R334, R336) -/

/-- The next record at a port. -/
def Sys.takeRecord (s : Sys) : Option (ReceivedRecord × Sys) :=
  match s.inputs.records with
  | [] => none
  | r :: rest => some (r, { s with inputs := { s.inputs with records := rest } })

/-- A record discarded and counted (R334). -/
def Sys.discardRecord (s : Sys) : Sys := s.setMarket fun m => { m with discarded := m.discarded + 1 }

/-- A record forwarded to every port of the mask but its own (R336). -/
def Sys.forwardRecord (s : Sys) (kind : Nat) (r : ReceivedRecord) : Sys :=
  s.setMarket fun m =>
    let ports := if natBit m.forward r.port then m.forward - 2 ^ r.port else m.forward
    { m with sent := m.sent ++ [{ ports := ports, kind := kind, post := r.post, to_ := r.to_, board := r.board }] }

/-- Does a record belong to the part's market? -/
def Market.ownRecord (m : Market) (r : ReceivedRecord) : Bool := m.number != 0 && r.post.market == m.number

/-- Is a stall on the board, and not EVICTED (R334)? -/
def Market.known (m : Market) (stall : Nat) : Bool := match m.entry stall with | some e => e.state != .evicted | none => false

/-- A post of another member was heard (R341). -/
def Sys.hear (s : Sys) (stall : Nat) : Sys :=
  if stall == s.market.stall then s else s.setMarket fun m => { m with heard := max m.heard s.bellNow }

/-- A post that comes after its EFF bell is counted (R336). -/
def Sys.noteArrival (s : Sys) (r : ReceivedRecord) : Sys :=
  if s.time.state != .unset && r.post.eff ≤ s.time.bell then s.setMarket fun m => { m with lateArrivals := m.lateArrivals + 1 } else s

/-- A post of a member taken in: passed on (R336), counted where it is late, and heard (R341). -/
def Sys.takePost (s : Sys) (kind : Nat) (r : ReceivedRecord) : Sys := ((s.forwardRecord kind r).noteArrival r).hear r.post.stall

/-- A received POST, NOTICE, LATE or HEARTBEAT (R332, R334, R336, R340, R341). -/
def Sys.receivePost (s : Sys) (kind : Nat) : Sys :=
  match s.takeRecord with
  | none => s
  | some (r, s1) =>
    if !s1.market.ownRecord r || !s1.market.known r.post.stall then s1.discardRecord
    else
      (s1.takePost kind r).setMarket fun m => m.setEntry r.post.stall fun e => e.addPost r.post

/-- POST (R332). -/
def execPost (s : State) : Host.Outcome State Fault Refusal := keepMemory s fun _ y => y.receivePost 0

/-- NOTICE (R335). -/
def execNotice (s : State) : Host.Outcome State Fault Refusal := keepMemory s fun _ y => y.receivePost 1

/-- LATE (R337). -/
def execLate (s : State) : Host.Outcome State Fault Refusal := keepMemory s fun _ y => y.receivePost 2

/-- HEARTBEAT (R335). -/
def execHeartbeat (s : State) : Host.Outcome State Fault Refusal := keepMemory s fun _ y => y.receivePost 3

/-- DISCARDED_POST (R334). -/
def execDiscardedPost (s : State) : Host.Outcome State Fault Refusal :=
  keepMemory s fun _ y =>
    match y.takeRecord with
    | none => y
    | some (_, y1) => y1.discardRecord

/-- JOIN_REQ at a sponsor (R338): the snapshot, JOIN_ANN and the joiner's entry; a sponsor that is not ACTIVE, or a market of
4,096 members, refuses. A part that it does not name as the sponsor passes it on (R336). -/
def execJoinReq (s : State) : Host.Outcome State Fault Refusal :=
  keepMemory s fun _ y =>
    match y.takeRecord with
    | none => y
    | some (r, y1) =>
      let m := y1.market
      if !m.ownRecord r then y1.discardRecord
      else if (match r.to_ with | some part => part != y1.partNo | none => false) then y1.forwardRecord 4 r
      else if m.own != .active || 4096 ≤ (m.board.filter fun e => e.state != .evicted).length then y1
      else
        let b := y1.bellNow
        let y2 := y1.send 5 0 (b + 4) m.stall (some r.post.stall) m.board
        let y3 := y2.send 6 0 (b + 4) r.post.stall none []
        y3.setMarket fun m => m.enter (newEntry r.post.stall .joining b 188 (some (b + 4)))

/-- SNAPSHOT at the joiner (R338 (a) to (c)); another part passes it on, if its sender is on the board (R334, R336). It is a post that names its
sender, which is heard with it (R334, R340). -/
def execSnapshot (s : State) : Host.Outcome State Fault Refusal :=
  keepMemory s fun _ y =>
    match y.takeRecord with
    | none => y
    | some (r, y1) =>
      let mine := match r.to_ with | some n => n == y1.market.stall | none => true
      let pass := if y1.market.known r.post.stall then
          (y1.takePost 5 r).setMarket fun m => m.setEntry r.post.stall fun e => e.hearPost r.post
        else y1.discardRecord
      if !y1.market.ownRecord r then y1.discardRecord
      else
        match y1.market.join with
        | some j =>
          if j.found || j.activeAt.isSome || !mine then pass
          else
            let b := y1.bellNow
            let y2 := y1.setMarket fun m =>
              { m with board := r.board, epoch := BitVec.ofNat 16 r.post.epoch, heard := b, lostLimit := y1.time.state == TimeState.lost, join := some { j with activeAt := some r.post.eff } }.enter
                (newEntry m.stall .joining b 188 (some r.post.eff))
            let y3 := y2.setMarket fun m => m.setEntry r.post.stall fun e => e.hearPost r.post
            (y3.noteArrival r).send 0 y3.market.desired r.post.eff y3.market.stall none []
        | none => pass

/-- JOIN_ANN (R338): a member enters the joiner as JOINING. DEDUCED: it is a post of the sponsor, which its STALL does not name (R334), and so one of
another member (R341, log 157). -/
def execJoinAnn (s : State) : Host.Outcome State Fault Refusal :=
  keepMemory s fun _ y =>
    match y.takeRecord with
    | none => y
    | some (r, y1) =>
      if !y1.market.ownRecord r then y1.discardRecord
      else
        let y2 := ((y1.forwardRecord 6 r).noteArrival r).setMarket fun m => { m with heard := max m.heard y1.bellNow }
        if !y2.market.member || r.post.stall == y2.market.stall then y2
        else y2.setMarket fun m => m.enter (newEntry r.post.stall .joining r.post.send 188 (some r.post.eff))

/-- LEAVE (R339): the member is LEAVING until its effective bell. -/
def execLeave (s : State) : Host.Outcome State Fault Refusal :=
  keepMemory s fun _ y =>
    match y.takeRecord with
    | none => y
    | some (r, y1) =>
      if !y1.market.ownRecord r || !y1.market.known r.post.stall then y1.discardRecord
      else
        (y1.takePost 7 r).setMarket fun m => m.setEntry r.post.stall fun e =>
          { e with state := .leaving, leaveAt := some r.post.eff, exit := r.post.eff, last := max e.last r.post.send, activeAt := none }

/-! ## Timers -/

/-- HEARTBEAT_TIMER (R335 (b)): 10 bells since the last post. -/
def execHeartbeatTimer (s : State) : Host.Outcome State Fault Refusal :=
  keepMemory s fun _ y =>
    let m := y.market
    if m.member && m.lastPost + 10 ≤ y.bellNow then y.send 3 m.desired (y.bellNow + 2) m.stall none [] else y

/-- JOIN_TIMEOUT (R338): no snapshot within 20 bells. -/
def execJoinTimeout (s : State) : Host.Outcome State Fault Refusal :=
  keepMemory s fun _ y =>
    match y.market.join with
    | some j =>
      if !j.found && j.activeAt.isNone && j.since + 20 ≤ y.bellNow then
        (y.endPacket j.pkt 2 0 0 0).setMarket fun m => { m with join := none }
      else y
    | none => y

/-! ## MARKET packets (R347) -/

/-- Is the part in a market or on the way into one? -/
def Market.busy (m : Market) : Bool := m.member || m.join.isSome

/-- CONFIG. -/
def execConfig (p : PacketRef) (market stall forward : Nat) (s : State) : Host.Outcome State Fault Refusal :=
  keepMemory s fun _ y =>
    if y.market.busy then y.donePacket p 3 6 0
    else (y.setMarket fun m => { m with number := market, stall := stall, forward := forward, board := [] }).donePacket p 0 0 0

/-- JOIN (R338). -/
def execJoin (p : PacketRef) (sponsor : Nat) (s : State) : Host.Outcome State Fault Refusal :=
  keepMemory s fun _ y =>
    let own := sponsor == y.partNo
    if y.market.busy then y.donePacket p 3 6 0
    else if y.time.state == .unset || y.market.number == 0 || (own && y.time.state != .locked) then y.donePacket p 2 0 0
    else
      let (id, y1) := y.openPacket p .join
      let b := y1.bellNow
      let y2 := y1.setMarket fun m => { m with join := some { pkt := id, since := b, found := own, activeAt := none } }
      if own then y2 else y2.send 4 0 (b + 4) y2.market.stall (some sponsor) []

/-- LEAVE (R339). -/
def execMarketLeave (p : PacketRef) (bell : Nat) (s : State) : Host.Outcome State Fault Refusal :=
  keepMemory s fun _ y =>
    if !y.market.member then y.donePacket p 3 6 0
    else
      let e := max bell (y.bellNow + 2)
      let y1 := y.send 7 0 e y.market.stall none []
      ((y1.setMarket fun m => m.setEntry m.stall fun x =>
        { x with state := .leaving, leaveAt := some e, exit := e, activeAt := none }).openPacket p (.untilBell e)).2

/-- POST: the software ceiling (R335, R347). -/
def execMarketPost (p : PacketRef) (ceiling : Nat) (s : State) : Host.Outcome State Fault Refusal :=
  keepMemory s fun _ y =>
    let y1 := (y.setMarket fun m => { m with ceiling := ceiling }).repost
    if y1.market.seq != y.market.seq then (y1.openPacket p (.untilBell (y.bellNow + 2))).2 else y1.donePacket p 0 0 0

/-- The sensor code (R345). -/
def Sys.sensorCode (s : Sys) : Sys := s.setMarket fun m => { m with sensor := if s.power.degraded.any id then 94 else 188 }

/-- A tower's sensors judged afresh, with their flags cleared (R344). -/
def Power.rearm (x : Power) (tower : Nat) : Power :=
  let clear := fun (y : ThermalSensor) => { y with invalid := false, still := 0, means := [] }
  { x with thermal := x.thermal.zipIdx.map fun y => if y.2 == tower then y.1.map clear else y.1,
           degraded := x.degraded.zipIdx.map fun y => if y.2 == tower then false else y.1 }

/-- SENSOR_REARM (R344, R345). -/
def execSensorRearm (p : PacketRef) (tower : Nat) (s : State) : Host.Outcome State Fault Refusal :=
  keepMemory s fun _ y => ({ y with power := y.power.rearm tower }.sensorCode.repost).donePacket p 0 0 0

/-- TRIM_REARM (R346 (c)). -/
def execTrimRearm (p : PacketRef) (island : Nat) (s : State) : Host.Outcome State Fault Refusal :=
  keepMemory s fun _ y => (y.setIsland island fun x => { x with lock := false }).donePacket p 0 0 0

/-- PLIMIT (R342). -/
def execPlimit (p : PacketRef) (watts : Nat) (s : State) : Host.Outcome State Fault Refusal :=
  keepMemory s fun _ y => { y with power := { y.power with plim := watts } }.donePacket p 0 0 0

end Sys2Proof.Machine
end

