-- ==== Sys2Proof/Machine/Device.lean ====
section
/-! DEFINITION. The device (R244, R246, R303 to R305, R319, R328, R329, R349 to R356): resets and bring-up, FATAL errors, ports,
self-checks, the patrol scrubber, peer accesses, attestation and the writes of BAR0. -/

namespace Sys2Proof.Machine

/-! ## Resets (R303, R328, R329, R351, R352) -/

/-- The device changed. -/
def Sys.setDevice (s : Sys) (f : Device → Device) : Sys := { s with device := f s.device }

/-- The self-test at a reset (R352): the cores that fail are unusable. -/
def testCores (failing : List CoreRef) (ts : List Tower) : List Tower :=
  ts.zipIdx.map fun x => { x.1 with cores := x.1.cores.zipIdx.map fun y => { y.1 with usable := !failing.contains ⟨x.2, y.2⟩ } }

/-- A reset (R329, R351, R352, R356): every piece of state at its reset value, the boot ROM's measurements of itself and of the
image, the image that it judges, and the self-test. The flash image, the outside interfaces, what the part has put out and, for a FATAL
reset, the error log stay. DESIGN CHOICE: memory keeps its bytes. -/
def Sys.boot (s : Sys) (log : List LogRecord) : Sys :=
  let d := s.device
  let r := State.reset.sys
  { r with
    agenda := s.agenda, inputs := s.inputs, fresh := s.fresh, free := s.free, now := s.now
    towers := testCores s.inputs.failing r.towers
    device := { r.device with
      image := d.image, imageWhole := d.imageWhole, booted := d.image, bootedWhole := d.imageWhole, log := log
      measurements := [.bootRom, .firmware d.image], messages := d.messages, raised := d.raised, answers := d.answers } }

/-- RESET (R329). -/
def execReset (s : State) : Host.Outcome State Fault Refusal := keepMemory s fun _ y => y.boot []

/-- A FATAL error (R303): a PCI Express uncorrectable error message goes out, the device resets, and its error log is kept. -/
def Sys.fatal (s : Sys) (cause : FatalCause) : Sys :=
  let s1 := (s.logError (.fatal cause)).setDevice fun d => { d with messages := d.messages + 1 }
  s1.boot s1.device.log

/-- FATAL_ERROR (R303, R305). -/
def execFatalError (cause : FatalCause) (s : State) : Host.Outcome State Fault Refusal := keepMemory s fun _ y => y.fatal cause

/-- PREEMPT_TIMEOUT (R305 (b), R309): a request still short of NEED at 160 µs. -/
def execPreemptTimeout (s : State) : Host.Outcome State Fault Refusal :=
  keepMemory s fun _ y =>
    if y.towers.any fun t => t.records.any fun r => r.state == 1 && 160 ≤ y.since r.at_ then y.fatal .preemptTimeout else y

/-- A tower without work in flight. -/
def Tower.clearWork (t : Tower) : Tower :=
  { t with
    records := [], waiting := [], saved := [], restarts := [], redispatches := [], walks := [], lineRequests := []
    deficit := List.replicate 32 0, classPtr := [0, 0, 0]
    cores := t.cores.map fun k =>
      { k with cards := [], kick := none, accSlots := [], hotLines := [], newLines := [], taking := none, forming := [] } }

/-- FUNCTION_LEVEL_RESET (R328): all work in flight is discarded, and every queue register block is at its reset values. -/
def execFunctionLevelReset (s : State) : Host.Outcome State Fault Refusal :=
  keepMemory s fun _ y =>
    { y with
      cursor := none, starting := none, blocks := [], sweeps := [], packets := [], faults := [], ringWrites := [], heldWrites := []
      queues := List.replicate 32 Queue.reset, towers := y.towers.map Tower.clearWork, market := { y.market with join := none } }

/-! ## Bring-up (R351) -/

/-- DEVREADY's bit of a function; 52 for none. -/
def readyBit (f : DeviceFunction) : Nat :=
  match f with
  | .pcie => 0
  | .cp => 1
  | .hbm n => if n < 8 then 2 + n else 52
  | .lp n => if n < 16 then 10 + n else 52
  | .tower n => if n < 2 then 26 + n else 52
  | .port n => if n < 24 then 28 + n else 52

/-- Has a tower a usable core (R352)? -/
def Tower.usable (t : Tower) : Bool := t.cores.any Core.usable

/-- The functions of the table's earlier rows are ready; a tower with no usable core stays out (R351, R352). -/
def Sys.earlierReady (s : Sys) (f : DeviceFunction) : Bool :=
  let hbm := (List.range 8).all fun n => s.ready (2 + n)
  let lp := (List.range 16).all fun n => s.ready (10 + n)
  let tower := (List.range 2).all fun n => s.ready (26 + n) || !(s.tower n).usable
  match f with
  | .pcie => true
  | .cp => s.ready 0 && !s.device.recovery
  | .hbm _ => s.ready 1
  | .lp _ => s.ready 1 && hbm
  | .tower n => s.ready 1 && hbm && lp && (s.tower n).usable
  | .port n => s.ready 1 && hbm && lp && tower && s.device.fabric.getLsbD (32 + n)

/-- A bit of DEVREADY written. -/
def Sys.setReady (s : Sys) (bit : Nat) (on : Bool) : Sys :=
  s.setDevice fun d =>
    { d with devReady := if on then d.devReady ||| (1#64 <<< bit) else d.devReady &&& ~~~(1#64 <<< bit) }

/-- A function ready: its bit is set, and what was held for it is performed (R230): writes and error records, and with the Command Processor
the accesses to the device registers, in order. -/
def Tx.functionUp {o : Phys} (t : Tx o) (bit : Nat) : Tx o :=
  let t1 := t.map fun s => s.setReady bit true
  let t2 := (List.range 32).foldl (fun t q => if t.sys.ringWrites.any (fun x => x.queue == q && x.fault.isNone) &&
      !t.sys.ringWrites.any (fun x => x.queue == q && x.fault.isSome) then t.retryRecords q else t) t1.performHeld
  if bit == 1 then t2.map fun s => { s with agenda := s.heldAccesses.map Move.event ++ s.agenda, heldAccesses := [] } else t2

/-- FUNCTION_READY (R351): the bit is set; with TWR the tower's clock and its per-core registers begin (R20). -/
def execFunctionReady (f : DeviceFunction) (s : State) : Host.Outcome State Fault Refusal :=
  work s fun _ t =>
    let bit := readyBit f
    if 52 ≤ bit || t.sys.ready bit || !t.sys.earlierReady f then t
    else
      let t1 := t.map fun y =>
        match f with
        | .tower n => y.setTower n fun t => { t with clock := 0 }
        | .port n => y.setDevice fun d => { d with portDown := NatSet.del d.portDown n }
        | _ => y
      t1.functionUp bit

/-! ## Ports (R304, R349, R350) -/

/-- A port marked down (R304, R349). -/
def Sys.portFails (s : Sys) (port : Nat) : Sys :=
  ((s.setReady (28 + port) false).setDevice fun d =>
    { d with portDown := NatSet.add d.portDown port, portLogged := d.portLogged.filter fun p => p != port }).logError (.failed (.port port))

/-- FLIT_RETRY (R304): a good retry is logged as transient, or as lasting when it is the port's second within 1 s; a bad retry marks the
port down. -/
def execFlitRetry (port : Nat) (ok : Bool) (s : State) : Host.Outcome State Fault Refusal :=
  keepMemory s fun _ y =>
    if 24 ≤ port || !y.ready (28 + port) then y
    else if ok then y.transient (.port port) else y.portFails port

/-- PORT_TRAIN (R349): an enabled port trains, or its first failed attempt is logged. -/
def execPortTrain (port : Nat) (ok : Bool) (s : State) : Host.Outcome State Fault Refusal :=
  work s fun _ t =>
    if 24 ≤ port || t.sys.ready (28 + port) || !t.sys.earlierReady (.port port) then t
    else if ok then (t.map fun y => y.setDevice fun d => { d with portDown := NatSet.del d.portDown port }).functionUp (28 + port)
    else if t.sys.device.portLogged.contains port then t
    else t.map fun y => (y.logError (.training port)).setDevice fun d => { d with portLogged := port :: d.portLogged }

/-- A PARTNO write (R350): ignored with a reserved bit set, or while a port is trained. DESIGN CHOICE (log 167): memory stays where its
physical addresses say. -/
def Sys.writePartno (s : Sys) (v : Nat) : Sys :=
  let trained := (List.range 24).any fun p => s.ready (28 + p)
  if 512 ≤ v % 2 ^ 32 || trained then s
  else s.setDevice fun d => { d with fabric := BitVec.ofNat 64 (d.fabric.toNat / 2 ^ 32 * 2 ^ 32 + v % 2 ^ 32) }

/-- A PORTEN write (R350): the first failed attempt of a port newly enabled is logged again (R349). -/
def Sys.writePorten (s : Sys) (v : Nat) : Sys :=
  let old := s.device.fabric.toNat / 2 ^ 32
  s.setDevice fun d =>
    { d with fabric := BitVec.ofNat 64 (d.fabric.toNat % 2 ^ 32 + v % 2 ^ 24 * 2 ^ 32),
             portLogged := d.portLogged.filter fun p => !(natBit v p && !natBit old p) }

/-- PARTNO_WRITE (R350). -/
def execPartnoWrite (v : Word) (s : State) : Host.Outcome State Fault Refusal :=
  keepMemory s fun _ y => y.hostAccess (.partnoWrite v) fun y => y.writePartno v.toNat

/-- PORTEN_WRITE (R350). -/
def execPortenWrite (v : Word) (s : State) : Host.Outcome State Fault Refusal :=
  keepMemory s fun _ y => y.hostAccess (.portenWrite v) fun y => y.writePorten v.toNat

/-! ## Errors found in the field -/

/-- CORE_SELF_CHECK_FAIL (R246, R352): the core is unusable and its blocks are aborted, with no cause code of R296. -/
def execCoreSelfCheckFail (c : CoreRef) (s : State) : Host.Outcome State Fault Refusal :=
  work s fun _ t =>
    let ids := (t.sys.coreBlocks c).map Block.id
    let t1 := t.map fun s => ((s.setCore c fun k => { k with usable := false }).logError (.core c)).raise 33
    ids.foldl (fun t id => t.abortBlock id .none 0 0 0 0) t1

/-- The next unit for the patrol scrubber: first-tier memory, second-tier memory, then the scratchpads, and again. -/
def nextScrub (a : Nat) : Nat :=
  let n := a + (match offsetRegion a with | .scratchpad _ => 8 | _ => 32)
  match offsetRegion n with
  | .firstTier | .secondTier | .scratchpad _ => n
  | _ => if n ≤ 0x10000000000 then 0x10000000000 else if n ≤ 0x20100000000 then 0x20100000000 else 0

/-- PATROL_SCRUB (R244): the next unit is read, corrected, or marked poisoned; a memory that is not ready holds the read. -/
def execPatrolScrub (s : State) : Host.Outcome State Fault Refusal :=
  work s fun _ t =>
    let off := t.sys.device.scrubAt
    let a := t.sys.partNo * 2 ^ 43 + off
    if !t.sys.memReady a then t
    else
      let t1 := t.map fun s => s.setDevice fun d => { d with scrubAt := nextScrub off }
      t1.eccFinding (.memory (poisonBase a)) t.sys.inputs.scrub

/-- Does a peer part reach `n` bytes of this one (R230): the host range is served on the own part only? -/
def Sys.peerReaches (s : Sys) (pa n : Nat) : Bool :=
  (List.range n).all fun i => match s.region (pa + i) with | .firstTier | .secondTier | .scratchpad _ => true | _ => false

/-- PEER_ACCESS (R230, R231, R245): a peer's request is served as a local one, and poison goes with the data; a read is answered. It is held
while its memory is not ready. -/
def execPeerAccess (s : State) : Host.Outcome State Fault Refusal :=
  work s fun _ t =>
    match t.sys.inputs.peers with
    | [] => t
    | (port, r) :: rest =>
      let place := match r with
        | .read pa n => (pa, n)
        | .write pa bs _ => (pa, bs.length)
      let answer := fun (t : Tx _) (x : Option (List Byte × Bool)) =>
        t.map fun s => s.setDevice fun d => { d with answers := d.answers ++ [(port, x)] }
      let t1 := t.map fun s => { s with inputs := { s.inputs with peers := rest } }
      if !t.sys.peerReaches place.1 place.2 then answer t1 none
      else if (List.range place.2).any fun i => !t.sys.memReady (place.1 + i) then t
      else
        match r with
        | .read pa n => answer t1 (some ((List.range n).map fun i => t.phys.byte (pa + i), t.phys.anyPoison pa n))
        | .write pa bs bad => if bad then t1.poisonBytes pa bs.length else t1.store pa bs

/-! ## Attestation and firmware (R329, R356) -/

/-- Bytes of a number replaced. -/
def putBytes (x off size v : Nat) : Nat :=
  let lo := x % 2 ^ (8 * off)
  let hi := x / 2 ^ (8 * (off + size))
  lo + v % 2 ^ (8 * size) * 2 ^ (8 * off) + hi * 2 ^ (8 * (off + size))

/-- A write of nonce bytes (R319, R356). -/
def Sys.writeNonce (s : Sys) (off size v : Nat) : Sys :=
  if (size == 4 || size == 8) && off % size == 0 && off + size ≤ 64 then
    s.setDevice fun d => { d with nonce := BitVec.ofNat 512 (putBytes d.nonce.toNat off size v) }
  else s

/-- A request for a quote (R356): it takes the nonce as it stands, also for a quote that is being formed. -/
def Sys.requestQuote (s : Sys) : Sys := s.setDevice fun d => { d with quoting := true, quoteDone := false, quoteNonce := d.nonce }

/-- QUOTE_NONCE_WRITE (R356). -/
def execQuoteNonceWrite (off size : Nat) (v : DWord) (s : State) : Host.Outcome State Fault Refusal :=
  keepMemory s fun _ y => y.hostAccess (.quoteNonceWrite off size v) fun y => y.writeNonce off size v.toNat

/-- QUOTE_REQUEST (R356). -/
def execQuoteRequest (s : State) : Host.Outcome State Fault Refusal :=
  keepMemory s fun _ y => y.hostAccess .quoteRequest Sys.requestQuote

/-- The digest of a measurement (R356). -/
def Measured.digest (m : Measured) : BitVec 512 :=
  match m with
  | .bootRom => bootRomDigest
  | .firmware n => imageDigest n
  | .table d => d

/-- The measurement log (R356): a 32-bit count, then the digests. -/
def Sys.measurementBytes (s : Sys) : List Byte :=
  let l := s.device.measurements
  natToBytes 4 l.length ++ l.flatMap fun m => natToBytes 64 m.digest.toNat

/-- PART to SERIAL of the identity block, bits 127 to 0 (R355). -/
def Sys.partSerial (s : Sys) : Nat :=
  0x4B34 + 0xB0 * 2 ^ 32 + 0x02 * 2 ^ 40 + s.partNo * 2 ^ 48 + serialNumber.toNat * 2 ^ 64

/-- What a quote signs (R356): the digest of the nonce, PART to SERIAL, and the log. -/
def Sys.quoteDigest (s : Sys) : BitVec 512 :=
  sha3 (natToBytes 64 s.device.quoteNonce.toNat ++ natToBytes 16 s.partSerial ++ s.measurementBytes)

/-- QUOTE_COMPLETE (R356): the signature is placed, with 32 random bytes, which are free (log 102). -/
def execQuoteComplete (s : State) : Host.Outcome State Fault Refusal :=
  keepMemory s fun _ y =>
    if y.device.quoting then
      { y with free := y.free + 32 }.setDevice fun d =>
        { d with quoting := false, quoteDone := true, quoted := some y.quoteDigest, quoteRandom := y.free }
    else y

/-- FIRMWARE_UPDATE (R329, R356): the slot is replaced, and the update is measured. -/
def execFirmwareUpdate (image : Nat) (whole : Bool) (s : State) : Host.Outcome State Fault Refusal :=
  keepMemory s fun _ y =>
    if y.ready 1 || y.device.recovery then
      y.setDevice fun d => { d with image := image, imageWhole := whole, measurements := d.measurements ++ [.firmware image] }
    else y

/-! ## Writes to BAR0 (R319, R320, R350) -/

/-- The host fields of the global block (R319), as a mask of its 512 bits. -/
def globalMask : Nat :=
  let m := fun (hi lo : Nat) => (2 ^ (hi - lo + 1) - 1) * 2 ^ lo
  m 51 12 + m 127 76 + m 191 140 + m 247 204 + m 304 288

/-- The host fields of a queue block but EN and WPTR (R320). -/
def queueMask : Nat :=
  let m := fun (hi lo : Nat) => (2 ^ (hi - lo + 1) - 1) * 2 ^ lo
  m 51 0 + m 105 64 + m 243 192 + m 311 256 + m 375 320

/-- The reserved bits of a queue block. -/
def queueReserved : Nat :=
  let m := fun (hi lo : Nat) => (2 ^ (hi - lo + 1) - 1) * 2 ^ lo
  m 63 52 + m 127 108 + m 255 244 + m 319 312 + m 383 376 + m 511 416

/-- The bits of a 512-bit block under a mask replaced by those of a write of `size` bytes at `off`. -/
def writeMasked (old mask off size v : Nat) : Nat :=
  let new := putBytes old off size v
  (BitVec.ofNat 512 old &&& ~~~(BitVec.ofNat 512 mask) ||| BitVec.ofNat 512 new &&& BitVec.ofNat 512 mask).toNat

/-- Does a write of `size` bytes at `off` cover byte `i`? -/
def coversByte (off size i : Nat) : Bool := off ≤ i && i < off + size

/-- A write to a queue's register block (R320): its host fields while EN = 0, with the ring's size held against WPTR, then the doorbell and the
check of EN. DEDUCED:
a reserved bit, which a write leaves unchanged (R319), is found set when the write itself sets it. -/
def Queue.write (q : Queue) (off size v : Nat) : Queue :=
  let on := q.field 106 106 == 1
  let q1 := if on then q else { q with regs := BitVec.ofNat 512 (writeMasked q.regs.toNat queueMask off size v) }
  let q2 := if coversByte off size 16 then q1.ring (natBits (putBytes 0 off size v) 159 128)
    else if !on && coversByte off size 8 then q1.checkAhead else q1
  if coversByte off size 13 then
    let x := putBytes 0 off size v
    if !natBit x 106 then q2.disable
    else if (BitVec.ofNat 512 x &&& BitVec.ofNat 512 queueReserved) != 0 then q2 else q2.enable
  else q2

/-- REGISTER_WRITE (R319): a write of 4 or 8 aligned bytes; any other is ignored, and so is a write to no register. It is held until the
Command Processor runs (R351). -/
def execRegisterWrite (offset size : Nat) (value : DWord) (s : State) : Host.Outcome State Fault Refusal :=
  work s fun _ t =>
    let v := value.toNat % 2 ^ (8 * size)
    if !(size == 4 || size == 8) || offset % size != 0 then t
    else if !t.sys.ready 1 then t.map fun s => s.holdAccess (.registerWrite offset size value)
    else if offset + size ≤ 0x40 then
      let t1 := t.map fun s => s.setDevice fun d => { d with globals := BitVec.ofNat 512 (writeMasked d.globals.toNat globalMask offset size v) }
      if coversByte offset size 38 then
        let g := t1.sys.device.globals.toNat
        match t1.sys.takeFault (natBits g 303 288) with
        | none => t1
        | some (f, y) => let t2 := t1.map fun _ => y; if natBit g 304 then t2.decline f else t2.resume f
      else t1
    else if 0x2000 ≤ offset && offset + size ≤ 0x2008 then
      t.map fun s =>
        let s1 := if offset == 0x2000 then s.writePartno v else s
        if offset == 0x2004 then s1.writePorten v else if size == 8 then s1.writePorten (v / 2 ^ 32) else s1
    else if 0x3000 ≤ offset && offset + size ≤ 0x3040 then t.map fun s => s.writeNonce (offset - 0x3000) size v
    else if offset == 0x3040 then (if v == 1 then t.map Sys.requestQuote else t)
    else if 0x10000 ≤ offset && offset + size ≤ 0x10800 then
      t.map fun s => s.setQueue ((offset - 0x10000) / 64) fun q => q.write ((offset - 0x10000) % 64) size v
    else t

end Sys2Proof.Machine
end

