-- ==== Sys2Proof/Machine/Fp.lean ====
section
/-! DEFINITION. The floating-point and special-function instructions (R134 to R147). -/

namespace Sys2Proof.Machine

/-- An exact value delivered in FP32 with the flags of its formation (R79, R136). -/
def deliver32 (f : Fields) (w : Warp) (l : Nat) (x : Num × BitVec 5) : Nat × BitVec 5 :=
  let r := FloatFmt.fp32.deliver (roundingOf f w l) f.sat w.ftz x.1
  (r.1, r.2 ||| x.2)

/-- RD, under which an exact zero sum of mixed signs is −0 (R79 (e)). -/
def roundsDown (f : Fields) : Bool := f.rnd == .rd

/-- An FP32 arithmetic instruction (R136): the exact value from A, B and C. -/
def floatArith (m : Mnem) (f : Fields) (s : State) (g : Num → Num → Num → Num × BitVec 5) : Host.Outcome State Fault Refusal :=
  floatOp m f s fun w l =>
    deliver32 f w l (g (fp32 (w.elem f.a.toNat l)) (fp32 (bFloat w f l)) (fp32 (w.elem f.c.toNat l)))

/-- FADD: a + b. -/
def execFadd (f : Fields) (s : State) : Host.Outcome State Fault Refusal :=
  floatArith .fadd f s fun a b _ => sumNums (roundsDown f) [a, b]

/-- FSUB: a − b. -/
def execFsub (f : Fields) (s : State) : Host.Outcome State Fault Refusal :=
  floatArith .fsub f s fun a b _ => sumNums (roundsDown f) [a, b.negate]

/-- FMUL: a × b. -/
def execFmul (f : Fields) (s : State) : Host.Outcome State Fault Refusal :=
  floatArith .fmul f s fun a b _ => a.mul b

/-- FFMA: a × b + c, rounded once; ∞ × 0 is NaN and IV whatever c is. -/
def execFfma (f : Fields) (s : State) : Host.Outcome State Fault Refusal :=
  floatArith .ffma f s fun a b c => dotNums (roundsDown f) [(a, b)] (some c)

/-- FMIN and FMAX (R137). -/
def floatMinMax (m : Mnem) (f : Fields) (s : State) (less : Bool) : Host.Outcome State Fault Refusal :=
  floatOp m f s fun w l =>
    let r := fp32MinMax less (w.elem f.a.toNat l) (bFloat w f l)
    (r.1.toNat, r.2)

/-- FMIN. -/
def execFmin (f : Fields) (s : State) : Host.Outcome State Fault Refusal :=
  floatMinMax .fmin f s true

/-- FMAX. -/
def execFmax (f : Fields) (s : State) : Host.Outcome State Fault Refusal :=
  floatMinMax .fmax f s false

/-- FCMP (R138). -/
def execFcmp (f : Fields) (s : State) : Host.Outcome State Fault Refusal :=
  compareOp .fcmp f s fun w l =>
    let a := w.elem f.a.toNat l
    let b := bFloat w f l
    ((Cmp.ofSub f.sub).holdsFloat a b, compareFlags a b)

/-- The class bit of an FP32 encoding (R139). -/
def classBit (x : Word) : Nat :=
  match fp32 x with
  | .nan sig => if sig then 8 else 9
  | .inf s => if s then 0 else 7
  | .fin s m e =>
    if m == 0 then (if s then 3 else 4)
    else if leadExp m e < -126 then (if s then 2 else 5)
    else if s then 1 else 6

/-- FCLASS (R139): exactly one bit; no flag. -/
def execFclass (f : Fields) (s : State) : Host.Outcome State Fault Refusal :=
  floatOp .fclass f s fun w l => (2 ^ classBit (w.elem f.a.toNat l), 0)

/-- FRND (R140). -/
def execFrnd (f : Fields) (s : State) : Host.Outcome State Fault Refusal :=
  floatOp .frnd f s fun w l =>
    let r := roundIntegral (roundingOf f w l) (w.elem f.a.toNat l)
    (r.1.toNat, r.2)

/-- FCVT (R141): the low bits of the source element hold its format, and the result clears the bits above its own. -/
def execFcvt (f : Fields) (s : State) : Host.Outcome State Fault Refusal :=
  floatOp .fcvt f s fun w l =>
    (FloatFmt.ofCode f.typeCode).convert (roundingOf f w l) f.sat w.ftz
      ((FloatFmt.ofCode f.srcCode).value (w.elem f.a.toNat l).toNat)

/-- ICVTF (R141). -/
def execIcvtf (f : Fields) (s : State) : Host.Outcome State Fault Refusal :=
  floatOp .icvtf f s fun w l =>
    (FloatFmt.ofCode f.typeCode).convert (roundingOf f w l) f.sat w.ftz
      (Num.ofInt (intValue f.srcCode (w.rawElem f.srcCode f.a.toNat l)))

/-- FCVTI (R141): the integer written as its type is (R117 (c)). -/
def execFcvti (f : Fields) (s : State) : Host.Outcome State Fault Refusal :=
  fixedOp .fcvti f s fun c e =>
    let t := f.typeCode
    let rs := e.lanes.map fun l =>
      (l, toInteger t (roundingOf f c.w l) ((FloatFmt.ofCode f.srcCode).value (c.w.elem f.a.toNat l).toNat))
    let w := c.w.putElems t f.d.toNat (rs.map fun x => (x.1, wrapBits (intBits t) x.2.1))
    w.orFlags (rs.foldl (fun a x => a ||| x.2.2) 0)

/-- FSCL (R136): a × 2^b for every I32 b. -/
def execFscl (f : Fields) (s : State) : Host.Outcome State Fault Refusal :=
  floatOp .fscl f s fun w l =>
    let x := fp32 (w.elem f.a.toNat l)
    let y := match x with
      | .fin sg m e => if m == 0 then x else Num.fin sg m (e + (bWord w f l).toInt)
      | _ => x
    deliver32 f w l (y, ivIf x.isSig)

/-- A packed instruction (R142): two 16-bit elements, each a complete operation; SR draws by e = 2l + j. -/
def packedOp (m : Mnem) (f : Fields) (s : State) (g : Num → Num → Num → Num × BitVec 5) : Host.Outcome State Fault Refusal :=
  floatOp m f s fun w l =>
    let fmt := FloatFmt.ofCode f.typeCode
    let part := fun (x : Word) (j : Nat) => fmt.value (natBits x.toNat (16 * j + 15) (16 * j))
    let one := fun j =>
      let x := g (part (w.elem f.a.toNat l) j) (part (bWord w f l) j) (part (w.elem f.c.toNat l) j)
      let r := fmt.deliver (roundingOf f w (2 * l + j)) f.sat w.ftz x.1
      (r.1, r.2 ||| x.2)
    let lo := one 0
    let hi := one 1
    (lo.1 + hi.1 * 2 ^ 16, lo.2 ||| hi.2)

/-- PFADD. -/
def execPfadd (f : Fields) (s : State) : Host.Outcome State Fault Refusal :=
  packedOp .pfadd f s fun a b _ => sumNums (roundsDown f) [a, b]

/-- PFMUL. -/
def execPfmul (f : Fields) (s : State) : Host.Outcome State Fault Refusal :=
  packedOp .pfmul f s fun a b _ => a.mul b

/-- PFFMA. -/
def execPffma (f : Fields) (s : State) : Host.Outcome State Fault Refusal :=
  packedOp .pffma f s fun a b c => dotNums (roundsDown f) [(a, b)] (some c)

/-- FDOT4 (R143): four products and the addend, exact, rounded once. -/
def execFdot4 (f : Fields) (s : State) : Host.Outcome State Fault Refusal :=
  floatOp .fdot4 f s fun w l =>
    let fmt := FloatFmt.ofCode f.srcCode
    let part := fun (x : Word) (j : Nat) => fmt.value (natBits x.toNat (8 * j + 7) (8 * j))
    let ps := (List.range 4).map fun j => (part (w.elem f.a.toNat l) j, part (w.elem f.b.toNat l) j)
    deliver32 f w l (dotNums (roundsDown f) ps (some (fp32 (w.elem f.c.toNat l))))

/-- A special function of fixed form (R144): computed from the operands and FTZ at issue, written with its flags at
completion (R147). -/
def specialFixed (m : Mnem) (fn : SpecialFn) (f : Fields) (s : State) : Host.Outcome State Fault Refusal :=
  issue m f s fun _ t c e flag =>
    if e == 0 then t.map fun y => y.completedOp c id
    else
      let rs := e.lanes.map fun l => (l, fn.fixed { mode := f.rnd } f.sat c.w.ftz (c.w.elem f.a.toNat l))
      t.map fun y => y.startOp c m flag
        (.sfu f.d.toNat (rs.map fun x => (x.1, BitVec.ofNat 32 x.2.1)) (rs.foldl (fun a x => a ||| x.2.2) 0))

/-- A special function of .T form (R146): its precision from TOL at issue and the latched class entry. -/
def specialTolerant (m : Mnem) (fn : SpecialFn) (f : Fields) (s : State) : Host.Outcome State Fault Refusal :=
  issue m f s fun _ t c e flag =>
    if e == 0 then t.map fun y => y.completedOp c id
    else
      let q := tolerantBits c.b c.w.tol.toNat
      let rs := e.lanes.map fun l => (l, fn.tolerant q f.sat c.w.ftz (c.w.elem f.a.toNat l))
      t.map fun y => y.startOp c m flag
        (.sfu f.d.toNat (rs.map fun x => (x.1, BitVec.ofNat 32 x.2.1)) (rs.foldl (fun a x => a ||| x.2.2) 0))

/-- RCP. -/
def execRcp (f : Fields) (s : State) : Host.Outcome State Fault Refusal :=
  specialFixed .rcp .rcp f s

/-- RCP.T. -/
def execRcpT (f : Fields) (s : State) : Host.Outcome State Fault Refusal :=
  specialTolerant .rcpT .rcp f s

/-- RSQ. -/
def execRsq (f : Fields) (s : State) : Host.Outcome State Fault Refusal :=
  specialFixed .rsq .rsq f s

/-- RSQ.T. -/
def execRsqT (f : Fields) (s : State) : Host.Outcome State Fault Refusal :=
  specialTolerant .rsqT .rsq f s

/-- SQRT. -/
def execSqrt (f : Fields) (s : State) : Host.Outcome State Fault Refusal :=
  specialFixed .sqrt .sqrt f s

/-- SQRT.T. -/
def execSqrtT (f : Fields) (s : State) : Host.Outcome State Fault Refusal :=
  specialTolerant .sqrtT .sqrt f s

/-- EXP2. -/
def execExp2 (f : Fields) (s : State) : Host.Outcome State Fault Refusal :=
  specialFixed .exp2 .exp2 f s

/-- EXP2.T. -/
def execExp2T (f : Fields) (s : State) : Host.Outcome State Fault Refusal :=
  specialTolerant .exp2T .exp2 f s

/-- LOG2. -/
def execLog2 (f : Fields) (s : State) : Host.Outcome State Fault Refusal :=
  specialFixed .log2 .log2 f s

/-- LOG2.T. -/
def execLog2T (f : Fields) (s : State) : Host.Outcome State Fault Refusal :=
  specialTolerant .log2T .log2 f s

/-- SIN. -/
def execSin (f : Fields) (s : State) : Host.Outcome State Fault Refusal :=
  specialFixed .sin .sin f s

/-- SIN.T. -/
def execSinT (f : Fields) (s : State) : Host.Outcome State Fault Refusal :=
  specialTolerant .sinT .sin f s

/-- COS. -/
def execCos (f : Fields) (s : State) : Host.Outcome State Fault Refusal :=
  specialFixed .cos .cos f s

/-- COS.T. -/
def execCosT (f : Fields) (s : State) : Host.Outcome State Fault Refusal :=
  specialTolerant .cosT .cos f s

end Sys2Proof.Machine
end

