-- ==== Sys2Proof/Machine/Mask.lean ====
section
/-! DEFINITION. The mask instructions (R128). -/

namespace Sys2Proof.Machine

/-- MAND. -/
def execMand (f : Fields) (s : State) : Host.Outcome State Fault Refusal :=
  maskOp .mand f s fun c => c.maskReg f.a.toNat &&& c.maskReg f.b.toNat

/-- MOR. -/
def execMor (f : Fields) (s : State) : Host.Outcome State Fault Refusal :=
  maskOp .mor f s fun c => c.maskReg f.a.toNat ||| c.maskReg f.b.toNat

/-- MXOR. -/
def execMxor (f : Fields) (s : State) : Host.Outcome State Fault Refusal :=
  maskOp .mxor f s fun c => c.maskReg f.a.toNat ^^^ c.maskReg f.b.toNat

/-- MNOT. -/
def execMnot (f : Fields) (s : State) : Host.Outcome State Fault Refusal :=
  maskOp .mnot f s fun c => ~~~(c.maskReg f.a.toNat)

/-- MMOV. -/
def execMmov (f : Fields) (s : State) : Host.Outcome State Fault Refusal :=
  maskOp .mmov f s fun c => c.maskReg f.a.toNat

/-- MCNT: the number of set bits. -/
def execMcnt (f : Fields) (s : State) : Host.Outcome State Fault Refusal :=
  scalarOp .mcnt f s fun c => BitVec.ofNat 64 (popCount 64 (c.maskReg f.a.toNat).toNat)

/-- MFIRST: the lowest set bit, or W. -/
def execMfirst (f : Fields) (s : State) : Host.Outcome State Fault Refusal :=
  scalarOp .mfirst f s fun c => BitVec.ofNat 64 (trailingZeros 64 (c.maskReg f.a.toNat).toNat)

/-- MTOS. -/
def execMtos (f : Fields) (s : State) : Host.Outcome State Fault Refusal :=
  scalarOp .mtos f s fun c => c.maskReg f.a.toNat

/-- STOM. -/
def execStom (f : Fields) (s : State) : Host.Outcome State Fault Refusal :=
  maskOp .stom f s fun c => c.w.scalar f.a.toNat

end Sys2Proof.Machine
end

