-- ==== Sys2Proof/Machine/Power.lean ====
section
/-! DEFINITION. Power, sensors and trim (R342 to R346). -/

namespace Sys2Proof.Machine

/-! ## Power (R342) -/

/-- Package power in mW from the current monitors; an invalid one reads as its rated maximum (R344). -/
def packagePower (monitors : List (Option Nat)) : Nat :=
  (monitors.zipIdx.map fun x => match x.1 with | some p => p | none => Config.ratedMaximum x.2).sum

/-- Does the measured 100 µs average, over the last 10 samples, exceed PLIM × 1.05 (R342 (c))? -/
def powerBite (samples : List Nat) (plim : Nat) : Bool :=
  let xs := samples.take 10
  xs.length * plim * 1050 < xs.sum

/-- The power code (R342): the highest code of 47 to 188 at which the forecast stays at or below PLIM, in mW. DESIGN CHOICE: where no code
does, 47, the lowest that there is (log 126). -/
def powerCode (samples : List Nat) (plim : Nat) : Nat :=
  (((List.range 142).map fun i => 188 - i).find? fun c => decide (Config.forecast samples c ≤ 1000 * plim)).getD 47

/-- Is it a slice island (R346)? -/
def isSliceIsland (i : Nat) : Bool := decide (i < 504) && i % 7 != 6

/-- The slice clock ratios that the Power Manager sets (R330): n of 2 to 8. -/
def Sys.setRatios (s : Sys) : Sys :=
  s.inputs.ratios.foldl (fun s x =>
    if isSliceIsland x.1 && decide (2 ≤ x.2) && decide (x.2 ≤ 8) then s.setIsland x.1 fun y => { y with ratio := x.2 } else s) s

/-- POWER_SAMPLE (R330, R342): the slice ratios, and the power code by the forecast; a limit that bites at a code below that of its late
notice sends one (R337). -/
def execPowerSample (s : State) : Host.Outcome State Fault Refusal :=
  keepMemory s fun _ y =>
    let xs := (packagePower y.inputs.monitors :: y.power.samples).take 100
    let c := powerCode xs y.power.plim
    let bites := powerBite xs y.power.plim
    let y1 := { y with power := { y.power with samples := xs, powerAt := y.now, monitors := y.inputs.monitors } }.setMarket fun m => { m with power := c, powerBites := bites }
    let late := bites && (match y.market.latePower with | some k => decide (c < k) | none => true)
    (if late then y1.setRatios.late false c else y1.setRatios).lift.repost

/-! ## Thermal sensors (R344, R345) -/

/-- The neighbours of a sensor on the grid of 8 rows by 16 columns. -/
def sensorNeighbours (i : Nat) : List Nat :=
  let r := i / 16
  let c := i % 16
  (if 0 < r then [i - 16] else []) ++ (if r < 7 then [i + 16] else []) ++ (if 0 < c then [i - 1] else []) ++ (if c < 15 then [i + 1] else [])

/-- Twice the median of a list that is not empty. -/
def twiceMedian (xs : List Int) : Int :=
  let ys := sortBy (fun (a b : Int) => decide (a < b)) xs
  let n := ys.length
  if n % 2 == 1 then 2 * ys.getD (n / 2) 0 else ys.getD (n / 2 - 1) 0 + ys.getD (n / 2) 0

/-- The greatest of a list of readings; none for an empty list. -/
def greatest (xs : List Int) : Option Int := match xs with | [] => none | x :: rest => some (rest.foldl max x)

/-- The least of a list of readings; none for an empty list. -/
def leastOf (xs : List Int) : Option Int := match xs with | [] => none | x :: rest => some (rest.foldl min x)

/-- Condition (a) of R344: below −40 °C or above 150 °C. -/
def outOfRange (x : Int) : Bool := x < -320 || 1200 < x

/-- Condition (b) of R344. DEDUCED: the mean has moved by the difference of its greatest and least value. -/
def ThermalSensor.stuck (x : ThermalSensor) : Bool :=
  10000 ≤ x.still && 10000 ≤ x.means.length &&
    match greatest x.means, leastOf x.means with
    | some a, some b => 192 ≤ a - b
    | _, _ => false

/-- A tower's sensors after a sample (R344). DESIGN CHOICE: (a) is judged for every sensor first, and its verdicts are the valid
neighbours of (b) and (c). -/
def judgeSensors (old : List ThermalSensor) (samples : List Int) : List ThermalSensor :=
  let bad := (old.zip samples).map fun x => x.1.invalid || outOfRange x.2
  (old.zip samples).zipIdx.map fun x =>
    let o := x.1.1
    let r := x.1.2
    let nb := ((sensorNeighbours x.2).filter fun j => !bad.getD j true).map fun j => samples.getD j 0
    let means := if nb.isEmpty then (match o.means with | m :: _ => (m :: o.means).take 10000 | [] => [])
      else (12 * nb.sum / nb.length :: o.means).take 10000
    let z := { o with reading := r, still := if r == o.reading && o.still != 0 then o.still + 1 else 1, means := means }
    let far := !nb.isEmpty && 192 < (2 * r - twiceMedian nb).natAbs
    { z with invalid := bad.getD x.2 true || z.stuck || far }

/-- The readings that count: an invalid sensor's is replaced (R344). -/
def effectiveReadings (xs : List ThermalSensor) (free : Nat) : List Int :=
  let valid := fun (j : Nat) => match xs[j]? with | some x => !x.invalid | none => false
  let all := greatest ((xs.filter fun x => !x.invalid).map ThermalSensor.reading)
  xs.zipIdx.map fun x =>
    if !x.1.invalid then x.1.reading
    else
      match greatest (((sensorNeighbours x.2).filter valid).map fun j => (xs.getD j {}).reading), all with
      | some m, _ => m + 40
      | none, some m => m + 40
      | none, none => Config.blindReading (free + x.2)

/-- The band of a reading (R343): 95 °C and 100 °C. -/
def thermalBand (t : Int) : Nat := if t < 760 then 0 else if t < 800 then 1 else 2

/-- The towers whose invalid sensors pass 8 now (R345): each is degraded, logged and signalled. -/
def Sys.degrade (s : Sys) (thermal : List (List ThermalSensor)) : Sys :=
  thermal.zipIdx.foldl (fun s x =>
    if 8 < (x.1.filter ThermalSensor.invalid).length && !s.power.degraded.getD x.2 false then
      ({ s with power := { s.power with degraded := s.power.degraded.set x.2 true } }.logError (.sensorDegraded x.2)).raise 34
    else s) s

/-- The times since which the cold-plate outlet sensors have read above 70 °C (R343). -/
def outletTimes (old : List (Option Nat)) (now : Nat) (readings : List Int) : List (Option Nat) :=
  readings.zipIdx.map fun x => if 560 < x.1 then some ((old.getD x.2 none).getD now) else none

/-- SENSOR_SAMPLE (R343 to R345): validity, the hottest reading, the thermal code and the sensor code; at 125 °C, or with an outlet above
70 °C for 1 s, the error is FATAL. -/
def execSensorSample (s : State) : Host.Outcome State Fault Refusal :=
  keepMemory s fun _ y =>
    let samples := fun (t : Nat) => (List.range 128).map fun i => y.inputs.thermal.getD (128 * t + i) 0
    let thermal := y.power.thermal.zipIdx.map fun x => judgeSensors x.1 (samples x.2)
    let t := (greatest (thermal.zipIdx.flatMap fun x => effectiveReadings x.1 (y.free + 128 * x.2))).getD 0
    let outlet := outletTimes y.power.outletSince y.now y.inputs.outlet
    if 1000 ≤ t || outlet.any fun x => match x with | some a => decide (1000000 ≤ y.since a) | none => false then y.fatal .thermalTrip
    else
      let band := thermalBand t
      let pw := { y.power with thermal := thermal, hottest := t, band := band, outletSince := outlet, outlet := y.inputs.outlet }
      let y1 := { y with free := y.free + 256, power := { pw with sensorFree := y.free, sensorAt := y.now } }
      let y2 := (y1.degrade thermal).sensorCode
      let y3 := if band == 0 || band != y.power.band then y2.thermalStep else y2
      y3.lift.repost

/-! ## Undervolting (R346) -/

/-- TRIM_STEP (R346 (a), (b)), every 10 ms: the errors of the step and those found since the last; over 100 ms a single error is a
rate of 10 per second. -/
def execTrimStep (island errors : Nat) (s : State) : Host.Outcome State Fault Refusal :=
  keepMemory s fun _ y =>
    y.setIsland island fun x =>
      let w := ((x.errors + errors) :: x.window).take 10
      let x1 := { x with errors := 0, window := w }
      if x.lock then { x1 with trim := 0 }
      else if x.hold then x1
      else if w.sum == 0 then { x1 with trim := min 30 (x.trim + 1) }
      else { x1 with trim := x.trim - 2, hold := true, holdAt := y.now }

/-- TRIM_HOLD_EXPIRY (R346 (b)): after 1 s. -/
def execTrimHoldExpiry (island : Nat) (s : State) : Host.Outcome State Fault Refusal :=
  keepMemory s fun _ y =>
    y.setIsland island fun x => if x.hold && 1000000 ≤ y.since x.holdAt then { x with hold := false } else x

end Sys2Proof.Machine
end

