-- ==== Sys2Proof/Machine/Dispatch.lean ====
section
/-! DEFINITION. The dispatch of every instruction and event to its meaning. -/

namespace Sys2Proof.Machine

/-- The meaning of an instruction or event. -/
def exec (i : Instr) (s : State) : Host.Outcome State Fault Refusal :=
  match i with
  | .clauseHeader h => Sys2Proof.Machine.execClauseHeader h s
  | .nop f => Sys2Proof.Machine.execNop f s
  | .bra f => Sys2Proof.Machine.execBra f s
  | .brc f => Sys2Proof.Machine.execBrc f s
  | .brx f => Sys2Proof.Machine.execBrx f s
  | .call f => Sys2Proof.Machine.execCall f s
  | .ret f => Sys2Proof.Machine.execRet f s
  | .prepj f => Sys2Proof.Machine.execPrepj f s
  | .prepl f => Sys2Proof.Machine.execPrepl f s
  | .recv f => Sys2Proof.Machine.execRecv f s
  | .brk f => Sys2Proof.Machine.execBrk f s
  | .cont f => Sys2Proof.Machine.execCont f s
  | .exit f => Sys2Proof.Machine.execExit f s
  | .trap f => Sys2Proof.Machine.execTrap f s
  | .rtt f => Sys2Proof.Machine.execRtt f s
  | .rttSkip f => Sys2Proof.Machine.execRttSkip f s
  | .bkpt f => Sys2Proof.Machine.execBkpt f s
  | .yield f => Sys2Proof.Machine.execYield f s
  | .srd f => Sys2Proof.Machine.execSrd f s
  | .swr f => Sys2Proof.Machine.execSwr f s
  | .regacq f => Sys2Proof.Machine.execRegacq f s
  | .waitf f => Sys2Proof.Machine.execWaitf f s
  | .sadd f => Sys2Proof.Machine.execSadd f s
  | .ssub f => Sys2Proof.Machine.execSsub f s
  | .smul f => Sys2Proof.Machine.execSmul f s
  | .smulh f => Sys2Proof.Machine.execSmulh f s
  | .smad f => Sys2Proof.Machine.execSmad f s
  | .sand f => Sys2Proof.Machine.execSand f s
  | .sor f => Sys2Proof.Machine.execSor f s
  | .sxor f => Sys2Proof.Machine.execSxor f s
  | .snot f => Sys2Proof.Machine.execSnot f s
  | .sshl f => Sys2Proof.Machine.execSshl f s
  | .sshr f => Sys2Proof.Machine.execSshr f s
  | .ssar f => Sys2Proof.Machine.execSsar f s
  | .smin f => Sys2Proof.Machine.execSmin f s
  | .smax f => Sys2Proof.Machine.execSmax f s
  | .scmp f => Sys2Proof.Machine.execScmp f s
  | .ssel f => Sys2Proof.Machine.execSsel f s
  | .smov f => Sys2Proof.Machine.execSmov f s
  | .sli f => Sys2Proof.Machine.execSli f s
  | .sliHi f => Sys2Proof.Machine.execSliHi f s
  | .spopc f => Sys2Proof.Machine.execSpopc f s
  | .sclz f => Sys2Proof.Machine.execSclz f s
  | .sctz f => Sys2Proof.Machine.execSctz f s
  | .vadd f => Sys2Proof.Machine.execVadd f s
  | .vsub f => Sys2Proof.Machine.execVsub f s
  | .vmul f => Sys2Proof.Machine.execVmul f s
  | .vmulh f => Sys2Proof.Machine.execVmulh f s
  | .vmad f => Sys2Proof.Machine.execVmad f s
  | .vmin f => Sys2Proof.Machine.execVmin f s
  | .vmax f => Sys2Proof.Machine.execVmax f s
  | .vabs f => Sys2Proof.Machine.execVabs f s
  | .vneg f => Sys2Proof.Machine.execVneg f s
  | .vand f => Sys2Proof.Machine.execVand f s
  | .vor f => Sys2Proof.Machine.execVor f s
  | .vxor f => Sys2Proof.Machine.execVxor f s
  | .vnot f => Sys2Proof.Machine.execVnot f s
  | .vshl f => Sys2Proof.Machine.execVshl f s
  | .vshr f => Sys2Proof.Machine.execVshr f s
  | .vsar f => Sys2Proof.Machine.execVsar f s
  | .vrot f => Sys2Proof.Machine.execVrot f s
  | .vfun f => Sys2Proof.Machine.execVfun f s
  | .vpopc f => Sys2Proof.Machine.execVpopc f s
  | .vclz f => Sys2Proof.Machine.execVclz f s
  | .vctz f => Sys2Proof.Machine.execVctz f s
  | .vbrev f => Sys2Proof.Machine.execVbrev f s
  | .vcmp f => Sys2Proof.Machine.execVcmp f s
  | .vsel f => Sys2Proof.Machine.execVsel f s
  | .vmov f => Sys2Proof.Machine.execVmov f s
  | .vli f => Sys2Proof.Machine.execVli f s
  | .vbcst f => Sys2Proof.Machine.execVbcst f s
  | .vextr f => Sys2Proof.Machine.execVextr f s
  | .icvt f => Sys2Proof.Machine.execIcvt f s
  | .bmm8 f => Sys2Proof.Machine.execBmm8 f s
  | .pdep f => Sys2Proof.Machine.execPdep f s
  | .pext f => Sys2Proof.Machine.execPext f s
  | .ldperm f => Sys2Proof.Machine.execLdperm f s
  | .bperm f => Sys2Proof.Machine.execBperm f s
  | .bfx f => Sys2Proof.Machine.execBfx f s
  | .bfi f => Sys2Proof.Machine.execBfi f s
  | .mand f => Sys2Proof.Machine.execMand f s
  | .mor f => Sys2Proof.Machine.execMor f s
  | .mxor f => Sys2Proof.Machine.execMxor f s
  | .mnot f => Sys2Proof.Machine.execMnot f s
  | .mmov f => Sys2Proof.Machine.execMmov f s
  | .mcnt f => Sys2Proof.Machine.execMcnt f s
  | .mfirst f => Sys2Proof.Machine.execMfirst f s
  | .mtos f => Sys2Proof.Machine.execMtos f s
  | .stom f => Sys2Proof.Machine.execStom f s
  | .shflIdx f => Sys2Proof.Machine.execShflIdx f s
  | .shflXor f => Sys2Proof.Machine.execShflXor f s
  | .shflUp f => Sys2Proof.Machine.execShflUp f s
  | .shflDn f => Sys2Proof.Machine.execShflDn f s
  | .redl f => Sys2Proof.Machine.execRedl f s
  | .scanl f => Sys2Proof.Machine.execScanl f s
  | .vote f => Sys2Proof.Machine.execVote f s
  | .laneid f => Sys2Proof.Machine.execLaneid f s
  | .crngLo f => Sys2Proof.Machine.execCrngLo f s
  | .crngHi f => Sys2Proof.Machine.execCrngHi f s
  | .fadd f => Sys2Proof.Machine.execFadd f s
  | .fsub f => Sys2Proof.Machine.execFsub f s
  | .fmul f => Sys2Proof.Machine.execFmul f s
  | .ffma f => Sys2Proof.Machine.execFfma f s
  | .fmin f => Sys2Proof.Machine.execFmin f s
  | .fmax f => Sys2Proof.Machine.execFmax f s
  | .fcmp f => Sys2Proof.Machine.execFcmp f s
  | .fclass f => Sys2Proof.Machine.execFclass f s
  | .frnd f => Sys2Proof.Machine.execFrnd f s
  | .fcvt f => Sys2Proof.Machine.execFcvt f s
  | .icvtf f => Sys2Proof.Machine.execIcvtf f s
  | .fcvti f => Sys2Proof.Machine.execFcvti f s
  | .fscl f => Sys2Proof.Machine.execFscl f s
  | .pfadd f => Sys2Proof.Machine.execPfadd f s
  | .pfmul f => Sys2Proof.Machine.execPfmul f s
  | .pffma f => Sys2Proof.Machine.execPffma f s
  | .fdot4 f => Sys2Proof.Machine.execFdot4 f s
  | .rcp f => Sys2Proof.Machine.execRcp f s
  | .rsq f => Sys2Proof.Machine.execRsq f s
  | .sqrt f => Sys2Proof.Machine.execSqrt f s
  | .exp2 f => Sys2Proof.Machine.execExp2 f s
  | .log2 f => Sys2Proof.Machine.execLog2 f s
  | .sin f => Sys2Proof.Machine.execSin f s
  | .cos f => Sys2Proof.Machine.execCos f s
  | .rcpT f => Sys2Proof.Machine.execRcpT f s
  | .rsqT f => Sys2Proof.Machine.execRsqT f s
  | .sqrtT f => Sys2Proof.Machine.execSqrtT f s
  | .exp2T f => Sys2Proof.Machine.execExp2T f s
  | .log2T f => Sys2Proof.Machine.execLog2T f s
  | .sinT f => Sys2Proof.Machine.execSinT f s
  | .cosT f => Sys2Proof.Machine.execCosT f s
  | .ldb f => Sys2Proof.Machine.execLdb f s
  | .stb f => Sys2Proof.Machine.execStb f s
  | .ldt f => Sys2Proof.Machine.execLdt f s
  | .stt f => Sys2Proof.Machine.execStt f s
  | .ldl f => Sys2Proof.Machine.execLdl f s
  | .stl f => Sys2Proof.Machine.execStl f s
  | .atom f => Sys2Proof.Machine.execAtom f s
  | .atomc f => Sys2Proof.Machine.execAtomc f s
  | .atomf f => Sys2Proof.Machine.execAtomf f s
  | .afaddo f => Sys2Proof.Machine.execAfaddo f s
  | .accopen f => Sys2Proof.Machine.execAccopen f s
  | .fence f => Sys2Proof.Machine.execFence f s
  | .barset f => Sys2Proof.Machine.execBarset f s
  | .bararr f => Sys2Proof.Machine.execBararr f s
  | .bwait f => Sys2Proof.Machine.execBwait f s
  | .bsync f => Sys2Proof.Machine.execBsync f s
  | .waitc f => Sys2Proof.Machine.execWaitc f s
  | .kick f => Sys2Proof.Machine.execKick f s
  | .mma f => Sys2Proof.Machine.execMma f s
  | .mmaByp f => Sys2Proof.Machine.execMmaByp f s
  | .mmas f => Sys2Proof.Machine.execMmas f s
  | .mmasByp f => Sys2Proof.Machine.execMmasByp f s
  | .mzero f => Sys2Proof.Machine.execMzero f s
  | .mdrain f => Sys2Proof.Machine.execMdrain f s
  | .mbyp f => Sys2Proof.Machine.execMbyp f s
  | .mrd f => Sys2Proof.Machine.execMrd f s
  | .mwr f => Sys2Proof.Machine.execMwr f s
  | .mcertr f => Sys2Proof.Machine.execMcertr f s
  | .ninfo f => Sys2Proof.Machine.execNinfo f s
  | .chdr f => Sys2Proof.Machine.execChdr f s
  | .take f => Sys2Proof.Machine.execTake f s
  | .spawn f => Sys2Proof.Machine.execSpawn f s
  | .spwait f => Sys2Proof.Machine.execSpwait f s
  | .tighten f => Sys2Proof.Machine.execTighten f s
  | .cert f => Sys2Proof.Machine.execCert f s
  | .certRel f => Sys2Proof.Machine.execCertRel f s
  | .tolsplIn f => Sys2Proof.Machine.execTolsplIn f s
  | .tolsplOwn f => Sys2Proof.Machine.execTolsplOwn f s
  | .toladdLog f => Sys2Proof.Machine.execToladdLog f s
  | .toladdOff f => Sys2Proof.Machine.execToladdOff f s
  | .fpick f => Sys2Proof.Machine.execFpick f s
  | .fpickCvt f => Sys2Proof.Machine.execFpickCvt f s
  | .tolsetDem f => Sys2Proof.Machine.execTolsetDem f s
  | .tolsetCert f => Sys2Proof.Machine.execTolsetCert f s
  | .tolsetVal f => Sys2Proof.Machine.execTolsetVal f s
  | .tolsetFld f => Sys2Proof.Machine.execTolsetFld f s
  | .trapEntry w z => Sys2Proof.Machine.execTrapEntry w z s
  | .loadStoreCompletion w op ecc => Sys2Proof.Machine.execLoadStoreCompletion w op ecc s
  | .storeBufferEntryPerformed w op => Sys2Proof.Machine.execStoreBufferEntryPerformed w op s
  | .atomicEngineAccept c => Sys2Proof.Machine.execAtomicEngineAccept c s
  | .hotLineTransfer c line => Sys2Proof.Machine.execHotLineTransfer c line s
  | .accSlotSumDone c slot => Sys2Proof.Machine.execAccSlotSumDone c slot s
  | .sfuCompletion w op => Sys2Proof.Machine.execSfuCompletion w op s
  | .crngCompletion w op => Sys2Proof.Machine.execCrngCompletion w op s
  | .mmaCompletion w op => Sys2Proof.Machine.execMmaCompletion w op s
  | .tileOpCompletion w op => Sys2Proof.Machine.execTileOpCompletion w op s
  | .certCompletion w op => Sys2Proof.Machine.execCertCompletion w op s
  | .regacqGrant block => Sys2Proof.Machine.execRegacqGrant block s
  | .acquireDeadlockEviction c => Sys2Proof.Machine.execAcquireDeadlockEviction c s
  | .cardEnterChecker c => Sys2Proof.Machine.execCardEnterChecker c s
  | .cardStart c => Sys2Proof.Machine.execCardStart c s
  | .cardChunk c card transfer => Sys2Proof.Machine.execCardChunk c card transfer s
  | .cardComplete c card => Sys2Proof.Machine.execCardComplete c card s
  | .pageWalkComplete c req => Sys2Proof.Machine.execPageWalkComplete c req s
  | .invalidationComplete pkt => Sys2Proof.Machine.execInvalidationComplete pkt s
  | .blockDispatch tower => Sys2Proof.Machine.execBlockDispatch tower s
  | .blockRetire block => Sys2Proof.Machine.execBlockRetire block s
  | .spawnPackTimeout c forming => Sys2Proof.Machine.execSpawnPackTimeout c forming s
  | .spawnAreaRefill c => Sys2Proof.Machine.execSpawnAreaRefill c s
  | .highLatencyPreempt tower => Sys2Proof.Machine.execHighLatencyPreempt tower s
  | .redispatchRoomPreempt tower => Sys2Proof.Machine.execRedispatchRoomPreempt tower s
  | .preemptRequest block reason => Sys2Proof.Machine.execPreemptRequest block reason s
  | .unitStopAck tower record unit => Sys2Proof.Machine.execUnitStopAck tower record unit s
  | .contextSaveDone tower record => Sys2Proof.Machine.execContextSaveDone tower record s
  | .coreSelfCheckFail c => Sys2Proof.Machine.execCoreSelfCheckFail c s
  | .queueDoorbell q wptr => Sys2Proof.Machine.execQueueDoorbell q wptr s
  | .queueEnable q => Sys2Proof.Machine.execQueueEnable q s
  | .queueDisable q => Sys2Proof.Machine.execQueueDisable q s
  | .faultResponseResume id => Sys2Proof.Machine.execFaultResponseResume id s
  | .faultResponseDecline id => Sys2Proof.Machine.execFaultResponseDecline id s
  | .registerWrite offset size value => Sys2Proof.Machine.execRegisterWrite offset size value s
  | .partnoWrite value => Sys2Proof.Machine.execPartnoWrite value s
  | .portenWrite value => Sys2Proof.Machine.execPortenWrite value s
  | .engineControlWrite c value => Sys2Proof.Machine.execEngineControlWrite c value s
  | .quoteNonceWrite offset size value => Sys2Proof.Machine.execQuoteNonceWrite offset size value s
  | .sweep p descriptor => Sys2Proof.Machine.execSweep p descriptor s
  | .copy p src dst len => Sys2Proof.Machine.execCopy p src dst len s
  | .wait p signal value timeout => Sys2Proof.Machine.execWait p signal value timeout s
  | .waitEvaluate pkt => Sys2Proof.Machine.execWaitEvaluate pkt s
  | .waitTimeout pkt => Sys2Proof.Machine.execWaitTimeout pkt s
  | .pageRequestResponse pkt ok => Sys2Proof.Machine.execPageRequestResponse pkt ok s
  | .signal p signal value add => Sys2Proof.Machine.execSignal p signal value add s
  | .mapRun p tower first count phys => Sys2Proof.Machine.execMapRun p tower first count phys s
  | .unmapRun p tower first count => Sys2Proof.Machine.execUnmapRun p tower first count s
  | .invalidatePages p va pages => Sys2Proof.Machine.execInvalidatePages p va pages s
  | .packetCompletion pkt => Sys2Proof.Machine.execPacketCompletion pkt s
  | .msixDelivery vector => Sys2Proof.Machine.execMsixDelivery vector s
  | .config p market stall forward => Sys2Proof.Machine.execConfig p market stall forward s
  | .join p sponsor => Sys2Proof.Machine.execJoin p sponsor s
  | .marketLeave p bell => Sys2Proof.Machine.execMarketLeave p bell s
  | .marketPost p ceiling => Sys2Proof.Machine.execMarketPost p ceiling s
  | .sensorRearm p tower => Sys2Proof.Machine.execSensorRearm p tower s
  | .trimRearm p island => Sys2Proof.Machine.execTrimRearm p island s
  | .plimit p watts => Sys2Proof.Machine.execPlimit p watts s
  | .trimStep island errors => Sys2Proof.Machine.execTrimStep island errors s
  | .trimHoldExpiry island => Sys2Proof.Machine.execTrimHoldExpiry island s
  | .budgetInterval c => Sys2Proof.Machine.execBudgetInterval c s
  | .slewWindow c => Sys2Proof.Machine.execSlewWindow c s
  | .flitRetry port ok => Sys2Proof.Machine.execFlitRetry port ok s
  | .portTrain port ok => Sys2Proof.Machine.execPortTrain port ok s
  | .functionReady f => Sys2Proof.Machine.execFunctionReady f s
  | .fatalError cause => Sys2Proof.Machine.execFatalError cause s
  | .mmaRowFetch w op => Sys2Proof.Machine.execMmaRowFetch w op s
  | .badPacket p offset => Sys2Proof.Machine.execBadPacket p offset s
  | .firmwareUpdate image whole => Sys2Proof.Machine.execFirmwareUpdate image whole s
  | .preemptTimeout => Sys2Proof.Machine.execPreemptTimeout s
  | .patrolScrub => Sys2Proof.Machine.execPatrolScrub s
  | .quoteRequest => Sys2Proof.Machine.execQuoteRequest s
  | .quoteComplete => Sys2Proof.Machine.execQuoteComplete s
  | .nopPacket => Sys2Proof.Machine.execNopPacket s
  | .post => Sys2Proof.Machine.execPost s
  | .notice => Sys2Proof.Machine.execNotice s
  | .late => Sys2Proof.Machine.execLate s
  | .heartbeat => Sys2Proof.Machine.execHeartbeat s
  | .joinReq => Sys2Proof.Machine.execJoinReq s
  | .snapshot => Sys2Proof.Machine.execSnapshot s
  | .joinAnn => Sys2Proof.Machine.execJoinAnn s
  | .leave => Sys2Proof.Machine.execLeave s
  | .heartbeatTimer => Sys2Proof.Machine.execHeartbeatTimer s
  | .joinTimeout => Sys2Proof.Machine.execJoinTimeout s
  | .bell => Sys2Proof.Machine.execBell s
  | .timePulse => Sys2Proof.Machine.execTimePulse s
  | .timeWord => Sys2Proof.Machine.execTimeWord s
  | .pulseMissed => Sys2Proof.Machine.execPulseMissed s
  | .holdoverTimeout => Sys2Proof.Machine.execHoldoverTimeout s
  | .powerSample => Sys2Proof.Machine.execPowerSample s
  | .sensorSample => Sys2Proof.Machine.execSensorSample s
  | .reset => Sys2Proof.Machine.execReset s
  | .functionLevelReset => Sys2Proof.Machine.execFunctionLevelReset s
  | .illegalInstr => Sys2Proof.Machine.execIllegalInstr s
  | .illegalClause => Sys2Proof.Machine.execIllegalClause s
  | .peerAccess => Sys2Proof.Machine.execPeerAccess s
  | .discardedPost => Sys2Proof.Machine.execDiscardedPost s

end Sys2Proof.Machine
end

