-- ==== Sys2Proof/Machine/Schedule.lean ====
section
/-! DEFINITION. What the next step does (R34, R47, R62, R100, R299, R307): the issue selector and the moves of a core cycle. The order
among independent moves is the model's choice: the spec leaves it open. -/

namespace Sys2Proof.Machine

/-! ## The issue selector -/

/-- May a slot issue as far as its traps and stops go (R100, R299 (c), R307)? -/
def mayIssue (p : Phys) (s : Sys) (b : Block) (w : Warp) (z : SlotId) : Bool :=
  let y := w.slot z
  y.valid && w.slotA.trap.isNone && w.slotB.trap.isNone && !w.trapBlocked z && !(b.stopping && (atStop p s b w z || s.sliceHalted b w.slice))

/-- Is the fetch of a slot's next item held (R230, R231): the read of its first word, or of a further one? DESIGN CHOICE: such a slot is skipped
too, since nothing can issue from it; R34 does not name this wait (log 19). -/
def fetchHeld (p : Phys) (s : Sys) (b : Block) (pc : Pc) : Bool :=
  match codeWord p s b pc with
  | none => codeHeld p s b pc
  | some w => (List.range (itemWords w)).any fun i => codeHeld p s b (pc.plus i)

/-- Is a slot eligible (R34, R27): it may issue, the WAIT flags of its next clause are clear, and its next instruction does not wait under
R28, R29 or in REGACQ? -/
def Sys.eligible (p : Phys) (s : Sys) (b : Block) (w : Warp) (z : SlotId) : Bool :=
  mayIssue p s b w z &&
    match nextItem p s b w z with
    | .header h => !headerWaits h w
    | .instr c m f => !c.skipped m f
    | .other => true
    | .unread => !fetchHeld p s b (w.slot z).pc

/-- The eligible pairs of a slice. -/
def Sys.issuable (p : Phys) (s : Sys) (c : CoreRef) (slice : Nat) : List (Nat × WarpRef × SlotId) :=
  (s.coreBlocks c).flatMap fun b => (b.warps.filter fun w => w.slice == slice).flatMap fun w =>
    ([SlotId.A, SlotId.B].filter (s.eligible p b w)).map fun z => (pairNumber w z, { block := b.id, rank := w.rank }, z)

/-- The selector's pick (R34): the first pair at or after the pointer. -/
def Sys.pick (p : Phys) (s : Sys) (c : CoreRef) (slice : Nat) : Option (WarpRef × SlotId) :=
  let at_ := (s.core c).issuePtr.getD slice 0
  (leastBy (fun (a b : Nat × WarpRef × SlotId) => decide ((a.1 + 32 - at_) % 32 < (b.1 + 32 - at_) % 32)) (s.issuable p c slice)).map
    fun x => x.2

/-! ## The moves of a cycle -/

/-- A list of one move under a condition. -/
def onlyIf (b : Bool) (i : Instr) : List Instr := if b then [i] else []

/-- What may complete of a warp's outstanding instructions, in issue order. -/
def Warp.completions (w : Warp) (r : WarpRef) : List Instr :=
  w.ops.flatMap fun x =>
    match x.body with
    | .load .. | .loadPerm _ | .store .priv .. => onlyIf (!w.heldBack x) (.loadStoreCompletion r x.id .clean)
    | .store .. => onlyIf (!w.heldBack x && w.drainTurn x.id) (.storeBufferEntryPerformed r x.id)
    | .sfu .. => [.sfuCompletion r x.id]
    | .crng .. => [.crngCompletion r x.id]
    | .mma k => onlyIf (w.tileTurn x && k.waitPage.isNone) (if k.fetched then .mmaCompletion r x.id else .mmaRowFetch r x.id)
    | .tileZero .. | .tileWrite .. | .tileRead .. | .tileCert .. | .tileBypass .. => onlyIf (w.tileTurn x) (.tileOpCompletion r x.id)
    | .cert .. => [.certCompletion r x.id]
    | .arrive .. | .atomic .. | .contribute .. | .tighten .. | .regacq _ | .kick => []

/-- What a block may do besides issuing. -/
def Block.moves (b : Block) (s : Sys) : List Instr :=
  (b.warps.flatMap fun w =>
    let r : WarpRef := { block := b.id, rank := w.rank }
    onlyIf w.slotA.trap.isSome (.trapEntry r .A) ++ onlyIf w.slotB.trap.isSome (.trapEntry r .B) ++ w.completions r) ++
  onlyIf (b.regRequest && !b.granted && !b.stopping && grantPossible s b) (.regacqGrant b.id)

/-- What the engines of a core may do. -/
def Core.moves (k : Core) (c : CoreRef) (s : Sys) : List Instr :=
  let cycle := (s.tower c.tower).clock.toNat
  let busy := !k.cards.isEmpty || !(s.coreBlocks c).isEmpty
  onlyIf (busy && k.intervalAt != cycle / 256) (.budgetInterval c) ++ onlyIf (busy && k.windowAt != cycle / 64) (.slewWindow c) ++
  onlyIf k.kick.isSome (.cardEnterChecker c) ++ onlyIf (s.nextCard c).isSome (.cardStart c) ++
  (k.cards.filter fun x => x.state == .running).map (fun x => if x.written then .cardComplete c x.id else .cardChunk c x.id .ok) ++
  onlyIf (busy && k.acceptedAt != some cycle && (s.nextAtomic c).isSome) (.atomicEngineAccept c) ++
  (k.accSlots.filter fun a => a.values.length == a.count).map (fun a => .accSlotSumDone c a.number) ++
  onlyIf (busy && acquireDeadlocked s c) (.acquireDeadlockEviction c) ++
  (k.forming.filter fun g => !g.ready && ((s.sweep g.sweep).map Sweep.pkto).getD 2048 ≤ cycle - g.since).map (fun g => .spawnPackTimeout c g.id) ++
  onlyIf ((s.nextSpilled c).isSome && k.queued < 4096) (.spawnAreaRefill c)

/-- The units of a core and tower that may be stopped (R308). -/
def stopUnits : List StopUnit :=
  (List.range 6).map StopUnit.slice ++ (List.range 6).map StopUnit.matrix ++ [.copyEngine, .atomicEngine, .packingUnit, .sequencer]

/-- What the Pre-emption Collector of a tower may do; the oldest request that waits is made once a record is free (R310). -/
def Tower.collectorMoves (t : Tower) (tower : Nat) (p : Phys) (s : Sys) : List Instr :=
  (if t.busy.length < 16 then (t.waiting.take 1).map fun x => .preemptRequest x.1 x.2 else []) ++
  t.busy.flatMap fun r =>
    if r.state == 2 then [.contextSaveDone tower r.index]
    else
      match s.block r.block with
      | none => []
      | some b =>
        (stopUnits.filter fun u => r.need.getLsbD (stopBit u) && !r.ack.getLsbD (stopBit u) && unitStopped p s b u).map
          fun u => .unitStopAck tower r.index u

/-- Has a tower's sequencer anything to dispatch, to note as ready or to read? The spawned items of an aborted sweep still go (R302 (f)). -/
def mayDispatch (p : Phys) (s : Sys) (tower : Nat) : Bool :=
  let ws := s.sweeps.filter fun w => w.tower == tower && w.phase == .running
  (!ws.isEmpty || !(readySpawns s tower).isEmpty) &&
    (ws.any (fun w => w.runs.any fun r => r.readyAt.isNone && match w.node r.node with
      | some x => inputsReady p s w r.stage x
      | none => false) ||
     (headersNeeded s tower).any (fun x => match s.sweep x.1 with
      | some w => (w.heldHeader x.2).isNone && !w.headerFault.any fun y => y.1 == x.2
      | none => false) ||
     (!(s.tower tower).dispatched && (chooseFirst s tower != .none || !(dispatchable s tower).isEmpty)))

/-- The retires of a tower, in ascending core number (R259). -/
def retires (s : Sys) (tower : Nat) : List Instr :=
  let due := s.blocks.filter fun b => b.tower == tower && s.mayRetire b
  (sortBy (fun (a b : Block) => decide (a.core < b.core)) due).map fun b => .blockRetire b.id

/-- The walk that a tower's miss queue ends next: its oldest (R239). -/
def Tower.walkMoves (t : Tower) (tower : Nat) : List Instr :=
  (t.walks.take 1).map fun e => .pageWalkComplete ⟨tower, 0⟩ (if e.window then .window e.asid e.base else .page e.asid e.base)

/-- What a tower's sequencer, collector, walkers and scratchpad lines may do: the retires come before the dispatch (R259). -/
def Tower.moves (t : Tower) (tower : Nat) (p : Phys) (s : Sys) : List Instr :=
  retires s tower ++ onlyIf (mayDispatch p s tower) (.blockDispatch tower) ++
  onlyIf (t.highAt != some t.clock.toNat && highWaiting s tower s.clockCode) (.highLatencyPreempt tower) ++
  onlyIf (t.roomAt != some t.clock.toNat && redispatchStuck s tower) (.redispatchRoomPreempt tower) ++
  t.collectorMoves tower p s ++ t.walkMoves tower ++
  (t.lineRequests.filter fun x => t.serves x.2 x.1).map fun x => .hotLineTransfer ⟨tower, x.2⟩ x.1

/-- What a started packet may do: its completion, or the operation that was held tried again. -/
def Packet.moves (q : Packet) (s : Sys) : List Instr :=
  if q.fault.isSome then []
  else
    match q.work with
    | .done .. => [.packetCompletion q.id]
    | .sweep d _ => onlyIf (!s.sweeps.any fun w => w.pkt == q.id) (.sweep q.ref d)
    | .copy src dst len _ => [.copy q.ref src dst len]
    | .signal a v add => [.signal q.ref a v add]
    | .wait _ _ timeout started request =>
      onlyIf (timeout != 0 && timeout ≤ s.since started) (.waitTimeout q.id) ++ onlyIf (!request) (.waitEvaluate q.id)
    | .map tower first n phys =>
      [match phys with
       | some a => .mapRun q.ref tower first n a
       | none => .unmapRun q.ref tower first n]
    | .invalidate window _ base n => onlyIf (!s.inFlight window (s.queueAsid q.ref.queue) base n) (.invalidationComplete q.id)
    | .join | .untilBell _ => []

/-- The functions that report in DEVREADY by themselves, in the order of R351; a port trains by PORT_TRAIN. -/
def bringUp : List DeviceFunction :=
  [.pcie, .cp] ++ (List.range 8).map DeviceFunction.hbm ++ (List.range 16).map DeviceFunction.lp ++ [.tower 0, .tower 1]

/-- What time brings about (R305 (b), R332, R333, R335, R338, R342 to R346). -/
def Sys.timeMoves (s : Sys) : List Instr :=
  let m := s.market
  onlyIf (s.time.state != .unset && (s.time.bell + 1) * bellNs ≤ s.time.count) .bell ++
  onlyIf (s.time.state == .holdover && 10000 ≤ s.since s.time.heldSince) .holdoverTimeout ++
  onlyIf (m.member && s.maySend && m.lastPost + 10 ≤ s.bellNow) .heartbeatTimer ++
  onlyIf (match m.join with | some j => !j.found && j.activeAt.isNone && j.since + 20 ≤ s.bellNow | none => false) .joinTimeout ++
  onlyIf (s.towers.any fun t => t.records.any fun r => r.state == 1 && 160 ≤ s.since r.at_) .preemptTimeout ++
  onlyIf (!s.inputs.monitors.isEmpty && 10 ≤ s.since s.power.powerAt) .powerSample ++
  onlyIf (!s.inputs.thermal.isEmpty && 10 ≤ s.since s.power.sensorAt) .sensorSample ++
  (if 10000 ≤ s.since s.power.trimAt then (List.range 512).map fun i => .trimStep i 0 else []) ++
  (s.power.islands.zipIdx.filter fun x => x.1.hold && 1000000 ≤ s.since x.1.holdAt).map fun x => .trimHoldExpiry x.2

/-- What the device may do by itself. -/
def Sys.deviceMoves (s : Sys) : List Instr :=
  (bringUp.filter fun f => !s.ready (readyBit f) && s.earlierReady f).map Instr.functionReady ++
  (s.device.msix.filter fun v => !NatSet.has s.device.masked v).map Instr.msixDelivery ++
  onlyIf s.device.quoting .quoteComplete ++ onlyIf (!s.inputs.peers.isEmpty) .peerAccess

/-- Does a slot stand at a header position? -/
def Sys.atHeader (s : Sys) (r : WarpRef) (z : SlotId) : Bool := (s.warp r).any fun w => (w.slot z).left == 0

/-- The issue of a slice's pick: a header that starts its clause spends no pick, so that the clause's first instruction follows it. -/
def Sys.issueMoves (s : Sys) (x : WarpRef × SlotId) : List Move :=
  List.replicate (if s.atHeader x.1 x.2 then 2 else 1) (.issue x.1 x.2)

/-- The moves of one core cycle: what may happen at its start, one issue for each slice, in rotating order from slice (cycle mod 6)
(R283 (b), R295 (c)), the start of a packet for each queue, and the tick. DESIGN CHOICE: their order. A move that is no longer due when its
turn comes changes nothing. -/
def cycleMoves (s : State) : List Move :=
  let y := s.sys
  let cores : List CoreRef := y.towers.zipIdx.flatMap fun x => (List.range x.1.cores.length).map fun c => { tower := x.2, core := c }
  let events :=
    y.blocks.flatMap (fun b => b.moves y) ++ cores.flatMap (fun c => (y.core c).moves c y) ++
    (y.towers.zipIdx.flatMap fun x => x.1.moves x.2 s.phys y) ++ y.packets.flatMap (fun q => q.moves y) ++ y.deviceMoves ++ y.timeMoves
  let issues := if y.blocks.isEmpty then [] else
    cores.flatMap fun c => (List.range 6).flatMap fun i =>
      ((y.pick s.phys c (((y.tower c.tower).clock.toNat + i) % 6)).map y.issueMoves).getD []
  let starts := ((List.range 32).filter y.mayStart).map Move.start
  events.map Move.event ++ issues ++ starts ++ [.tick]

/-- A WAIT whose signal has reached its value: a write within the package has it evaluated at once (R325). -/
def dueWait (p : Phys) (s : Sys) : Option Nat :=
  (s.packets.find? fun q =>
    match q.work with
    | .wait va value _ _ false =>
      match mainByte p s (s.queueAsid q.ref.queue) va true false with
      | .ok pa => decide (value.toNat ≤ p.num pa 8)
      | .error _ => false
    | _ => false).map Packet.id

/-- The next move, and the state that it is made in: the evaluation of a WAIT that is due, the first move laid down, or else the first of a
new cycle. -/
def nextMove (s : State) : Move × State :=
  match dueWait s.phys s.sys with
  | some id => (.event (.waitEvaluate id), s)
  | none =>
    match s.sys.agenda with
    | m :: rest => (m, { s with sys := { s.sys with agenda := rest } })
    | [] =>
      match cycleMoves s with
      | [] => (.tick, s)
      | m :: rest =>
        let x := s.sys.power
        let trim := if 10000 ≤ s.sys.since x.trimAt then s.sys.now else x.trimAt
        (m, { s with sys := { s.sys with agenda := rest, power := { x with trimAt := trim } } })

/-! ## A move made ready -/

/-- A core cycle passes: the clocks of the towers that are ready, and the time, 200,000 ps over the clock code (R8, R20). DESIGN CHOICE: the model
counts whole picoseconds, and a cycle that takes no whole number of them is cut down (log 136). The pre-emption records that are done are freed
(R309 (d)), and the flags that a completion has cleared are seen clear from now on (R63 (c)). -/
def Sys.tick (s : Sys) : Sys :=
  let ts := s.towers.zipIdx.map fun (x : Tower × Nat) =>
    { x.1 with clock := if s.ready (26 + x.2) then x.1.clock + 1 else x.1.clock, records := x.1.busy }
  let bs := s.blocks.map fun b => { b with warps := b.warps.map fun w => { w with clearing := [] } }
  { s with towers := ts, blocks := bs }.passTime (200000 / s.clockCode)

/-- What a move comes to. -/
inductive Prepared where
  /-- an instruction or event to execute -/
  | run (i : Instr) (s : State)
  | done (s : State)
  | stop (f : Fault)
deriving DecidableEq, Repr

/-- An instruction or trap that acts for the issuing slot, so that it is no event. -/
def needsSlot (i : Instr) : Bool :=
  match i with
  | .clauseHeader _ | .illegalClause | .illegalInstr => true
  | _ => i.view.isSome

/-- Does the issue of an item move the selector's pointer past its slot (R34)? DEDUCED: a header that starts its clause does not, since a clause
issues its instructions, and its header takes no turn from another slot (R228, log 17); a header that is held in serial mode does. -/
def Ctx.spendsPick (c : Ctx) (i : Instr) : Bool :=
  match i with
  | .clauseHeader _ => c.serialBusy
  | _ => true

/-- The selector's pointer after the issue of an item. -/
def Sys.picked (s : Sys) (c : Ctx) (i : Instr) : Sys := if c.spendsPick i then s.passSlot c.b.coreRef c.w c.z else s

/-- The words that the issue of an item reads: its own, and the table of BRX. A target's word is read when its item issues. -/
def Ctx.codeReads (c : Ctx) (p : Phys) (s : Sys) (i : Instr) (n : Nat) : List Pc :=
  (List.range n).map c.slot.pc.plus ++
    match i with
    | .brx f => branchTableRead f p s c (c.active f.guard)
    | _ => []

/-- The first offer of an item: what its words have read is noted (R303). One that waits at issue is not read again. -/
def Sys.noteFetch (s : Sys) (p : Phys) (c : Ctx) (i : Instr) (n : Nat) : Sys :=
  if s.inputs.hostErrors.isEmpty || c.slot.hold != .none then s else s.noteCode p c.b (c.codeReads p s i n)

/-- A slot's next item made ready to issue, if the slot is the selector's pick on its slice (R34). -/
def prepareIssue (r : WarpRef) (z : SlotId) (s : State) : Prepared :=
  match s.sys.context r z with
  | none => .done s
  | some c =>
    if s.sys.pick s.phys c.b.coreRef c.w.slice != some (r, z) then .done s
    else
      match fetchItem s.phys s.sys c.b c.slot with
      | none => .stop .fetchUnmapped
      | some (i, n) => .run i { s with sys := { (s.sys.noteFetch s.phys c i n).picked c i with cursor := some (r, z), words := n } }

/-- A move made ready: what ECC has found comes first (R243, R244). -/
def prepare (m : Move) (s0 : State) : Prepared :=
  let s1 := s0.takeEcc
  let s : State := { s1 with sys := { s1.sys with starting := none, cursor := none } }
  match m with
  | .event i => if needsSlot i then .done s else .run i s
  | .issue r z => prepareIssue r z s
  | .start q =>
    match startPacket q s with
    | (s1, some i) => .run i s1
    | (s1, none) => .done s1
  | .tick => .done { s with sys := s.sys.tick }

/-- The next move of a state, made ready. -/
def prepareNext (s : State) : Prepared :=
  let x := nextMove s
  prepare x.1 x.2

/-! ## An instruction placed for the next step -/

/-- The address of a placed instruction, virtual and physical. -/
def placedAt : Nat := 0x100000

/-- The block in which a placed instruction runs: one warp on core 0 of tower 0 with all 256 vector registers, 8 tiles, 64 BSM
units and 512 bytes of lane-private memory, whose slot A stands at the instruction. -/
def placedBlock (id : Nat) (header : Bool) : Block :=
  let w : Warp :=
    { rank := 0, bays := List.range 8, tileCtl := List.replicate 8 {}
      slotA := { valid := true, pc := .ofAddr placedAt, mask := BitVec.allOnes 64, ch := .ofAddr placedAt,
                 left := if header then 0 else 1 } }
  { id := id, tower := 0, core := 0, hdr := { proRegs := 256, acc := 8, bsmu := 64, lpriv := 512 }, bsmUnits := 64, granted := true,
    units := List.range 64, barriers := List.replicate 10 {}, warps := [w] }

/-- The functions that run a program, ready (R351): the host interface, the Command Processor, the memories and the towers. -/
def broughtUp : DWord := 0xFFFFFFF

/-- A state whose next step issues the instruction with the bits `w` (0 above `nbits`): its words in first-tier memory, a
translation of their page in the core's cache, the block that runs it, and the functions brought up that this takes. -/
def placeInstr (s : State) (nbits w : Nat) : State :=
  let v := w % 2 ^ nbits
  let id := s.sys.fresh
  let e : TlbEntry := { asid := 0, window := false, base := placedAt, size := 0x1000, pa := s.sys.partNo * 2 ^ 43 + placedAt }
  let mem := (natToBytes 12 v).zipIdx.foldl (fun m x => Memory.store m (e.pa + x.2) x.1) s.phys.mem
  let y := s.sys.setCore { tower := 0, core := 0 } fun k => { k with tlb := e :: k.tlb }
  { phys := { s.phys with mem := mem }
    sys := { y with fresh := id + 1, blocks := placedBlock id (v % 4 == 3) :: y.blocks,
                    agenda := .issue { block := id, rank := 0 } .A :: y.agenda
                    device := { y.device with devReady := y.device.devReady ||| broughtUp } } }

end Sys2Proof.Machine
end

