-- ==== Sys2Proof/Machine/Inspect.lean ====
section
/-! DEFINITION. What the host reads (R5, R319, R320, R348, R353 to R356): the configuration space, the registers of BAR0 and the
inspection window of BAR2, as functions of the state. A read changes nothing. Where the spec names what a region holds and gives no place of
it, the place is the model's (DESIGN CHOICE, log 127); a byte for which it names no contents is open, and comes from the reader. -/

namespace Sys2Proof.Machine

/-! ## Layouts -/

/-- Byte i of words of 64 bits. -/
def wordsByte (ws : List Nat) (i : Nat) : Byte := byteAt (ws.getD (i / 8) 0) (i % 8)

/-- A number for a truth value. -/
def bit (b : Bool) : Nat := if b then 1 else 0

/-- A mask of the usable cores of a tower (R355). -/
def Tower.useMask (t : Tower) : Nat := t.cores.zipIdx.foldl (fun (m : Nat) (x : Core × Nat) => if x.1.usable then m + 2 ^ x.2 else m) 0

/-- The identity block (R355). -/
def Sys.identity (s : Sys) : Nat :=
  s.partSerial + (s.tower 0).useMask * 2 ^ 128 + (s.tower 1).useMask * 2 ^ 192 + natBits keyHash.toNat 255 0 * 2 ^ 256

/-- The code of a REASON (R308). -/
def reasonCode (r : PreemptReason) : Nat :=
  match r with
  | .acquireDeadlock => 0
  | .highLatency => 1
  | .redispatchRoom => 2
  | .hostRequest => 3

/-- A request record of the Pre-emption Collector (R308). -/
def PreemptRecord.bits (r : PreemptRecord) : Nat :=
  r.need.toNat + r.ack.toNat * 2 ^ 16 + reasonCode r.reason * 2 ^ 32 + r.state * 2 ^ 35 + r.core * 2 ^ 37 + r.coreNo % 65536 * 2 ^ 48
    + r.t0.toNat * 2 ^ 64

/-- An island's state (R346). -/
def Island.bits (x : Island) : Nat := x.trim + 32 * bit x.lock + x.ratio * 64 + x.uecnt.toNat * 2 ^ 32

/-! ## The warp region (R313, R314, R354) -/

/-- Does a slot wait at issue: would its next item, if it issued now, be held without an effect? -/
def State.waitsAtIssue (s : State) (r : WarpRef) (z : SlotId) : Bool :=
  match s.sys.context r z with
  | none => false
  | some c =>
    match fetchItem s.phys s.sys c.b c.slot with
    | none => true
    | some (i, n) =>
      match exec i { s with sys := { s.sys with cursor := some (r, z), words := n } } with
      | .next t =>
        match t.sys.warp r with
        | some w => (w.slot z).hold != .none && (w.slot z).pc == c.slot.pc && (w.slot z).left == c.slot.left
        | none => false
      | _ => false

/-- Is a warp quiescent (R353): nothing outstanding, and each slot is not eligible or waits at issue? -/
def State.quiescent (s : State) (b : Block) (w : Warp) : Bool :=
  let r : WarpRef := { block := b.id, rank := w.rank }
  w.ops.isEmpty && [SlotId.A, .B].all fun z => !s.sys.eligible s.phys b w z || s.waitsAtIssue r z

/-- The status word of a warp slot (R354), 12 bytes. -/
def State.statusWord (s : State) (b : Block) (w : Warp) : Nat :=
  1 + 2 * bit (s.quiescent b w) + w.rank * 4 + b.node.toNat * 2 ^ 8 + b.stage * 2 ^ 32 + b.coreNo % 65536 * 2 ^ 48
    + b.sweep % 2 ^ 32 * 2 ^ 64

/-- The warp in a warp slot of the part (R354), with its block. -/
def Sys.warpAt (s : Sys) (n : Nat) : Option (Block × Warp) :=
  let core := n / 96
  (s.blocks.filter fun b => 36 * b.tower + b.core == core).findSome? fun b =>
    (b.warps.find? fun w => w.slice == n / 16 % 6 && w.warpSlot == n % 16).map fun w => (b, w)

/-- A slot in four words: mask; PC, valid and serial mode; CH, issued and remaining instructions; the lanes that RTT executes again. -/
def PcSlot.wordsOf (z : PcSlot) : List Nat :=
  [z.mask.toNat, z.pc.addr + 2 ^ 52 * bit z.valid + 2 ^ 53 * bit z.serial, z.ch.addr + 2 ^ 52 * z.issued + 2 ^ 58 * z.left,
   (z.resume.getD 0).toNat]

/-- RSP, USC, FLAGS, FCAUSE, RPR and TOL in one word, then FMASK, FADDR, TVEC and RNGKEY. -/
def Warp.statusWords (w : Warp) : List Nat :=
  [w.rsp + w.usc * 2 ^ 8 + w.flags.toNat * 2 ^ 16 + bit w.ftz * 2 ^ 21 + w.fcause.toNat * 2 ^ 24 + w.rpr.toNat * 2 ^ 32 + w.tol.toNat * 2 ^ 48,
   w.fmask.toNat, w.faddr.toNat, w.tvec.addr, w.rngkey.toNat]

/-- f0 to f11 and the five counters in one word; in the other the place of each flag's holder, in issue order, among the instructions that hold
one, of which there are at most 12. -/
def Warp.flagWords (w : Warp) : List Nat :=
  let holder := fun (n : Nat) => (w.ops.filter fun x => x.flag.isSome).findIdx fun x => x.flag == some n
  let counters := ([Path.ldb, .ldt, .ldl, .atom, .mma].zipIdx.map fun x => w.inFlight x.1 * 2 ^ (12 + 6 * x.2)).sum
  [((List.range 12).map fun n => bit (w.flagSet n) * 2 ^ n).sum + counters, ((List.range 12).map fun n => holder n % 16 * 2 ^ (4 * n)).sum]

/-- A pending instruction in words (R313): its kind, slot and flag, then an MMA's tiles, descriptors and format block, or a TIGHTEN's
destination, ordinal and deficit. -/
def Op.pendingWords (x : Op) : Option (List Nat) :=
  let head := fun (kind : Nat) => kind + 2 ^ 8 * bit (x.slot == .B) + 2 ^ 16 * x.flag.getD 15
  match x.body with
  | .mma k =>
    some [head 1 + 2 ^ 24 * bit k.sparse + 2 ^ 25 * bit k.byp, k.tile + 2 ^ 8 * k.aTile, k.aDesc.toNat, k.bDesc.toNat, k.fbAddr,
      natBits k.fb 63 0, natBits k.fb 127 64, natBits k.fb 191 128, natBits k.fb 255 192, k.active.toNat]
  | .tighten dst child deficit => some [head 2, dst + 2 ^ 8 * child, deficit]
  | .regacq n => some [head 3, n]
  | _ => none

/-- A number in words. -/
def splitWords (n x : Nat) : List Nat := (List.range n).map fun i => natBits x (64 * i + 63) (64 * i)

/-- The 64-bit elements of an entry in 78 words. Each element has a number of 18 bits: of 8-byte units of the BSM, or of the two pages that
`pages` names. In ascending order, element i sets bit i + number / 4,096 of the first two words; the low 12 bits of the numbers fill twelve
words, and the data follow. -/
def wideStoreWords (sp : Space) (pages : List Nat) (lanes : List (Nat × Nat × DWord)) : List Nat :=
  let number := fun (a : Nat) => if sp == .tsp then 8192 * pages.findIdx (· == a / 65536) + a % 65536 / 8 else a / 8
  let xs := (sortBy (fun (a b : Nat × DWord) => decide (a.1 < b.1)) (lanes.map fun y => (number y.2.1, y.2.2))).zipIdx
  splitWords 2 (xs.map fun x => 2 ^ (x.1.1 / 4096 + x.2)).sum ++ splitWords 12 (xs.map fun x => x.1.1 % 4096 * 2 ^ (12 * x.2)).sum ++
    xs.map fun x => x.1.2.toNat

/-- A store buffer entry in 80 words: its lanes; its space, its size and the two scratchpad pages that it writes; then the 64-bit elements, or the
address and the data of each lane in one word. -/
def Op.storeWords (x : Op) : Option (List Nat) :=
  match x.body with
  | .store sp n lanes _ =>
    if !x.isStore then none
    else
      let pages := if sp == .tsp then lanes.foldl (fun ps y => NatSet.add ps (y.2.1 / 65536)) [] else []
      let page := fun (k : Nat) => pages.getD k 0 % 4096
      let word := fun (l : Nat) => match lanes.find? fun y => y.1 == l with
        | some y => y.2.1 % 2 ^ 32 + y.2.2.toNat % 2 ^ 32 * 2 ^ 32
        | none => 0
      some ([(LaneMask.ofLanes (lanes.map Prod.fst)).toNat, 1 + 2 * bit (sp == .tsp) + n * 2 ^ 8 + page 0 * 2 ^ 16 + page 1 * 2 ^ 32] ++
        (if n == 8 then wideStoreWords sp pages lanes else List.replicate 14 0 ++ (List.range 64).map word))
  | _ => none

/-- A byte of a section of the warp record for which the spec gives no layout of bits (R313): DESIGN CHOICE (log 127). What lies between
the sections reads zero. -/
def Warp.openSection (w : Warp) (off : Nat) : Byte :=
  if off < 0x40 then wordsByte (w.slotA.wordsOf ++ w.slotB.wordsOf) off
  else if off < 0x80 then wordsByte w.statusWords (off - 0x40)
  else if 0xB0 ≤ off && off < 0xC0 then wordsByte w.flagWords (off - 0xB0)
  else if 0xC8 ≤ off && off < 0x100 then
    byteAt ((w.tileCtl.map fun x => x.tc.toNat + x.bypf.toNat * 2 ^ 16).getD ((off - 0xC8) / 4) 0) ((off - 0xC8) % 4)
  else if 0x100 ≤ off && off < 0x200 then
    wordsByte ((w.ops.filterMap Op.pendingWords).getD ((off - 0x100) / 128) []) ((off - 0x100) % 128)
  else if 0x1100 ≤ off && off < 0x6100 then
    wordsByte ((w.ops.filterMap Op.storeWords).getD ((off - 0x1100) / 640) []) ((off - 0x1100) % 640)
  else 0

/-- A byte of the warp region: the status word, the warp record, and zero in the rest (R354). -/
def State.warpRegion (s : State) (off : Nat) : Byte :=
  let i := off % 0x80000
  match s.sys.warpAt (off / 0x80000) with
  | none => 0
  | some (b, w) =>
    if i < 12 then byteAt (s.statusWord b w) i
    else if i < 0x1000 || b.warpRecord w ≤ i - 0x1000 then 0
    else (b.recordByte w (i - 0x1000)).getD (w.openSection (i - 0x1000))

/-! ## The other regions (R353), with the model's own places (log 127) -/

/-- A warp by number: block and rank. -/
def warpKey (r : WarpRef) : Nat := r.block + r.rank * 2 ^ 48

/-- A unit with ECC in two words. -/
def EccUnit.wordsOf (u : EccUnit) : List Nat :=
  match u with
  | .vector r n l => [warpKey r, n + l * 2 ^ 16 + 1 * 2 ^ 56]
  | .scalar r n => [warpKey r, n + 2 * 2 ^ 56]
  | .tile r t i j => [warpKey r, t + i * 2 ^ 16 + j * 2 ^ 32 + 3 * 2 ^ 56]
  | .stack r n => [warpKey r, n + 4 * 2 ^ 56]
  | .priv r k => [warpKey r, k + 5 * 2 ^ 56]
  | .bsm b k => [b, k + 6 * 2 ^ 56]
  | .memory pa => [pa, 7 * 2 ^ 56]

/-- A retried unit in words. -/
def RetryUnit.wordsOf (u : RetryUnit) : List Nat :=
  match u with
  | .port p => [p]
  | .read u => u.wordsOf
  | .chunk c => [36 * c.tower + c.core]

/-- A record of the device error log in words: its class (R303: 0 CORRECTED, 1 RECOVERABLE, 2 CONTAINED, 3 FATAL) and kind, then what it
holds. -/
def LogRecord.wordsOf (r : LogRecord) : List Nat :=
  match r with
  | .corrected u => 0x000 :: u.wordsOf
  | .retried u lasting => (0x100 + 2 ^ 16 * bit lasting) :: u.wordsOf
  | .poisoned u => 0x201 :: u.wordsOf
  | .failed u => 0x302 :: u.wordsOf
  | .trapped c r => [0x401 + 2 ^ 16 * c.code.toNat, warpKey r]
  | .suspended kind asid a => [0x501 + 2 ^ 16 * kind, asid, a]
  | .fault kind asid va => [0x601 + 2 ^ 16 * kind, asid, va]
  | .ring q asid va => [0x701 + 2 ^ 16 * q, asid, va]
  | .training port => [0x801, port]
  | .island i trim => [0x901, i, trim]
  | .sensorDegraded tower => [0xA01, tower]
  | .windowEntry asid tower page => [0xB01, asid, tower, page]
  | .host pa n => [0xF01, pa, n]
  | .packet q tag kind pcode code => [0x1001 + 2 ^ 16 * q, tag, kind, pcode, code]
  | .aborted c sweep stage node => [0xC02 + 2 ^ 16 * c.code.toNat, sweep, stage, node]
  | .core c => [0xD02, 36 * c.tower + c.core]
  | .fatal c => [0xE03 + 2 ^ 16 * (match c with | .unownedState => 0 | .preemptTimeout => 1 | .bridgeLoss => 2 | .thermalTrip => 3)]

/-- The device error log: the count of records in the first, then the records. -/
def Device.logByte (d : Device) (off : Nat) : Byte :=
  if off < 64 then wordsByte [d.log.length] off
  else wordsByte ((d.log[off / 64 - 1]?).map LogRecord.wordsOf |>.getD []) (off % 64)

/-- The state of a queue's thread: its started packets, those that hold its start order, and the fault ids on which it waits. -/
def Sys.threadWords (s : Sys) (q : Nat) : List Nat :=
  let l := s.live q
  [l.length, (l.filter Packet.waits).length] ++ (l.filterMap Packet.fault).take 6

/-- The state code of a run. -/
def RunState.code (r : RunState) : Nat :=
  match r with
  | .notAdmitted => 0
  | .admitted => 1
  | .dispatched => 2
  | .retired => 3

/-- The phase code of a sweep. -/
def SweepPhase.code (x : SweepPhase) : Nat :=
  match x with
  | .held => 0
  | .running => 1
  | .complete => 2
  | .aborted => 3

/-- A sweep in words: its id, phase and outstanding items, and the pool of each stage. -/
def Sweep.stateWords (w : Sweep) : List Nat :=
  [w.id, w.phase.code + 2 ^ 8 * w.stages + 2 ^ 16 * w.nodesN, w.items] ++ w.pool

/-- Has a run a part in the admission state or the shelf: is it admitted or dispatched, or has it a reservation, a charge, a loan or a drawer? -/
def Run.holds (r : Run) : Bool :=
  r.state == .admitted || r.state == .dispatched || r.res != 0 || r.charged != 0 || r.borrowed != 0 || r.drawer.isSome

/-- The runs of a sweep that have a part in the admission state or the shelf, in two words each: node, stage, state, whether it holds a drawer,
and its slot, with bits 23:16 of what it has borrowed; res, charged and bits 15:0 of what it has borrowed. -/
def Sweep.runWords (w : Sweep) : List Nat :=
  (w.runs.filter Run.holds).flatMap fun r =>
    [r.node % 2 ^ 24 + r.stage * 2 ^ 24 + r.state.code * 2 ^ 27 + bit r.drawer.isSome * 2 ^ 29 + r.drawer.getD 0 % 2 ^ 24 * 2 ^ 32
       + r.borrowed / 2 ^ 16 % 2 ^ 8 * 2 ^ 56,
     r.res % 2 ^ 24 + r.charged % 2 ^ 24 * 2 ^ 24 + r.borrowed % 2 ^ 16 * 2 ^ 48]

/-- The sweeps of a tower that run or are held, each with the count of its words in front: first the states of all of them, then their runs. One
that has ended has no state left, and shows none. DESIGN CHOICE: the region has room for some 32,000 runs a tower, and what lies beyond does not show
(log 127). -/
def Sys.sweepWords (s : Sys) (tower : Nat) : List Nat :=
  let ws := s.sweeps.filter fun w => w.tower == tower && (w.phase == .running || w.phase == .held)
  let counted := fun (x : List Nat) => x.length :: x
  ws.length :: ((ws.flatMap fun w => counted w.stateWords) ++ ws.flatMap fun w => counted w.runWords)

/-- The code of the fabric-time state (R333). -/
def TimeState.code (x : TimeState) : Nat :=
  match x with
  | .unset => 0
  | .locked => 1
  | .holdover => 2
  | .lost => 3

/-- What stands behind the board: epoch, LATE_NOTICE, the counts of discarded, sent and late posts, the fabric-time state and the
tariff. -/
def Sys.marketWords (s : Sys) : List Nat :=
  let m := s.market
  [m.epoch.toNat, m.lateNotices.toNat, m.discarded, m.sentPosts, m.lateArrivals, s.time.state.code, m.tariff]

/-- A byte of the tariff-board region: 4,096 entries of 24 bytes by stall (R331), then the market's words. -/
def Sys.marketByte (s : Sys) (off : Nat) : Byte :=
  if off < 0x18000 then
    match s.market.entry (off / 24) with
    | some e => byteAt (boardBits e) (off % 24)
    | none => 0
  else wordsByte s.marketWords (off - 0x18000)

/-- A sensor in a word: its reading in 16 bits, and whether it is invalid (R344). -/
def ThermalSensor.wordOf (x : ThermalSensor) (reading : Int) : Nat := (reading % 65536).toNat + 65536 * bit x.invalid

/-- The word of a sensor of a tower: the reading that counts, by which an invalid sensor's own is replaced (R344), and its validity. -/
def Sys.sensorWord (s : Sys) (tower n : Nat) : Nat :=
  let xs := s.power.thermal.getD tower []
  (xs.getD n {}).wordOf ((effectiveReadings xs (s.power.sensorFree + 128 * tower)).getD n 0)

/-- A byte of the region of collector records, engine control registers, islands and sensors. -/
def Sys.controlByte (s : Sys) (off : Nat) : Byte :=
  if off < 0x200 then
    match (s.tower (off / 0x100)).records.find? fun r => r.index == off % 0x100 / 16 with
    | some r => byteAt r.bits (off % 16)
    | none => 0
  else if 0x1000 ≤ off && off < 0x1240 then
    let n := (off - 0x1000) / 8
    byteAt (s.core ⟨n / 36, n % 36⟩).control.toNat (off % 8)
  else if 0x2000 ≤ off && off < 0x3000 then byteAt (s.power.islands.getD ((off - 0x2000) / 8) {}).bits (off % 8)
  else if 0x4000 ≤ off && off < 0x4400 then
    let n := (off - 0x4000) / 4
    byteAt (s.sensorWord (n / 128) (n % 128)) (off % 4)
  else if 0x4800 ≤ off && off < 0x4C00 then byteAt (s.power.outlet.getD ((off - 0x4800) / 4) 0 % 2 ^ 32).toNat (off % 4)
  else if 0x5000 ≤ off && off < 0x5300 then
    let n := (off - 0x5000) / 8
    byteAt (match s.power.monitors.getD n (some 0) with | some x => x | none => Config.ratedMaximum n + 2 ^ 32) (off % 8)
  else 0

/-- A byte of the card slots: for each core 64 entries of 256 bytes with the card, its shape record and its progress record (R286). -/
def Sys.cardByte (s : Sys) (off : Nat) : Byte :=
  let n := off / 0x4000
  match (s.core ⟨n / 36, n % 36⟩).cards[off % 0x4000 / 256]? with
  | none => 0
  | some c =>
    let j := off % 256
    if j < 64 then byteAt c.card j else if j < 128 then byteAt c.shape (j - 64) else if j < 144 then byteAt c.progress (j - 128) else 0

/-! ## The inspection window (R353) -/

/-- A byte of BAR2: none while PCIE is clear. `open_` is what stands where the spec names no contents. -/
def State.windowByte (open_ : Nat → Byte) (s : State) (off : Nat) : Option Byte :=
  let y := s.sys
  if !y.ready 0 then none
  else some (
    if off < 0x40 then byteAt y.identity off
    else if off < 0x48 then byteAt y.device.devReady.toNat (off - 0x40)
    else if 0x80 ≤ off && off < 0xA0 then byteAt (natBits keyHash.toNat 511 256) (off - 0x80)
    else if 0x1000 ≤ off && off < 0x2000 then y.measurementBytes.getD (off - 0x1000) (open_ off)
    else if 0x10000 ≤ off && off < 0x110000 then y.device.logByte (off - 0x10000)
    else if 0x200000 ≤ off && off < 0x200800 then byteAt (y.queue ((off - 0x200000) / 64)).regs.toNat (off % 64)
    else if 0x200800 ≤ off && off < 0x201000 then wordsByte (y.threadWords ((off - 0x200800) / 64)) (off % 64)
    else if 0x300000 ≤ off && off < 0x400000 then
      wordsByte (y.sweepWords ((off - 0x300000) / 0x80000)) (off % 0x80000)
    else if 0x400000 ≤ off && off < 0xC00000 then y.marketByte (off - 0x400000)
    else if 0xC00000 ≤ off && off < 0xC10000 then y.controlByte (off - 0xC00000)
    else if 0xD00000 ≤ off && off < 0x1100000 then y.cardByte (off - 0xD00000)
    else if 0x10000000 ≤ off && off < 0x10000000 + 6912 * 0x80000 then s.warpRegion (off - 0x10000000)
    else open_ off)

/-! ## The configuration space (R5, R328) -/

/-- A byte of the PCI Express configuration space: the Revision ID is the stepping (R5); the spec gives no other register. PRESUMED: the Revision ID
stands at offset 8, its place in the PCI standard; the spec gives no offset (log 135). -/
def configByte (open_ : Nat → Byte) (off : Nat) : Byte := if off == 8 then 0xB0 else open_ off

/-! ## BAR0 (R319, R320, R350, R356) -/

/-- A byte of the device registers of BAR0, which the Command Processor serves: none while it does not run, which holds the read, and in
recovery (R329, R351). DESIGN CHOICE: the nonce and the request register of a quote read zero. -/
def Sys.registerByte (s : Sys) (off : Nat) : Option Byte :=
  if !s.ready 1 then none
  else some (
    if off < 0x40 then byteAt s.device.globals.toNat off
    else if 0x2000 ≤ off && off < 0x2008 then byteAt s.device.fabric.toNat (off - 0x2000)
    else if off == 0x3048 then (if s.device.quoteDone then 1 else 0)
    else if 0x4000 ≤ off && off < 0x4000 + 4627 then
      match s.device.quoted with
      | some d => (quoteSignature d ((List.range 32).map fun i => Config.freeByte (s.device.quoteRandom + i))).getD (off - 0x4000) 0
      | none => 0
    else if 0x4000 + 4627 ≤ off && off < 0x4000 + 4627 + 2592 then
      if s.device.quoted.isSome then publicKeyBytes.getD (off - 0x4000 - 4627) 0 else 0
    else if 0x10000 ≤ off && off < 0x10800 then byteAt (s.queue ((off - 0x10000) / 64)).regs.toNat (off % 64)
    else 0)

end Sys2Proof.Machine
end

