-- ==== Sys2Proof/Safety.lean ====
section
/-! DEFINITION. What a safe run is: a run of the machine that no step stops, and a memory in its canonical form throughout. -/

namespace Sys2Proof.Machine

/-- A state that a number of steps leads to from another, no step having stopped. -/
def Reaches (n : Nat) (s t : State) : Prop := core.run n s = .next t

/-- The first `n` steps from a state all answer a next state. -/
def RunsFor (n : Nat) (s : State) : Prop := ∃ t, Reaches n s t

/-- A run of any length: no step from the state on stops the machine. -/
def Safe (s : State) : Prop := ∀ n, RunsFor n s

/-- Memory is in its canonical form. -/
def State.Canonical (s : State) : Prop := s.phys.mem.wf = true

end Sys2Proof.Machine
end

