-- ==== Sys2Proof/Certificates/Slice0/Obligations.lean ====
section
/-! DEFINITION. The statements for the provers, with the vocabulary that they share. -/

namespace Sys2Proof.Claims

open Sys2Proof.Machine

/-! ## The issue of an instruction -/

/-- The issuing slot's context is `c`, no wait at issue holds the instruction, and every register that it names is in the bays
and none that it reads is poisoned: it executes. -/
def Issues (m : Mnem) (f : Fields) (s : State) (c : Ctx) : Prop :=
  s.sys.issuing = some c ∧ c.waits m f (c.active f.guard) = none ∧ c.registerFault m f (c.active f.guard) = none

/-- The flag that an instruction of variable latency takes. -/
def flagOf (m : Mnem) (c : Ctx) : Option Nat := if m.variableLatency then c.slot.nextFlag else none

/-- The state in which the issuing warp has become `w` and its slot stands at the next instruction; nothing else differs. -/
def after (s : State) (c : Ctx) (w : Warp) : State :=
  { s with sys := s.sys.putWarp c.ref (w.setSlot c.z fun z => { z with pc := z.pc.plus s.sys.words, left := z.left - 1, resume := none, hold := .none }) }

/-- The state in which the issuing warp has become `w` as a whole. -/
def moved (s : State) (c : Ctx) (w : Warp) : State := { s with sys := s.sys.putWarp c.ref w }

/-- The state in which the instruction stays at issue and has performed nothing. -/
def waiting (s : State) (c : Ctx) (h : Hold) : State :=
  { s with sys := s.sys.setWarp c.ref fun w => w.setSlot c.z fun z => { z with hold := h } }

/-- The state in which a vector instruction has written elements of one register: element `g l` in each active lane. -/
def vector (s : State) (c : Ctx) (f : Fields) (t : Nat) (g : Nat → Nat) : State :=
  after s c (c.w.putElems t f.d.toNat ((c.active f.guard).lanes.map fun l => (l, g l)))

/-- Lane `l` is active. -/
def Active (c : Ctx) (f : Fields) (l : Nat) : Prop := l < 64 ∧ (c.active f.guard).getLsbD l = true

/-! ## Operands -/

/-- The immediate of an instruction by its form, sign-extended to 64 bits. -/
def immSigned (f : Fields) : DWord :=
  match f.form with
  | .w32 => (f.b.extractLsb' 0 6).signExtend 64
  | .w64 => f.b.signExtend 64
  | .w96 => f.lit.signExtend 64

/-- The immediate zero-extended to 64 bits. -/
def immUnsigned (f : Fields) : DWord :=
  match f.form with
  | .w96 => f.lit.setWidth 64
  | _ => f.b.setWidth 64

/-- Operand B of a scalar instruction. -/
def scalarB (w : Warp) (f : Fields) (imm : DWord) : DWord := if f.imm then imm else w.scalar f.b.toNat

/-- Operand B of a vector instruction: the bits of its element at a lane. -/
def vectorB (w : Warp) (f : Fields) (imm : DWord) (t l : Nat) : Nat :=
  if f.imm then imm.toNat % 2 ^ intBits t else w.rawElem t f.b.toNat l

/-- The least and the greatest value of an integer type. -/
def low (t : Nat) : Int := if t % 2 = 0 then -(2 ^ (intBits t - 1)) else 0
/-- The greatest value of an integer type. -/
def high (t : Nat) : Int := if t % 2 = 0 then 2 ^ (intBits t - 1) - 1 else 2 ^ intBits t - 1

/-- A value clamped. -/
def clamped (t : Nat) (x : Int) : Int := if x < low t then low t else if high t < x then high t else x

/-- The bits of an integer in a type. -/
def bitsOf (t : Nat) (x : Int) : Nat := (x % 2 ^ intBits t).toNat

/-- The value of bits in a type. -/
def typedValue (t raw : Nat) : Int := if t % 2 = 0 ∧ 2 ^ (intBits t - 1) ≤ raw then (raw : Int) - 2 ^ intBits t else raw

/-! ## Frames -/

/-- Between two states, memory reads the same, every block is the same but for its warps (its BSM, the poison of it and its barriers among
the rest), and every warp but the issuing one is the same, with its lane-private memory. -/
def ElsewhereSame (s t : State) (r : WarpRef) : Prop :=
  (∀ a, t.phys.byte a = s.phys.byte a) ∧ (∀ a, t.phys.poisoned a = s.phys.poisoned a) ∧
  (∀ i, (t.sys.block i).map (fun b => { b with warps := [] }) = (s.sys.block i).map fun b => { b with warps := [] }) ∧
  ∀ q, q ≠ r → t.sys.warp q = s.sys.warp q

/-- Between two warps, the state that no data instruction writes is the same, lane-private memory among it. -/
def ControlSame (w v : Warp) : Prop :=
  v.fmask = w.fmask ∧ v.fcause = w.fcause ∧ v.faddr = w.faddr ∧ v.tvec = w.tvec ∧ v.rpr = w.rpr ∧ v.tol = w.tol ∧
  v.mcert = w.mcert ∧ v.rngkey = w.rngkey ∧ v.perm = w.perm ∧ v.ftz = w.ftz ∧ v.rs = w.rs ∧ v.rsPoison = w.rsPoison ∧ v.bays = w.bays ∧
  v.tiles = w.tiles ∧ v.tilePoison = w.tilePoison ∧ v.tileCtl = w.tileCtl ∧ v.priv = w.priv ∧ v.privPoison = w.privPoison ∧
  v.ops = w.ops

/-- The frame of an instruction that writes at most one scalar register. -/
def ScalarFrame (s t : State) (c : Ctx) (d : Nat) : Prop :=
  ElsewhereSame s t c.ref ∧ ∃ v, t.sys.warp c.ref = some v ∧ ControlSame c.w v ∧ v.flags = c.w.flags ∧
    (∀ n, n ≠ d → v.scalar n = c.w.scalar n) ∧ (∀ n, v.m.get n = c.w.m.get n) ∧
    ∀ n l, v.elem n l = c.w.elem n l ∧ v.elemPoisoned n l = c.w.elemPoisoned n l

/-- The frame of an instruction that writes at most one mask register and FLAGS. -/
def MaskFrame (s t : State) (c : Ctx) (d : Nat) : Prop :=
  ElsewhereSame s t c.ref ∧ ∃ v, t.sys.warp c.ref = some v ∧ ControlSame c.w v ∧
    (∀ n, v.scalar n = c.w.scalar n) ∧ (∀ n, n ≠ d → v.m.get n = c.w.m.get n) ∧
    ∀ n l, v.elem n l = c.w.elem n l ∧ v.elemPoisoned n l = c.w.elemPoisoned n l

/-- The frame of an instruction that writes elements of one register, or of an even-aligned pair, in the active lanes. -/
def VectorFrame (s t : State) (c : Ctx) (f : Fields) (wide : Bool) : Prop :=
  ElsewhereSame s t c.ref ∧ ∃ v, t.sys.warp c.ref = some v ∧ ControlSame c.w v ∧
    (∀ n, v.scalar n = c.w.scalar n) ∧ (∀ n, v.m.get n = c.w.m.get n) ∧
    ∀ n l, l < 64 → ¬ ((n = f.d.toNat ∨ (wide = true ∧ n = f.d.toNat + 1)) ∧ (c.active f.guard).getLsbD l = true) →
      v.elem n l = c.w.elem n l ∧ v.elemPoisoned n l = c.w.elemPoisoned n l

end Sys2Proof.Claims

open Sys2Proof Sys2Proof.Machine Sys2Proof.Claims

/-! ## Scalar integer instructions -/

/-- R120, R118: sums, differences, products and bitwise results of the scalar instructions without SAT, modulo 2^64, and moves. -/
def Sys2Proof.Claims.ScalarArithmetic : Prop :=
  ∀ (s : State) (f : Fields) (c : Ctx), f.sat = false →
    let a := c.w.scalar f.a.toNat
    let b := scalarB c.w f (immSigned f)
    let x := c.w.scalar f.c.toNat
    let result := fun (v : DWord) => Host.Outcome.next (after s c (c.w.setScalar f.d.toNat v))
    (Issues .sadd f s c → exec (.sadd f) s = result (a + b)) ∧
    (Issues .ssub f s c → exec (.ssub f) s = result (a - b)) ∧
    (Issues .smul f s c → exec (.smul f) s = result (a * b)) ∧
    (Issues .smad f s c → exec (.smad f) s = result (a * b + x)) ∧
    (Issues .sand f s c → exec (.sand f) s = result (a &&& b)) ∧
    (Issues .sor f s c → exec (.sor f) s = result (a ||| b)) ∧
    (Issues .sxor f s c → exec (.sxor f) s = result (a ^^^ b)) ∧
    (Issues .snot f s c → exec (.snot f) s = result (a ^^^ BitVec.allOnes 64)) ∧
    (Issues .smov f s c → exec (.smov f) s = result a) ∧
    (Issues .sli f s c → exec (.sli f) s = result b)

/-- R120, R118: SMULH gives the high half of the 128-bit product, SLI.HI replaces the high half and keeps the low half, and SSEL
chooses by C. -/
def Sys2Proof.Claims.ScalarHighHalves : Prop :=
  ∀ (s : State) (f : Fields) (c : Ctx),
    let a := c.w.scalar f.a.toNat
    let result := fun (v : DWord) => Host.Outcome.next (after s c (c.w.setScalar f.d.toNat v))
    (Issues .smulh f s c → f.mod.getLsbD 0 = false →
      exec (.smulh f) s = result ((a.signExtend 128 * (scalarB c.w f (immSigned f)).signExtend 128).extractLsb' 64 64)) ∧
    (Issues .smulh f s c → f.mod.getLsbD 0 = true →
      exec (.smulh f) s = result ((a.setWidth 128 * (scalarB c.w f (immUnsigned f)).setWidth 128).extractLsb' 64 64)) ∧
    (Issues .sliHi f s c →
      exec (.sliHi f) s = result ((immSigned f).setWidth 32 ++ (c.w.scalar f.d.toNat).setWidth 32)) ∧
    (Issues .ssel f s c → exec (.ssel f) s =
      result (if c.w.scalar f.c.toNat = 0 then scalarB c.w f (immSigned f) else a))

/-- R72, R120: with SAT the exact result is clamped to I64, or under `.u` to N64. -/
def Sys2Proof.Claims.ScalarSaturation : Prop :=
  ∀ (s : State) (f : Fields) (c : Ctx), f.sat = true →
    let t := if f.mod.getLsbD 0 then 7 else 6
    let v := fun (x : DWord) => typedValue t x.toNat
    let a := v (c.w.scalar f.a.toNat)
    let b := v (scalarB c.w f (immSigned f))
    let x := v (c.w.scalar f.c.toNat)
    let result := fun (y : Int) => Host.Outcome.next (after s c (c.w.setScalar f.d.toNat (BitVec.ofInt 64 (clamped t y))))
    (Issues .sadd f s c → exec (.sadd f) s = result (a + b)) ∧
    (Issues .ssub f s c → exec (.ssub f) s = result (a - b)) ∧
    (Issues .smul f s c → exec (.smul f) s = result (a * b)) ∧
    (Issues .smad f s c → exec (.smad f) s = result (a * b + x))

/-- Scalar sums, differences, products, bitwise results, moves, immediates and saturation. The parts: `ScalarArithmetic`,
`ScalarHighHalves`, `ScalarSaturation`. The model's choices in it, not the spec's: log 21, 22. -/
def Obligations.ScalarResults : Prop :=
  Sys2Proof.Claims.ScalarArithmetic ∧
  Sys2Proof.Claims.ScalarHighHalves ∧
  Sys2Proof.Claims.ScalarSaturation

/-- R120: the count of a scalar shift is the whole of B: at 64 and above a logical shift gives 0 and SSAR copies of bit 63. -/
def Sys2Proof.Claims.ScalarShifts : Prop :=
  ∀ (s : State) (f : Fields) (c : Ctx),
    let a := c.w.scalar f.a.toNat
    let n := (scalarB c.w f (immUnsigned f)).toNat
    let written := fun (m : Mnem) (i : Instr) (bit : Nat → Bool) => Issues m f s c →
      ∃ v : DWord, exec i s = .next (after s c (c.w.setScalar f.d.toNat v)) ∧ ∀ k, k < 64 → v.getLsbD k = bit k
    written .sshl (.sshl f) (fun k => decide (n ≤ k) && a.getLsbD (k - n)) ∧
    written .sshr (.sshr f) (fun k => a.getLsbD (k + n)) ∧
    written .ssar (.ssar f) (fun k => a.getLsbD (min (k + n) 63))

/-- R120: the scalar comparison results (`.u` compares as N64), the lesser and the greater of two values. -/
def Sys2Proof.Claims.ScalarComparisons : Prop :=
  ∀ (s : State) (f : Fields) (c : Ctx),
    let u := f.mod.getLsbD 0
    let a := c.w.scalar f.a.toNat
    let b := scalarB c.w f (if u then immUnsigned f else immSigned f)
    let less := fun (x y : DWord) => if u then x.ult y else x.slt y
    let result := fun (v : DWord) => Host.Outcome.next (after s c (c.w.setScalar f.d.toNat v))
    (Issues .smin f s c → exec (.smin f) s = result (if less b a then b else a)) ∧
    (Issues .smax f s c → exec (.smax f) s = result (if less a b then b else a)) ∧
    (Issues .scmp f s c → ∀ (h : Bool),
      (f.sub = 0 ∧ h = decide (a = b)) ∨ (f.sub = 1 ∧ h = decide (a ≠ b)) ∨ (f.sub = 2 ∧ h = less a b) ∨
      (f.sub = 3 ∧ h = !less b a) ∨ (f.sub = 4 ∧ h = less b a) ∨ (f.sub = 5 ∧ h = !less a b) →
      exec (.scmp f) s = result (if h then 1 else 0))

/-- R120, R128: population counts, leading and trailing zeros, with 64 for a zero operand. -/
def Sys2Proof.Claims.ScalarCounts : Prop :=
  ∀ (s : State) (f : Fields) (c : Ctx),
    let a := c.w.scalar f.a.toNat
    let k := c.maskReg f.a.toNat
    let counted := fun (m : Mnem) (i : Instr) (good : Nat → Prop) => Issues m f s c →
      ∃ n, good n ∧ exec i s = .next (after s c (c.w.setScalar f.d.toNat (BitVec.ofNat 64 n)))
    let least := fun (x : DWord) (n : Nat) => n ≤ 64 ∧ (∀ i, i < n → x.getLsbD i = false) ∧ (n < 64 → x.getLsbD n = true)
    let leading := fun (n : Nat) => n ≤ 64 ∧ (∀ i, i < 64 → 64 - n ≤ i → a.getLsbD i = false) ∧ (n < 64 → a.getLsbD (63 - n) = true)
    counted .spopc (.spopc f) (fun n => n = (List.range 64).countP fun i => a.getLsbD i) ∧
    counted .sclz (.sclz f) leading ∧
    counted .sctz (.sctz f) (least a) ∧
    counted .mcnt (.mcnt f) (fun n => n = (List.range 64).countP fun i => k.getLsbD i) ∧
    counted .mfirst (.mfirst f) (least k)

/-- Scalar shifts, comparisons, least and greatest, and bit counts. The parts: `ScalarShifts`, `ScalarComparisons`, `ScalarCounts`. -/
def Obligations.ScalarBitsAndComparisons : Prop :=
  Sys2Proof.Claims.ScalarShifts ∧
  Sys2Proof.Claims.ScalarComparisons ∧
  Sys2Proof.Claims.ScalarCounts

/-- R120, R128, R14: a scalar or mask-reading instruction that issues leaves everything but s[D], the PC and the place in the
clause as it was: the other registers, FLAGS, the special registers, the other warps, and every byte of memory, of the BSM and of lane-private
memory. -/
def Sys2Proof.Claims.ScalarFrames : Prop :=
  ∀ (s t : State) (f : Fields) (c : Ctx) (x : Mnem × Instr),
    x ∈ [(.sadd, .sadd f), (.ssub, .ssub f), (.smul, .smul f), (.smulh, .smulh f), (.smad, .smad f), (.sand, .sand f),
         (.sor, .sor f), (.sxor, .sxor f), (.snot, .snot f), (.sshl, .sshl f), (.sshr, .sshr f), (.ssar, .ssar f),
         (.smin, .smin f), (.smax, .smax f), (.scmp, .scmp f), (.ssel, .ssel f), (.smov, .smov f), (.sli, .sli f),
         (.sliHi, .sliHi f), (.spopc, .spopc f), (.sclz, .sclz f), (.sctz, .sctz f), (.mcnt, .mcnt f), (.mfirst, .mfirst f),
         (.mtos, .mtos f), (.srd, .srd f), (.toladdLog, .toladdLog f), (.toladdOff, .toladdOff f), (.tolsplIn, .tolsplIn f),
         (.tolsplOwn, .tolsplOwn f), (.fpick, .fpick f), (.fpickCvt, .fpickCvt f), (.tolsetDem, .tolsetDem f),
         (.tolsetCert, .tolsetCert f), (.tolsetVal, .tolsetVal f), (.tolsetFld, .tolsetFld f)] →
    Issues x.1 f s c → exec x.2 s = .next t → ScalarFrame s t c f.d.toNat

/-- R14: s63 reads zero, and a write to it is discarded; a write to another scalar register reads back, clears its poison and
leaves the others. -/
def Sys2Proof.Claims.ScalarRegisterFile : Prop :=
  ∀ (w : Warp) (n k : Nat) (x : DWord),
    w.scalar 63 = 0 ∧ (w.setScalar 63 x).scalar k = w.scalar k ∧ (w.setScalar 63 x) = w ∧
    (n ≠ 63 → (w.setScalar n x).scalar n = x ∧ NatSet.has (w.setScalar n x).sPoison n = false) ∧
    (k ≠ n → (w.setScalar n x).scalar k = w.scalar k ∧ NatSet.has (w.setScalar n x).sPoison k = NatSet.has w.sPoison k)

/-- What a scalar instruction leaves unchanged, and the scalar register file with s63. The parts: `ScalarFrames`, `ScalarRegisterFile`. -/
def Obligations.ScalarRegistersAndFrames : Prop :=
  Sys2Proof.Claims.ScalarFrames ∧
  Sys2Proof.Claims.ScalarRegisterFile

/-! ## Vector integer instructions -/

/-- R121, R117, R118: the vector sums, differences, products and sign changes without SAT, modulo 2^n in each active lane. -/
def Sys2Proof.Claims.VectorArithmetic : Prop :=
  ∀ (s : State) (f : Fields) (c : Ctx), f.sat = false →
    let t := f.typeCode
    let n := intBits t
    let a := fun l => c.w.rawElem t f.a.toNat l
    let b := fun l => vectorB c.w f (immSigned f) t l
    let x := fun l => c.w.rawElem t f.c.toNat l
    let result := fun (g : Nat → Nat) => Host.Outcome.next (vector s c f t fun l => g l % 2 ^ n)
    (Issues .vadd f s c → exec (.vadd f) s = result fun l => a l + b l) ∧
    (Issues .vsub f s c → exec (.vsub f) s = result fun l => a l + (2 ^ n - b l)) ∧
    (Issues .vmul f s c → exec (.vmul f) s = result fun l => a l * b l) ∧
    (Issues .vmad f s c → exec (.vmad f) s = result fun l => a l * b l + x l) ∧
    (Issues .vneg f s c → exec (.vneg f) s = result fun l => 2 ^ n - a l) ∧
    (Issues .vabs f s c → exec (.vabs f) s = result fun l => if t % 2 = 0 ∧ 2 ^ (n - 1) ≤ a l then 2 ^ n - a l else a l)

/-- R72, R117 (e), R121: with SAT each active lane's exact result is clamped to the type. -/
def Sys2Proof.Claims.VectorSaturation : Prop :=
  ∀ (s : State) (f : Fields) (c : Ctx), f.sat = true →
    let t := f.typeCode
    let a := fun l => typedValue t (c.w.rawElem t f.a.toNat l)
    let b := fun l => typedValue t (vectorB c.w f (immSigned f) t l)
    let x := fun l => typedValue t (c.w.rawElem t f.c.toNat l)
    let result := fun (g : Nat → Int) => Host.Outcome.next (vector s c f t fun l => bitsOf t (clamped t (g l)))
    (Issues .vadd f s c → exec (.vadd f) s = result fun l => a l + b l) ∧
    (Issues .vsub f s c → exec (.vsub f) s = result fun l => a l - b l) ∧
    (Issues .vmul f s c → exec (.vmul f) s = result fun l => a l * b l) ∧
    (Issues .vmad f s c → exec (.vmad f) s = result fun l => a l * b l + x l) ∧
    (Issues .vabs f s c → exec (.vabs f) s = result fun l => |a l|) ∧
    (Issues .vneg f s c → exec (.vneg f) s = result fun l => -a l)

/-- R121, R85: high products, least and greatest, moves, immediates, broadcasts and integer conversions in each active lane. -/
def Sys2Proof.Claims.VectorMoves : Prop :=
  ∀ (s : State) (f : Fields) (c : Ctx),
    let t := f.typeCode
    let n := intBits t
    let a := fun l => c.w.rawElem t f.a.toNat l
    let b := fun l => vectorB c.w f (immSigned f) t l
    let cmp := fun l => vectorB c.w f (if t % 2 = 0 then immSigned f else immUnsigned f) t l
    let result := fun (g : Nat → Nat) => Host.Outcome.next (vector s c f t g)
    (Issues .vmulh f s c → f.sat = false → exec (.vmulh f) s = result fun l => bitsOf t (typedValue t (a l) * typedValue t (b l) / 2 ^ n)) ∧
    (Issues .vmin f s c → f.sat = false → exec (.vmin f) s = result fun l => if typedValue t (cmp l) < typedValue t (a l) then cmp l else a l) ∧
    (Issues .vmax f s c → f.sat = false → exec (.vmax f) s = result fun l => if typedValue t (a l) < typedValue t (cmp l) then cmp l else a l) ∧
    (Issues .vmov f s c → exec (.vmov f) s = result a) ∧
    (Issues .vli f s c → exec (.vli f) s = result b) ∧
    (Issues .vbcst f s c → exec (.vbcst f) s = result fun _ => (c.w.scalar f.a.toNat).toNat % 2 ^ n) ∧
    (Issues .vsel f s c → exec (.vsel f) s = result fun l => if (c.maskReg f.c.toNat).getLsbD l then a l else b l) ∧
    (Issues .icvt f s c → f.sat = false →
      exec (.icvt f) s = result fun l => bitsOf t (typedValue f.srcCode (c.w.rawElem f.srcCode f.a.toNat l))) ∧
    (Issues .icvt f s c → f.sat = true →
      exec (.icvt f) s = result fun l => bitsOf t (clamped t (typedValue f.srcCode (c.w.rawElem f.srcCode f.a.toNat l))))

/-- R15, R117 (c), R14: the vector and mask registers after a write: an element of a type reads as the value written, modulo 2^n, extended to
32 bits by the type's sign, with its poison lifted; a 64-bit one takes the even-aligned pair; a mask register reads as written; every other
element, mask, scalar register and flag is as before. -/
def Sys2Proof.Claims.VectorRegisterFile : Prop :=
  (∀ (w : Warp) (t n : Nat) (vals : List (Nat × Nat)), (vals.map Prod.fst).Nodup → (∀ x ∈ vals, x.1 < 64) →
    let v := w.putElems t n vals
    (∀ x ∈ vals, v.rawElem t n x.1 = x.2 % 2 ^ intBits t ∧ v.elemPoisoned n x.1 = false ∧
      (t < 6 → v.elem n x.1 = BitVec.ofInt 32 (typedValue t (x.2 % 2 ^ intBits t))) ∧
      (6 ≤ t → v.pair n x.1 = BitVec.ofNat 64 x.2 ∧ v.elemPoisoned (n + 1) x.1 = false)) ∧
    (∀ k l, l < 64 → ¬ ((k = n ∨ (6 ≤ t ∧ k = n + 1)) ∧ l ∈ vals.map Prod.fst) →
      v.elem k l = w.elem k l ∧ v.elemPoisoned k l = w.elemPoisoned k l) ∧ v.s = w.s ∧ v.m = w.m ∧ v.flags = w.flags) ∧
  (∀ (w : Warp) (n : Nat) (vals : List (Nat × Word)), (vals.map Prod.fst).Nodup → (∀ x ∈ vals, x.1 < 64) →
    let v := w.putWords n vals
    (∀ x ∈ vals, v.elem n x.1 = x.2 ∧ v.elemPoisoned n x.1 = false) ∧
    ∀ k l, l < 64 → ¬ (k = n ∧ l ∈ vals.map Prod.fst) → v.elem k l = w.elem k l ∧ v.elemPoisoned k l = w.elemPoisoned k l) ∧
  ∀ (w : Warp) (n k : Nat) (x : LaneMask), (w.setMask n x).m.get n = x ∧ (k ≠ n → (w.setMask n x).m.get k = w.m.get k) ∧
    (w.setMask n x).v = w.v ∧ (w.setMask n x).s = w.s

/-- R121: the bits of the vector bitwise, shift, rotate and reversal results; shift counts are whole, rotations modulo n. -/
def Sys2Proof.Claims.VectorBits : Prop :=
  ∀ (s : State) (f : Fields) (c : Ctx),
    let t := f.typeCode
    let n := intBits t
    let a := fun (l i : Nat) => (c.w.rawElem t f.a.toNat l).testBit i
    let b := fun (l i : Nat) => (vectorB c.w f (immSigned f) t l).testBit i
    let k := fun (l : Nat) => vectorB c.w f (immUnsigned f) t l
    let written := fun (m : Mnem) (i : Instr) (bit : Nat → Nat → Bool) => Issues m f s c →
      ∃ g : Nat → Nat, exec i s = .next (vector s c f t g) ∧
        ∀ l, Active c f l → g l < 2 ^ n ∧ ∀ i, i < n → (g l).testBit i = bit l i
    written .vand (.vand f) (fun l i => a l i && b l i) ∧
    written .vor (.vor f) (fun l i => a l i || b l i) ∧
    written .vxor (.vxor f) (fun l i => a l i != b l i) ∧
    written .vnot (.vnot f) (fun l i => !a l i) ∧
    written .vshl (.vshl f) (fun l i => decide (k l ≤ i) && a l (i - k l)) ∧
    written .vshr (.vshr f) (fun l i => a l (i + k l)) ∧
    written .vsar (.vsar f) (fun l i => a l (min (i + k l) (n - 1))) ∧
    written .vrot (.vrot f) (fun l i => a l ((i + n - k l % n) % n)) ∧
    written .vbrev (.vbrev f) (fun l i => a l (n - 1 - i))

/-- Vector integer results and what the registers read after them: arithmetic, saturation, moves, conversions, bits. The parts:
`VectorArithmetic`, `VectorSaturation`, `VectorMoves`, `VectorBits`, `VectorRegisterFile`. The model's choices in it, not the
spec's: log 21, 107, 134. -/
def Obligations.VectorResults : Prop :=
  Sys2Proof.Claims.VectorArithmetic ∧
  Sys2Proof.Claims.VectorSaturation ∧
  Sys2Proof.Claims.VectorMoves ∧
  Sys2Proof.Claims.VectorBits ∧
  Sys2Proof.Claims.VectorRegisterFile

/-- R122: VFUN takes 32 bits of A over B, shifted by v[C] mod 64; SUB above 1 and an immediate are illegal. -/
def Sys2Proof.Claims.FunnelShift : Prop :=
  ∀ (s : State) (f : Fields) (c : Ctx),
    let both := fun (l : Nat) => (c.w.elem f.a.toNat l ++ c.w.elem f.b.toNat l : BitVec 64)
    let k := fun (l : Nat) => (c.w.elem f.c.toNat l).toNat % 64
    (Issues .vfun f s c → f.sub = 0 →
      exec (.vfun f) s = .next (vector s c f 0 fun l => ((both l >>> k l).extractLsb' 0 32).toNat)) ∧
    (Issues .vfun f s c → f.sub = 1 →
      exec (.vfun f) s = .next (vector s c f 0 fun l => ((both l <<< k l).extractLsb' 32 32).toNat)) ∧
    (1 < f.sub.toNat ∨ f.imm = true ∨ f.form = .w32 → Mnem.vfun.illegal f ≠ none)

/-- R121: population counts and zero counts of vector elements, n for a zero element. -/
def Sys2Proof.Claims.VectorCounts : Prop :=
  ∀ (s : State) (f : Fields) (c : Ctx),
    let t := f.typeCode
    let n := intBits t
    let a := fun (l i : Nat) => (c.w.rawElem t f.a.toNat l).testBit i
    let counted := fun (m : Mnem) (i : Instr) (good : Nat → Nat → Prop) => Issues m f s c →
      ∃ g : Nat → Nat, exec i s = .next (vector s c f t g) ∧ ∀ l, Active c f l → g l ≤ n ∧ good l (g l)
    counted .vpopc (.vpopc f) (fun l x => x = (List.range n).countP (a l)) ∧
    counted .vclz (.vclz f) (fun l x => (∀ i, i < n → n - x ≤ i → a l i = false) ∧ (x < n → a l (n - 1 - x) = true)) ∧
    counted .vctz (.vctz f) (fun l x => (∀ i, i < x → a l i = false) ∧ (x < n → a l x = true))

/-- R123: VCMP writes the bits of the active lanes of m[D] and keeps the others; no flag changes. -/
def Sys2Proof.Claims.VectorCompare : Prop :=
  ∀ (s : State) (f : Fields) (c : Ctx) (holds : Int → Int → Bool), Issues .vcmp f s c →
    (∀ x y, holds x y = decide ((f.sub = 0 ∧ x = y) ∨ (f.sub = 1 ∧ x ≠ y) ∨ (f.sub = 2 ∧ x < y) ∨ (f.sub = 3 ∧ x ≤ y) ∨
      (f.sub = 4 ∧ y < x) ∨ (f.sub = 5 ∧ y ≤ x))) → f.sub.toNat ≤ 5 →
    let t := f.typeCode
    let imm := if t % 2 = 0 then immSigned f else immUnsigned f
    ∃ k : LaneMask, exec (.vcmp f) s = .next (after s c (c.w.setMask f.d.toNat k)) ∧
      ∀ l, l < 64 → k.getLsbD l =
        if (c.active f.guard).getLsbD l then holds (typedValue t (c.w.rawElem t f.a.toNat l)) (typedValue t (vectorB c.w f imm t l))
        else (c.w.m.get f.d.toNat).getLsbD l

/-- R123, R119: VEXTR writes one lane's element, extended by its type, to s[D]; a poisoned element raises POISON instead. -/
def Sys2Proof.Claims.VectorExtract : Prop :=
  ∀ (s : State) (f : Fields) (c : Ctx), Issues .vextr f s c →
    let t := f.typeCode
    let l := (scalarB c.w f (immUnsigned f)).toNat % 64
    let bad := c.w.elemPoisoned f.a.toNat l || (decide (6 ≤ t) && c.w.elemPoisoned (f.a.toNat + 1) l)
    (bad = false → exec (.vextr f) s =
      .next (after s c (c.w.setScalar f.d.toNat (BitVec.ofInt 64 (typedValue t (c.w.rawElem t f.a.toNat l)))))) ∧
    (bad = true → exec (.vextr f) s =
      work s fun _ y => y.raise c.ref c.z { cause := .poison, resume := c.active f.guard }
        (c.w.elemLoaded f.a.toNat l || (decide (6 ≤ t) && c.w.elemLoaded (f.a.toNat + 1) l)))

/-- Vector bit counts, VCMP into a mask register, VEXTR into a scalar register. The parts: `VectorCounts`, `VectorCompare`,
`VectorExtract`. The model's choices in it, not the spec's: log 131, 134. -/
def Obligations.VectorCountsAndCompares : Prop :=
  Sys2Proof.Claims.VectorCounts ∧
  Sys2Proof.Claims.VectorCompare ∧
  Sys2Proof.Claims.VectorExtract

/-! ## Bit fields, masks and cross-lane instructions -/

/-- R124: BMM8 multiplies 8 × 8 bit matrices over GF(2): bit 8i + j of D is the parity of A(i, k) and B(k, j) over k. It takes
64-bit type codes and a register B alone, and B = the identity gives A. -/
def Obligations.BitMatrixMultiply : Prop :=
  (∀ (s : State) (f : Fields) (c : Ctx), Issues .bmm8 f s c → 6 ≤ f.typeCode → f.imm = false →
    ∃ g : Nat → Nat, exec (.bmm8 f) s = .next (vector s c f f.typeCode g) ∧
      ∀ l, Active c f l → g l < 2 ^ 64 ∧ (∀ i j, i < 8 → j < 8 → (g l).testBit (8 * i + j) =
        ((List.range 8).countP (fun k => (c.w.pair f.a.toNat l).getLsbD (8 * i + k) && (c.w.pair f.b.toNat l).getLsbD (8 * k + j)) % 2 == 1)) ∧
        (c.w.pair f.b.toNat l = 0x8040201008040201 → g l = (c.w.pair f.a.toNat l).toNat)) ∧
  (∀ f : Fields, Mnem.bmm8.illegal f = none → (f.typeCode = 6 ∨ f.typeCode = 7) ∧ f.imm = false) ∧ Mnem.bmm8.spec.op = 0x50

/-- R125: PDEP places the low bits of A, in order, at the set positions of B, and PEXT gathers the bits of A at those positions;
every other bit is 0. -/
def Sys2Proof.Claims.BitDepositExtract : Prop :=
  ∀ (s : State) (f : Fields) (c : Ctx),
    let t := f.typeCode
    let n := intBits t
    let a := fun (l i : Nat) => (c.w.rawElem t f.a.toNat l).testBit i
    let b := fun (l i : Nat) => (vectorB c.w f (immSigned f) t l).testBit i
    let rank := fun (l p : Nat) => (List.range p).countP (b l)
    (Issues .pdep f s c → ∃ g : Nat → Nat, exec (.pdep f) s = .next (vector s c f t g) ∧
      ∀ l, Active c f l → g l < 2 ^ n ∧ ∀ p, p < n → (g l).testBit p = (b l p && a l (rank l p))) ∧
    (Issues .pext f s c → ∃ g : Nat → Nat, exec (.pext f) s = .next (vector s c f t g) ∧
      ∀ l, Active c f l → g l < 2 ^ n ∧ (∀ p, p < n → b l p = true → (g l).testBit (rank l p) = a l p) ∧
        ∀ i, rank l n ≤ i → (g l).testBit i = false)

/-- R126, R127: BPERM takes the bits of A that PERM names; BFX extracts a field, extended by the type's sign, and BFI inserts A into
the field of C, the length cut at the element's end. -/
def Sys2Proof.Claims.BitFields : Prop :=
  ∀ (s : State) (f : Fields) (c : Ctx),
    let t := f.typeCode
    let n := intBits t
    let a := fun (l i : Nat) => (c.w.rawElem t f.a.toNat l).testBit i
    let x := fun (l i : Nat) => (c.w.rawElem t f.c.toNat l).testBit i
    let ctl := fun (l : Nat) => vectorB c.w f (immUnsigned f) t l
    let pos := fun (l : Nat) => ctl l % 64
    let len := fun (l : Nat) => min (ctl l / 64 % 128) (n - pos l)
    let written := fun (m : Mnem) (i : Instr) (bit : Nat → Nat → Bool) => Issues m f s c →
      ∃ g : Nat → Nat, exec i s = .next (vector s c f t g) ∧
        ∀ l, Active c f l → g l < 2 ^ n ∧ ∀ i, i < n → (g l).testBit i = bit l i
    (6 ≤ t → written .bperm (.bperm f) (fun l i => a l (c.w.perm.extractLsb' (6 * i) 6).toNat)) ∧
    written .bfx (.bfx f) (fun l i =>
      if i < len l then a l (pos l + i) else t % 2 == 0 && len l != 0 && a l (pos l + len l - 1)) ∧
    written .bfi (.bfi f) (fun l i => if pos l ≤ i ∧ i < pos l + len l then a l (i - pos l) else x l i)

/-- R128, R14: the mask instructions act on all 64 bits, m0 as a source reads the slot's mask, and MTOS and STOM move a mask to and
from a scalar register. The destination is one of m1 to m7: m0 there is illegal. -/
def Sys2Proof.Claims.MaskInstructions : Prop :=
  ∀ (s : State) (f : Fields) (c : Ctx),
    let reg := fun (n : BitVec 8) => if n = 0 then c.slot.mask else c.w.m.get n.toNat
    let result := fun (k : LaneMask) => Host.Outcome.next (after s c (c.w.setMask f.d.toNat k))
    (Issues .mand f s c → exec (.mand f) s = result (reg f.a &&& reg f.b)) ∧
    (Issues .mor f s c → exec (.mor f) s = result (reg f.a ||| reg f.b)) ∧
    (Issues .mxor f s c → exec (.mxor f) s = result (reg f.a ^^^ reg f.b)) ∧
    (Issues .mnot f s c → exec (.mnot f) s = result (reg f.a ^^^ BitVec.allOnes 64)) ∧
    (Issues .mmov f s c → exec (.mmov f) s = result (reg f.a)) ∧
    (Issues .stom f s c → exec (.stom f) s = result (c.w.scalar f.a.toNat)) ∧
    (Issues .mtos f s c → exec (.mtos f) s = .next (after s c (c.w.setScalar f.d.toNat (reg f.a)))) ∧
    (f.d = 0 → ∀ m ∈ [Mnem.mand, .mor, .mxor, .mnot, .mmov, .stom], m.illegal f ≠ none)

/-- Funnel shift, bit deposit and extract, bit fields, BPERM and the mask instructions. The parts: `FunnelShift`, `BitDepositExtract`,
`BitFields`, `MaskInstructions`. -/
def Obligations.BitFieldsAndMasks : Prop :=
  Sys2Proof.Claims.FunnelShift ∧
  Sys2Proof.Claims.BitDepositExtract ∧
  Sys2Proof.Claims.BitFields ∧
  Sys2Proof.Claims.MaskInstructions

namespace Sys2Proof.Claims

/-- The source lane of a shuffle (R129). -/
def sourceLane (m : Mnem) (f : Fields) (w : Warp) (l : Nat) : Nat :=
  match m with
  | .shflIdx => (if f.imm then f.immU else (w.elem f.b.toNat l).toNat) % 64
  | .shflXor => l ^^^ (64 / 2 ^ f.immU)
  | .shflUp => if 64 / 2 ^ f.immU ≤ l then l - 64 / 2 ^ f.immU else l
  | .shflDn => if l + 64 / 2 ^ f.immU < 64 then l + 64 / 2 ^ f.immU else l
  | _ => l

/-- An instruction that is a shuffle has no poisoned source element in an active lane (R129). -/
def CleanSources (m : Mnem) (f : Fields) (c : Ctx) : Prop :=
  m ∈ [Mnem.shflIdx, .shflXor, .shflUp, .shflDn] → ∀ l, Active c f l →
    c.w.elemPoisoned f.a.toNat (sourceLane m f c.w l) = false ∧
      (6 ≤ f.typeCode → c.w.elemPoisoned (f.a.toNat + 1) (sourceLane m f c.w l) = false)

end Sys2Proof.Claims

/-- R129: each active lane of a shuffle takes the element of its source lane, active or not; a poisoned element so read raises POISON. -/
def Sys2Proof.Claims.Shuffles : Prop :=
  ∀ (s : State) (f : Fields) (c : Ctx) (x : Mnem × Instr),
    x ∈ [(.shflIdx, .shflIdx f), (.shflXor, .shflXor f), (.shflUp, .shflUp f), (.shflDn, .shflDn f)] → Issues x.1 f s c →
    (CleanSources x.1 f c → exec x.2 s =
      .next (vector s c f f.typeCode fun l => c.w.rawElem f.typeCode f.a.toNat (sourceLane x.1 f c.w l))) ∧
    (¬ CleanSources x.1 f c → ∀ loaded : Bool, (loaded = true ↔ ∃ l, Active c f l ∧
        (c.w.elemLoaded f.a.toNat (sourceLane x.1 f c.w l) = true ∨
          (6 ≤ f.typeCode ∧ c.w.elemLoaded (f.a.toNat + 1) (sourceLane x.1 f c.w l) = true))) → exec x.2 s =
      work s fun _ t => t.raise c.ref c.z { cause := .poison, resume := c.active f.guard } loaded)

/-- R91, R130: REDL.IADD without SAT writes to every active lane the sum of the active lanes' elements modulo 2^n; SCANL.IADD writes
the sums of the active lanes up to each lane, with X = 1 of the lanes before it. FLAGS keep their value. -/
def Sys2Proof.Claims.IntegerReductions : Prop :=
  ∀ (s : State) (f : Fields) (c : Ctx), f.sub = 3 → f.sat = false →
    let t := f.typeCode
    let a := fun (l : Nat) => if (c.active f.guard).getLsbD l then c.w.rawElem t f.a.toNat l else 0
    let total := fun (k : Nat) => ((List.range k).map a).sum % 2 ^ intBits t
    (Issues .redl f s c → exec (.redl f) s = .next (vector s c f t fun _ => total 64)) ∧
    (Issues .scanl f s c → exec (.scanl f) s = .next (vector s c f t fun l => total (if f.x then l else l + 1)))

/-- R130, R94: every operator of REDL and SCANL completes, with the results in D's active lanes and its flags ORed into FLAGS; the
integer operators set no flag. -/
def Sys2Proof.Claims.ReductionsComplete : Prop :=
  ∀ (s : State) (f : Fields) (c : Ctx) (x : Mnem × Instr), x ∈ [(.redl, .redl f), (.scanl, .scanl f)] → Issues x.1 f s c →
    ∃ (g : Nat → Nat) (fl : BitVec 5), (3 ≤ f.sub.toNat → fl = 0) ∧
      exec x.2 s = .next (after s c ((c.w.putElems f.typeCode f.d.toNat
        ((c.active f.guard).lanes.map fun l => (l, g l))).orFlags fl))

/-- R131: VOTE writes the ballot, any, all or uniform of the active lanes and leaves s[D] for an empty active set; LANEID writes
each active lane's number. Other SUB values, MOD and I are illegal. -/
def Obligations.VoteAndLaneNumbers : Prop :=
  (∀ (s : State) (f : Fields) (c : Ctx),
    let e := c.active f.guard
    let v := fun l => c.w.elem f.a.toNat l
    let result := fun (x : DWord) => Host.Outcome.next (after s c (c.w.setScalar f.d.toNat x))
    (Issues .vote f s c → e = 0 → exec (.vote f) s = .next (after s c c.w)) ∧
    (Issues .vote f s c → e ≠ 0 → f.sub = 0 →
      ∃ x : DWord, exec (.vote f) s = result x ∧ ∀ l, l < 64 → x.getLsbD l = (e.getLsbD l && v l != 0)) ∧
    (Issues .vote f s c → e ≠ 0 → f.sub = 1 → ∀ h : Bool, (h = true ↔ ∃ l, Active c f l ∧ v l ≠ 0) →
      exec (.vote f) s = result (if h then 1 else 0)) ∧
    (Issues .vote f s c → e ≠ 0 → f.sub = 2 → ∀ h : Bool, (h = true ↔ ∀ l, Active c f l → v l ≠ 0) →
      exec (.vote f) s = result (if h then 1 else 0)) ∧
    (Issues .vote f s c → e ≠ 0 → f.sub = 3 → ∀ h : Bool, (h = true ↔ ∀ l k, Active c f l → Active c f k → v l = v k) →
      exec (.vote f) s = result (if h then 1 else 0)) ∧
    (Issues .laneid f s c → exec (.laneid f) s = .next (vector s c f 0 fun l => l))) ∧
  (∀ f : Fields, 3 < f.sub.toNat ∨ f.mod ≠ 0 ∨ f.imm = true → Mnem.vote.illegal f ≠ none ∧ (f.sub = 0 → Mnem.laneid.illegal f ≠ none)) ∧
  Mnem.vote.spec.op = 0x66 ∧ Mnem.laneid.spec.op = 0x67

/-- R121, R122, R124 to R127, R129 to R131, R117 (c), R15: a vector instruction of fixed latency, LANEID, a shuffle, REDL or SCANL that
issues, and reads no poisoned element, leaves every register element outside D's active lanes, the masks, the scalar and special
registers, the other warps, and every byte of memory, of the BSM and of lane-private memory; REDL and SCANL may set bits of FLAGS, and the others
leave FLAGS. -/
def Sys2Proof.Claims.VectorFrames : Prop :=
  ∀ (s t : State) (f : Fields) (c : Ctx) (x : Mnem × Instr),
    x ∈ [(.vadd, .vadd f), (.vsub, .vsub f), (.vmul, .vmul f), (.vmulh, .vmulh f), (.vmad, .vmad f), (.vmin, .vmin f), (.vmax, .vmax f),
         (.vabs, .vabs f), (.vneg, .vneg f), (.vand, .vand f), (.vor, .vor f), (.vxor, .vxor f), (.vnot, .vnot f), (.vshl, .vshl f),
         (.vshr, .vshr f), (.vsar, .vsar f), (.vrot, .vrot f), (.vfun, .vfun f), (.vpopc, .vpopc f), (.vclz, .vclz f), (.vctz, .vctz f),
         (.vbrev, .vbrev f), (.vsel, .vsel f), (.vmov, .vmov f), (.vli, .vli f), (.vbcst, .vbcst f), (.icvt, .icvt f),
         (.bmm8, .bmm8 f), (.pdep, .pdep f), (.pext, .pext f), (.bperm, .bperm f), (.bfx, .bfx f), (.bfi, .bfi f),
         (.shflIdx, .shflIdx f), (.shflXor, .shflXor f), (.shflUp, .shflUp f), (.shflDn, .shflDn f), (.laneid, .laneid f),
         (.redl, .redl f), (.scanl, .scanl f)] →
    Issues x.1 f s c → CleanSources x.1 f c → exec x.2 s = .next t →
    VectorFrame s t c f (decide (6 ≤ f.typeCode)) ∧
    ∃ v, t.sys.warp c.ref = some v ∧ v.flags &&& c.w.flags = c.w.flags ∧ (x.1 ≠ .redl → x.1 ≠ .scanl → v.flags = c.w.flags)

/-- R14, R123, R128: an instruction that writes one mask register leaves every other register, the special registers, the other
warps, and every byte of memory, of the BSM and of lane-private memory. -/
def Sys2Proof.Claims.MaskFrames : Prop :=
  ∀ (s t : State) (f : Fields) (c : Ctx) (x : Mnem × Instr),
    x ∈ [(.mand, .mand f), (.mor, .mor f), (.mxor, .mxor f), (.mnot, .mnot f), (.mmov, .mmov f), (.stom, .stom f),
         (.vcmp, .vcmp f), (.fcmp, .fcmp f)] →
    Issues x.1 f s c → exec x.2 s = .next t →
    MaskFrame s t c f.d.toNat ∧ ∃ v, t.sys.warp c.ref = some v ∧ (x.1 ≠ .fcmp → v.flags = c.w.flags) ∧ v.flags &&& c.w.flags = c.w.flags

/-- What vector and mask-writing instructions leave unchanged. The parts: `VectorFrames`, `MaskFrames`. -/
def Obligations.VectorAndMaskFrames : Prop :=
  Sys2Proof.Claims.VectorFrames ∧
  Sys2Proof.Claims.MaskFrames

/-- R132: CRNG reads its counter, stream word and key at issue and starts; the words that it will write are the ten-round function of
them, x0 and x1 for `.lo`, x2 and x3 for `.hi`. An empty active set completes at once. -/
def Sys2Proof.Claims.RandomNumbers : Prop :=
  (∀ (s : State) (f : Fields) (c : Ctx) (hi : Bool) (x : Mnem × Instr),
    x = (if hi then (.crngHi, .crngHi f) else (.crngLo, .crngLo f)) → Issues x.1 f s c →
    let e := c.active f.guard
    let key := if f.mod.getLsbD 0 then c.w.scalar f.c.toNat else c.w.rngkey
    let v := fun l => crng (c.w.elem f.a.toNat l) (c.w.elem (f.a.toNat + 1) l) (scalarB c.w f (immUnsigned f)) key
    (e = 0 → exec x.2 s = .next { s with sys := s.sys.completedOp c id }) ∧
    (e ≠ 0 → exec x.2 s = .next { s with sys := s.sys.startOp c x.1 (flagOf x.1 c) (.crng f.d.toNat
      (e.lanes.map fun l => if hi then (l, (v l).x2, (v l).x3) else (l, (v l).x0, (v l).x1))) })) ∧
  (∀ z : CrngState,
    let y0 := BitVec.ofNat 32 (z.x2.toNat * 0xC83E6A2D / 2 ^ 32) ^^^ z.x1 ^^^ z.k0
    let y2 := BitVec.ofNat 32 (z.x0.toNat * 0xD2A81B57 / 2 ^ 32) ^^^ z.x3 ^^^ z.k1
    z.round = { x0 := y0, x1 := (z.x2 * 0xC83E6A2D).rotateLeft 13 + y0, x2 := y2, x3 := (z.x0 * 0xD2A81B57).rotateLeft 7 + y2,
                k0 := z.k0 + 0x9E3779B9, k1 := z.k1 + 0xB7E15163 }) ∧
  ∀ (x0 x1 : Word) (stream key : DWord), crng x0 x1 stream key =
    CrngState.round^[10] { x0 := x0, x1 := x1, x2 := stream.setWidth 32, x3 := (stream >>> 32).setWidth 32,
                           k0 := key.setWidth 32, k1 := (key >>> 32).setWidth 32 }

/-! ## Floating-point instructions -/

namespace Sys2Proof.Claims

/-- An FP32 encoding is a NaN: the exponent is all ones and the fraction is not 0. -/
abbrev IsNaN (x : Word) : Prop := x.extractLsb' 23 8 = 255 ∧ x.extractLsb' 0 23 ≠ 0

/-- A signalling NaN: a NaN whose fraction's top bit is 0. -/
abbrev IsSignalling (x : Word) : Prop := IsNaN x ∧ x.getLsbD 22 = false

/-- The place of an FP32 encoding in the order of values, −0 below +0. -/
def order (x : Word) : Int := if x.getLsbD 31 then -((x.setWidth 31).toNat : Int) - 1 else (x.setWidth 31).toNat

/-- The state in which a floating-point instruction has written 32-bit elements and ORed flags into FLAGS. -/
def floats (s : State) (c : Ctx) (f : Fields) (g : Nat → Word) (fl : BitVec 5) : State :=
  after s c ((c.w.putWords f.d.toNat ((c.active f.guard).lanes.map fun l => (l, g l))).orFlags fl)

/-- The exact value of a number; 0 for a NaN and an infinity. -/
def real (x : Machine.Num) : ℚ := match x with | .fin s m e => (if s then -1 else 1) * (m : ℚ) * 2 ^ e | _ => 0

/-- A number is neither a NaN nor an infinity. -/
def Finite (x : Machine.Num) : Prop := match x with | .fin _ _ _ => True | _ => False

/-- A result is an exact value rounded once to a format, with the flags of the rounding. -/
def Rounded (f : FloatFmt) (r : Rounding) (sat ftz : Bool) (v : ℚ) (y : Nat × BitVec 5) : Prop :=
  ∃ (s : Bool) (m : Nat) (e : Int), real (.fin s m e) = v ∧ y = f.round r sat ftz { neg := s, m := m, e := e }

/-- The integer that a mode selects for a value (R80); under SR, the neighbour that the draw selects (R81). -/
def RoundsToInt (r : Rounding) (x : ℚ) (n : Int) : Prop :=
  match r.mode with
  | .rn => |x - n| ≤ 1 / 2 ∧ (|x - n| = 1 / 2 → n % 2 = 0)
  | .rz => |(n : ℚ)| ≤ |x| ∧ |x| < |(n : ℚ)| + 1 ∧ 0 ≤ x * n
  | .ru => x ≤ n ∧ (n : ℚ) < x + 1
  | .rd => (n : ℚ) ≤ x ∧ x < n + 1
  | .ra => |x - n| ≤ 1 / 2 ∧ (|x - n| = 1 / 2 → |x| < |(n : ℚ)|)
  | .sr => let k := ⌊|x|⌋; (|n| = if (r.draw : ℤ) < ⌊65536 * (|x| - k)⌋ then k + 1 else k) ∧ 0 ≤ x * n

/-- The flags that the lanes of an instruction set together. -/
def flagsOf (c : Ctx) (f : Fields) (r : Nat → Nat × BitVec 5) : BitVec 5 :=
  ((c.active f.guard).lanes.map fun l => (r l).2).foldl (fun a x => a ||| x) 0

end Sys2Proof.Claims

/-- R134, R136 to R143, R95: every floating-point instruction of fixed latency completes when it issues: it writes D in the active
lanes and ORs flags into FLAGS, and changes nothing else. FCVTI writes integers, and FCMP a mask register. -/
def Sys2Proof.Claims.FloatInstructionsComplete : Prop :=
  ∀ (s : State) (f : Fields) (c : Ctx),
    (∀ x ∈ [(Mnem.fadd, Instr.fadd f), (.fsub, .fsub f), (.fmul, .fmul f), (.ffma, .ffma f), (.fmin, .fmin f), (.fmax, .fmax f),
            (.fclass, .fclass f), (.frnd, .frnd f), (.fcvt, .fcvt f), (.icvtf, .icvtf f), (.fscl, .fscl f), (.pfadd, .pfadd f),
            (.pfmul, .pfmul f), (.pffma, .pffma f), (.fdot4, .fdot4 f)],
      Issues x.1 f s c → ∃ g fl, exec x.2 s = .next (floats s c f g fl)) ∧
    (Issues .fcvti f s c → ∃ (g : Nat → Nat) (fl : BitVec 5), exec (.fcvti f) s =
      .next (after s c ((c.w.putElems f.typeCode f.d.toNat ((c.active f.guard).lanes.map fun l => (l, g l))).orFlags fl))) ∧
    (Issues .fcmp f s c → ∃ (k : LaneMask) (fl : BitVec 5), (∀ l, l < 64 → (c.active f.guard).getLsbD l = false →
      k.getLsbD l = (c.w.m.get f.d.toNat).getLsbD l) ∧ exec (.fcmp f) s = .next (after s c ((c.w.setMask f.d.toNat k).orFlags fl)))

namespace Sys2Proof.Claims

/-- The sign of a number that is no NaN. -/
def negative (x : Machine.Num) : Bool := match x with | .fin s _ _ => s | .inf s => s | .nan _ => false

/-- The value of a sum of two numbers where it is no rounded nonzero number (R75, R79 (e), R88): NaN, infinity or zero, with the flags. -/
def SumSpecial (f : FloatFmt) (down : Bool) (p q : Machine.Num) (y : Nat × BitVec 5) : Prop :=
  let sign := fun (s : Bool) => if s then 2 ^ (f.bits - 1) else 0
  let inf := fun (s : Bool) => (sign s + f.maxCode + 1, (0 : BitVec 5))
  (∀ s, (p = .inf s ∧ (q = .inf s ∨ Finite q)) ∨ (q = .inf s ∧ Finite p) → y = inf s) ∧
  (∀ s, p = .inf s → q = .inf (!s) → y = (f.nanCode, 1)) ∧
  (Finite p → Finite q → real p + real q = 0 →
    y = (sign (if negative p = negative q then negative p else down), 0))

/-- The same of a product (R88). -/
def ProductSpecial (f : FloatFmt) (p q : Machine.Num) (y : Nat × BitVec 5) : Prop :=
  let sign := fun (s : Bool) => if s then 2 ^ (f.bits - 1) else 0
  let away := fun (x : Machine.Num) => ¬ Finite x ∨ real x ≠ 0
  (∀ s t, (p = .inf s ∧ negative q = t ∧ away q ∧ ∀ k, q ≠ .nan k) ∨ (q = .inf s ∧ negative p = t ∧ away p ∧ ∀ k, p ≠ .nan k) →
    y = (sign (s != t) + f.maxCode + 1, 0)) ∧
  (∀ s, (p = .inf s ∧ Finite q ∧ real q = 0) ∨ (q = .inf s ∧ Finite p ∧ real p = 0) → y = (f.nanCode, 1)) ∧
  (Finite p → Finite q → real p * real q = 0 → y = (sign (negative p != negative q), 0))

/-- The same of a product and an addend (R88, R136). -/
def FusedSpecial (f : FloatFmt) (down : Bool) (p q r : Machine.Num) (y : Nat × BitVec 5) : Prop :=
  let sign := fun (s : Bool) => if s then 2 ^ (f.bits - 1) else 0
  let inf := fun (s : Bool) => (sign s + f.maxCode + 1, (0 : BitVec 5))
  let t := negative p != negative q
  let away := fun (x : Machine.Num) => (∃ s, x = .inf s) ∨ (Finite x ∧ real x ≠ 0)
  let infinite := ((∃ s, p = .inf s) ∧ away q) ∨ ((∃ s, q = .inf s) ∧ away p)
  (∀ s, (p = .inf s ∧ Finite q ∧ real q = 0) ∨ (q = .inf s ∧ Finite p ∧ real p = 0) → y = (f.nanCode, 1)) ∧
  (infinite → r = .inf (!t) → y = (f.nanCode, 1)) ∧ (infinite → r = .inf t ∨ Finite r → y = inf t) ∧
  (∀ s, Finite p → Finite q → r = .inf s → y = inf s) ∧
  (Finite p → Finite q → Finite r → real p * real q = 0 → real r = 0 → y = (sign (if t = negative r then t else down), 0)) ∧
  (Finite p → Finite q → Finite r → real p * real q ≠ 0 → real p * real q + real r = 0 → y = (sign down, 0))

/-- What a conversion to a floating-point format gives for a NaN, an infinity or a zero, and in E8M0 for a negative number (R86). -/
def ConvertSpecial (f : FloatFmt) (sat : Bool) (x : Machine.Num) (y : Nat × BitVec 5) : Prop :=
  let sign := fun (s : Bool) => if s then 2 ^ (f.bits - 1) else 0
  (∀ g, x = .nan g → y = if f = .e2m1 then (0, 1) else (f.nanCode, if g then 1 else 0)) ∧
  (∀ s, x = .inf s → match f with
    | .e4m3 => y = if sat then (sign s + 0x7E, 0) else (0x7F, 1)
    | .e2m1 => y = (sign s + 7, if sat then 0 else 4)
    | .e8m0 => y = if s then (0xFF, 1) else if sat then (0xFE, 0) else (0xFF, 4)
    | _ => y = (sign s + f.maxCode + 1, 0)) ∧
  (Finite x → real x = 0 → y = if f = .e8m0 then (0xFF, 1) else (sign (negative x), 0)) ∧
  (Finite x → real x < 0 → f = .e8m0 → y = (0xFF, 1))

end Sys2Proof.Claims

/-- R86, R88, R79 (e), R136, R140 to R143: what the floating-point instructions give for infinities, products of an infinity and a zero, and exact
zeros: in each active lane NaN with IV, the infinity or the zero of its sign without a flag (also under SAT), and the results of R86 for a
conversion; FRND keeps an infinity and the sign; FDOT4 by the terms of its sum. -/
def Sys2Proof.Claims.FloatSpecials : Prop :=
  ∀ (s : State) (f : Fields) (c : Ctx),
    let a := fun l => fp32 (c.w.elem f.a.toNat l)
    let b := fun l => fp32 (bFloat c.w f l)
    let x := fun l => fp32 (c.w.elem f.c.toNat l)
    let src := fun l => (FloatFmt.ofCode f.srcCode).value (c.w.elem f.a.toNat l).toNat
    let dst := FloatFmt.ofCode f.typeCode
    let down := decide (f.rnd = .rd)
    let writes := fun (m : Mnem) (i : Instr) (good : Nat → Nat × BitVec 5 → Prop) => Issues m f s c →
      ∃ r : Nat → Nat × BitVec 5, exec i s = .next (floats s c f (fun l => BitVec.ofNat 32 (r l).1) (flagsOf c f r)) ∧
        ∀ l, Active c f l → good l (r l)
    let byte := fun (w : Word) (j : Nat) => (FloatFmt.ofCode f.srcCode).value (w.extractLsb' (8 * j) 8).toNat
    let half := fun (w : Word) (j : Nat) => dst.value (w.extractLsb' (16 * j) 16).toNat
    let packed := fun (m : Mnem) (i : Instr) (g : Machine.Num → Machine.Num → Machine.Num → Nat × BitVec 5 → Prop) => writes m i fun l y =>
      ∃ p : Nat → Nat × BitVec 5, y.1 = (p 0).1 + 65536 * (p 1).1 ∧ y.2 = (p 0).2 ||| (p 1).2 ∧ ∀ j, j < 2 →
        g (half (c.w.elem f.a.toNat l) j) (half (bWord c.w f l) j) (half (c.w.elem f.c.toNat l) j) (p j)
    let sixteen := dst = .fp16 ∨ dst = .bf16
    writes .fadd (.fadd f) (fun l y => SumSpecial .fp32 down (a l) (b l) y) ∧
    writes .fsub (.fsub f) (fun l y => SumSpecial .fp32 down (a l) (b l).negate y) ∧
    writes .fmul (.fmul f) (fun l y => ProductSpecial .fp32 (a l) (b l) y) ∧
    writes .ffma (.ffma f) (fun l y => FusedSpecial .fp32 down (a l) (b l) (x l) y) ∧
    writes .fscl (.fscl f) (fun l y => (¬ Finite (a l) ∨ real (a l) = 0) → (∀ k, a l ≠ .nan k) → y = ((c.w.elem f.a.toNat l).toNat, 0)) ∧
    writes .frnd (.frnd f) (fun l y => (∀ k, a l ≠ .nan k) → (2 ^ 31 ≤ y.1 ↔ negative (a l) = true) ∧
      (¬ Finite (a l) → y = ((c.w.elem f.a.toNat l).toNat, 0))) ∧
    (sixteen → packed .pfadd (.pfadd f) (fun p q _ y => SumSpecial dst down p q y) ∧
      packed .pfmul (.pfmul f) (fun p q _ y => ProductSpecial dst p q y) ∧
      packed .pffma (.pffma f) (fun p q r y => FusedSpecial dst down p q r y)) ∧
    writes .fdot4 (.fdot4 f) (fun l y =>
      let p := byte (c.w.elem f.a.toNat l)
      let q := byte (c.w.elem f.b.toNat l)
      (∀ j t, j < 4 → (p j = .inf t ∧ Finite (q j) ∧ real (q j) = 0) ∨ (q j = .inf t ∧ Finite (p j) ∧ real (p j) = 0) →
        y.1 = 0x7FC00000 ∧ y.2.getLsbD 0 = true) ∧
      (∀ t, (∀ j, j < 4 → Finite (p j) ∧ Finite (q j)) → x l = .inf t → y = (if t then 0xFF800000 else 0x7F800000, 0))) ∧
    writes .fcvt (.fcvt f) (fun l y => ConvertSpecial dst f.sat (src l) y) ∧
    writes .icvtf (.icvtf f) (fun l y => let v := typedValue f.srcCode (c.w.rawElem f.srcCode f.a.toNat l)
      (v = 0 → y = if dst = .e8m0 then (0xFF, 1) else (0, 0)) ∧ (v < 0 → dst = .e8m0 → y = (0xFF, 1))) ∧
    (Issues .fcvti f s c → ∃ r : Nat → Int × BitVec 5,
      exec (.fcvti f) s = .next (after s c ((c.w.putElems f.typeCode f.d.toNat
        ((c.active f.guard).lanes.map fun l => (l, bitsOf f.typeCode (r l).1))).orFlags (flagsOf c f fun l => (0, (r l).2)))) ∧
      ∀ l, Active c f l → (∀ k, src l = .nan k → r l = (0, 1)) ∧ ∀ t, src l = .inf t → r l = (if t then low f.typeCode else high f.typeCode, 1))

/-- R91, R130, R94: REDL and SCANL by steps, whatever the operator: inactive lanes enter with the identity; REDL combines at each distance 32, 16,
.., 1 the pair of lanes, the lower first, and SCANL at 1, 2, .., 32 each lane with the one that far below; X = 1 moves the prefixes up by one lane.
Both OR the flags of the reduction tree's operations into FLAGS (for SCANL: log 24). -/
def Sys2Proof.Claims.ReductionSteps : Prop :=
  ∀ (s : State) (f : Fields) (c : Ctx) (v u : Nat → Nat → Nat),
    let op := laneOperator f c.w.ftz
    let start := fun (l : Nat) => if (c.active f.guard).getLsbD l then c.w.rawElem f.typeCode f.a.toNat l else laneIdentity f
    let pair := fun (k l : Nat) => op (v k (min l (l ^^^ (32 / 2 ^ k)))) (v k (max l (l ^^^ (32 / 2 ^ k))))
    (∀ l, l < 64 → v 0 l = start l ∧ u 0 l = start l) → (∀ k l, k < 6 → l < 64 → v (k + 1) l = (pair k l).1) →
    (∀ k l, k < 6 → l < 64 → u (k + 1) l = if l < 2 ^ k then u k l else (op (u k (l - 2 ^ k)) (u k l)).1) →
    let fl := ((List.range 6).flatMap fun k => (List.range 64).map fun l => (pair k l).2).foldl (fun x y => x ||| y) 0
    let result := fun (g : Nat → Nat) => Host.Outcome.next (after s c ((c.w.putElems f.typeCode f.d.toNat
      ((c.active f.guard).lanes.map fun l => (l, g l))).orFlags fl))
    (Issues .redl f s c → exec (.redl f) s = result (v 6)) ∧
    (Issues .scanl f s c → exec (.scanl f) s = result fun l => if f.x then (if l = 0 then laneIdentity f else u 6 (l - 1)) else u 6 l)

/-- R130, R72, R79, R137: what the operators of REDL and SCANL give on the bits of two elements, their flags, and their identities. -/
def Sys2Proof.Claims.LaneOperators : Prop :=
  (∀ (f : Fields) (ftz : Bool) (a b : Nat),
    let t := f.typeCode
    let v := fun (x : Nat) => typedValue t x
    let y := laneOperator f ftz a b
    a < 2 ^ intBits t → b < 2 ^ intBits t →
    (f.sub = 3 → y = (bitsOf t (if f.sat then clamped t (v a + v b) else v a + v b), 0)) ∧
    (f.sub = 4 → f.sat = false → y = (if v b < v a then b else a, 0)) ∧ (f.sub = 5 → f.sat = false → y = (if v a < v b then b else a, 0)) ∧
    (f.sub = 6 → y = (a &&& b, 0)) ∧ (f.sub = 7 → y = (a ||| b, 0)) ∧ (f.sub = 8 → y = (a ^^^ b, 0))) ∧
  (∀ (f : Fields) (ftz : Bool) (a b : Word),
    let y := laneOperator f ftz a.toNat b.toNat
    let iv : BitVec 5 := if IsSignalling a ∨ IsSignalling b then 1 else 0
    let least := fun (less : Bool) => if IsNaN a ∧ IsNaN b then 0x7FC00000 else if IsNaN a then b.toNat else if IsNaN b then a.toNat
      else if (if less then order b < order a else order a < order b) then b.toNat else a.toNat
    (f.sub = 0 → (IsNaN a ∨ IsNaN b → y = (0x7FC00000, iv)) ∧ SumSpecial .fp32 (decide (f.rnd = .rd)) (fp32 a) (fp32 b) y ∧
      (Finite (fp32 a) → Finite (fp32 b) → Rounded .fp32 { mode := f.rnd } false ftz (real (fp32 a) + real (fp32 b)) y)) ∧
    (f.sub = 1 → y = (least true, iv)) ∧ (f.sub = 2 → y = (least false, iv))) ∧
  ∀ f : Fields,
    let t := f.typeCode
    (f.sub = 0 → laneIdentity f = 0x80000000) ∧ (f.sub = 1 → laneIdentity f = 0x7F800000) ∧ (f.sub = 2 → laneIdentity f = 0xFF800000) ∧
    (f.sub = 3 ∨ f.sub = 7 ∨ f.sub = 8 → laneIdentity f = 0) ∧ (f.sub = 4 → laneIdentity f = bitsOf t (high t)) ∧
    (f.sub = 5 → laneIdentity f = bitsOf t (low t)) ∧ (f.sub = 6 → laneIdentity f = 2 ^ intBits t - 1)

/-- Shuffles take the source lane; REDL and SCANL by steps, with the value of each operator. The parts: `Shuffles`, `IntegerReductions`,
`ReductionsComplete`, `ReductionSteps`, `LaneOperators`. The model's choices in it, not the spec's: log 24, 131. -/
def Obligations.ShufflesAndReductions : Prop :=
  Sys2Proof.Claims.Shuffles ∧
  Sys2Proof.Claims.IntegerReductions ∧
  Sys2Proof.Claims.ReductionsComplete ∧
  Sys2Proof.Claims.ReductionSteps ∧
  Sys2Proof.Claims.LaneOperators

namespace Sys2Proof.Claims

/-- An operand is a NaN; a signalling one. -/
def NaNAmong (xs : List Machine.Num) : Prop := ∃ k, .nan k ∈ xs
def SignallingAmong (xs : List Machine.Num) : Prop := .nan true ∈ xs

/-- One operand is an infinity, and the other a zero. -/
def InfTimesZero (p q : Machine.Num) : Prop := ∃ s, (p = .inf s ∧ Finite q ∧ real q = 0) ∨ (q = .inf s ∧ Finite p ∧ real p = 0)

/-- The canonical NaN, with IV where `iv` says so and no other flag. -/
def IsNaNWith (f : FloatFmt) (iv : Prop) (y : Nat × BitVec 5) : Prop := y.1 = f.nanCode ∧ (iv → y.2 = 1) ∧ (¬ iv → y.2 = 0)

end Sys2Proof.Claims

/-- R75, R136, R140, R142, R143, R88: in every active lane a NaN operand of a sum, product, scaling or rounding makes the lane's result, or that half
of a packed one, the canonical NaN of the format; IV for a signalling NaN, and for the product of an infinity and a zero even where the addend is a
quiet NaN; else no flag. FDOT4 does the same for its four products and the addend, unless its terms hold infinities of both signs (R88). -/
def Sys2Proof.Claims.FloatNaNOperands : Prop :=
  ∀ (s : State) (f : Fields) (c : Ctx),
    let a := fun l => fp32 (c.w.elem f.a.toNat l)
    let b := fun l => fp32 (bFloat c.w f l)
    let x := fun l => fp32 (c.w.elem f.c.toNat l)
    let dst := FloatFmt.ofCode f.typeCode
    let byte := fun (w : Word) (j : Nat) => (FloatFmt.ofCode f.srcCode).value (w.extractLsb' (8 * j) 8).toNat
    let half := fun (w : Word) (j : Nat) => dst.value (w.extractLsb' (16 * j) 16).toNat
    let writes := fun (m : Mnem) (i : Instr) (good : Nat → Nat × BitVec 5 → Prop) => Issues m f s c →
      ∃ r : Nat → Nat × BitVec 5, exec i s = .next (floats s c f (fun l => BitVec.ofNat 32 (r l).1) (flagsOf c f r)) ∧
        ∀ l, Active c f l → good l (r l)
    let packed := fun (m : Mnem) (i : Instr) (operands : Machine.Num → Machine.Num → Machine.Num → List Machine.Num) (fused : Bool) =>
      writes m i fun l y => ∃ p : Nat → Nat × BitVec 5, y.1 = (p 0).1 + 65536 * (p 1).1 ∧ y.2 = (p 0).2 ||| (p 1).2 ∧ ∀ j, j < 2 →
        let u := half (c.w.elem f.a.toNat l) j
        let v := half (bWord c.w f l) j
        let xs := operands u v (half (c.w.elem f.c.toNat l) j)
        NaNAmong xs → IsNaNWith dst (SignallingAmong xs ∨ (fused = true ∧ InfTimesZero u v)) (p j)
    (∀ i ∈ [(Mnem.fadd, Instr.fadd f), (.fsub, .fsub f), (.fmul, .fmul f)], writes i.1 i.2 fun l y =>
      NaNAmong [a l, b l] → IsNaNWith .fp32 (SignallingAmong [a l, b l]) y) ∧
    writes .ffma (.ffma f) (fun l y => NaNAmong [a l, b l, x l] →
      IsNaNWith .fp32 (SignallingAmong [a l, b l, x l] ∨ InfTimesZero (a l) (b l)) y) ∧
    (∀ i ∈ [(Mnem.fscl, Instr.fscl f), (.frnd, .frnd f)], writes i.1 i.2 fun l y => ∀ k, a l = .nan k → IsNaNWith .fp32 (k = true) y) ∧
    (dst = .fp16 ∨ dst = .bf16 → packed .pfadd (.pfadd f) (fun u v _ => [u, v]) false ∧ packed .pfmul (.pfmul f) (fun u v _ => [u, v]) false ∧
      packed .pffma (.pffma f) (fun u v z => [u, v, z]) true) ∧
    writes .fdot4 (.fdot4 f) fun l y =>
      let p := byte (c.w.elem f.a.toNat l)
      let q := byte (c.w.elem f.b.toNat l)
      let zeroTimes := ∃ j, j < 4 ∧ InfTimesZero (p j) (q j)
      let infinite := fun (t : Bool) => x l = .inf t ∨ ∃ j, j < 4 ∧ ((∃ u, p j = .inf u) ∨ ∃ u, q j = .inf u) ∧ (negative (p j) != negative (q j)) = t
      NaNAmong (x l :: ((List.range 4).map p ++ (List.range 4).map q)) → ¬ (infinite true ∧ infinite false) →
        IsNaNWith .fp32 (x l = .nan true ∨ zeroTimes) y

/-- R79, R82, R136, R140 to R143, R83 to R86, R92, R95: the values of the floating-point results. In every active lane with finite operands
the exact sum, difference, product, scaled or dot product, or the exact source of a conversion, is rounded once to the destination
format under RND, SAT and FLAGS.FTZ, and each half of a packed element on its own; FRND and FCVTI select an integer, IX marks that it
differs, and FCVTI clamps an integer out of its type's range with IV alone. FLAGS take the flags of every active lane. -/
def Sys2Proof.Claims.FloatValues : Prop :=
  ∀ (s : State) (f : Fields) (c : Ctx),
    let a := fun l => fp32 (c.w.elem f.a.toNat l)
    let b := fun l => fp32 (bFloat c.w f l)
    let x := fun l => fp32 (c.w.elem f.c.toNat l)
    let src := fun l => (FloatFmt.ofCode f.srcCode).value (c.w.elem f.a.toNat l).toNat
    let writes := fun (m : Mnem) (i : Instr) (good : Nat → Nat × BitVec 5 → Prop) => Issues m f s c →
      ∃ r : Nat → Nat × BitVec 5, exec i s = .next (floats s c f (fun l => BitVec.ofNat 32 (r l).1) (flagsOf c f r)) ∧
        ∀ l, Active c f l → good l (r l)
    let one := fun (l : Nat) (v : ℚ) (y : Nat × BitVec 5) => Rounded .fp32 (roundingOf f c.w l) f.sat c.w.ftz v y
    let byte := fun (w : Word) (j : Nat) => (FloatFmt.ofCode f.srcCode).value (w.extractLsb' (8 * j) 8).toNat
    let half := fun (w : Word) (j : Nat) => (FloatFmt.ofCode f.typeCode).value (w.extractLsb' (16 * j) 16).toNat
    let packed := fun (m : Mnem) (i : Instr) (three : Bool) (g : ℚ → ℚ → ℚ → ℚ) => writes m i fun l y =>
      ∃ p : Nat → Nat × BitVec 5, y.1 = (p 0).1 + 65536 * (p 1).1 ∧ y.2 = (p 0).2 ||| (p 1).2 ∧ ∀ j, j < 2 →
        Finite (half (c.w.elem f.a.toNat l) j) → Finite (half (bWord c.w f l) j) → (three = true → Finite (half (c.w.elem f.c.toNat l) j)) →
        Rounded (FloatFmt.ofCode f.typeCode) (roundingOf f c.w (2 * l + j)) f.sat c.w.ftz
          (g (real (half (c.w.elem f.a.toNat l) j)) (real (half (bWord c.w f l) j)) (real (half (c.w.elem f.c.toNat l) j))) (p j)
    writes .fadd (.fadd f) (fun l y => Finite (a l) → Finite (b l) → one l (real (a l) + real (b l)) y) ∧
    writes .fsub (.fsub f) (fun l y => Finite (a l) → Finite (b l) → one l (real (a l) - real (b l)) y) ∧
    writes .fmul (.fmul f) (fun l y => Finite (a l) → Finite (b l) → one l (real (a l) * real (b l)) y) ∧
    writes .ffma (.ffma f) (fun l y => Finite (a l) → Finite (b l) → Finite (x l) → one l (real (a l) * real (b l) + real (x l)) y) ∧
    writes .fscl (.fscl f) (fun l y => Finite (a l) → one l (real (a l) * 2 ^ (bWord c.w f l).toInt) y) ∧
    writes .fdot4 (.fdot4 f) (fun l y => (∀ j, j < 4 → Finite (byte (c.w.elem f.a.toNat l) j) ∧ Finite (byte (c.w.elem f.b.toNat l) j)) →
      Finite (x l) →
      one l (((List.range 4).map fun j => real (byte (c.w.elem f.a.toNat l) j) * real (byte (c.w.elem f.b.toNat l) j)).sum + real (x l)) y) ∧
    packed .pfadd (.pfadd f) false (fun a b _ => a + b) ∧ packed .pfmul (.pfmul f) false (fun a b _ => a * b) ∧
    packed .pffma (.pffma f) true (fun a b x => a * b + x) ∧
    writes .fcvt (.fcvt f) (fun l y => Finite (src l) → (FloatFmt.ofCode f.typeCode ≠ .e8m0 ∨ 0 < real (src l)) →
      Rounded (FloatFmt.ofCode f.typeCode) (roundingOf f c.w l) f.sat c.w.ftz (real (src l)) y) ∧
    writes .icvtf (.icvtf f) (fun l y =>
      let v := typedValue f.srcCode (c.w.rawElem f.srcCode f.a.toNat l)
      (FloatFmt.ofCode f.typeCode ≠ .e8m0 ∨ 0 < v) → Rounded (FloatFmt.ofCode f.typeCode) (roundingOf f c.w l) f.sat c.w.ftz v y) ∧
    writes .frnd (.frnd f) (fun l y => Finite (a l) → ∃ n : Int, RoundsToInt (roundingOf f c.w l) (real (a l)) n ∧
      real (FloatFmt.fp32.value y.1) = n ∧ y.2 = if (n : ℚ) = real (a l) then 0 else 16) ∧
    (Issues .fcvti f s c → ∃ r : Nat → Int × BitVec 5,
      exec (.fcvti f) s = .next (after s c ((c.w.putElems f.typeCode f.d.toNat
        ((c.active f.guard).lanes.map fun l => (l, bitsOf f.typeCode (r l).1))).orFlags (flagsOf c f fun l => (0, (r l).2)))) ∧
      ∀ l, Active c f l → Finite (src l) → ∃ n : Int, RoundsToInt (roundingOf f c.w l) (real (src l)) n ∧ (r l).1 = clamped f.typeCode n ∧
        (r l).2 = if clamped f.typeCode n ≠ n then 1
          else if (n : ℚ) = real (src l) ∨ (f.typeCode % 2 = 1 ∧ n = 0 ∧ real (src l) < 0) then 0 else 16)

/-- Fixed-latency floating-point instructions: completion, exact values rounded once, and special operands. The parts:
`FloatInstructionsComplete`, `FloatNaNOperands`, `FloatValues`, `FloatSpecials`. The model's choices in it, not the spec's: log 106. -/
def Obligations.FloatResults : Prop :=
  Sys2Proof.Claims.FloatInstructionsComplete ∧
  Sys2Proof.Claims.FloatNaNOperands ∧
  Sys2Proof.Claims.FloatValues ∧
  Sys2Proof.Claims.FloatSpecials

/-- R137: FMIN and FMAX give the lesser and the greater operand, −0 below +0; the other operand for one NaN and the canonical NaN for
two; IV for a signalling NaN, and no other flag. -/
def Sys2Proof.Claims.FloatLeastGreatest : Prop :=
  ∀ (s : State) (f : Fields) (c : Ctx) (less : Bool) (i : Mnem × Instr),
    i = (if less then (.fmin, .fmin f) else (.fmax, .fmax f)) → Issues i.1 f s c →
    let a := fun l => c.w.elem f.a.toNat l
    let b := fun l => bFloat c.w f l
    ∃ g fl, exec i.2 s = .next (floats s c f g fl) ∧
      (fl = 0 ∨ fl = 1) ∧ (fl = 1 ↔ ∃ l, Active c f l ∧ (IsSignalling (a l) ∨ IsSignalling (b l))) ∧
      ∀ l, Active c f l →
        (IsNaN (a l) ∧ IsNaN (b l) → g l = 0x7FC00000) ∧ (IsNaN (a l) ∧ ¬ IsNaN (b l) → g l = b l) ∧
        (¬ IsNaN (a l) ∧ IsNaN (b l) → g l = a l) ∧
        (¬ IsNaN (a l) ∧ ¬ IsNaN (b l) → g l = if (if less then order (b l) < order (a l) else order (a l) < order (b l)) then b l else a l)

/-- R138: FCMP's predicates, which −0 and +0 satisfy as equals, with a NaN false for all but `.ne` and `.uno`; inactive lanes keep their
bit, and IV alone is set, for a signalling NaN. -/
def Sys2Proof.Claims.FloatCompare : Prop :=
  ∀ (s : State) (f : Fields) (c : Ctx), Issues .fcmp f s c → f.sub.toNat ≤ 7 →
    let a := fun l => c.w.elem f.a.toNat l
    let b := fun l => bFloat c.w f l
    let v := fun (x : Word) => if x.getLsbD 31 then -((x.setWidth 31).toNat : Int) else (x.setWidth 31).toNat
    let holds := fun (x y : Word) =>
      if IsNaN x ∨ IsNaN y then f.sub = 1 ∨ f.sub = 7
      else (f.sub = 0 ∧ v x = v y) ∨ (f.sub = 1 ∧ v x ≠ v y) ∨ (f.sub = 2 ∧ v x < v y) ∨ (f.sub = 3 ∧ v x ≤ v y) ∨
        (f.sub = 4 ∧ v y < v x) ∨ (f.sub = 5 ∧ v y ≤ v x) ∨ f.sub = 6
    ∃ (k : LaneMask) (fl : BitVec 5), exec (.fcmp f) s = .next (after s c ((c.w.setMask f.d.toNat k).orFlags fl)) ∧
      (fl = 0 ∨ fl = 1) ∧ (fl = 1 ↔ ∃ l, Active c f l ∧ (IsSignalling (a l) ∨ IsSignalling (b l))) ∧
      ∀ l, l < 64 → (((c.active f.guard).getLsbD l = false → k.getLsbD l = (c.w.m.get f.d.toNat).getLsbD l) ∧
        ((c.active f.guard).getLsbD l = true → (k.getLsbD l = true ↔ holds (a l) (b l))))

/-- FMIN, FMAX and FCMP. The parts: `FloatLeastGreatest`, `FloatCompare`. -/
def Obligations.FloatOrder : Prop :=
  Sys2Proof.Claims.FloatLeastGreatest ∧
  Sys2Proof.Claims.FloatCompare

/-- R139: FCLASS sets exactly the bit of the operand's class and no flag, whatever FTZ is. It takes type 000 alone. -/
def Obligations.FloatClass : Prop :=
  (∀ (s : State) (f : Fields) (c : Ctx), Issues .fclass f s c →
    ∃ k : Nat → Nat, exec (.fclass f) s = .next (floats s c f (fun l => BitVec.ofNat 32 (2 ^ k l)) 0) ∧
      ∀ l, Active c f l →
        let x := c.w.elem f.a.toNat l
        let e := x.extractLsb' 23 8
        let m := x.extractLsb' 0 23
        let neg := x.getLsbD 31
        (e = 255 ∧ m = 0 → k l = if neg then 0 else 7) ∧ (e = 255 ∧ m ≠ 0 → k l = if x.getLsbD 22 then 9 else 8) ∧
        (e = 0 ∧ m = 0 → k l = if neg then 3 else 4) ∧ (e = 0 ∧ m ≠ 0 → k l = if neg then 2 else 5) ∧
        (e ≠ 0 ∧ e ≠ 255 → k l = if neg then 1 else 6)) ∧
  (∀ f : Fields, f.mod ≠ 0 → Mnem.fclass.illegal f ≠ none) ∧ Mnem.fclass.spec.op = 0x87

/-- R73, R79, R80: an FP32 value that is representable is delivered unchanged and without a flag under every rounding: the value of
every encoding but a NaN rounds to that encoding. -/
def Obligations.FloatRoundTrip : Prop :=
  ∀ (x : Word) (r : Rounding) (sat : Bool), ¬ IsNaN x → FloatFmt.fp32.deliver r sat false (fp32 x) = (x.toNat, 0)

/-- R79 to R82, R86, R93: the rounding of a nonzero exact value to a format with a sign. At or below the format's maximum the result is
finite, keeps the sign, and is the neighbour that the mode selects, ties as R80 says, and under SR the one that the draw selects:
the greater when the draw is below the fraction in 2^16ths; IX marks that it differs, UF comes with IX alone, and no other flag. The
draw of an element is bits 31:16 of word x0 after ten CRNG rounds from the element and the seed, under RNGKEY (R81). From twice the
maximum on it is an infinity or the maximum with OF and IX, and under SAT the maximum with IX. FTZ makes a subnormal result a zero
of its sign with UF and IX in FP32, FP16 and BF16, and does nothing in the others. E8M0 holds every power of 2 from −127 to 127. The
model's choices in it, not the spec's: log 25, 106. -/
def Obligations.FloatRounding : Prop :=
  (∀ (f : FloatFmt) (r : Rounding) (sat ftz : Bool) (x : Exact), f ≠ .e8m0 → x.m ≠ 0 → x.sticky = false →
    let v := real (.fin x.neg x.m x.e)
    let val := fun (k : Nat) => real (f.value k)
    let isFinite := fun (k : Nat) => k < 2 ^ f.bits ∧ Finite (f.value k)
    let top := val f.maxCode
    let sign := if x.neg then 2 ^ (f.bits - 1) else 0
    let y := f.round r sat false x
    (|v| ≤ top → isFinite y.1 ∧ 0 ≤ val y.1 * v ∧ (y.2.getLsbD 4 = true ↔ val y.1 ≠ v) ∧ y.2.extractLsb' 0 3 = 0 ∧
      (y.2.getLsbD 3 = true → y.2.getLsbD 4 = true) ∧
      match r.mode with
      | .rn => ∀ k, isFinite k → |v - val y.1| ≤ |v - val k| ∧ (|v - val k| = |v - val y.1| → val k ≠ val y.1 → y.1 % 2 = 0)
      | .ra => ∀ k, isFinite k → |v - val y.1| ≤ |v - val k| ∧ (|v - val k| = |v - val y.1| → |val k| ≤ |val y.1|)
      | .rz => |val y.1| ≤ |v| ∧ ∀ k, isFinite k → |val k| ≤ |v| → |val k| ≤ |val y.1|
      | .ru => v ≤ val y.1 ∧ ∀ k, isFinite k → v ≤ val k → val y.1 ≤ val k
      | .rd => val y.1 ≤ v ∧ ∀ k, isFinite k → val k ≤ v → val k ≤ val y.1
      | .sr => (∀ k, isFinite k → val k = v → val y.1 = v) ∧ ∀ a b, isFinite a → isFinite b → 0 ≤ val a * v → 0 ≤ val b * v →
          |val a| < |v| → |v| < |val b| → (∀ k, isFinite k → 0 ≤ val k * v → |val k| ≤ |val a| ∨ |val b| ≤ |val k|) →
          val y.1 = if (r.draw : ℤ) < ⌊65536 * ((|v| - |val a|) / (|val b| - |val a|))⌋ then val b else val a) ∧
    (2 * top ≤ |v| →
      f.round r true ftz x = (sign + f.maxCode, 16) ∧
      (f ∈ [FloatFmt.fp32, .fp16, .bf16, .e5m2] → r.mode ≠ .sr → f.round r false ftz x =
        (sign + if r.mode = .rn ∨ r.mode = .ra ∨ (r.mode = .ru ∧ x.neg = false) ∨ (r.mode = .rd ∧ x.neg = true)
          then f.maxCode + 1 else f.maxCode, 20))) ∧
    (f ∈ [FloatFmt.fp32, .fp16, .bf16] → |v| ≤ val (2 ^ f.frac - 1) → f.round r sat true x = (sign, 24)) ∧
    (f ∈ [FloatFmt.e4m3, .e5m2, .e2m1] → f.round r sat true x = y)) ∧
  (∀ (r : Rounding) (sat ftz : Bool) (k : Nat), k < 255 →
    FloatFmt.e8m0.round r sat ftz { neg := false, m := 1, e := (k : Int) - 127 } = (k, 0)) ∧
  ∀ (f : Fields) (w : Warp) (e : Nat), (roundingOf f w e).mode = f.rnd ∧ (f.rnd = .sr →
    let key := fun (i : Nat) => w.rngkey.extractLsb' (32 * i) 32
    ∀ x : Nat → CrngState, x 0 = { x0 := BitVec.ofNat 32 (e + f.lit.toNat), x1 := 0, x2 := 0, x3 := 0, k0 := key 0, k1 := key 1 } → (∀ i, i < 10 → x (i + 1) = (x i).round) →
    (roundingOf f w e).draw = ((x 10).x0.extractLsb' 16 16).toNat)

/-- R144 to R147, R54: a special function reads its operands, FTZ and, in the .T form, TOL at issue and starts with the results of the
active lanes: the fixed form's under RND, or the .T form's at the precision of TOL and the latched class entry; an empty active set
completes at once. -/
def Sys2Proof.Claims.SpecialFunctionsStart : Prop :=
  ∀ (s : State) (f : Fields) (c : Ctx) (x : SpecialFn × Mnem × Instr × Bool),
    x ∈ [(.rcp, .rcp, .rcp f, false), (.rsq, .rsq, .rsq f, false), (.sqrt, .sqrt, .sqrt f, false), (.exp2, .exp2, .exp2 f, false),
         (.log2, .log2, .log2 f, false), (.sin, .sin, .sin f, false), (.cos, .cos, .cos f, false), (.rcp, .rcpT, .rcpT f, true),
         (.rsq, .rsqT, .rsqT f, true), (.sqrt, .sqrtT, .sqrtT f, true), (.exp2, .exp2T, .exp2T f, true), (.log2, .log2T, .log2T f, true),
         (.sin, .sinT, .sinT f, true), (.cos, .cosT, .cosT f, true)] → Issues x.2.1 f s c →
    let e := c.active f.guard
    let one := fun (l : Nat) =>
      if x.2.2.2 then x.1.tolerant (tolerantBits c.b c.w.tol.toNat) f.sat c.w.ftz (c.w.elem f.a.toNat l)
      else x.1.fixed { mode := f.rnd } f.sat c.w.ftz (c.w.elem f.a.toNat l)
    let body := OpBody.sfu f.d.toNat (e.lanes.map fun l => (l, BitVec.ofNat 32 (one l).1)) (flagsOf c f one)
    (e = 0 → exec x.2.2.1 s = .next { s with sys := s.sys.completedOp c id }) ∧
    (e ≠ 0 → exec x.2.2.1 s = .next { s with sys := s.sys.startOp c x.2.1 (flagOf x.2.1 c) body })

/-- R146: the precision q of a .T form, from TOL and the class entry: 24 for a spawn block, under FORCE, for a class that is not ITER
and where no count of iterations up to 15 suffices. At 24 the .T form is the fixed form under RN; below, the value has a relative error
of at most 2^−q before its rounding to FP32 under RN. A NaN, an infinity and a zero give the same in both forms. -/
def Sys2Proof.Claims.PrecisionForms : Prop :=
  (∀ (b : Block) (w : Nat),
    let e := b.entry
    let own := min 1023 (w % 1024 + e.uOwn)
    let enough := fun (n : Nat) => own ≤ 16 * (e.init + n * e.gain - 2) ∧ 2 ≤ e.init + n * e.gain
    (b.spawn = true ∨ w.testBit 13 = true ∨ e.kind ≠ 2 → tolerantBits b w = 24) ∧
    (b.spawn = false → w.testBit 13 = false → e.kind = 2 → (∀ n, n < 16 → ¬ enough n) → tolerantBits b w = 24) ∧
    (b.spawn = false → w.testBit 13 = false → e.kind = 2 → ∀ n, n < 16 → enough n → (∀ k, k < n → ¬ enough k) →
      tolerantBits b w = max 1 (min 24 (e.init + n * e.gain - 2)))) ∧
  (∀ (fn : SpecialFn) (q : Nat) (sat ftz : Bool) (x : Word),
    fn.tolerant 24 sat ftz x = fn.fixed nearest sat ftz x ∧
    (x.extractLsb' 23 8 = 255 ∨ x.setWidth 31 = 0 → fn.tolerant q sat ftz x = fn.fixed nearest sat ftz x) ∧
    ∀ y : Exact, fn.at x = .value y → 0 < y.m → 0 < q → q < 24 → ∃ (m : Nat) (e : Int), m ≤ 2 ^ q ∧
      |real (.fin false m e) - real (.fin false y.m y.e)| * 2 ^ q ≤ real (.fin false y.m y.e) ∧
      (fn.tolerant q sat ftz x).1 = (FloatFmt.fp32.round nearest sat ftz { neg := y.neg, m := m, e := e }).1)

/-- R145: the results and flags of the special operands of the special functions, under every rounding mode, SAT and FTZ. -/
def Sys2Proof.Claims.SpecialOperands : Prop :=
  ∀ (r : Rounding) (sat ftz : Bool) (x : SpecialFn × Word × Nat × BitVec 5),
    x ∈ [(.rcp, 0x00000000, 0x7F800000, 2), (.rcp, 0x80000000, 0xFF800000, 2), (.rcp, 0x7F800000, 0, 0),
         (.rcp, 0xFF800000, 0x80000000, 0), (.rsq, 0x00000000, 0x7F800000, 2), (.rsq, 0x80000000, 0xFF800000, 2),
         (.rsq, 0x7F800000, 0, 0), (.rsq, 0xFF800000, 0x7FC00000, 1), (.rsq, 0xBF800000, 0x7FC00000, 1),
         (.sqrt, 0x00000000, 0, 0), (.sqrt, 0x80000000, 0x80000000, 0), (.sqrt, 0x7F800000, 0x7F800000, 0),
         (.sqrt, 0xFF800000, 0x7FC00000, 1), (.sqrt, 0x80000001, 0x7FC00000, 1),
         (.exp2, 0x00000000, 0x3F800000, 0), (.exp2, 0x80000000, 0x3F800000, 0), (.exp2, 0x7F800000, 0x7F800000, 0),
         (.exp2, 0xFF800000, 0, 0), (.log2, 0x00000000, 0xFF800000, 2), (.log2, 0x80000000, 0xFF800000, 2),
         (.log2, 0x7F800000, 0x7F800000, 0), (.log2, 0xFF800000, 0x7FC00000, 1), (.log2, 0xBF800000, 0x7FC00000, 1),
         (.log2, 0x3F800000, 0, 0), (.sin, 0x00000000, 0, 0), (.sin, 0x80000000, 0x80000000, 0),
         (.sin, 0x7F800000, 0x7FC00000, 1), (.sin, 0xFF800000, 0x7FC00000, 1), (.cos, 0x00000000, 0x3F800000, 0),
         (.cos, 0x80000000, 0x3F800000, 0), (.cos, 0x7F800000, 0x7FC00000, 1), (.cos, 0xFF800000, 0x7FC00000, 1),
         (.rcp, 0x7F800001, 0x7FC00000, 1), (.sin, 0x7FC00001, 0x7FC00000, 0)] →
    x.1.fixed r sat ftz x.2.1 = x.2.2

namespace Sys2Proof.Claims

/-- An FP32 result is an exact real value rounded once (R79, R80): finite, of its sign, the neighbour that the mode selects, with IX where it
differs. -/
def RoundedReal (mode : Rnd) (v : ℝ) (y : Nat × BitVec 5) : Prop :=
  let val := fun (k : Nat) => ((real (FloatFmt.fp32.value k) : ℚ) : ℝ)
  let isFinite := fun (k : Nat) => k < 2 ^ 32 ∧ Finite (FloatFmt.fp32.value k)
  isFinite y.1 ∧ 0 ≤ val y.1 * v ∧ (y.2.getLsbD 4 = true ↔ val y.1 ≠ v) ∧
  match mode with
  | .rn => ∀ k, isFinite k → |v - val y.1| ≤ |v - val k| ∧ (|v - val k| = |v - val y.1| → val k ≠ val y.1 → y.1 % 2 = 0)
  | .ra => ∀ k, isFinite k → |v - val y.1| ≤ |v - val k| ∧ (|v - val k| = |v - val y.1| → |val k| ≤ |val y.1|)
  | .rz => |val y.1| ≤ |v| ∧ ∀ k, isFinite k → |val k| ≤ |v| → |val k| ≤ |val y.1|
  | .ru => v ≤ val y.1 ∧ ∀ k, isFinite k → v ≤ val k → val y.1 ≤ val k
  | .rd => val y.1 ≤ v ∧ ∀ k, isFinite k → val k ≤ v → val k ≤ val y.1
  | .sr => False

end Sys2Proof.Claims

/-- R144, R145: the values of ordinary operands. RCP, SQRT and RSQ give 1/x, √x and 1/√x, rounded once under the mode; EXP2 of an integer from −149
to 127 and LOG2 of a power of 2 are exact and set no flag; COS is even; and one value of each of EXP2, LOG2, SIN and COS under RN. SR is illegal. -/
def Sys2Proof.Claims.SpecialValues : Prop :=
  (∀ (x : Word) (neg : Bool) (m : Nat) (e : Int) (mode : Rnd) (sat : Bool), fp32 x = .fin neg m e → 0 < m → mode ≠ .sr →
    let v : ℝ := ((real (.fin neg m e) : ℚ) : ℝ)
    let one := fun (fn : SpecialFn) => fn.fixed { mode := mode } sat false x
    let exactly := fun (y : Nat × BitVec 5) (q : ℚ) => Finite (FloatFmt.fp32.value y.1) ∧ real (FloatFmt.fp32.value y.1) = q ∧ y.2 = 0
    (|v⁻¹| ≤ ((real (FloatFmt.fp32.value 0x7F7FFFFF) : ℚ) : ℝ) → RoundedReal mode v⁻¹ (one .rcp)) ∧
    (neg = false → RoundedReal mode (Real.sqrt v) (one .sqrt) ∧ RoundedReal mode (Real.sqrt v)⁻¹ (one .rsq)) ∧
    (∀ n : Int, -149 ≤ n → n ≤ 127 → real (.fin neg m e) = n → exactly (one .exp2) (2 ^ n)) ∧
    (∀ n : Int, real (.fin neg m e) = 2 ^ n → exactly (one .log2) n)) ∧
  (∀ (f : Fields) (m : Mnem), m ∈ [.rcp, .rsq, .sqrt, .exp2, .log2, .sin, .cos, .rcpT, .rsqT, .sqrtT, .exp2T, .log2T, .sinT, .cosT] → f.rnd = .sr →
    m.illegal f ≠ none) ∧
  (∀ (x : Word) (r : Rounding) (sat ftz : Bool), Finite (fp32 x) → SpecialFn.cos.fixed r sat ftz (x ^^^ 0x80000000) = SpecialFn.cos.fixed r sat ftz x) ∧
  ∀ x ∈ [(SpecialFn.exp2, 0x3F000000, 0x3FB504F3), (.log2, 0x40400000, 0x3FCAE00D), (.sin, 0x3F800000, 0x3F576AA4), (.cos, 0x3F800000, 0x3F0A5140)],
    x.1.fixed nearest false false (BitVec.ofNat 32 x.2.1) = (x.2.2, 16)

/-! ## Control flow -/

namespace Sys2Proof.Claims

/-- The word at a PC has the tag of a clause header. -/
def IsHeader (s : State) (c : Ctx) (t : Pc) : Prop := ∃ w, codeWord s.phys s.sys c.b t = some w ∧ w.extractLsb' 0 2 = 3

/-- PC + 4 × offset. -/
def branchTarget (c : Ctx) (f : Fields) : Pc := c.slot.pc + (immSigned f).setWidth 50

/-- The PC after the instruction. -/
def nextPc (s : State) (c : Ctx) : Pc := c.slot.pc + BitVec.ofNat 50 s.sys.words

/-- A warp whose slot has moved to a header with a mask. -/
def atHeader (w : Warp) (z : SlotId) (pc : Pc) (m : LaneMask) : Warp :=
  w.setSlot z fun y => { y with pc := pc, mask := m, left := 0, resume := none, hold := .none }

/-- A warp whose slot starts lanes at a header. -/
def startsAt (w : Warp) (z : SlotId) (pc : Pc) (m : LaneMask) : Warp :=
  w.setSlot z fun _ => { valid := true, pc := pc, mask := m, ch := pc }

/-- A warp with its slot invalid. -/
def freed (w : Warp) (z : SlotId) : Warp := w.setSlot z fun _ => {}

/-- A lane is held: in a valid slot or a PEND entry. -/
def Held (w : Warp) (l : Nat) : Prop :=
  (w.slotA.valid = true ∧ w.slotA.mask.getLsbD l = true) ∨ (w.slotB.valid = true ∧ w.slotB.mask.getLsbD l = true) ∨
  ∃ pc m, RsEntry.pend pc m ∈ w.rs ∧ m.getLsbD l = true

/-- The state in which the issuing warp has become `w`, each outstanding `.acq` with what now follows it (R220; `IssueWaits` says how). -/
def movedOn (s : State) (c : Ctx) (w : Warp) : State := moved s c (w.carryAcquires c.w)

/-- The same, where a slot may have left the warp, on which a generation of BSYNC may end (R169; `BlockSync` says how). -/
def leftFor (s : State) (c : Ctx) (w : Warp) : State := { s with sys := syncBlock s.phys (movedOn s c w).sys c.b.id }

/-- The word at a PC is no header, and its read is not held. -/
def NoHeader (s : State) (c : Ctx) (t : Pc) : Prop := ¬ IsHeader s c t ∧ codeHeld s.phys s.sys c.b t = false

/-- What the answer is when the instruction raises a fault. -/
def raised (s : State) (c : Ctx) (i : TrapInfo) : Host.Outcome State Fault Refusal := work s fun _ t => t.raise c.ref c.z i false

/-- The state after trap entry. -/
def trapped (s : State) (c : Ctx) (i : TrapInfo) : State :=
  let pair := RsEntry.trap c.slot.mask c.slot.pc i.resume i.cause.code (c.slot.left - 1) (c.slot.pc - c.slot.ch).toNat
  let w := { (c.w.withRs (c.w.rs ++ [pair])) with fcause := i.cause.code, fmask := i.resume, faddr := BitVec.ofNat 52 i.addr }
  moved s c (w.setSlot c.z fun z => { z with pc := c.w.tvec, left := 0, resume := none, hold := .none, trap := none, serial := false })

/-- The state with an error of a warp in the device error log. -/
def noted (s : State) (c : Ctx) (k : Cause) : State := { s with sys := s.sys.logError (.trapped k c.ref) }

/-- Everything that the slot issued has completed but a TIGHTEN and the arrival of a BARARR, of fixed latency (R64, R299). -/
def SlotDone (c : Ctx) : Prop := ∀ x ∈ c.w.ops, x.slot = c.z → (∃ d k n, x.body = .tighten d k n) ∨ ∃ bar n, x.body = .arrive bar n

/-- A trap at the slot is entered at once: the slot's work is complete, the pair fits and TVEC is a header. -/
def EntersAtOnce (s : State) (c : Ctx) : Prop := SlotDone c ∧ c.w.rsp ≤ 130 ∧ IsHeader s c c.w.tvec

/-- The stack is `below`, a LOOP that contains the active lanes, and above it JOIN entries alone. -/
def InLoop (c : Ctx) (f : Fields) (below above : List RsEntry) (pc : Pc) (m : LaneMask) : Prop :=
  c.w.rs = below ++ .loop pc m :: above ∧ (∀ x ∈ above, ∃ p k, x = .join p k) ∧ ∀ l, Active c f l → m.getLsbD l = true

/-- The warp with the active lanes removed from the JOIN entries above the loop. -/
def leftJoins (c : Ctx) (e : LaneMask) (below above : List RsEntry) (pc : Pc) (m : LaneMask) : Warp :=
  c.w.withRs (below ++ .loop pc m :: above.map fun x => x.drop e)

end Sys2Proof.Claims

/-- R97, R101, R103, R66: BRA, CALL and RET move the slot to a checked target, CALL leaves NEXT in s[D], and BRC takes the active
lanes: all, none, or a split whose taken lanes go to the free slot, or to a PEND entry directly above the topmost other entry that
contains them. While the read of the word at the target is held, BRA waits (R231). -/
def Sys2Proof.Claims.BranchesAndCalls : Prop :=
  ∀ (s : State) (f : Fields) (c : Ctx),
    let e := c.active f.guard
    let rest := c.slot.mask &&& (e ^^^ BitVec.allOnes 64)
    let t := branchTarget c f
    let n := nextPc s c
    let free := (c.w.slot (otherSlot c.z)).valid = false
    let result := fun (w : Warp) => Host.Outcome.next (movedOn s c w)
    (Issues .bra f s c → IsHeader s c t → exec (.bra f) s = result (atHeader c.w c.z t c.slot.mask)) ∧
    (Issues .bra f s c → codeHeld s.phys s.sys c.b t = true → exec (.bra f) s = .next (waiting s c .codeRead)) ∧
    (Issues .call f s c → IsHeader s c t →
      exec (.call f) s = result ((atHeader c.w c.z t c.slot.mask).setScalar f.d.toNat (4 * n.setWidth 64))) ∧
    (Issues .ret f s c → ∀ u : Pc, c.w.scalar f.a.toNat = 4 * u.setWidth 64 → IsHeader s c u →
      exec (.ret f) s = result (atHeader c.w c.z u c.slot.mask)) ∧
    (Issues .brc f s c → IsHeader s c t → e = 0 → exec (.brc f) s = result (atHeader c.w c.z n c.slot.mask)) ∧
    (Issues .brc f s c → IsHeader s c t → e ≠ 0 → rest = 0 → exec (.brc f) s = result (atHeader c.w c.z t c.slot.mask)) ∧
    (Issues .brc f s c → IsHeader s c t → e ≠ 0 → rest ≠ 0 → free →
      exec (.brc f) s = result (atHeader (startsAt c.w (otherSlot c.z) t e) c.z n rest)) ∧
    (Issues .brc f s c → IsHeader s c t → e ≠ 0 → rest ≠ 0 → ¬ free → c.w.rsp < 130 → ∀ below above : List RsEntry,
      c.w.rs = below ++ above →
      (∀ x ∈ above, (∃ pc m, x = .pend pc m) ∨ ∃ l, l < 64 ∧ e.getLsbD l = true ∧ x.mask.getLsbD l = false) →
      (∀ x ∈ below.getLast?, (¬ ∃ pc m, x = .pend pc m) ∧ ∀ l, e.getLsbD l = true → x.mask.getLsbD l = true) →
      exec (.brc f) s = result (atHeader (c.w.withRs (below ++ [.pend t e] ++ above)) c.z n rest))

/-- R66, R97, R103: BRA, BRC, CALL, CONT, RET and BRX raise ILLEGAL_TARGET where the word at their target is no header, or the value that RET reads
is no PC: FADDR is the target, or that value, the active lanes are to resume, and nothing else changes. -/
def Sys2Proof.Claims.BranchTargets : Prop :=
  ∀ (s : State) (f : Fields) (c : Ctx),
    let bad := fun (a : Nat) => raised s c { cause := .illegalTarget, resume := c.active f.guard, addr := a }
    let v := c.w.scalar f.a.toNat
    let t := branchTarget c f
    (∀ x ∈ [(Mnem.bra, Instr.bra f), (.brc, .brc f), (.call, .call f), (.cont, .cont f)], Issues x.1 f s c → NoHeader s c t →
      exec x.2 s = bad (4 * t.toNat)) ∧
    (Issues .ret f s c → (v.extractLsb' 52 12 ≠ 0 ∨ v.extractLsb' 0 2 ≠ 0 → exec (.ret f) s = bad v.toNat) ∧
      ∀ u : Pc, v = 4 * u.setWidth 64 → NoHeader s c u → exec (.ret f) s = bad (4 * u.toNat)) ∧
    (Issues .brx f s c → ∀ (h o : Word) (i : Nat), codeWord s.phys s.sys c.b t = some h → h.extractLsb' 16 16 = 0 → i < (h.extractLsb' 0 16).toNat →
      (h.extractLsb' 0 16).toNat ≤ 1024 → c.active f.guard ≠ 0 → (∀ l, Active c f l → (c.w.elem f.a.toNat l).toNat = i) →
      codeWord s.phys s.sys c.b (t + BitVec.ofNat 50 (1 + i)) = some o → NoHeader s c (t + o.signExtend 50) →
      exec (.brx f) s = bad (4 * (t + o.signExtend 50).toNat))

/-- R102: BRX sends the active lanes of one target to it in its slot; lanes of a second target, whose index is the greater, start in
the free slot. With no active lane the slot goes to NEXT. A bad count or an index outside the table raises BRX_RANGE. -/
def Sys2Proof.Claims.BranchTables : Prop :=
  ∀ (s : State) (f : Fields) (c : Ctx) (h : Word), Issues .brx f s c →
    let e := c.active f.guard
    let t := branchTarget c f
    let n := (h.extractLsb' 0 16).toNat
    let index := fun l => (c.w.elem f.a.toNat l).toNat
    codeWord s.phys s.sys c.b t = some h →
    (h.extractLsb' 16 16 ≠ 0 ∨ n = 0 ∨ 1024 < n ∨ (∃ l, Active c f l ∧ n ≤ index l) →
      exec (.brx f) s = raised s c { cause := .brxRange, resume := e, addr := 4 * t.toNat }) ∧
    (h.extractLsb' 16 16 = 0 → n ≠ 0 → n ≤ 1024 → e = 0 → exec (.brx f) s = .next (movedOn s c (atHeader c.w c.z (nextPc s c) c.slot.mask))) ∧
    (h.extractLsb' 16 16 = 0 → n ≠ 0 → n ≤ 1024 → (∀ l, Active c f l → index l < n) → ∀ (m1 m2 : LaneMask) (i1 i2 : Nat) (o1 o2 : Word),
      m1 ≠ 0 → m1 &&& m2 = 0 → m1 ||| m2 = e → i1 < i2 → o1 ≠ o2 →
      (∀ l, l < 64 → (m1.getLsbD l = true → index l = i1) ∧ (m2.getLsbD l = true → index l = i2)) →
      codeWord s.phys s.sys c.b (t + BitVec.ofNat 50 (1 + i1)) = some o1 → codeWord s.phys s.sys c.b (t + BitVec.ofNat 50 (1 + i2)) = some o2 →
      IsHeader s c (t + o1.signExtend 50) → IsHeader s c (t + o2.signExtend 50) →
      (m2 = 0 → exec (.brx f) s = .next (movedOn s c (atHeader c.w c.z (t + o1.signExtend 50) m1))) ∧
      (m2 ≠ 0 → (c.w.slot (otherSlot c.z)).valid = false → exec (.brx f) s =
        .next (movedOn s c (startsAt (atHeader c.w c.z (t + o1.signExtend 50) m1) (otherSlot c.z) (t + o2.signExtend 50) m2))))

/-- BRA, CALL, RET, BRC and BRX move the slot, split its lanes or trap. The parts: `BranchesAndCalls`, `BranchTargets`, `BranchTables`.
The model's choices in it, not the spec's: log 12, 18, 109. -/
def Obligations.Branches : Prop :=
  Sys2Proof.Claims.BranchesAndCalls ∧
  Sys2Proof.Claims.BranchTargets ∧
  Sys2Proof.Claims.BranchTables

/-- R104: PREPJ pushes JOIN and PREPL pushes LOOP with the target and the slot mask and goes on in its clause, after the target is
checked, and then the room. -/
def Obligations.PrepPushes : Prop :=
  ∀ (s : State) (f : Fields) (c : Ctx) (x : Mnem × Instr × (Pc → LaneMask → RsEntry)),
    x ∈ [(Mnem.prepj, Instr.prepj f, RsEntry.join), (.prepl, .prepl f, .loop)] → Issues x.1 f s c →
    let t := branchTarget c f
    (IsHeader s c t → c.w.rsp < 130 → exec x.2.1 s = .next (movedOn s c ((c.w.withRs (c.w.rs ++ [x.2.2 t c.slot.mask])).setSlot c.z fun z =>
      { z with pc := nextPc s c, left := z.left - 1, resume := none, hold := .none }))) ∧
    (IsHeader s c t → 130 ≤ c.w.rsp → exec x.2.1 s = raised s c { cause := .rsOverflow, resume := c.active f.guard }) ∧
    (NoHeader s c t → exec x.2.1 s = raised s c { cause := .illegalTarget, resume := c.active f.guard, addr := 4 * t.toNat })

/-- R105, R106, R101, R107: RECV, BRK, CONT and EXIT: the lanes that pass, arrive, leave or exit; where the rule settles the warp, the
answer is the settled warp (`Settling` says what settling does). A slot that leaves may end a generation of BSYNC (R169). -/
def Sys2Proof.Claims.JoinsLoopsAndExits : Prop :=
  ∀ (s : State) (f : Fields) (c : Ctx),
    let e := c.active f.guard
    let mask := c.slot.mask
    let rest := mask &&& (e ^^^ BitVec.allOnes 64)
    let n := nextPc s c
    let result := fun (w : Warp) => Host.Outcome.next (leftFor s c w)
    (Issues .recv f s c → ∀ below above : List RsEntry, c.w.rs = below ++ above → (∀ x ∈ above, x.isTrap = false) →
      (∀ m, RsEntry.join c.slot.ch m ∉ above) →
      ((∀ x ∈ below.getLast?, x.isTrap = true) → exec (.recv f) s = result (atHeader c.w c.z n mask)) ∧
      ∀ (m : LaneMask) (base : List RsEntry), below = base ++ [.join c.slot.ch m] →
        ((∃ l, l < 64 ∧ mask.getLsbD l = true ∧ m.getLsbD l = false) →
          exec (.recv f) s = raised s c { cause := .rsMismatch, resume := e }) ∧
        ((∀ l, mask.getLsbD l = true → m.getLsbD l = true) →
          (∀ l, m.getLsbD l = true → mask.getLsbD l = false → ¬ Held c.w l) →
          exec (.recv f) s = result (atHeader (c.w.withRs (base ++ above)) c.z n m)) ∧
        ((∀ l, mask.getLsbD l = true → m.getLsbD l = true) →
          (∃ l, m.getLsbD l = true ∧ mask.getLsbD l = false ∧ Held c.w l) →
          exec (.recv f) s = result (freed c.w c.z).settle)) ∧
    (∀ (below above : List RsEntry) (pc : Pc) (m : LaneMask), InLoop c f below above pc m →
      let w := leftJoins c e below above pc m
      (Issues .brk f s c → rest ≠ 0 → exec (.brk f) s = result (atHeader w c.z n rest).settle) ∧
      (Issues .brk f s c → rest = 0 → (∀ l, m.getLsbD l = true → ¬ Held (freed w c.z) l) →
        exec (.brk f) s = result (atHeader (w.withRs (below ++ above.map fun x => x.drop e)) c.z pc m).settle) ∧
      (Issues .brk f s c → rest = 0 → (∃ l, m.getLsbD l = true ∧ Held (freed w c.z) l) →
        exec (.brk f) s = result (freed w c.z).settle) ∧
      (Issues .cont f s c → IsHeader s c (branchTarget c f) → e = 0 → exec (.cont f) s = result (atHeader w c.z n mask).settle) ∧
      (Issues .cont f s c → IsHeader s c (branchTarget c f) → e ≠ 0 → rest = 0 →
        exec (.cont f) s = result (atHeader w c.z (branchTarget c f) mask).settle) ∧
      (Issues .cont f s c → IsHeader s c (branchTarget c f) → e ≠ 0 → rest ≠ 0 → (c.w.slot (otherSlot c.z)).valid = false →
        exec (.cont f) s = result (atHeader (startsAt w (otherSlot c.z) (branchTarget c f) e) c.z n rest).settle)) ∧
    ((∀ pc m, RsEntry.loop pc m ∉ c.w.rs) →
      (Issues .brk f s c → exec (.brk f) s = raised s c { cause := .rsMismatch, resume := e }) ∧
      (Issues .cont f s c → IsHeader s c (branchTarget c f) → exec (.cont f) s = raised s c { cause := .rsMismatch, resume := e })) ∧
    (Issues .exit f s c →
      let w := c.w.withRs (c.w.rs.map fun x => x.drop e)
      (rest ≠ 0 → exec (.exit f) s = result (atHeader w c.z n rest).settle) ∧
      (rest = 0 → exec (.exit f) s = result (freed w c.z).settle))

/-- R24, R244 (d): a stack replaced by another: a position whose contents change, or that goes, loses its poison. -/
def Sys2Proof.Claims.StackReplaced : Prop :=
  ∀ (w : Warp) (rs : List RsEntry) (k : Nat), (w.withRs rs).rs = rs ∧
    (NatSet.has (w.withRs rs).rsPoison k = true ↔ NatSet.has w.rsPoison k = true ∧ k ≤ (rs.flatMap RsEntry.bits).length ∧
      (w.rs.flatMap RsEntry.bits)[k - 1]? = (rs.flatMap RsEntry.bits)[k - 1]?)

/-- R99: a settled warp has no empty entry, every JOIN and LOOP left has a lane that is held, no lane held before is lost, and a free
slot finds no PEND entry above the topmost TRAP pair. -/
def Sys2Proof.Claims.Settling : Prop :=
  ∀ w : Warp,
    (∀ x ∈ w.settle.rs, x.mask ≠ 0) ∧
    (∀ pc m, RsEntry.join pc m ∈ w.settle.rs ∨ RsEntry.loop pc m ∈ w.settle.rs → ∃ l, l < 64 ∧ m.getLsbD l = true ∧ Held w.settle l) ∧
    (∀ l, Held w l → Held w.settle l) ∧
    (w.settle.slotA.valid = false ∨ w.settle.slotB.valid = false → ∀ below above, w.settle.rs = below ++ above →
      (∀ x ∈ above, x.isTrap = false) → ∀ x ∈ above, x.isPend = false) ∧
    (w.slotA.valid = true → w.settle.slotA = w.slotA) ∧ (w.slotB.valid = true → w.settle.slotB = w.slotB)

/-- RECV, BRK, CONT and EXIT, and what settling a warp leaves. The parts: `JoinsLoopsAndExits`, `StackReplaced`, `Settling`. The model's
choices in it, not the spec's: log 13. -/
def Obligations.JoinsExitsAndSettling : Prop :=
  Sys2Proof.Claims.JoinsLoopsAndExits ∧
  Sys2Proof.Claims.StackReplaced ∧
  Sys2Proof.Claims.Settling

/-- R108, R299, R24: a fault that no restart serves is taken once the slot's earlier work is complete: the TRAP pair with the slot
mask, the PC, the resume mask, the cause and the place in the clause; FCAUSE, FMASK and FADDR; the slot at TVEC with its mask; or
the block's abort when the pair does not fit or TVEC is no header. Until then the slot keeps the trap and TRAP_ENTRY takes it. That
every cause but SOFT_TRAP and BREAKPOINT is logged when it is raised, and the address and mask of such an abort, are the model's choices
(logs 117, 148). -/
def Sys2Proof.Claims.TrapTaken : Prop :=
  ∀ (s0 : State) (c : Ctx) (i : TrapInfo), s0.sys.issuing = some c → i.cause ≠ .windowFault →
    let s := if i.cause = .softTrap ∨ i.cause = .breakpoint then s0 else noted s0 c i.cause
    let pending := { s with sys := s.sys.setWarp c.ref fun w => w.setSlot c.z fun y => { y with trap := some i, hold := .none } }
    (c.b.restartsOn i false = false →
      (EntersAtOnce s0 c → raised s0 c i = .next (trapped s c i)) ∧
      (¬ SlotDone c → raised s0 c i = .next pending) ∧
      (SlotDone c → 130 < c.w.rsp → raised s0 c i = work pending fun _ t =>
        t.abortBlock c.b.id .rsOverflow c.w.rank c.slot.pc.addr i.addr c.slot.mask) ∧
      (SlotDone c → c.w.rsp ≤ 130 → NoHeader s0 c c.w.tvec → raised s0 c i = work pending fun _ t =>
        t.abortBlock c.b.id .illegalTarget c.w.rank c.slot.pc.addr i.addr c.slot.mask)) ∧
    (c.slot.trap = some i → EntersAtOnce s0 c → exec (.trapEntry c.ref c.z) s0 = .next (trapped s0 c i)) ∧
    (c.slot.trap = some i → ¬ SlotDone c → exec (.trapEntry c.ref c.z) s0 = .next s0)

/-- R109, R70, R62: TRAP traps with SOFT_TRAP and its immediate as the address, BKPT with BREAKPOINT, both with nothing to resume;
an illegal instruction and an illegal clause trap with the slot's mask to resume. -/
def Sys2Proof.Claims.TrapInstructions : Prop :=
  ∀ (s : State) (f : Fields) (c : Ctx), EntersAtOnce s c →
    (Issues .trap f s c → exec (.trap f) s = .next (trapped s c { cause := .softTrap, resume := 0, addr := (immUnsigned f).toNat })) ∧
    (Issues .bkpt f s c → exec (.bkpt f) s = .next (trapped s c { cause := .breakpoint, resume := 0 })) ∧
    (s.sys.issuing = some c → exec .illegalInstr s = .next (trapped (noted s c .illegalInstr) c { cause := .illegalInstr, resume := c.slot.mask })) ∧
    (s.sys.issuing = some c → 0 < c.slot.left →
      exec .illegalClause s = .next (trapped (noted s c .illegalClause) c { cause := .illegalClause, resume := c.slot.mask })) ∧
    (s.sys.issuing = some c → c.slot.left = 0 →
      exec .illegalClause s = .next (trapped (noted s c .illegalClause) { c with w := c.w.setSlot c.z fun z => { z with ch := z.pc } }
        { cause := .illegalClause, resume := c.slot.mask }))

/-- R110, R67, R25: RTT removes the topmost TRAP pair and continues in serial mode: at the trapping instruction for the lanes to
resume, or, if there are none and for RTT.SKIP, behind it; CH is the interrupted clause's header. Without a pair on top, or with
another mask in the slot, it raises RS_MISMATCH. -/
def Sys2Proof.Claims.ReturnFromTrap : Prop :=
  ∀ (s : State) (f : Fields) (c : Ctx) (skip : Bool) (x : Mnem × Instr),
    x = (if skip then (.rttSkip, .rttSkip f) else (.rtt, .rtt f)) → Issues x.1 f s c →
    let mismatch := raised s c { cause := .rsMismatch, resume := c.active f.guard }
    (∀ (below : List RsEntry) (mask : LaneMask) (pc : Pc) (resume : LaneMask) (cause : BitVec 8) (left dist : Nat) (h : Word),
      c.w.rs = below ++ [RsEntry.trap mask pc resume cause left dist] → codeWord s.phys s.sys c.b pc = some h →
      let words := if h.extractLsb' 0 2 = 3 then 1 else (h.extractLsb' 0 2).toNat + 1
      let back := fun (pc2 : Pc) (n : Nat) (r : Option LaneMask) =>
        Host.Outcome.next (movedOn s c ((c.w.withRs below).setSlot c.z fun z =>
          { z with pc := pc2, left := n, resume := r, ch := pc - BitVec.ofNat 50 dist, issued := 0, setA := 15, setB := 15, serial := true,
                   hold := .none, serialOp := none }))
      (mask ≠ c.slot.mask → exec x.2 s = mismatch) ∧
      (mask = c.slot.mask → skip = true ∨ resume = 0 → exec x.2 s = back (pc + BitVec.ofNat 50 words) left none) ∧
      (mask = c.slot.mask → skip = false → resume ≠ 0 → dist ≠ 0 → exec x.2 s = back pc (left + 1) (some resume)) ∧
      (mask = c.slot.mask → skip = false → resume ≠ 0 → dist = 0 → exec x.2 s = back pc 0 (some resume))) ∧
    ((∀ y ∈ c.w.rs.getLast?, y.isTrap = false) → exec x.2 s = mismatch)

/-- Taking a trap, the instructions that trap, and the return from a trap. The parts: `TrapTaken`, `TrapInstructions`, `ReturnFromTrap`.
The model's choices in it, not the spec's: log 3, 14, 117, 148. -/
def Obligations.TrapsAndReturns : Prop :=
  Sys2Proof.Claims.TrapTaken ∧
  Sys2Proof.Claims.TrapInstructions ∧
  Sys2Proof.Claims.ReturnFromTrap

namespace Sys2Proof.Claims

/-- A test of this cycle sees completion flag `n` set (R63 (c)): an instruction holds it, or a completion of this cycle has cleared it. -/
def FlagSeen (w : Warp) (n : Nat) : Prop := (∃ x ∈ w.ops, x.flag = some n) ∨ n ∈ w.clearing

/-- The warp without an instruction that has completed; its flag counts as cleared in this cycle (R63 (c)). -/
def finished (w : Warp) (id : Nat) : Warp :=
  { w with ops := w.ops.filter fun y => y.id != id
           clearing := w.cleared (w.ops.filter fun y => y.id == id) }

end Sys2Proof.Claims

/-- R112, R63 (c): WAITF stays at issue while a named flag is set, whichever slot holds it, completes once none is, and at once for a mask of 0;
literal bits [31:12] are illegal. A flag that a completion clears is seen set until the cycle ends, and clear from the next one on. -/
def Sys2Proof.Claims.FlagWait : Prop :=
  (∀ (s : State) (f : Fields) (c : Ctx), Issues .waitf f s c →
    let named := fun (n : Nat) => n < 12 ∧ (immUnsigned f).getLsbD n = true
    ((∃ n, named n ∧ FlagSeen c.w n) → exec (.waitf f) s = .next (waiting s c .waitf)) ∧
    ((∀ n, named n → ¬ FlagSeen c.w n) → exec (.waitf f) s = .next (after s c c.w))) ∧
  (∀ f : Fields, f.form = .w96 → f.imm = true → f.lit.extractLsb' 12 20 ≠ 0 → Mnem.waitf.illegal f ≠ none) ∧
  (∀ (w : Warp) (x : Op) (n : Nat), x ∈ w.ops → x.flag = some n → FlagSeen (finished w x.id) n) ∧
  ∀ (s : State) (rest : List Move), s.sys.agenda = .tick :: rest → dueWait s.phys s.sys = none → s.sys.inputs.ecc = [] →
    ∃ t, step s = .next t ∧ ∀ r, t.sys.warp r = (s.sys.warp r).map fun w => { w with clearing := [] }

/-- R111, R34: NOP only goes on; YIELD goes on at the next header and moves its slice's issue pointer one past its own pair, in the numbering of
the pairs that is the model's choice (log 110). -/
def Sys2Proof.Claims.NopAndYield : Prop :=
  ∀ (s : State) (f : Fields) (c : Ctx),
    (Issues .nop f s c → exec (.nop f) s = .next (after s c c.w)) ∧
    (Issues .yield f s c → ∃ t, exec (.yield f) s = .next t ∧ t.phys = s.phys ∧
      (∀ r, t.sys.warp r = (moved s c (atHeader c.w c.z (nextPc s c) c.slot.mask)).sys.warp r) ∧
      let k := s.sys.core c.b.coreRef
      (c.b.tower < s.sys.towers.length → c.b.core < (s.sys.tower c.b.tower).cores.length → c.w.slice < k.issuePtr.length →
        (t.sys.core c.b.coreRef).issuePtr.getD c.w.slice 0 = (2 * c.w.warpSlot + (if c.z = .A then 1 else 2)) % 32))

/-! ## Clauses, status registers and the acquire phase -/

namespace Sys2Proof.Claims

/-- The words of successive instructions from a PC on, each by its first word. -/
def Laid (s : State) (c : Ctx) : Pc → List Word → Prop
  | _, [] => True
  | pc, w :: ws => codeWord s.phys s.sys c.b pc = some w ∧ Laid s c (pc + (w.extractLsb' 0 2).setWidth 50 + 1) ws

/-- No completion of the block's instructions lets a trap be entered or a generation of BSYNC end: no trap is pending and no slot is at
BSYNC. -/
def Still (b : Block) : Prop :=
  ∀ w ∈ b.warps, w.slotA.trap = none ∧ w.slotB.trap = none ∧ w.arrived = false ∧ w.slotA.hold ≠ .bsync ∧ w.slotB.hold ≠ .bsync

/-- No completion of the block's instructions lets anything else go on: it is still, and no arrival waits. -/
def Calm (b : Block) : Prop := Still b ∧ ∀ w ∈ b.warps, ∀ x ∈ w.ops, ∀ k n, x.body ≠ .arrive k n

/-- A warp of a resident block that is calm. -/
def Resident (s : State) (r : WarpRef) (b : Block) (w : Warp) : Prop :=
  s.sys.block r.block = some b ∧ b.warp r.rank = some w ∧ Calm b

end Sys2Proof.Claims

/-- R60, R61, R27: a header with a legal clause behind it starts the clause, once no flag that its WAIT names is set and an earlier
serial instruction is complete; a header or a clause that breaks R61 traps. -/
def Sys2Proof.Claims.ClauseStart : Prop :=
  ∀ (s : State) (c : Ctx) (h : HeaderFields) (ws : List Word), s.sys.issuing = some c → c.slot.serialOp = none →
    let waits := ∃ n, n < 12 ∧ h.wait.getLsbD n = true ∧ FlagSeen c.w n
    let good := h.len ≠ 0 ∧ ¬ (h.setA = h.setB ∧ h.setA.toNat < 12)
    let body := (∀ w ∈ ws, w.extractLsb' 0 2 ≠ 3) ∧ (∀ w ∈ ws.dropLast, wordEndsClause w = false) ∧ (ws.filter wordIsVariable).length ≤ 2
    ws.length = h.len.toNat → Laid s c (c.slot.pc + 1) ws →
    (waits → exec (.clauseHeader h) s = .next (waiting s c .waitFlags)) ∧
    (¬ waits → good → body → exec (.clauseHeader h) s = .next (moved s c (c.w.setSlot c.z fun z =>
      { z with pc := z.pc + 1, ch := z.pc, left := h.len.toNat, issued := 0, setA := h.setA, setB := h.setB, serial := false,
               serialOp := none, resume := none, hold := .none }))) ∧
    (¬ waits → ¬ (good ∧ body) → exec (.clauseHeader h) s = exec .illegalClause s)

/-- R20, R114, R115: SRD reads each status register, and SWR writes each that is writable, reserved bits discarded; it leaves every
other register. -/
def Sys2Proof.Claims.StatusRegisters : Prop :=
  ∀ (s : State) (f : Fields) (c : Ctx),
    let n := f.statusNumber
    let x := c.w.scalar f.d.toNat
    (Issues .srd f s c → ∀ v : DWord,
      (n, v) ∈ [(0x000, 64), (0x001, BitVec.ofNat 64 c.w.slice), (0x002, BitVec.ofNat 64 c.b.core), (0x003, BitVec.ofNat 64 c.b.tower),
        (0x004, BitVec.ofNat 64 c.w.rank), (0x005, BitVec.ofNat 64 c.b.warps.length), (0x010, c.b.node.setWidth 64),
        (0x011, c.b.parent.setWidth 64), (0x012, BitVec.ofNat 64 c.b.nchild), (0x013, c.b.depth.setWidth 64),
        (0x014, BitVec.ofNat 64 c.b.stage), (0x015, (BitVec.ofNat 32 c.b.sweep).setWidth 64), (0x016, c.w.tol.setWidth 64),
        (0x017, if c.b.effect then 1 else 0), (0x020, (c.w.flags.setWidth 64) ||| (if c.w.ftz then 0x100 else 0)), (0x021, c.w.fmask),
        (0x022, c.w.fcause.setWidth 64), (0x023, c.w.faddr.setWidth 64), (0x024, 4 * c.w.tvec.setWidth 64), (0x025, BitVec.ofNat 64 c.w.rsp),
        (0x026, BitVec.ofNat 64 c.w.usc), (0x027, c.w.rpr.setWidth 64), (0x030, c.w.mcert.setWidth 64), (0x031, c.w.rngkey),
        (0x040, (s.sys.tower c.b.tower).clock), (0x041, if s.sys.time.state = .unset then 0 else BitVec.ofNat 64 s.sys.time.count)] →
      exec (.srd f) s = .next (after s c (c.w.setScalar f.d.toNat v))) ∧
    (Issues .swr f s c → ∀ w : Warp,
      (n, w) ∈ [(0x016, { c.w with tol := (x.setWidth 14).setWidth 16 }), (0x020, { c.w with flags := x.setWidth 5, ftz := x.getLsbD 8 }),
        (0x021, { c.w with fmask := x }), (0x022, { c.w with fcause := x.setWidth 8 }), (0x023, { c.w with faddr := x.setWidth 52 }),
        (0x024, { c.w with tvec := x.extractLsb' 2 50 }), (0x027, { c.w with rpr := if 64 < x.toNat then 64 else x.setWidth 8 }),
        (0x031, { c.w with rngkey := x })] →
      exec (.swr f) s = .next (after s c w))

/-- R19, R113: REGACQ completes at once after the grant or without an acquire phase; otherwise it asks for the grant and holds its
slot. The grant, when the block's whole allotment is free, gives every warp the bays between its full and its prologue allotment, free ones and
the lowest (log 124), and its tiles, and the block its BSM units; the new bays, the tiles and the BSM read zero, and every REGACQ that waits
completes, its flag seen clear from the next cycle on (R63). -/
def Sys2Proof.Claims.RegisterAcquire : Prop :=
  (∀ (s : State) (f : Fields) (c : Ctx), Issues .regacq f s c →
    (c.b.granted = true ∨ c.b.hdr.fullRegs = 0 → exec (.regacq f) s = .next { s with sys := s.sys.completedOp c id }) ∧
    (c.b.granted = false → c.b.hdr.fullRegs ≠ 0 → (∀ x ∈ c.w.ops, x.slot = c.z → ∀ n, x.body ≠ .regacq n) →
      ∃ t v, exec (.regacq f) s = .next t ∧ t.phys = s.phys ∧ t.sys.warp c.ref = some v ∧
        v.ops = c.w.ops ++ [{ id := s.sys.fresh, slot := c.z, flag := flagOf .regacq c, path := none, body := .regacq s.sys.words }] ∧
        v.slot c.z = { c.slot with hold := .regacq } ∧ (t.sys.block c.ref.block).map Block.regRequest = some true)) ∧
  ∀ (s : State) (b : Block), s.sys.block b.id = some b → b.regRequest = true → b.granted = false → b.stopping = false →
    grantPossible s.sys b = true → Calm b → (b.warps.map Warp.rank).Nodup → (∀ w ∈ b.warps, w.slice < 6) →
    let bays : List (Warp × List Nat) := b.warps.zip (s.sys.grantBays b)
    let allotment := fun (regs : Nat) => (regs + 31) / 32
    let onCore := s.sys.blocks.filter fun q => q.tower = b.tower ∧ q.core = b.core
    (s.sys.grantBays b).length = b.warps.length ∧
    (∀ (i j : Nat) (x y : Warp × List Nat), bays[i]? = some x → bays[j]? = some y → i ≠ j → x.1.slice = y.1.slice → ∀ k ∈ x.2, k ∉ y.2) ∧
    ∃ t b', exec (.regacqGrant b.id) s = .next t ∧ t.phys = s.phys ∧ t.sys.block b.id = some b' ∧ b'.granted = true ∧
      b'.regRequest = false ∧ b'.units = s.sys.freeUnits b.coreRef b.bsmUnits ∧ b'.units.length = b.bsmUnits ∧
      (∀ u ∈ b'.units, u < 512 ∧ ∀ q ∈ onCore, u ∉ q.units) ∧ (∀ a, b'.bsm.get a = 0 ∧ a ∉ b'.bsmPoison) ∧
      ∀ x ∈ bays, let w := x.1; ∃ v, b'.warp w.rank = some v ∧ v.bays = w.bays ++ x.2 ∧ x.2.Nodup ∧
        x.2.length = (if b.hdr.fullRegs = 0 then allotment b.hdr.proRegs else allotment b.hdr.fullRegs) - allotment b.hdr.proRegs ∧
        (∀ k ∈ x.2, k < 64 ∧ ∀ q ∈ onCore, ∀ w' ∈ q.warps, w'.slice = w.slice → k ∉ w'.bays) ∧
        (∀ n l, l < 64 → 32 * w.bays.length ≤ n → v.elem n l = 0 ∧ v.elemPoisoned n l = false) ∧
        (∀ n l, l < 64 → n < 32 * w.bays.length → v.elem n l = w.elem n l ∧ v.elemPoisoned n l = w.elemPoisoned n l) ∧
        v.tileCtl = List.replicate b.hdr.acc {} ∧ (∀ k, v.tiles.get k = 0 ∧ k ∉ v.tilePoison) ∧
        (∀ y, y ∈ v.ops ↔ y ∈ w.ops ∧ ∀ n, y.body ≠ .regacq n) ∧ (∀ y ∈ w.ops, ∀ n k, y.body = .regacq n → y.flag = some k → v.flagSeen k = true) ∧
        ∀ x n, w.ops.filter (fun y => match y.body with | .regacq _ => true | _ => false) = [x] → x.body = .regacq n →
          v.slot x.slot = { w.slot x.slot with pc := (w.slot x.slot).pc + BitVec.ofNat 50 n, left := (w.slot x.slot).left - 1, resume := none,
                                               hold := .none, issued := (w.slot x.slot).issued + 1 }

/-- SRD and SWR of every status register, and the acquire phase. The parts: `StatusRegisters`, `RegisterAcquire`. The model's choices in
it, not the spec's: log 23, 124, 160. -/
def Obligations.StatusAndAcquire : Prop :=
  Sys2Proof.Claims.StatusRegisters ∧
  Sys2Proof.Claims.RegisterAcquire

/-! ## Local memory -/

namespace Sys2Proof.Claims

/-- The issuing warp with one more instruction outstanding, its slot not moved; an `.acq` is kept with the slot's mask. -/
def withOp (s : State) (c : Ctx) (m : Mnem) (acq : Bool) (body : OpBody) : Warp :=
  let x : Op := { id := s.sys.fresh, slot := c.z, flag := flagOf m c, path := m.path, body := body,
                  acq := if acq then some c.slot.mask else none }
  ({ c.w with ops := c.w.ops ++ [x] } : Warp).setSlot c.z fun z => { z with serialOp := if z.serial then some s.sys.fresh else none }

/-- An instruction of variable latency is outstanding, its slot stands at the next instruction, and every other warp and memory are
as before. -/
def Started (s t : State) (c : Ctx) (m : Mnem) (acq : Bool) (body : OpBody) : Prop :=
  t.phys = s.phys ∧ (∀ q, q ≠ c.ref → t.sys.warp q = s.sys.warp q) ∧
  t.sys.warp c.ref = some ((withOp s c m acq body).setSlot c.z fun z =>
    { z with pc := nextPc s c, left := z.left - 1, resume := none, hold := .none, issued := z.issued + 1 })

/-- `.rel` does not wait (R159 (a)). -/
def MayRelease (c : Ctx) (f : Fields) : Prop := f.orderCode < 2 ∨ ∀ x ∈ c.w.ops, x.path = none ∧ x.isStore = false

/-- The body of a load or store of the lanes that commit. -/
def accessBody (store : Bool) (c : Ctx) (f : Fields) (sp : Space) (ok : List (Nat × Nat)) (pages : List Nat) : OpBody :=
  if store then .store sp (accessSize f) (ok.map fun x => (x.1, x.2, storeData c.w f x.1)) pages
  else .load sp (loadSize f) f.d.toNat ok pages

/-- An outstanding store of the warp shares a byte with `n` bytes at an address of a space. -/
def Overlaps (c : Ctx) (sp : Space) (a n : Nat) : Prop :=
  ∃ x ∈ c.w.ops, ∃ k lanes pages, x.body = .store sp k lanes pages ∧ ∃ y ∈ lanes, y.2.1 < a + n ∧ a < y.2.1 + k

/-- The byte that a store leaves at an address. -/
def storedByte (n : Nat) (lanes : List (Nat × Nat × DWord)) (a : Nat) (old : Byte) : Byte :=
  lanes.foldl (fun b x => if x.2.1 ≤ a ∧ a < x.2.1 + n then x.2.2.extractLsb' (8 * (a - x.2.1)) 8 else b) old

end Sys2Proof.Claims

/-- R149 to R153, R156, R159, R64: a load or store of the BSM or of lane-private memory whose active lanes are all aligned and in
range starts for them; an access of the scratchpad window starts when every lane's page is mapped and those that need a walk find room in the
miss queue, without which it stays at issue (R239), and while an outstanding
MMA may still read a byte of it (R194, R221, log 133); with no active lane it completes at once; while `.rel` waits it stays at issue; STT sets EFFECT for a lane that stores outside the own drawer (R171). -/
def Sys2Proof.Claims.AccessesStart : Prop :=
  ∀ (s : State) (f : Fields) (c : Ctx) (i : Mnem × Instr × Space × Bool) (target : Nat → Nat),
    i ∈ [(Mnem.ldb, Instr.ldb f, Space.bsm, false), (.stb, .stb f, .bsm, true), (.ldl, .ldl f, .priv, false), (.stl, .stl f, .priv, true),
         (.ldt, .ldt f, .tsp, false), (.stt, .stt f, .tsp, true)] → Issues i.1 f s c →
    let e := c.active f.guard
    let addr := fun l => if i.2.2.1 = .tsp then rowAddress c.w f l else baseAddress c.w f l
    (e = 0 → exec i.2.1 s = .next { s with sys := s.sys.completedOp c id }) ∧
    (e ≠ 0 → ¬ MayRelease c f → exec i.2.1 s = .next (waiting s c .release)) ∧
    (e ≠ 0 → MayRelease c f →
      (∀ l, Active c f l → addr l % accessSize f = 0 ∧ match i.2.2.1 with
        | .bsm => target l = addr l ∧ addr l + accessSize f ≤ c.b.bsmBytes
        | .priv => target l = 512 * l + addr l ∧ addr l + accessSize f ≤ c.b.hdr.lpriv
        | .tsp => translateWindow s.phys s.sys c.b.coreRef c.b.asid (addr l) = some (target l)) →
      let room := i.2.2.1 ≠ .tsp ∨ missRoom s.sys c.b.coreRef c.b.asid (e.lanes.map fun l => addr l / 65536) = true
      let again := awaitsOperands s.phys s.sys c.b c.w.ops (e.lanes.map fun l => (i.2.2.1, target l, accessSize f))
      (¬ room → exec i.2.1 s = .next (waiting s c .translation)) ∧
      (room → again = true → exec i.2.1 s = .next (waiting s c .restoredMma)) ∧
      (room → again = false → ∃ t pages, exec i.2.1 s = .next t ∧
        Started s t c i.1 (f.orderCode % 2 == 1) (accessBody i.2.2.2 c f i.2.2.1 (e.lanes.map fun l => (l, target l)) pages) ∧
        ((t.sys.block c.ref.block).map Block.effect = some true ↔ c.b.effect = true ∨
          (i.1 = .stt ∧ ∃ l, Active c f l ∧ ¬ (c.b.drawer ≤ addr l ∧ addr l + accessSize f ≤ c.b.drawer + c.b.drawerSize)))))

/-- R153, R152, R161: lanes that are misaligned, out of range of the BSM or of lane-private memory, or in an unmapped window page do not
commit; the others start, and the load, store or atomic traps: MISALIGNED if a lane is misaligned, else the range cause of the space,
with the failing lanes to resume and the address of the least lane that has the cause. -/
def Sys2Proof.Claims.AccessFaults : Prop :=
  ∀ (s : State) (f : Fields) (c : Ctx) (i : Mnem × Instr × Space) (bad : Nat) (target : Nat → Nat),
    let here := if f.x then Space.tsp else .bsm
    i ∈ [(Mnem.ldb, Instr.ldb f, Space.bsm), (.stb, .stb f, .bsm), (.ldl, .ldl f, .priv), (.stl, .stl f, .priv), (.ldt, .ldt f, .tsp),
         (.stt, .stt f, .tsp), (.atom, .atom f, here), (.atomc, .atomc f, here), (.atomf, .atomf f, here)] →
    Issues i.1 f s c → MayRelease c f →
    let e := c.active f.guard
    let atomic := i.1 ∈ [Mnem.atom, .atomc, .atomf]
    let size := if atomic then (if f.w64 then 8 else 4) else accessSize f
    let addr := fun l => if atomic then (c.w.elem f.a.toNat l).toNat
      else if i.1 = .ldt ∨ i.1 = .stt then rowAddress c.w f l else baseAddress c.w f l
    let odd := fun l => addr l % size ≠ 0
    let far := fun l => match i.2.2 with
      | .bsm => c.b.bsmBytes < addr l + size
      | .priv => c.b.hdr.lpriv < addr l + size
      | .tsp => translateWindow s.phys s.sys c.b.coreRef c.b.asid (addr l) = none
    let cause := if odd bad then Cause.misaligned else match i.2.2 with | .bsm => .bsmRange | .priv => .localRange | .tsp => .windowFault
    (∀ l, Active c f l → ¬ odd l → ¬ far l → match i.2.2 with
      | .bsm => target l = addr l
      | .priv => target l = 512 * l + addr l
      | .tsp => translateWindow s.phys s.sys c.b.coreRef c.b.asid (addr l) = some (target l)) →
    (atomic → ∀ l, Active c f l → ¬ odd l → ¬ far l → ¬ Overlaps c i.2.2 (target l) size) →
    (∀ l, Active c f l → ¬ odd l → ¬ far l → awaitsOperands s.phys s.sys c.b c.w.ops [(i.2.2, target l, size)] = false) →
    (i.2.2 = .tsp → missRoom s.sys c.b.coreRef c.b.asid ((e.lanes.filter fun l => addr l % size == 0).map fun l => addr l / 65536) = true) →
    Active c f bad →
    (odd bad ∧ ∀ l, Active c f l → l < bad → ¬ odd l) ∨ (far bad ∧ ∀ l, Active c f l → ¬ odd l ∧ (l < bad → ¬ far l)) →
    ∃ (resume : LaneMask) (t : State), (∀ l, l < 64 → (resume.getLsbD l = true ↔ Active c f l ∧ (odd l ∨ far l))) ∧
      exec i.2.1 s = raised t c { cause := cause, resume := resume, addr := addr bad } ∧
      t.phys = s.phys ∧ (∀ q, q ≠ c.ref → t.sys.warp q = s.sys.warp q) ∧
      let ok := (e.lanes.filter fun l => !resume.getLsbD l).map fun l => (l, target l)
      (ok = [] → t.sys.warp c.ref = some c.w) ∧
      (ok ≠ [] → ∃ body, t.sys.warp c.ref = some (withOp s c i.1 (f.orderCode % 2 == 1) body) ∧
        (¬ atomic → ∃ pages, body = accessBody (i.1 ∈ [Mnem.stb, .stl, .stt]) c f i.2.2 ok pages) ∧
        (atomic → ∃ op lanes pages, body = .atomic op i.2.2 f.w64 f.d.toNat lanes pages ∧ lanes.map (fun y => (y.lane, y.addr)) = ok))

/-- R126, R221 (b): LDPERM reads 48 unpoisoned bytes of the BSM at an address that is a multiple of 8 and starts with them, but waits for an
earlier access of its warp to those bytes that is no store, and while an outstanding MMA may still read one (R194, log 133); a poisoned byte raises POISON, and another address MISALIGNED or BSM_RANGE. -/
def Sys2Proof.Claims.PermLoadStarts : Prop :=
  ∀ (s : State) (f : Fields) (c : Ctx), Issues .ldperm f s c →
    let a := (c.w.scalar f.a.toNat).toNat + (immUnsigned f).toNat
    let poisoned := ∃ i, i < 48 ∧ a + i < c.b.bsmBytes ∧ (loadView s.phys c.b c.w c.w.ops .bsm (a + i) 1).2 = true
    let trap := fun (k : Cause) => raised s c { cause := k, resume := c.active f.guard, addr := a }
    let earlier := ∃ x ∈ c.w.ops, x.writes = false ∧ x.touches .bsm a 48 = true
    (poisoned → exec (.ldperm f) s = trap .poison) ∧
    (¬ poisoned → a % 8 ≠ 0 → exec (.ldperm f) s = trap .misaligned) ∧
    (¬ poisoned → a % 8 = 0 → c.b.bsmBytes < a + 48 → exec (.ldperm f) s = trap .bsmRange) ∧
    (¬ poisoned → a % 8 = 0 → a + 48 ≤ c.b.bsmBytes → earlier → exec (.ldperm f) s = .next (waiting s c .earlierAccess)) ∧
    let again := awaitsOperands s.phys s.sys c.b c.w.ops [(.bsm, a, 48)]
    (¬ poisoned → a % 8 = 0 → a + 48 ≤ c.b.bsmBytes → ¬ earlier → again = true → exec (.ldperm f) s = .next (waiting s c .restoredMma)) ∧
    (¬ poisoned → a % 8 = 0 → a + 48 ≤ c.b.bsmBytes → ¬ earlier → again = false → ∃ t, exec (.ldperm f) s = .next t ∧
      Started s t c .ldperm false (.loadPerm (BitVec.ofNat 384 (loadView s.phys c.b c.w c.w.ops .bsm a 48).1)))

/-- Loads, stores and LDPERM start, wait, or trap with the failing lanes. The parts: `AccessesStart`, `AccessFaults`, `PermLoadStarts`.
The model's choices in it, not the spec's: log 12, 111, 114, 133. -/
def Obligations.LocalAccessesStart : Prop :=
  Sys2Proof.Claims.AccessesStart ∧
  Sys2Proof.Claims.AccessFaults ∧
  Sys2Proof.Claims.PermLoadStarts

/-- R156, R150, R154, R204: a completing load writes each committing lane's element by its size, or marks it poisoned, and a completing
LDPERM writes PERM; an element from the parent's drawer after the block's TAKE is written with free bytes, unpoisoned; the flag and the
counter are freed; the other elements, registers, tiles and slots of the warp, every other warp and every byte of memory stay. -/
def Sys2Proof.Claims.LoadsComplete : Prop :=
  ∀ (s : State) (r : WarpRef) (b : Block) (w : Warp) (x : Op), Resident s r b w → w.op x.id = some x → w.heldBack x = false →
    (s.sys.rolledCore b.coreRef).budget = 0 →
    (∀ sp size dst lanes pages, x.body = .load sp size dst lanes pages → (lanes.map Prod.fst).Nodup → (∀ y ∈ lanes, y.1 < 64) →
      ∃ t v, exec (.loadStoreCompletion r x.id .clean) s = .next t ∧ t.phys = s.phys ∧ t.sys.warp r = some v ∧
        (∀ q, q ≠ r → t.sys.warp q = s.sys.warp q) ∧
        v = { finished w x.id with v := v.v, vPoison := v.vPoison, vUnloaded := v.vUnloaded } ∧
        (∀ y ∈ lanes,
          let q := loadView s.phys b w (w.earlier x.id) sp y.2 size.bytes
          let given := sp = .tsp ∧ b.gaveUp s.phys s.sys y.2 size.bytes = true
          (given → v.elemPoisoned dst y.1 = false) ∧
          (¬ given → q.2 = true → v.elemPoisoned dst y.1 = true ∧ (size = .pair → v.elemPoisoned (dst + 1) y.1 = true)) ∧
          (¬ given → q.2 = false → v.elemPoisoned dst y.1 = false ∧ (size = .pair → v.pair dst y.1 = BitVec.ofNat 64 q.1) ∧
            (size = .word ∨ size = .n8 ∨ size = .n16 → v.elem dst y.1 = BitVec.ofNat 32 q.1) ∧
            (size = .i8 → v.elem dst y.1 = (BitVec.ofNat 8 q.1).signExtend 32) ∧
            (size = .i16 → v.elem dst y.1 = (BitVec.ofNat 16 q.1).signExtend 32))) ∧
        ∀ n l, l < 64 → ¬ ((n = dst ∨ (size = .pair ∧ n = dst + 1)) ∧ l ∈ lanes.map Prod.fst) →
          v.elem n l = w.elem n l ∧ v.elemPoisoned n l = w.elemPoisoned n l) ∧
    (∀ bits, x.body = .loadPerm bits → ∃ t, exec (.loadStoreCompletion r x.id .clean) s = .next t ∧ t.phys = s.phys ∧
      (∀ q, q ≠ r → t.sys.warp q = s.sys.warp q) ∧
      t.sys.warp r = some { finished w x.id with perm := bits })

/-- R29, R156, R157, R221: a store that is performed leaves in every byte that it covers its data, the last lane's where lanes overlap,
and every other byte of memory, of the BSM and of lane-private memory as it was (no unit poisoned); its entry is freed, the entries in front of it are marked to be performed before a save (R227, R307), and the warp's
registers, tiles and slots and the other warps stay. An entry whose block stops waits behind one that is not performed, and one that writes a byte
which an earlier MMA may still read waits for it (R194, R222 (e), log 133). -/
def Sys2Proof.Claims.StoresComplete : Prop :=
  ∀ (s : State) (r : WarpRef) (b : Block) (w : Warp) (x : Op) (sp : Space) (n : Nat) (lanes : List (Nat × Nat × DWord)) (pages : List Nat),
    Resident s r b w → w.op x.id = some x → w.heldBack x = false → x.body = .store sp n lanes pages → w.drainTurn x.id = true →
    s.phys.poison = [] → b.bsmPoison = [] → w.privPoison = [] → (s.sys.rolledCore b.coreRef).budget = 0 →
    let stopped := b.stopping = true ∧ w.keepsOrder x = true
    let again := awaitsOperands s.phys s.sys b (w.earlier x.id) (lanes.map fun y => (sp, y.2.1, n)) = true
    (sp ≠ .priv → stopped ∨ again → exec (.storeBufferEntryPerformed r x.id) s = .next s) ∧
    (sp = .priv ∨ ¬ (stopped ∨ again) → ∃ t b' v, exec (if sp = .priv then .loadStoreCompletion r x.id .clean else .storeBufferEntryPerformed r x.id) s = .next t ∧
      t.sys.block r.block = some b' ∧ b'.warp r.rank = some v ∧
      v = { finished (if sp = .priv then w else w.passStores x.id) x.id with priv := v.priv } ∧
      (∀ q, q ≠ r → t.sys.warp q = s.sys.warp q) ∧
      (∀ a, t.phys.byte a = if sp = .tsp then storedByte n lanes a (s.phys.byte a) else s.phys.byte a) ∧
      (∀ a, b'.bsm.get a = if sp = .bsm then storedByte n lanes a (b.bsm.get a) else b.bsm.get a) ∧
      (∀ a, v.priv.get a = if sp = .priv then storedByte n lanes a (w.priv.get a) else w.priv.get a) ∧
      (∀ a, t.phys.poisoned a = false) ∧ b'.bsmPoison = [] ∧ v.privPoison = [])

/-- Loads, LDPERM and stores complete, and what they leave of memory. The parts: `LoadsComplete`, `StoresComplete`. The model's choices
in it, not the spec's: log 28, 40, 42, 133. -/
def Obligations.LocalAccessesComplete : Prop :=
  Sys2Proof.Claims.LoadsComplete ∧
  Sys2Proof.Claims.StoresComplete

/-- R132, R147: the completion of a special function or of CRNG writes its results in the committing lanes and ORs its flags. -/
def Sys2Proof.Claims.FunctionsComplete : Prop :=
  ∀ (s : State) (r : WarpRef) (b : Block) (w : Warp) (x : Op), Resident s r b w → w.op x.id = some x →
    let done := fun (i : Instr) (v : Warp) =>
      ∃ t, exec i s = .next t ∧ t.phys = s.phys ∧ t.sys.warp r = some (finished v x.id)
    (∀ dst vals flags, x.body = .sfu dst vals flags → done (.sfuCompletion r x.id) ((w.putWords dst vals).orFlags flags)) ∧
    (∀ dst vals, x.body = .crng dst vals → done (.crngCompletion r x.id)
      (vals.foldl (fun w v => (w.setElem dst v.1 v.2.1).setElem (dst + 1) v.1 v.2.2) w))

/-- Special functions and CRNG: start, special and ordinary operands, the CRNG rounds, completion. The parts: `RandomNumbers`,
`SpecialFunctionsStart`, `SpecialOperands`, `PrecisionForms`, `SpecialValues`, `FunctionsComplete`. The model's choices in it, not
the spec's: log 12, 29. -/
def Obligations.SpecialFunctions : Prop :=
  Sys2Proof.Claims.RandomNumbers ∧
  Sys2Proof.Claims.SpecialFunctionsStart ∧
  Sys2Proof.Claims.SpecialOperands ∧
  Sys2Proof.Claims.PrecisionForms ∧
  Sys2Proof.Claims.SpecialValues ∧
  Sys2Proof.Claims.FunctionsComplete

/-! ## Atomics and accumulation slots -/

namespace Sys2Proof.Claims

/-- The new word of a 32-bit integer atomic. -/
def newWord (op : AtomicOp) (old b c : Word) : Word :=
  match op with
  | .add => old + b
  | .and => old &&& b
  | .or => old ||| b
  | .xor => old ^^^ b
  | .min => if b.slt old then b else old
  | .max => if old.slt b then b else old
  | .minu => if b.ult old then b else old
  | .maxu => if old.ult b then b else old
  | .exch => b
  | .inc => if old.ult b then old + 1 else 0
  | .dec => if old = 0 ∨ b.ult old then b else old - 1
  | .cas => if old = b then c else old
  | .fadd | .fmin | .fmax => old

/-- The four bytes of a word in a block's BSM. -/
def bsmWord (b : Block) (a : Nat) : Word := b.bsm.get (a + 3) ++ b.bsm.get (a + 2) ++ b.bsm.get (a + 1) ++ b.bsm.get a

end Sys2Proof.Claims

/-- R161, R153, R158, R171: an atomic whose active lanes are all aligned, in range and free of the warp's waiting stores starts with
its operation and each lane's operands, and sets EFFECT; an overlapping store holds it at issue, and so do a full miss queue (R239) and an MMA that may still
read a word of it (R194, log 133). -/
def Sys2Proof.Claims.AtomicsStart : Prop :=
  ∀ (s : State) (f : Fields) (c : Ctx) (i : Mnem × Instr × AtomicOp) (operand : Nat → DWord × DWord) (target : Nat → Nat),
    let reg := fun (n : BitVec 8) (l : Nat) => if f.w64 then c.w.pair n.toNat l else (c.w.elem n.toNat l).setWidth 64
    ((i.1, i.2.1) = (Mnem.atom, Instr.atom f) ∧
      (f.sub.toNat, i.2.2) ∈ [(0, AtomicOp.add), (1, .and), (2, .or), (3, .xor), (4, .min), (5, .max), (6, .minu), (7, .maxu), (8, .exch), (9, .inc), (10, .dec)] ∧
      (∀ l, operand l = (if f.imm then (if f.w64 then immSigned f else ((immSigned f).setWidth 32).setWidth 64) else reg f.b l, 0))) ∨
    (i = (.atomc, .atomc f, .cas) ∧ ∀ l, operand l = (reg f.b l, reg f.c l)) ∨
    ((i.1, i.2.1) = (.atomf, .atomf f) ∧ (f.sub.toNat, i.2.2) ∈ [(0, AtomicOp.fadd), (1, .fmin), (2, .fmax)] ∧
      ∀ l, operand l = ((bFloat c.w f l).setWidth 64, 0)) →
    Issues i.1 f s c → c.active f.guard ≠ 0 → MayRelease c f →
    let sp := if f.x then Space.tsp else .bsm
    let n := if f.w64 then 8 else 4
    let addr := fun l => (c.w.elem f.a.toNat l).toNat
    (∀ l, Active c f l → addr l % n = 0 ∧
      if f.x then translateWindow s.phys s.sys c.b.coreRef c.b.asid (addr l) = some (target l) else target l = addr l ∧ addr l + n ≤ c.b.bsmBytes) →
    let room := sp ≠ .tsp ∨ missRoom s.sys c.b.coreRef c.b.asid ((c.active f.guard).lanes.map fun l => addr l / 65536) = true
    ((∀ l, Active c f l → ¬ Overlaps c sp (target l) n) → ¬ room → exec i.2.1 s = .next (waiting s c .translation)) ∧
    let again := awaitsOperands s.phys s.sys c.b c.w.ops ((c.active f.guard).lanes.map fun l => (sp, target l, n))
    ((∀ l, Active c f l → ¬ Overlaps c sp (target l) n) → room → again = true → exec i.2.1 s = .next (waiting s c .restoredMma)) ∧
    ((∀ l, Active c f l → ¬ Overlaps c sp (target l) n) → room → again = false → ∃ t pages, exec i.2.1 s = .next t ∧
      Started s t c i.1 (f.orderCode % 2 == 1) (.atomic i.2.2 sp f.w64 f.d.toNat ((c.active f.guard).lanes.map fun l =>
        { lane := l, addr := target l, b := (operand l).1, c := (operand l).2 }) pages) ∧
      (t.sys.block c.ref.block).map Block.effect = some true) ∧
    ((∃ l, Active c f l ∧ Overlaps c sp (target l) n) → exec i.2.1 s = .next (waiting s c .overlappingStore))

/-- R162, R161, R289: the Atomic Engine goes on with the instruction that it has taken, and else takes the oldest of the first slice that has
one pending, from slice (cycle mod 6) on, at most one in a core cycle. It performs it, here for one lane on a word of the BSM: the word becomes the new word, the
destination the old one, and every other byte stays; an atomic on floating-point words ORs its flags into FLAGS, an integer atomic
none. HOT_LINE_TRANSFER moves a line to the engine whose request is the oldest, once no other engine has it without having performed
an instruction. -/
def Sys2Proof.Claims.AtomicsPerformed : Prop :=
  (∀ (s : Sys) (k : CoreRef) (i : Nat) (r : WarpRef) (x : Op), (s.core k).taking = none → i < 6 →
    let from_ := fun j => s.pendingAtomic k (((s.tower k.tower).clock.toNat % 6 + j) % 6)
    from_ i = some (r, x) → (∀ j, j < i → from_ j = none) → s.nextAtomic k = some (r, x)) ∧
  (∀ (s : State) (k : CoreRef) (r : WarpRef) (b : Block) (w : Warp) (x : Op) (op : AtomicOp) (dst : Nat) (y : AtomicLane) (pages : List Nat),
    Resident s r b w → w.op x.id = some x → s.sys.nextAtomic k = some (r, x) →
    x.body = .atomic op .bsm false dst [y] pages → y.addr % 4 = 0 → b.bsmPoison = [] →
    let busy := (s.sys.core k).acceptedAt = some (s.sys.tower k.tower).clock.toNat
    (busy → exec (.atomicEngineAccept k) s = .next s) ∧ (¬ busy →
    ∃ t b' v fl, exec (.atomicEngineAccept k) s = .next t ∧ t.phys = s.phys ∧ t.sys.block r.block = some b' ∧ b'.warp r.rank = some v ∧
      v = ((finished w x.id).setElem dst y.lane (bsmWord b y.addr)).orFlags fl ∧
      (∀ a, a < y.addr ∨ y.addr + 4 ≤ a → b'.bsm.get a = b.bsm.get a) ∧
      (op ≠ .fadd → op ≠ .fmin → op ≠ .fmax →
        fl = 0 ∧ bsmWord b' y.addr = newWord op (bsmWord b y.addr) (y.b.setWidth 32) (y.c.setWidth 32)))) ∧
  (∀ (s : State) (k : CoreRef) (line : Nat), k.tower < s.sys.towers.length →
    let q := s.sys.tower k.tower
    let served := (q.lineRequests.find? fun x => x.1 == line) = some (line, k.core) ∧
      ∀ n c, q.cores[n]? = some c → n ≠ k.core → NatSet.has c.newLines line = false
    (¬ served → exec (.hotLineTransfer k line) s = .next s) ∧
    (served → ∃ t, exec (.hotLineTransfer k line) s = .next t ∧ t.phys = s.phys ∧ t.sys.blocks = s.sys.blocks ∧
      (t.sys.tower k.tower).lineRequests = q.lineRequests.filter (fun x => x != (line, k.core)) ∧ ∀ n, n < q.cores.length →
        (line ∈ (t.sys.core { tower := k.tower, core := n }).hotLines ↔ n = k.core)))

/-- Atomics start, wait for overlapping stores, and are performed by the Atomic Engine. The parts: `AtomicsStart`, `AtomicsPerformed`.
The model's choices in it, not the spec's: log 28, 133. -/
def Obligations.Atomics : Prop :=
  Sys2Proof.Claims.AtomicsStart ∧
  Sys2Proof.Claims.AtomicsPerformed

/-- R163, R164, R290, R296: ACCOPEN opens a slot that is closed when its buffers have room, and waits while they have none; AFADDO to an
open slot with contributions left to come starts with its lanes' values; either traps with ACC_SLOT otherwise. -/
def Sys2Proof.Claims.AccumulationStarts : Prop :=
  ∀ (s : State) (f : Fields) (c : Ctx),
    let e := c.active f.guard
    let n := f.d.toNat
    let k := s.sys.core c.b.coreRef
    let a := (c.w.scalar f.a.toNat).toNat
    let count := (scalarB c.w f (immUnsigned f)).toNat
    let used := (k.accSlots.map AccSlot.count).sum
    let here := c.b.tower < s.sys.towers.length ∧ c.b.core < (s.sys.tower c.b.tower).cores.length
    let bad := raised s c { cause := .accSlot, resume := e, addr := n }
    (Issues .accopen f s c → a % 4 = 0 → (translateWindow s.phys s.sys c.b.coreRef c.b.asid a).isSome = true →
      ((∃ x ∈ k.accSlots, x.number = n) ∨ count = 0 ∨ 4096 < count → exec (.accopen f) s = bad) ∧
      ((∀ x ∈ k.accSlots, x.number ≠ n) → 0 < count → count ≤ 4096 → 4096 < used + count →
        exec (.accopen f) s = .next (waiting s c .accRoom)) ∧
      ((∀ x ∈ k.accSlots, x.number ≠ n) → 0 < count → used + count ≤ 4096 → here → ∃ t, exec (.accopen f) s = .next t ∧ t.phys = s.phys ∧
        (t.sys.core c.b.coreRef).accSlots = k.accSlots ++
          [{ number := n, addr := a, asid := c.b.asid, count := count, block := c.b.id, barrier := f.c.toNat }] ∧
        ∀ r, t.sys.warp r = ({ s with sys := s.sys.completedOp c id }).sys.warp r)) ∧
    (Issues .afaddo f s c → e ≠ 0 → MayRelease c f →
      ((∀ x ∈ k.accSlots, x.number ≠ n) → exec (.afaddo f) s = bad) ∧
      ∀ (x : AccSlot) (before later : List AccSlot), k.accSlots = before ++ x :: later → x.number = n →
        (∀ y ∈ before ++ later, y.number ≠ n) →
        (x.count < x.received + e.lanes.length → exec (.afaddo f) s = bad) ∧
        (x.received + e.lanes.length ≤ x.count → here → ∃ t, exec (.afaddo f) s = .next t ∧
          Started s t c .afaddo false (.contribute n (e.lanes.map fun l => (l, c.w.elem f.a.toNat l))) ∧
          (t.sys.block c.ref.block).map Block.effect = some true ∧
          (t.sys.core c.b.coreRef).accSlots = before ++ { x with received := x.received + e.lanes.length } :: later))

/-- R164, R165: contributions reach their slot with the key of their node, stage, rank and lane, and the sum does not depend on the order
in which contributions of different keys arrive: it is the chain of single additions from −0 in ascending keys. -/
def Sys2Proof.Claims.AccumulationSums : Prop :=
  (∀ (s : State) (k : CoreRef) (r : WarpRef) (b : Block) (w : Warp) (x : Op) (n : Nat) (values : List (Nat × Word)),
    Resident s r b w → w.op x.id = some x → b.coreRef = k → s.sys.nextAtomic k = some (r, x) → x.body = .contribute n values →
    k.tower < s.sys.towers.length → k.core < (s.sys.tower k.tower).cores.length →
    (s.sys.core k).acceptedAt ≠ some (s.sys.tower k.tower).clock.toNat →
    ∃ t, exec (.atomicEngineAccept k) s = .next t ∧ t.phys = s.phys ∧
      t.sys.warp r = some (finished w x.id) ∧
      (t.sys.core k).accSlots = (s.sys.core k).accSlots.map fun a => if a.number = n then
        { a with values := a.values ++ values.map fun v =>
          { node := b.node.toNat, stage := b.stage, rank := r.rank, lane := v.1, value := v.2 } } else a) ∧
  (∀ xs ys : List Contribution, xs.Perm ys → (xs.map fun x => (x.node, x.stage, x.rank, x.lane)).Nodup → slotSum xs = slotSum ys) ∧
  (∀ (xs : List Contribution) (x : Contribution), (∀ y ∈ xs, contributionBefore y x = true) → slotSum (xs ++ [x]) =
    BitVec.ofNat 32 (FloatFmt.fp32.deliver nearest false false (sumNums false [fp32 (slotSum xs), fp32 x.value]).1).1) ∧
  slotSum [] = 0x80000000 ∧
  (∀ (s : State) (k : CoreRef) (a : AccSlot) (before later : List AccSlot) (pa : Nat) (b : Block),
    (s.sys.core k).accSlots = before ++ a :: later → (∀ y ∈ before ++ later, y.number ≠ a.number) → a.values.length = a.count →
    translateWindow s.phys s.sys k a.asid a.addr = some pa → s.phys.poison = [] → k.tower < s.sys.towers.length →
    k.core < (s.sys.tower k.tower).cores.length → s.sys.block a.block = some b → a.barrier < 10 →
    ∃ t b', exec (.accSlotSumDone k a.number) s = .next t ∧ t.phys.num pa 4 = (slotSum a.values).toNat ∧
      (∀ q, q < pa ∨ pa + 4 ≤ q → t.phys.byte q = s.phys.byte q) ∧ (t.sys.core k).accSlots = before ++ later ∧
      t.sys.block a.block = some b' ∧ b'.barrier a.barrier = (b.barrier a.barrier).arrive 1)

/-- ACCOPEN, AFADDO and the ordered sum of an accumulation slot. The parts: `AccumulationStarts`, `AccumulationSums`. The model's
choices in it, not the spec's: log 30, 115. -/
def Obligations.AccumulationSlots : Prop :=
  Sys2Proof.Claims.AccumulationStarts ∧
  Sys2Proof.Claims.AccumulationSums

/-! ## Synchronisation -/

/-- R160, R170, R168, R185, R166: FENCE, WAITC and BWAIT stay at issue while their condition fails and complete once it holds; a barrier
that has gone under its count traps BWAIT. -/
def Sys2Proof.Claims.FencesAndWaits : Prop :=
  ∀ (s : State) (f : Fields) (c : Ctx),
    let drained := ∀ x ∈ c.w.ops, x.path = none ∧ x.isStore = false
    let k := s.sys.core c.b.coreRef
    let cards := (∃ x ∈ k.cards, x.block = c.b.id ∧ x.rank = c.w.rank) ∨ ∃ q, k.kick = some q ∧ q.warp = c.ref
    let path := [Path.ldb, .ldt, .ldl, .atom, .mma].getD f.sub.toNat .mma
    let b := c.b.barrier f.d.toNat
    (Issues .fence f s c → drained → (4 ≤ f.scopeCode → ¬ cards) → exec (.fence f) s = .next (after s c c.w)) ∧
    (Issues .fence f s c → ¬ drained ∨ (4 ≤ f.scopeCode ∧ cards) → exec (.fence f) s = .next (waiting s c .fence)) ∧
    (Issues .waitc f s c → f.sub.toNat ≤ 4 → ((c.w.ops.filter fun x => x.path == some path).length ≤ (scalarB c.w f (immUnsigned f)).toNat →
      exec (.waitc f) s = .next (after s c c.w)) ∧
      ((scalarB c.w f (immUnsigned f)).toNat < (c.w.ops.filter fun x => x.path == some path).length →
        exec (.waitc f) s = .next (waiting s c .waitc))) ∧
    (Issues .bwait f s c → (b.count ≠ 0 → exec (.bwait f) s = .next (waiting s c .bwait)) ∧
      (b.count = 0 → b.under = true → exec (.bwait f) s =
        raised s c { cause := .barUnderflow, resume := c.active f.guard, addr := f.d.toNat }) ∧
      (b.count = 0 → b.under = false → exec (.bwait f) s = .next (after s c c.w)))

/-- R166, R167: BARSET sets a barrier's count and clears UNDER; BARARR subtracts at once when the warp has no earlier access
outstanding, and else when those have been performed, here when the last of them, a load, completes; a count that would go below 0 becomes 0 and sets UNDER. -/
def Sys2Proof.Claims.Barriers : Prop :=
  (∀ (s : State) (f : Fields) (c : Ctx), f.d.toNat < 10 →
    let n : Word := (scalarB c.w f (immUnsigned f)).setWidth 32
    (Issues .barset f s c → ∃ t b', exec (.barset f) s = .next t ∧ t.phys = s.phys ∧ t.sys.block c.ref.block = some b' ∧
      (∀ k, k < 10 → b'.barrier k = if k = f.d.toNat then { count := n, under := false } else c.b.barrier k) ∧
      b'.warp c.ref.rank = (after s c c.w).sys.warp c.ref) ∧
    (Issues .bararr f s c → (∀ x ∈ c.w.ops, x.path = none ∧ x.isStore = false ∧ ∀ k m, x.body ≠ .arrive k m) →
      ∃ t b', exec (.bararr f) s = .next t ∧ t.phys = s.phys ∧ t.sys.block c.ref.block = some b' ∧
        (∀ k, k < 10 → b'.barrier k = if k ≠ f.d.toNat then c.b.barrier k
          else if (c.b.barrier k).count.ult n then { count := 0, under := true }
          else { count := (c.b.barrier k).count - n, under := (c.b.barrier k).under }) ∧
        ∃ v, b'.warp c.ref.rank = some v ∧ v.slot c.z = { c.slot with pc := nextPc s c, left := c.slot.left - 1, resume := none, hold := .none }) ∧
    (Issues .bararr f s c → (∃ x rest, c.w.ops = x :: rest ∧ (x.path ≠ none ∨ x.isStore = true) ∧ ∀ k m, x.body ≠ .arrive k m) →
      ∃ t, exec (.bararr f) s = .next t ∧ t.phys = s.phys ∧ (t.sys.block c.ref.block).map Block.barriers = some c.b.barriers ∧
        t.sys.warp c.ref = some (Warp.setSlot
          { c.w with ops := c.w.ops ++ [{ id := s.sys.fresh, slot := c.z, flag := none, path := none, body := .arrive f.d.toNat n.toNat }] }
          c.z fun z => { z with pc := nextPc s c, left := z.left - 1, resume := none, hold := .none }))) ∧
  ∀ (s : State) (r : WarpRef) (b : Block) (w : Warp) (x y : Op) (k m : Nat), s.sys.block r.block = some b → b.warp r.rank = some w → Still b →
    w.ops = [x, y] → x.id ≠ y.id → y.body = .arrive k m → k < 10 → (∃ size dst lanes pages, x.body = .load .bsm size dst lanes pages) →
    ∃ t b', exec (.loadStoreCompletion r x.id .clean) s = .next t ∧ t.sys.block r.block = some b' ∧
      (∀ n, n < 10 → b'.barrier n = if n ≠ k then b.barrier n
        else if (b.barrier k).count.toNat < m then { count := 0, under := true }
        else { count := BitVec.ofNat 32 ((b.barrier k).count.toNat - m), under := (b.barrier k).under }) ∧
      (b'.warp r.rank).map Warp.ops = some []

/-- R169, R222 (c), R223: BSYNC waits until every warp of the block has arrived or exited; the last arrival ends the generation, once no
access of shared memory of the block is outstanding, and every slot of every warp that waits goes on. A warp arrives when each of its valid
slots waits at BSYNC and no store of it is outstanding. The same comes to pass where a slot leaves the warp (RECV, BRK, CONT, EXIT) and where the
work of a warp is done. An MMA is outstanding until it completes (log 133). -/
def Sys2Proof.Claims.BlockSync : Prop :=
  (∀ (s : State) (b : Block), s.sys.block b.id = some b →
    let there := fun (w : Warp) => w.arrived = true ∨ w.atSync = true
    let ends := (∀ w ∈ b.warps, there w ∨ w.exited = true) ∧ (∃ w ∈ b.warps, there w) ∧ ∀ w ∈ b.warps, ∀ x ∈ w.ops, x.holdsRelease = false
    ∃ b', (syncBlock s.phys s.sys b.id).block b.id = some b' ∧ (ends → b'.generation = b.generation + 1) ∧
      (¬ ends → b' = { b with warps := b.warps.map fun w => { w with arrived := w.arrived || w.atSync } })) ∧
  ∀ (s : State) (f : Fields) (c : Ctx), Issues .bsync f s c → (c.b.warps.map Warp.rank).Nodup → c.slot.valid = true →
    let alone := ((c.w.slot (otherSlot c.z)).valid = false ∨ (c.w.slot (otherSlot c.z)).hold = .bsync) ∧ ∀ x ∈ c.w.ops, x.isStore = false
    let others := ∀ w ∈ c.b.warps, w.rank ≠ c.w.rank → w.arrived = true ∨ w.atSync = true ∨ w.exited = true
    let performed := ∀ w ∈ c.b.warps, ∀ x ∈ w.ops, x.holdsRelease = false
    let before := fun (w : Warp) (z : SlotId) => if w.rank = c.w.rank ∧ z = c.z then { w.slot z with hold := Hold.bsync } else w.slot z
    (alone → others → performed → ∃ t b', exec (.bsync f) s = .next t ∧ t.phys = s.phys ∧ t.sys.block c.ref.block = some b' ∧
      b'.generation = c.b.generation + 1 ∧ ∀ w ∈ c.b.warps, ∃ v, b'.warp w.rank = some v ∧ v.arrived = false ∧ ∀ z : SlotId,
        let y := before w z
        (y.valid = false ∨ y.hold ≠ .bsync → v.slot z = y) ∧
        ∀ h : Word, codeWord s.phys s.sys c.b y.pc = some h → h.extractLsb' 0 2 ≠ 3 → y.valid = true → y.hold = .bsync →
          v.slot z = { y with pc := y.pc + (h.extractLsb' 0 2).setWidth 50 + 1, left := y.left - 1, resume := none, hold := .none }) ∧
    (¬ performed ∨ (c.w.arrived = false ∧
        (¬ alone ∨ ∃ w ∈ c.b.warps, w.rank ≠ c.w.rank ∧ w.arrived = false ∧ w.atSync = false ∧ w.exited = false)) →
      ∃ t b' v, exec (.bsync f) s = .next t ∧ t.phys = s.phys ∧ t.sys.block c.ref.block = some b' ∧ b'.generation = c.b.generation ∧
        b'.warp c.ref.rank = some v ∧ v.slot c.z = { c.slot with hold := .bsync })

/-- FENCE, WAITC, BWAIT, BARSET, BARARR and BSYNC. The parts: `FencesAndWaits`, `Barriers`, `BlockSync`. The model's choices in it, not
the spec's: log 130, 133. -/
def Obligations.Synchronisation : Prop :=
  Sys2Proof.Claims.FencesAndWaits ∧
  Sys2Proof.Claims.Barriers ∧
  Sys2Proof.Claims.BlockSync

/-! ## Matrix instructions and job cards -/

/-- R195, R196, R186, R64: MZERO, MRD, MWR, MCERTR and MBYP start with the tile, the column and the values that they name; MBYP takes the
format, the rounding and SAT of its format block, which it reads behind the warp's earlier accesses to it (R221 (b)), or traps where the
block is not aligned, not in the BSM or not valid (R198); with no active lane each completes at once. -/
def Sys2Proof.Claims.TileOperationsStart : Prop :=
  ∀ (s : State) (f : Fields) (c : Ctx),
    let e := c.active f.guard
    let column := (scalarB c.w f (immUnsigned f)).toNat % 64
    (∀ x ∈ [(Mnem.mzero, Instr.mzero f, OpBody.tileZero f.d.toNat e), (.mrd, .mrd f, .tileRead f.d.toNat f.a.toNat column e),
            (.mwr, .mwr f, .tileWrite f.d.toNat column (e.lanes.map fun l => (l, c.w.elem f.a.toNat l))),
            (.mcertr, .mcertr f, .tileCert f.d.toNat f.a.toNat)],
      Issues x.1 f s c → (e = 0 → exec x.2.1 s = .next { s with sys := s.sys.completedOp c id }) ∧
        (e ≠ 0 → ∃ t, exec x.2.1 s = .next t ∧ Started s t c x.1 false x.2.2)) ∧
    (Issues .mbyp f s c →
      let fa := (c.w.scalar f.a.toNat).toNat
      let x := FormatBlock.parse (loadView s.phys c.b c.w c.w.ops .bsm fa 32).1
      let trap := fun (k : Cause) => exec (.mbyp f) s = raised s c { cause := k, resume := e, addr := fa }
      (e ≠ 0 → fa % 32 ≠ 0 → trap .misaligned) ∧ (e ≠ 0 → fa % 32 = 0 → c.b.bsmBytes < fa + 32 → trap .bsmRange) ∧
      (e ≠ 0 → fa % 32 = 0 → fa + 32 ≤ c.b.bsmBytes → readsHeld s.phys s.sys c.b c.w.ops [(.bsm, fa, 32)] = none → x.valid = false → trap .mmaFormat) ∧
      (e = 0 → exec (.mbyp f) s = .next { s with sys := s.sys.completedOp c id }) ∧
      (∀ h, e ≠ 0 → fa % 32 = 0 → fa + 32 ≤ c.b.bsmBytes → readsHeld s.phys s.sys c.b c.w.ops [(.bsm, fa, 32)] = some h →
        exec (.mbyp f) s = .next (waiting s c h)) ∧
      (e ≠ 0 → fa % 32 = 0 → fa + 32 ≤ c.b.bsmBytes → readsHeld s.phys s.sys c.b c.w.ops [(.bsm, fa, 32)] = none → x.valid = true →
        ∃ t, exec (.mbyp f) s = .next t ∧ Started s t c .mbyp false
          (.tileBypass f.d.toNat x.dfmt ([Rnd.rn, .rz, .ru, .rd, .ra].getD x.drnd .rn) x.dsat e)))

/-- R195, R196, R192, R243: what the tile operations leave: MZERO zeroes its active rows, MWR writes one column in the active rows, MRD
reads one, with poison, MCERTR reads TC; BYPF and TC follow, and every other element stays. MBYP rounds each unpoisoned element of the
active rows to its format with FTZ taken as 0, ORs the flags of these roundings into FLAGS and adds the conversion's bound to TC. -/
def Sys2Proof.Claims.TileOperationsComplete : Prop :=
  ∀ (s : State) (r : WarpRef) (b : Block) (w : Warp) (x : Op), Resident s r b w → w.op x.id = some x → w.tileTurn x = true →
    let key := fun (tile row col : Nat) => 4096 * tile + 64 * row + col
    let done := fun (P : Warp → Prop) => ∃ t v, exec (.tileOpCompletion r x.id) s = .next t ∧ t.phys = s.phys ∧ t.sys.warp r = some v ∧
      v.ops = w.ops.filter (fun y => y.id != x.id) ∧ P v
    let ctl := fun (v : Warp) (tile : Nat) (y : TileControl) =>
      ∀ k, k < w.tileCtl.length → v.tileCtl.getD k {} = if k = tile then y else w.tileCtl.getD k {}
    let tc := fun (tile : Nat) => (w.tileCtl.getD tile {}).tc
    (∀ tile e, x.body = .tileZero tile e → done fun v =>
      (∀ k, v.tiles.get k = if k / 4096 = tile ∧ e.getLsbD (k / 64 % 64) = true then 0 else w.tiles.get k) ∧
      ctl v tile { bypf := 7, tc := if e = BitVec.allOnes 64 then 0x03FF else tc tile }) ∧
    (∀ tile col vals, x.body = .tileWrite tile col vals → (vals.map Prod.fst).Nodup → (∀ y ∈ vals, y.1 < 64) → col < 64 → done fun v =>
      (∀ y ∈ vals, v.tiles.get (key tile y.1 col) = y.2 ∧ NatSet.has v.tilePoison (key tile y.1 col) = false) ∧
      (∀ k, (∀ y ∈ vals, k ≠ key tile y.1 col) → v.tiles.get k = w.tiles.get k) ∧ ctl v tile { tc := 0, bypf := 7 }) ∧
    (∀ dst tile col e, x.body = .tileRead dst tile col e → done fun v =>
      (∀ l, l < 64 → e.getLsbD l = true →
        if NatSet.has w.tilePoison (key tile l col) then v.elemPoisoned dst l = true else v.elem dst l = w.tiles.get (key tile l col)) ∧
      (∀ n l, l < 64 → ¬ (n = dst ∧ e.getLsbD l = true) → v.elem n l = w.elem n l) ∧ v.tiles = w.tiles) ∧
    (∀ dst tile, x.body = .tileCert dst tile → done fun v => v.s = (w.setScalar dst ((tc tile).setWidth 64)).s ∧ v.tiles = w.tiles) ∧
    (∀ tile fmt rnd sat e, x.body = .tileBypass tile fmt rnd sat e → done fun v =>
      (∀ k, v.tiles.get k = if k / 4096 = tile ∧ e.getLsbD (k / 64 % 64) = true ∧ NatSet.has w.tilePoison k = false
        then (bypassElement fmt rnd sat (w.tiles.get k)).1 else w.tiles.get k) ∧
      v.tilePoison = w.tilePoison ∧
      v.flags = w.flags ||| (((e.lanes.flatMap fun i => (List.range 64).map fun j => key tile i j).filter fun k => !NatSet.has w.tilePoison k).map
        fun k => (bypassElement fmt rnd sat (w.tiles.get k)).2).foldl (fun a y => a ||| y) 0 ∧
      ctl v tile { bypf := BitVec.ofNat 3 fmt, tc := BitVec.ofNat 16 (logAdd ((tc tile).toNat % 1024) (convBound fmt rnd)) }) ∧
    ∀ (fmt : Nat) (rnd : Rnd) (sat : Bool) (z : Word), fmt < 6 → Finite (fp32 z) → ∃ y, Rounded (FloatFmt.ofCode fmt) { mode := rnd } sat false (real (fp32 z)) y ∧
      (bypassElement fmt rnd sat z).2 = y.2 ∧
      (Finite ((FloatFmt.ofCode fmt).value y.1) → real (fp32 (bypassElement fmt rnd sat z).1) = real ((FloatFmt.ofCode fmt).value y.1))

/-- Tile instructions start and complete. The parts: `TileOperationsStart`, `TileOperationsComplete`. The model's choices in it, not the
spec's: log 12, 133, 146. -/
def Obligations.TileOperations : Prop :=
  Sys2Proof.Claims.TileOperationsStart ∧
  Sys2Proof.Claims.TileOperationsComplete

namespace Sys2Proof.Claims

/-- The first address that an MMA finds misaligned (R187, R188): a descriptor of A or B whose ADDR or STRIDE is no multiple of 16 gives its ADDR;
then SCA, SCB and META, multiples of 4, where they are used. -/
def misplaced (k : MmaWork) : Option Nat :=
  let bad := fun (d : DWord) => (d.extractLsb' 0 32).toNat % 16 ≠ 0 ∨ (d.extractLsb' 32 24).toNat % 16 ≠ 0
  if k.byp = false ∧ bad k.aDesc then some (k.aDesc.extractLsb' 0 32).toNat
  else if bad k.bDesc then some (k.bDesc.extractLsb' 0 32).toNat
  else if natBits k.fb 7 6 ≠ 0 ∧ natBits k.fb 63 32 % 4 ≠ 0 then some (natBits k.fb 63 32)
  else if natBits k.fb 9 8 ≠ 0 ∧ natBits k.fb 95 64 % 4 ≠ 0 then some (natBits k.fb 95 64)
  else if k.sparse = true ∧ natBits k.fb 127 96 % 4 ≠ 0 then some (natBits k.fb 127 96)
  else none

end Sys2Proof.Claims

/-- R187 to R193, R196, R239, R295: an MMA or MMAS of either form with a format block that fits it and operands in place starts, with what it
reads at issue, counts in its core's slew window and holds its slot until its rows are fetched. A format block not aligned or not in the BSM raises
MISALIGNED or BSM_RANGE, one that R188 to R191 refuse, or a reserved descriptor bit, MMA_FORMAT, and an operand MISALIGNED (in the order of log 45,
only where it is used: log 138) or BSM_RANGE, with its address. It waits for an earlier writer of its bypass tile (log 112), for room in the window,
its slice's turn, room in the miss queue and earlier accesses to its format block (R221 (b)); with no active lane it completes at its issue, and
counts (R54, log 12). -/
def Sys2Proof.Claims.MatrixIssue : Prop :=
  ∀ (s : State) (f : Fields) (c : Ctx) (i : Mnem × Instr × Bool × Bool) (k : MmaWork),
    i ∈ [(Mnem.mma, Instr.mma f, false, false), (.mmaByp, .mmaByp f, false, true), (.mmas, .mmas f, true, false), (.mmasByp, .mmasByp f, true, true)] →
    Issues i.1 f s c →
    let e := c.active f.guard
    let q := s.sys.rolledCore c.b.coreRef
    let fa := (c.w.scalar f.c.toNat).toNat
    let x := FormatBlock.parse k.fb
    let behind := i.2.2.2 = true ∧ ∃ y ∈ c.w.ops, y.writesTile f.a.toNat = true
    let full := q.mstep ≠ 0 ∧ q.mmaPrev + q.mstep ≤ q.mmaNow
    let slewed := full ∨ s.sys.sliceTurn c.b.coreRef .slew c.w.slice = false
    (e ≠ 0 → behind → exec i.2.1 s = .next (waiting s c .bypassTile)) ∧
    (¬ (e ≠ 0 ∧ behind) → slewed → exec i.2.1 s = .next (waiting s c .slew)) ∧
    (e = 0 → ¬ slewed → exec i.2.1 s = .next { s with sys := (s.sys.completedOp c id).countMma c.b.coreRef }) ∧
    (∀ h, e ≠ 0 → ¬ behind → ¬ slewed → fa % 32 = 0 → fa + 32 ≤ c.b.bsmBytes →
      readsHeld s.phys s.sys c.b c.w.ops [(.bsm, fa, 32)] = some h → exec i.2.1 s = .next (waiting s c h)) ∧
    let trap := fun (k : Cause) (a : Nat) => exec i.2.1 s = raised s c { cause := k, resume := e, addr := a }
    (e ≠ 0 → ¬ behind → ¬ slewed → fa % 32 ≠ 0 → trap .misaligned fa) ∧
    (e ≠ 0 → ¬ behind → ¬ slewed → fa % 32 = 0 → c.b.bsmBytes < fa + 32 → trap .bsmRange fa) ∧
    (e ≠ 0 → ¬ behind → ¬ slewed → fa % 32 = 0 → fa + 32 ≤ c.b.bsmBytes →
      k.fb = (loadView s.phys c.b c.w c.w.ops .bsm fa 32).1 → readsHeld s.phys s.sys c.b c.w.ops [(.bsm, fa, 32)] = none →
      k.aDesc = (if i.2.2.2 then 0 else c.w.scalar f.a.toNat) → k.bDesc = c.w.scalar f.b.toNat →
      let good := x.fits i.2.2.1 i.2.2.2 ((c.w.tileCtl.getD f.a.toNat {}).bypf.toNat) = true ∧
        k.aDesc.extractLsb' 57 7 = 0 ∧ k.bDesc.extractLsb' 57 7 = 0
      (¬ good → trap .mmaFormat fa) ∧ (good →
      k.fmtA = (if x.auto then autoMatrix c.b c.w.tol.toNat k.kd else x.afmt) →
      k.fmtB = (if x.auto then autoMatrix c.b c.w.tol.toNat k.kd else x.bfmt) →
      k = { sparse := i.2.2.1, byp := i.2.2.2, tile := f.d.toNat, aTile := f.a.toNat, aDesc := k.aDesc, bDesc := k.bDesc, fbAddr := fa,
            fb := k.fb, kd := x.kd i.2.2.1, fmtA := k.fmtA, fmtB := k.fmtB, bound := mmaBound k.fmtA k.fmtB k.kd, ftz := c.w.ftz,
            active := e, start := if c.slot.resume.isSome then c.w.rpr.toNat else 0 } →
      (∀ a, misplaced k = some a → trap .misaligned a) ∧ (∀ a, misplaced k = none → k.outside c.b = some a → trap .bsmRange a) ∧
      (misplaced k = none → k.outside c.b = none →
      (s.sys.mmaRoom c k = false → exec i.2.1 s = .next (waiting s c .translation)) ∧
      (s.sys.mmaRoom c k = true → c.b.tower < s.sys.towers.length → c.b.core < (s.sys.tower c.b.tower).cores.length →
      ∃ t, exec i.2.1 s = .next t ∧ t.phys = s.phys ∧ (t.sys.core c.b.coreRef).mmaNow = q.mmaNow + 1 ∧
        t.sys.warp c.ref = some (Warp.setSlot
          { c.w with ops := c.w.ops ++ [{ id := s.sys.fresh, slot := c.z, flag := flagOf i.1 c, path := some .mma, body := .mma k }] } c.z
          fun z => { z with hold := .rowFetch, serialOp := if z.serial then some s.sys.fresh else none })))))

namespace Sys2Proof.Claims

/-- The flags of an MMA's rows, each with the elements that the tile held before. -/
def rowFlags (k : MmaWork) (w : Warp) (rows : List (Nat × Nat × Nat × Nat)) : BitVec 5 :=
  rows.foldl (fun fl y => (List.range 64).foldl (fun fl j =>
    fl ||| (matrixElement k.ftz (w.tiles.get (4096 * k.tile + 64 * y.1 + j)) (k.aValues y) (k.bColumn j)).2) fl) 0

/-- The rows hold the results of an MMA. -/
def RowsHold (k : MmaWork) (w v : Warp) (rows : List (Nat × Nat × Nat × Nat)) : Prop :=
  ∀ y ∈ rows, ∀ j, j < 64 → v.tiles.get (4096 * k.tile + 64 * y.1 + j) =
    (matrixElement k.ftz (w.tiles.get (4096 * k.tile + 64 * y.1 + j)) (k.aValues y) (k.bColumn j)).1

end Sys2Proof.Claims

/-- R193, R291, R221: the row fetches of an MMA: B first, then the active rows ascending, each after the warp's earlier accesses to its bytes and
the whole fetch of an earlier restored MMA (R194, log 133); with the last the slot goes on; a failing fetch raises its fault with the rows from there
to resume, after the finished rows are written with their flags, and RPR is the row. -/
def Sys2Proof.Claims.MatrixFetch : Prop :=
  ∀ (s : State) (r : WarpRef) (b : Block) (w : Warp) (x : Op) (k : MmaWork), Resident s r b w → w.op x.id = some x → x.body = .mma k →
    k.fetched = false → k.restored = false → k.waitPage = none → w.tileTurn x = true → (s.sys.rolledCore b.coreRef).budget = 0 →
    (w.ops.map Op.id).Nodup →
    let early := w.earlier x.id
    let held := fun (ps : List Piece) => piecesHeld s.phys s.sys b early ps
    ((∃ y ∈ early, y.rereads = true) → exec (.mmaRowFetch r x.id) s = .next s) ∧ ((∀ y ∈ early, y.rereads = false) →
    let kept := fun (k1 : MmaWork) => ∃ t, exec (.mmaRowFetch r x.id) s = .next t ∧ t.phys = s.phys ∧
      t.sys.warp r = some { w with ops := w.ops.map fun y => if y.id = x.id then { y with body := .mma k1 } else y }
    (∀ ps, (k.bRows = none ∧ ps = k.bPieces) ∨ (∃ rows i rest, k.bRows = some rows ∧ k.remaining = i :: rest ∧ ps = k.aPieces i) →
      held ps = true → exec (.mmaRowFetch r x.id) s = .next s) ∧
    (∀ rows scales, k.bRows = none → held k.bPieces = false → k.fetchB s.phys s.sys b w early = .ok (rows, scales) →
      let k1 : MmaWork := { k with counted := false, bRows := some rows, bScales := scales }
      k1.remaining ≠ [] → kept k1) ∧
    (∀ rows i rest y, k.bRows = some rows → k.remaining = i :: rest → held (k.aPieces i) = false →
      k.fetchRow s.phys s.sys b w early i = .ok y →
      let k1 : MmaWork := { k with aRows := k.aRows ++ [y] }
      (k1.remaining ≠ [] → kept k1) ∧
      (k1.remaining = [] → ∀ h, codeWord s.phys s.sys b (w.slot x.slot).pc = some h → h.extractLsb' 0 2 ≠ 3 →
        ∃ t v, exec (.mmaRowFetch r x.id) s = .next t ∧ t.phys = s.phys ∧ t.sys.warp r = some v ∧
          v.slot x.slot = { w.slot x.slot with pc := (w.slot x.slot).pc + (h.extractLsb' 0 2).setWidth 50 + 1, left := (w.slot x.slot).left - 1,
                                               resume := none, hold := .none, issued := (w.slot x.slot).issued + 1 } ∧
          ∃ z, v.op x.id = some z ∧ z.body = .mma { k1 with fetched := true })) ∧
    (∀ i cause addr, (k.bRows = none ∧ i = k.start ∧ held k.bPieces = false ∧ k.fetchB s.phys s.sys b w early = .error (cause, addr)) ∨
        (∃ rows rest, k.bRows = some rows ∧ k.remaining = i :: rest ∧ held (k.aPieces i) = false ∧
          k.fetchRow s.phys s.sys b w early i = .error (cause, addr)) → cause ≠ .windowFault →
      (∃ y ∈ w.ops, y.id ≠ x.id ∧ y.slot = x.slot ∧ ∀ d n q, y.body ≠ .tighten d n q ∧ y.body ≠ .arrive d n) →
      (k.aRows.map Prod.fst).Nodup → (∀ y ∈ k.aRows, y.1 < 64) →
      let done := k.aRows.filter fun y => y.1 < i
      ∃ t v, exec (.mmaRowFetch r x.id) s = .next t ∧ t.phys = s.phys ∧ t.sys.warp r = some v ∧ v.rpr = BitVec.ofNat 8 i ∧ v.op x.id = none ∧
        RowsHold k w v done ∧ v.flags = w.flags ||| rowFlags k w done ∧
        (∀ q, (∀ y ∈ done, q / 64 ≠ 64 * k.tile + y.1) → v.tiles.get q = w.tiles.get q) ∧
        ∃ resume, (v.slot x.slot).trap = some { cause := cause, resume := resume, addr := addr } ∧
          ∀ l, l < 64 → (resume.getLsbD l = true ↔ k.active.getLsbD l = true ∧ i ≤ l)))

/-- R193, R89, R192, R194, R196: MMA_COMPLETION writes every fetched row's 64 elements by the order of summation, poisons the rows that a
re-execution could not fetch, sets MCERT to the bound, RPR to 0, BYPF to none, adds the bound to TC and ORs its rows' flags into FLAGS, after the
completion of the warp's earlier MMAs (log 133). One element without a product is its old value. -/
def Sys2Proof.Claims.MatrixComplete : Prop :=
  (∀ (s : State) (r : WarpRef) (b : Block) (w : Warp) (x : Op) (k : MmaWork), Resident s r b w → w.op x.id = some x → x.body = .mma k →
    k.fetched = true → w.tileTurn x = true → (k.aRows.map Prod.fst).Nodup → (∀ y ∈ k.aRows, y.1 < 64) →
    (∀ i ∈ k.bad, i < 64 ∧ ∀ y ∈ k.aRows, y.1 ≠ i) →
    let earlier := ∃ y ∈ w.earlier x.id, ∃ q, y.body = .mma q
    (earlier → exec (.mmaCompletion r x.id) s = .next s) ∧ (¬ earlier →
    ∃ t v, exec (.mmaCompletion r x.id) s = .next t ∧ t.phys = s.phys ∧ t.sys.warp r = some v ∧
      v.ops = w.ops.filter (fun y => y.id != x.id) ∧ v.rpr = 0 ∧ v.mcert = BitVec.ofNat 16 k.bound ∧
      RowsHold k w v k.aRows ∧ v.flags = w.flags ||| (k.flags ||| rowFlags k w k.aRows) ∧
      (∀ i ∈ k.bad, ∀ j, j < 64 → NatSet.has v.tilePoison (4096 * k.tile + 64 * i + j) = true) ∧
      (∀ q, (∀ y ∈ k.aRows, q / 64 ≠ 64 * k.tile + y.1) → (∀ i ∈ k.bad, q / 64 ≠ 64 * k.tile + i) → v.tiles.get q = w.tiles.get q) ∧
      (k.tile < w.tileCtl.length → v.tileCtl.getD k.tile {} =
        { bypf := 7, tc := BitVec.ofNat 16 (logAdd ((w.tileCtl.getD k.tile {}).tc.toNat % 1024) k.bound) }))) ∧
  (∀ (old : Word) (b : List Machine.Num), ¬ IsNaN old → matrixElement false old [] b = (old, 0))

namespace Sys2Proof.Claims

/-- `y` is `x` rounded to FP32X under RN (R78, R80): a multiple of 2^e of at most 24 bits, e at least −533, none of which is nearer, and on a tie
the one whose last bit is 0. -/
def NearestX (x y : ℚ) : Prop :=
  let isX := fun (z : ℚ) => ∃ (m : ℤ) (e : ℤ), |m| ≤ 2 ^ 24 ∧ -533 ≤ e ∧ z = m * 2 ^ e
  isX y ∧ ∀ z, isX z → |x - y| ≤ |x - z| ∧ (|x - y| = |x - z| → z ≠ y → ∃ k : ℤ, y = 2 * k * |y - z|)

end Sys2Proof.Claims

/-- R89, R78: the order of summation of one element with finite operands: in ascending k, the exact sum of each group of eight products is
rounded to FP32X and added to the accumulator, which starts as the tile's value and is rounded to FP32X; the last one is rounded to FP32 under RN and
FTZ. IX is set by each rounding that is inexact, and the last rounding's flags with it. -/
def Sys2Proof.Claims.SummationOrder : Prop :=
  ∀ (ftz : Bool) (old : Word) (a : List (Option Machine.Num)) (b : List Machine.Num), a.length = b.length → a.length ≤ 256 → Finite (fp32 old) →
    (∀ x, some x ∈ a → Finite x) → (∀ y ∈ b, Finite y) →
    let product := fun (k : Nat) => match a[k]? with | some (some x) => real x * real (b.getD k (.fin false 0 0)) | _ => 0
    let group := fun (g : Nat) => ((List.range 8).map fun j => product (8 * g + j)).sum
    let n := (a.length + 7) / 8
    ∃ (s acc : Nat → ℚ) (inexact : Bool) (y : Nat × BitVec 5), acc 0 = real (fp32 old) ∧
      (∀ g, g < n → NearestX (group g) (s g) ∧ NearestX (acc g + s g) (acc (g + 1))) ∧
      (inexact = true ↔ ∃ g, g < n ∧ (s g ≠ group g ∨ acc (g + 1) ≠ acc g + s g)) ∧
      Rounded .fp32 nearest false ftz (acc n) y ∧ matrixElement ftz old a b = (BitVec.ofNat 32 y.1, y.2 ||| if inexact then 16 else 0)

/-- MMA and MMAS: issue, row fetches, the order of summation, completion. The parts: `MatrixIssue`, `MatrixFetch`, `SummationOrder`,
`MatrixComplete`. The model's choices in it, not the spec's: log 12, 27, 42, 45, 46, 47, 112, 114, 133, 138. -/
def Obligations.MatrixMultiply : Prop :=
  Sys2Proof.Claims.MatrixIssue ∧
  Sys2Proof.Claims.MatrixFetch ∧
  Sys2Proof.Claims.SummationOrder ∧
  Sys2Proof.Claims.MatrixComplete

/-- R174, R179, R180, R181, R283, R284: KICK reads its chain from the BSM once its warp is drained, the kick register free, no other chain taken
in this cycle and its slice's turn come, and fills the kick register; a failing card traps with its address. MDRAIN waits besides for its tile
and a drain buffer, and adds the snapshot. CARD_ENTER_CHECKER moves the next card into the checker while it has room, behind the earlier cards of
the core, saved ones too (log 123), that its footprint meets, but for those that wait for it; the last one completes the KICK. -/
def Sys2Proof.Claims.CardsKicked : Prop :=
  (∀ (s : State) (f : Fields) (c : Ctx) (i : Mnem × Instr × Bool) (cards : List Card),
    i ∈ [(Mnem.kick, Instr.kick f, false), (.mdrain, .mdrain f, true)] → Issues i.1 f s c →
    let k := s.sys.core c.b.coreRef
    let drained := ∀ x ∈ c.w.ops, x.path = none ∧ x.isStore = false
    let chain := readChain c i.2.2 f.scopeCode 16 (c.w.scalar f.a.toNat).toNat
    (¬ drained → exec i.2.1 s = .next (waiting s c .release)) ∧
    let turn := k.kick = none ∧ k.kickAt ≠ some (s.sys.tower c.b.tower).clock.toNat ∧ s.sys.sliceTurn c.b.coreRef .kickRegister c.w.slice = true
    let tileBusy := i.2.2 = true ∧ ((∃ x ∈ c.w.ops, f.d.toNat ∈ x.tiles) ∨ 2 ≤ drainBuffers s.sys c)
    (drained → ¬ turn → exec i.2.1 s = .next (waiting s c .kickRegister)) ∧
    (drained → turn → tileBusy → exec i.2.1 s = .next (waiting s c .drainBuffer)) ∧
    (drained → turn → ¬ tileBusy → (∀ x ∈ c.w.ops, x.id < s.sys.fresh) →
      (∀ cause a, chain = .error (cause, a) → exec i.2.1 s = raised s c { cause := cause, resume := c.active f.guard, addr := a }) ∧
      (chain = .ok cards → c.b.tower < s.sys.towers.length → c.b.core < (s.sys.tower c.b.tower).cores.length →
        ∃ t q, exec i.2.1 s = .next t ∧ t.phys = s.phys ∧ (t.sys.core c.b.coreRef).kick = some q ∧ q.warp = c.ref ∧
          (t.sys.core c.b.coreRef).kickAt = some (s.sys.tower c.b.tower).clock.toNat ∧
          q.cards.map (fun x => (x.addr, x.card, x.shape, x.fmt, x.drain)) = cards.map (fun x => (x.addr, x.card, x.shape, x.fmt,
            if i.2.2 then some (tileSnapshot c.w f.d.toNat) else none)) ∧
          (∃ v x, t.sys.warp c.ref = some v ∧ v.op q.op = some x ∧ x.body = .kick) ∧
          ((t.sys.block c.ref.block).map Block.effect = some true ↔ c.b.effect = true ∨ ∃ x ∈ cards, x.job.outside c.b x.fmt = true)))) ∧
  (∀ (s : State) (k : CoreRef) (q : KickChain) (x : Card) (rest : List Card) (b : Block) (w : Warp),
    k.tower < s.sys.towers.length → k.core < (s.sys.tower k.tower).cores.length → (s.sys.core k).kick = some q → q.cards = x :: rest →
    (s.sys.core k).cards.length < 64 → Resident s q.warp b w → ∃ t behind, exec (.cardEnterChecker k) s = .next t ∧ t.phys = s.phys ∧
      (t.sys.core k).cards = (s.sys.core k).cards ++ [{ x with behind := behind }] ∧
      (∀ n ∈ behind, ∃ y ∈ s.sys.earlierCards k, x.waitsFor y = true ∧ y.id = n) ∧
      ((∀ z ∈ s.sys.allCards, x.id ∉ z.behind) → ∀ y ∈ s.sys.earlierCards k, x.waitsFor y = true → y.id ≠ x.id → y.id ∈ behind) ∧
      (∀ y ∈ s.sys.earlierCards k, x.id ∈ y.behind → y.id ∉ behind) ∧
      (rest = [] → (t.sys.core k).kick = none ∧ t.sys.warp q.warp = some (finished w q.op)) ∧
      (rest ≠ [] → (t.sys.core k).kick = some { q with cards := rest } ∧ t.sys.warp q.warp = some w))

/-- R284, R285, R182, R179, R181: the Copy Engine starts the first waiting card that no uncompleted earlier card holds back and whose block is
not stopping; the chunk of a
FILL of bytes in one 4 KiB block of the BSM writes exactly its bytes; and completion writes CHOSEN and CFLAGS into the card, arrives on its
barrier with the bytes of the last chunk and takes the card out of the checker. -/
def Sys2Proof.Claims.CardsCarriedOut : Prop :=
  ∀ (s : State) (k : CoreRef) (x : Card) (before later : List Card) (b : Block), k.tower < s.sys.towers.length →
    k.core < (s.sys.tower k.tower).cores.length → (s.sys.core k).cards = before ++ x :: later → (∀ y ∈ before ++ later, y.id ≠ x.id) →
    s.sys.block x.block = some b → b.stopping = false → b.bsmPoison = [] →
    let j := x.job
    let blocked := fun (y : Card) => ∃ z ∈ s.sys.allCards, z.id ∈ y.behind
    (x.state = .waiting → ¬ blocked x →
      (∀ y ∈ before, y.state ≠ .waiting ∨ blocked y ∨ ∀ c, s.sys.block y.block = some c → c.stopping = true) →
      ((s.sys.core k).cards.filter fun y => y.state == .running).length < 8 → ∃ t, exec (.cardStart k) s = .next t ∧ t.phys = s.phys ∧
        (t.sys.core k).cards = before ++ { x with state := .running } :: later) ∧
    (x.state = .running → x.written = false → x.nextn = 0 → x.cnibs = 0 → x.page = none → j.op = 7 → j.esz = 0 → j.nd = 0 → j.dstSp = 1 → j.srcSp = 0 →
      j.clip.getD 0 0 = 0 → 0 < j.ext.getD 0 0 → j.dst / 4096 = (j.dst + j.ext.getD 0 0 - 1) / 4096 → j.dst + j.ext.getD 0 0 ≤ b.bsmBytes →
      ∃ t b', exec (.cardChunk k x.id .ok) s = .next t ∧ t.phys = s.phys ∧ t.sys.block x.block = some b' ∧
        (∀ a, b'.bsm.get a = if j.dst ≤ a ∧ a < j.dst + j.ext.getD 0 0 then BitVec.ofNat 8 j.fillv else b.bsm.get a) ∧
        ∃ y, (t.sys.core k).cards = before ++ y :: later ∧ y.written = true ∧ y.cnibs = 2 * j.ext.getD 0 0 ∧ y.id = x.id) ∧
    (x.written = true → x.addr + 3 < b.bsmBytes → j.bar < 10 → 0 < x.cnibs → ∃ t b', exec (.cardComplete k x.id) s = .next t ∧ t.phys = s.phys ∧
      t.sys.block x.block = some b' ∧ (t.sys.core k).cards = before ++ later ∧
      (∀ a, b'.bsm.get a = if a = x.addr + 3 then x.cflags ++ BitVec.ofNat 3 x.fmt else b.bsm.get a) ∧
      b'.barrier j.bar = (b.barrier j.bar).arrive ((x.cnibs + 1) / 2))

namespace Sys2Proof.Claims

/-- Index k of an element from its linear index, with dimension 0 fastest (R178); 0 for a dimension that is not in use. -/
def elementIndex (j : JobCard) (n k : Nat) : Nat :=
  if k ≤ j.nd then n / ((List.range k).map fun m => j.ext.getD m 0).prod % j.ext.getD k 0 else 0

/-- The card has an element of this linear index, and it is not clipped. -/
def LiveElement (j : JobCard) (n : Nat) : Prop :=
  n < ((List.range (j.nd + 1)).map fun m => j.ext.getD m 0).prod ∧ ∀ k, k ≤ j.nd → j.clip.getD k 0 = 0 ∨ elementIndex j n k < j.clip.getD k 0

/-- The half-byte addresses of an element's source and destination (R178): the row is that of the index list for GATHER_ROWS and SCATTER_ADD. -/
def elementAt (j : JobCard) (b : Block) (fmt n : Nat) : Int × Int :=
  let i := elementIndex j n
  let listed := bytesToNat ((List.range 4).map fun m => b.bsm.get (j.idx + 4 * i 1 + m))
  let reach := fun (base size : Nat) (st : List Int) (row : Nat) =>
    2 * (base : Int) + i 0 * size + 2 * (row * st.getD 1 0 + i 2 * st.getD 2 0 + i 3 * st.getD 3 0)
  (reach j.src j.srcSize j.ss (if j.op = 2 then listed else i 1), reach j.dst (j.dstSize fmt) j.ds (if j.op = 3 then listed else i 1))

/-- A byte of a place. -/
def placeByte (s : State) (b : Block) (x : Place) (i : Nat) : Byte :=
  match x with | .bsm a => b.bsm.get (a + i) | .phys pa => s.phys.byte (pa + i)

/-- The bits of an element at a place: whole bytes, or one half of a byte, the low one at an even address. -/
def elementBits (s : State) (b : Block) (x : Place) (at_ : Int) (nibs : Nat) : Nat :=
  let v := bytesToNat ((List.range (max 1 (nibs / 2))).map (placeByte s b x))
  if nibs = 1 then (if at_ % 2 = 0 then v % 16 else v / 16) else v

/-- An element's end is reached at a place, and a page that it needs is in the core's cache. -/
def Reached (s : State) (b : Block) (x : Card) (sp : Nat) (at_ : Int) (nibs : Nat) (rd wr : Bool) (place : Place) : Prop :=
  (sp = 1 ∨ sp = 2 ∨ sp = 3) ∧ cardPlace s.phys s.sys b x sp (at_ / 2) (sizeBytes nibs) rd wr = .ok place ∧
  (sp = 2 → cachedWindow s.sys b.coreRef x.asid ((at_ / 2).toNat / 65536) ≠ none) ∧
  (sp = 3 → cachedPage s.sys b.coreRef x.asid (at_ / 2).toNat ≠ none)

/-- A value converted to a format with FTZ taken as 0 (R86, R181). -/
def Converts (g : FloatFmt) (r : Rounding) (sat : Bool) (z : Machine.Num) (y : Nat × BitVec 5) : Prop :=
  (Finite z → real z ≠ 0 → Rounded g r sat false (real z) y) ∧ ConvertSpecial g sat z y

/-- The exact sum of two values, and IV (R75, R79 (e), R88). -/
def SumIs (down : Bool) (p q z : Machine.Num) (fl : BitVec 5) : Prop :=
  (Finite p → Finite q → Finite z ∧ real z = real p + real q ∧ fl = 0 ∧
    (real z = 0 → negative z = if negative p = negative q then negative p else down)) ∧
  (NaNAmong [p, q] → z = .nan false ∧ fl = if p = .nan true ∨ q = .nan true then 1 else 0) ∧
  (∀ s, (p = .inf s ∧ (q = .inf s ∨ Finite q)) ∨ (q = .inf s ∧ Finite p) → z = .inf s ∧ fl = 0) ∧
  (∀ s, p = .inf s → q = .inf (!s) → z = .nan false ∧ fl = 1)

end Sys2Proof.Claims

/-- R175, R178, R181: the next live element of a running card, in ascending linear index, whose ends are reached and clean, is written at its
destination, and no other byte: COPY and GATHER_ROWS write the source element, CONVERT and TILE_STORE its conversion under the card's RND, SAT and
draw, SCATTER_ADD and TILE_ADD the rounded sum with the old one, FILL its pattern. CFLAGS take the flags, without DZ. -/
def Sys2Proof.Claims.CardElements : Prop :=
  (∀ (j : JobCard) (m n : Nat), j.nd < 4 → j.ext.length = 4 → (∀ k, k ≤ j.nd → 0 < j.ext.getD k 0 ∧ j.clip.getD k 0 ≤ j.ext.getD k 0) →
    (j.liveAt m = some n ↔ m ≤ n ∧ LiveElement j n ∧ ∀ q, m ≤ q → q < n → ¬ LiveElement j q)) ∧
  ∀ (s : State) (k : CoreRef) (x : Card) (before later : List Card) (b : Block) (n : Nat) (dp : Place) (raw : Nat), k.tower < s.sys.towers.length →
    k.core < (s.sys.tower k.tower).cores.length → (s.sys.core k).cards = before ++ x :: later → (∀ y ∈ before ++ later, y.id ≠ x.id) →
    s.sys.block x.block = some b → b.stopping = false → b.bsmPoison = [] → s.phys.poison = [] → s.sys.inputs.hostErrors = [] →
    (s.sys.rolledCore k).budget = 0 → x.state = .running → x.written = false →
    let j := x.job
    let ed := j.dstSize x.fmt
    let at_ := elementAt j b x.fmt n
    j.liveAt x.nextn = some n → LiveElement j n → (x.page = none ∨ x.page = some (at_.2 / 8192)) → 1 ≤ j.op → j.op ≤ 7 → x.fmt ≤ 5 → (j.op = 3 → x.fmt = 0) →
    Reached s b x j.dstSp at_.2 ed (j.op = 3 ∨ j.op = 6) true dp →
    (j.op ≤ 4 → ∃ sp, Reached s b x j.srcSp at_.1 j.srcSize true false sp ∧ raw = elementBits s b sp at_.1 j.srcSize ∧
      ∀ w ∈ x.before, match sp with
        | .bsm a => w.bsm = true → a + sizeBytes j.srcSize ≤ w.badAt ∨ w.badAt + w.bad.length ≤ a
        | .phys a => w.bsm = false → a + sizeBytes j.srcSize ≤ w.badAt ∨ w.badAt + w.bad.length ≤ a) →
    (j.op = 5 ∨ j.op = 6 → ∃ d, x.drain = some d ∧ let key := 64 * elementIndex j n 1 + elementIndex j n 0
      raw = (d.1.get key).toNat ∧ NatSet.has d.2 key = false) →
    let g := FloatFmt.ofCode x.fmt
    let r : Rounding := { mode := [Rnd.rn, .rz, .ru, .rd, .ra, .sr].getD j.rnd .rn, draw := if j.rnd = 5 then srDraw x.rngkey j.seed n else 0 }
    let value := (FloatFmt.ofCode (if j.op ≤ 4 then j.cfs else 0)).value raw
    ∃ t b' y v fl, exec (.cardChunk k x.id (.part 1)) s = .next t ∧ t.sys.block x.block = some b' ∧
      (j.op ≤ 2 → v = raw ∧ fl = 0) ∧ (j.op = 7 → v = (if ed = 16 then j.fillv + j.fillv * 2 ^ 32 else j.fillv % 2 ^ (4 * ed)) ∧ fl = 0) ∧
      (j.op = 4 ∨ j.op = 5 → Converts g r j.sat value (v, fl)) ∧
      (j.op = 3 ∨ j.op = 6 → ∃ z f1 f2, SumIs (decide (r.mode = .rd)) (g.value (elementBits s b dp at_.2 ed)) value z f1 ∧
        Converts g r j.sat z (v, f2) ∧ fl = f1 ||| f2) ∧
      (let old := (placeByte s b dp 0).toNat
       let data := if ed = 1 then (if at_.2 % 2 = 0 then old / 16 * 16 + v % 16 else old % 16 + v % 16 * 16) else v
       let here := fun (a q : Nat) => a ≤ q ∧ q < a + sizeBytes ed
       match dp with
       | .bsm a => t.phys = s.phys ∧ ∀ q, b'.bsm.get q = if here a q then BitVec.ofNat 8 (data / 256 ^ (q - a)) else b.bsm.get q
       | .phys a => b'.bsm = b.bsm ∧ ∀ q, t.phys.byte q = if here a q then BitVec.ofNat 8 (data / 256 ^ (q - a)) else s.phys.byte q) ∧
      (t.sys.core k).cards = before ++ y :: later ∧ y.id = x.id ∧ y.cflags = (x.cflags ||| fl) &&& 0x1D ∧ (y.written = true ↔ j.liveAt (n + 1) = none)

/-- KICK, MDRAIN, the course of a card through the checker and its chunks, and what each operation writes. The parts: `CardsKicked`,
`CardsCarriedOut`, `CardElements`. The model's choices in it, not the spec's: log 43, 50, 52, 121, 122, 123, 162. -/
def Obligations.JobCards : Prop :=
  Sys2Proof.Claims.CardsKicked ∧
  Sys2Proof.Claims.CardsCarriedOut ∧
  Sys2Proof.Claims.CardElements

/-! ## Sweep and tolerance instructions -/

namespace Sys2Proof.Claims

/-- What an instruction of this chapter raises: the slot's mask to resume. -/
def sweepRaised (s : State) (c : Ctx) (k : Cause) (addr : Nat) : Host.Outcome State Fault Refusal :=
  raised s c { cause := k, resume := c.slot.mask, addr := addr }

/-- The state's core is one of the part's. -/
def CoreIn (s : State) (k : CoreRef) : Prop := k.tower < s.sys.towers.length ∧ k.core < (s.sys.tower k.tower).cores.length

/-- No in-flight counter and no store buffer entry is in use. -/
def Drained (w : Warp) : Prop := ∀ x ∈ w.ops, x.path = none ∧ x.isStore = false

/-- A warp after an instruction of variable latency that completes at its issue. -/
def completed (s : State) (c : Ctx) : Warp :=
  c.w.setSlot c.z fun z => { z with pc := nextPc s c, left := z.left - 1, resume := none, hold := .none, issued := z.issued + 1 }

end Sys2Proof.Claims

/-- R202, R203: NINFO writes the latched child index, user word, record, share and need, and zero in a spawn block; CHDR writes the
address of a child's drawer in an upward sweep and of the parent's in a downward one; an ordinal out of range raises CHILD_RANGE. -/
def Sys2Proof.Claims.NodeInformation : Prop :=
  ∀ (s : State) (f : Fields) (c : Ctx),
    let n := (scalarB c.w f (immUnsigned f)).toNat
    let result := fun (v : DWord) => Host.Outcome.next (after s c (c.w.setScalar f.d.toNat v))
    (Issues .ninfo f s c → f.sub = 0 →
      (c.b.spawn = false → n < c.b.nchild → exec (.ninfo f) s = result (BitVec.ofNat 64 (c.b.first + n))) ∧
      (c.b.spawn = true ∨ c.b.nchild ≤ n → exec (.ninfo f) s = sweepRaised s c .childRange n)) ∧
    (Issues .ninfo f s c → f.sub = 1 → exec (.ninfo f) s = result (if c.b.spawn then 0 else c.b.user)) ∧
    (Issues .ninfo f s c → f.sub = 2 → c.b.opClass < 64 → c.b.prog < 256 → c.b.warps.length < 64 →
      exec (.ninfo f) s = result (if c.b.spawn then 0 else
        0#34 ++ BitVec.ofNat 6 c.b.warps.length ++ BitVec.ofNat 8 c.b.prog ++ 0#5 ++ BitVec.ofBool c.b.rel ++ BitVec.ofBool c.b.retain ++
          BitVec.ofBool c.b.idemp ++ 0#2 ++ BitVec.ofNat 6 c.b.opClass)) ∧
    (Issues .ninfo f s c → f.sub = 3 → exec (.ninfo f) s = result (if c.b.spawn then 0 else c.b.share.setWidth 64)) ∧
    (Issues .ninfo f s c → f.sub = 4 → exec (.ninfo f) s = result (if c.b.spawn then 0 else BitVec.ofNat 64 c.b.need)) ∧
    (Issues .chdr f s c → ∀ (w : Sweep) (a : Nat), c.b.spawn = false → c.b.down = false → n < c.b.nchild → s.sys.sweep c.b.sweep = some w →
      w.drawerOf c.b.stage (c.b.first + n) = some a → exec (.chdr f) s = result (BitVec.ofNat 64 a)) ∧
    (Issues .chdr f s c → ∀ a, c.b.spawn = false → c.b.down = true → n = 0 → c.b.parentDrawer = some a →
      exec (.chdr f) s = result (BitVec.ofNat 64 a)) ∧
    (Issues .chdr f s c → c.b.spawn = true ∨ (c.b.down = false ∧ c.b.nchild ≤ n) ∨ (c.b.down = true ∧ (n ≠ 0 ∨ c.b.parentDrawer = none)) →
      exec (.chdr f) s = sweepRaised s c .childRange n)

/-- R204: TAKE waits as `.rel` does and is then recorded in its warp; in the root it has no effect; in an upward sweep or a spawn block
it raises SWEEP_CONTEXT. -/
def Sys2Proof.Claims.TakeRecorded : Prop :=
  ∀ (s : State) (f : Fields) (c : Ctx), Issues .take f s c →
    (c.b.spawn = true ∨ c.b.down = false → exec (.take f) s = sweepRaised s c .sweepContext 0) ∧
    (c.b.spawn = false → c.b.down = true → c.b.parent = 0xFFFFFF → exec (.take f) s = .next { s with sys := s.sys.completedOp c id }) ∧
    (c.b.spawn = false → c.b.down = true → c.b.parent ≠ 0xFFFFFF → ¬ Drained c.w → exec (.take f) s = .next (waiting s c .release)) ∧
    (c.b.spawn = false → c.b.down = true → c.b.parent ≠ 0xFFFFFF → Drained c.w → ∃ t, exec (.take f) s = .next t ∧ t.phys = s.phys ∧
      t.sys.warp c.ref = some { completed s c with took := true } ∧ ∀ q, q ≠ c.ref → t.sys.warp q = s.sys.warp q)

/-- R205, R206, R262, R171: SPAWN enqueues one item for each active lane, with its two arguments, in ascending order of the lanes, which is the
order of the items of each forming warp, while the core's queue has room, sets EFFECT and counts them; with the queue full an item goes to the
sweep's spawn area, and without room there the sweep is aborted with SPAWN_AREA, and nothing outside the area changes in memory; SPWAIT holds its slot while items of the block are
outstanding. -/
def Sys2Proof.Claims.SpawnAndWait : Prop :=
  ∀ (s : State) (f : Fields) (c : Ctx),
    let e := c.active f.guard
    let k := s.sys.core c.b.coreRef
    (Issues .spawn f s c → e = 0 → exec (.spawn f) s = .next { s with sys := s.sys.completedOp c id }) ∧
    (Issues .spawn f s c → e ≠ 0 → ¬ Drained c.w → exec (.spawn f) s = .next (waiting s c .release)) ∧
    let isItem := fun (l : Nat) (x : SpawnItem) => x.sweep = c.b.sweep ∧ x.prog = (scalarB c.w f (immUnsigned f)).toNat % 256 ∧
      x.stage = c.b.stage ∧ x.arg0 = c.w.pair f.a.toNat l ∧ x.arg1 = c.w.pair f.c.toNat l ∧ x.spawner = c.b.id ∧ x.core = c.b.core
    (Issues .spawn f s c → e ≠ 0 → Drained c.w → CoreIn s c.b.coreRef → k.queued + e.lanes.length ≤ 4096 →
      (k.forming.filter fun g => !g.ready && g.sweep == c.b.sweep && g.prog == (scalarB c.w f (immUnsigned f)).toNat % 256 &&
        g.stage == c.b.stage).length ≤ 1 → ∃ t b', exec (.spawn f) s = .next t ∧ t.phys = s.phys ∧
        t.sys.block c.ref.block = some b' ∧ b'.effect = true ∧ b'.spawnOutstanding = c.b.spawnOutstanding + e.lanes.length ∧
        b'.warp c.ref.rank = some (completed s c) ∧ (t.sys.core c.b.coreRef).queued = k.queued + e.lanes.length ∧
        (∀ l, Active c f l → ∃ g ∈ (t.sys.core c.b.coreRef).forming, ∃ x ∈ g.items, isItem l x ∧
          x.seq = s.sys.order + ((List.range l).filter fun j => e.getLsbD j).length) ∧
        ((∀ g ∈ k.forming, g.items.Pairwise (fun x y => x.seq < y.seq) ∧ ∀ x ∈ g.items, x.seq < s.sys.order) →
          ∀ g ∈ (t.sys.core c.b.coreRef).forming, g.items.Pairwise fun x y => x.seq < y.seq)) ∧
    (Issues .spawn f s c → Drained c.w → 4096 ≤ k.queued → ∀ (w : Sweep) (l : Nat), e.lanes = [l] → s.sys.sweep c.b.sweep = some w →
      (w.sparea ≠ 0 → w.spawnArea.length < w.splen → ∃ t v x, exec (.spawn f) s = .next t ∧
        (∀ a, t.phys.byte a ≠ s.phys.byte a → ∃ va pas, w.sparea ≤ va ∧ va + 32 ≤ w.sparea + 32 * w.splen ∧
          walkRange s.phys s.sys w.asid va 32 false true = .ok pas ∧ a ∈ pas) ∧
        t.sys.sweep c.b.sweep = some v ∧ v.spawnArea = w.spawnArea ++ [x] ∧ isItem l x ∧ v.items = w.items + 1) ∧
      (w.sparea = 0 ∨ w.splen ≤ w.spawnArea.length → exec (.spawn f) s =
        work s fun _ t => (t.map fun y => y.setEffect c.b.id true).abortSweep .spawnArea c.b.stage 0 c.b.sweep)) ∧
    (Issues .spwait f s c → c.b.spawnOutstanding ≠ 0 → exec (.spwait f) s = .next (waiting s c .spwait)) ∧
    (Issues .spwait f s c → c.b.spawnOutstanding = 0 → exec (.spwait f) s = .next (after s c c.w))

/-- NINFO, CHDR, TAKE, SPAWN and SPWAIT. The parts: `NodeInformation`, `TakeRecorded`, `SpawnAndWait`. The model's choices in it, not
the spec's: log 30, 68, 147, 165. -/
def Obligations.SweepInstructions : Prop :=
  Sys2Proof.Claims.NodeInformation ∧
  Sys2Proof.Claims.TakeRecorded ∧
  Sys2Proof.Claims.SpawnAndWait

/-- R200, R207 to R210, R192, R181: the words that TOLADD, TOLSPL, FPICK and TOLSET write. Bits [13:10] are those of s[A] for TOLADD and
TOLSPL. `.val` gives 2^(−t/16) rounded up to FP32: the least encoding whose value to the 16th power is at least 2^(−t). -/
def Sys2Proof.Claims.ToleranceWords : Prop :=
  ∀ (s : State) (f : Fields) (c : Ctx),
    let a := c.w.scalar f.a.toNat
    let t := (a.extractLsb' 0 10).toNat
    let upper : DWord := 0#50 ++ a.extractLsb' 10 4 ++ 0#10
    let clampWord := fun (x : Int) => BitVec.ofInt 64 (max 0 (min 1023 x))
    let own := min 1023 (t + c.b.entry.uOwn)
    let force := a.getLsbD 13 || c.b.spawn
    let picked := fun (bound : Nat → Nat) => if force then 0 else
      if own ≤ bound 5 then 5 else if own ≤ bound 4 then 4 else if own ≤ bound 3 then 3 else if own ≤ bound 2 then 2 else if own ≤ bound 1 then 1 else 0
    let kd := max 1 (min (2 ^ 20) (scalarB c.w f (immUnsigned f)).toNat)
    let result := fun (v : DWord) => Host.Outcome.next (after s c (c.w.setScalar f.d.toNat v))
    (Issues .toladdLog f s c → exec (.toladdLog f) s =
      result (upper ||| BitVec.ofNat 64 (logAdd t ((c.w.scalar f.b.toNat).extractLsb' 0 10).toNat))) ∧
    (Issues .toladdOff f s c → exec (.toladdOff f) s = result (upper ||| clampWord (t + (scalarB c.w f (immSigned f)).toInt))) ∧
    (Issues .tolsplIn f s c → exec (.tolsplIn f) s = result (upper ||| clampWord (t + c.b.entry.uIn + c.b.entry.s +
      if c.b.entry.equal then (ceil16Log2 (scalarB c.w f (immUnsigned f)).toNat : Int) else 0))) ∧
    (Issues .tolsplOwn f s c → exec (.tolsplOwn f) s = result (upper ||| clampWord (t + c.b.entry.uOwn))) ∧
    (Issues .fpick f s c → exec (.fpick f) s = result (BitVec.ofNat 64
      (picked (fun g => mmaBound g g kd) + 2 ^ 16 * mmaBound (picked fun g => mmaBound g g kd) (picked fun g => mmaBound g g kd) kd))) ∧
    (Issues .fpickCvt f s c →
      let bound := fun g => [384, 176, 128, 64, 48, 32].getD g 0
      exec (.fpickCvt f) s = result (BitVec.ofNat 64 (picked bound + 2 ^ 16 * bound (picked bound)))) ∧
    (Issues .tolsetDem f s c → exec (.tolsetDem f) s = result (BitVec.ofNat 64 (demandOf (a.setWidth 32)))) ∧
    (Issues .tolsetCert f s c → exec (.tolsetCert f) s = result (BitVec.ofNat 64 (certificateOf (a.setWidth 32)))) ∧
    (Issues .tolsetVal f s c → exec (.tolsetVal f) s = result (BitVec.ofNat 64 (valueOf t)) ∧
      ∀ k, k < 0x7F800000 → (valueOf t ≤ k ↔ 1 ≤ real (FloatFmt.fp32.value k) ^ 16 * 2 ^ t)) ∧
    (Issues .tolsetFld f s c →
      let g := immUnsigned f
      let retry : BitVec 2 := if g.extractLsb' 0 2 = 3 then 2 else g.extractLsb' 0 2
      exec (.tolsetFld f) s = result (0#50 ++ g.extractLsb' 2 2 ++ retry ++ a.extractLsb' 0 10))

/-- R200, R208, R210: the exact logarithms. The log-add is the lesser term less corr(d), which is ⌈16·log2(1 + 2^(−d/16))⌉ to d = 255 and 1 from there; ⌈16·log2 k⌉ is the least n with
2^n ≥ k^16; t_MMA is the log-add of R192, with its table for Kd = 32; a demand is the least t with 2^(−t) ≤ x^16 and a certificate the greatest t with 2^(−t) ≥ x^16, within 0 to 1023. -/
def Sys2Proof.Claims.ToleranceLogarithms : Prop :=
  (∀ a b, logAdd a b = logAdd b a ∧ logAdd a b ≤ min a b ∧ logAdd a b ≤ 1023) ∧
  (∀ a b : Nat, a ≤ 1023 → b ≤ 1023 →
    let d := max a b - min a b
    logAdd a b = min a b - if d < 256 then ⌈16 * Real.logb 2 (1 + (2 : ℝ) ^ (-((d : ℝ) / 16)))⌉.toNat else 1) ∧
  (∀ k n, 0 < k → (ceil16Log2 k ≤ n ↔ k ^ 16 ≤ 2 ^ n)) ∧ ceil16Log2 0 = ceil16Log2 1 ∧
  (∀ (x : Word) (m : Nat) (e : Int), fp32 x = .fin false m e → 0 < m → e < 0 → m < 2 ^ (-e).toNat →
    (∀ t, t < 1023 → (demandOf x ≤ t ↔ 2 ^ (-16 * e).toNat ≤ m ^ 16 * 2 ^ t)) ∧ demandOf x ≤ 1023 ∧
    (∀ t, t ≤ 1023 → (t ≤ certificateOf x ↔ m ^ 16 * 2 ^ t ≤ 2 ^ (-16 * e).toNat)) ∧ certificateOf x ≤ 1023) ∧
  (∀ x ∈ [(0x3F800000, 0, 0), (0x7F800000, 0, 0), (0x00000000, 1023, 1023), (0x80000000, 1023, 1023), (0xBF800000, 1023, 0),
      (0x7FC00000, 1023, 0), (0x3F000000, 16, 16)], demandOf x.1 = x.2.1 ∧ certificateOf x.1 = x.2.2) ∧
  (∀ a b kd : Nat, a ≤ 5 → b ≤ 5 → 0 < kd →
    let precision := fun (g : Nat) => [24, 11, 8, 4, 3, 2].getD g 0
    mmaBound a b kd = logAdd (logAdd (16 * precision a) (16 * precision b)) (384 - ceil16Log2 ((kd + 7) / 8))) ∧
  (List.range 6).map (fun g => mmaBound g g 32) = [342, 159, 111, 47, 31, 15] ∧
  valueOf 336 = 0x35000000 ∧ valueOf 0 = 0x3F800000 ∧ logAdd (logAdd (logAdd 336 384) 384) 384 = 0x147

/-- Tolerance words: TOLADD, TOLSPL, FPICK and TOLSET. The parts: `ToleranceWords`, `ToleranceLogarithms`. -/
def Obligations.ToleranceArithmetic : Prop :=
  Sys2Proof.Claims.ToleranceWords ∧
  Sys2Proof.Claims.ToleranceLogarithms

/-- R211, R212, R213: CERT and CERT.REL start with the own bound log-added with those of their inputs in order, each less the class's s;
a spawn block raises SWEEP_CONTEXT. They wait at issue for the warp's earlier accesses to those headers that are no stores, and read them
then, which is the model's choice (log 28). The completion waits for the warp's earlier accesses to those bytes (R221), and writes the certificate to the
two bytes of the own header's field and to s[D], for CERT.REL in its REL form. -/
def Sys2Proof.Claims.Certificates : Prop :=
  (∀ (s : State) (f : Fields) (c : Ctx) (i : Mnem × Instr × Bool),
    i ∈ [(Mnem.cert, Instr.cert f, false), (.certRel, .certRel f, true)] → Issues i.1 f s c →
    let rel := if i.2.2 then some ((c.w.scalar f.b.toNat).setWidth 32, (c.w.scalar f.c.toNat).setWidth 32) else none
    (c.b.spawn = true → exec i.2.1 s = sweepRaised s c .sweepContext 0) ∧
    (∀ (inputs : List (Option Nat)) (pa : Nat), c.b.spawn = false → certInputs s.phys s.sys c = .ok inputs →
      translateWindow s.phys s.sys c.b.coreRef c.b.asid c.b.drawer = some pa →
      let held := readsHeld s.phys s.sys c.b c.w.ops (certRanges s.phys s.sys c)
      (∀ h, held = some h → exec i.2.1 s = .next (waiting s c h)) ∧ (held = none →
      ∃ t, exec i.2.1 s = .next t ∧ Started s t c i.1 false
        (.cert f.d.toNat (certWord ((c.w.scalar f.a.toNat).toNat % 1024) inputs c.b.entry.s c.w.tol) pa rel))) ∧
    (c.b.down = true → c.b.parent = 0xFFFFFF → certInputs s.phys s.sys c = .ok []) ∧
    (c.b.down = false → c.b.nchild = 0 → certInputs s.phys s.sys c = .ok [])) ∧
  (∀ (own : Nat) (inputs : List (Option Nat)) (x : Option Nat) (sens : Int) (tol : BitVec 16), own ≤ 1023 →
    certWord own [] sens tol % 1024 = own ∧
    certWord own (inputs ++ [x]) sens tol % 1024 =
      logAdd (certWord own inputs sens tol % 1024) (match x with | some h => (max 0 (min 1023 ((h : Int) - sens))).toNat | none => 0) ∧
    certWord own inputs sens tol / 1024 = (tol.extractLsb' 10 2).toNat + if tol.getLsbD 13 then 8 else 0) ∧
  (∀ (s : State) (r : WarpRef) (b : Block) (w : Warp) (x : Op) (dst word pa : Nat) (rel : Option (Word × Word)),
    Resident s r b w → w.op x.id = some x → x.body = .cert dst word pa rel → s.phys.poison = [] → word < 2 ^ 16 →
    (w.heldBack x = true → exec (.certCompletion r x.id) s = .next s) ∧ (w.heldBack x = false →
    ∃ t, exec (.certCompletion r x.id) s = .next t ∧ t.phys.num pa 2 = word ∧ (∀ a, a ≠ pa → a ≠ pa + 1 → t.phys.byte a = s.phys.byte a) ∧
      t.sys.warp r = some
        (finished (w.setScalar dst (BitVec.ofNat 64 (match rel with | none => word | some q => relCertificate word q.1 q.2))) x.id)))

/-- R212: the REL form: t falls by ⌈16·log2(|M| / |r|)⌉, not below 0; the retry count and FORCE are kept and the kind is REL. -/
def Sys2Proof.Claims.RelativeCertificates : Prop :=
  (∀ (w : Nat) (m r : Word) (a b : Nat) (sa sb : Bool) (ea eb : Int), fp32 m = .fin sa a ea → fp32 r = .fin sb b eb → 0 < a → 0 < b →
    ∃ k, relCertificate w m r % 1024 = w % 1024 - k ∧ ∀ n : Nat, (k ≤ n ↔
      if ea ≤ eb then a ^ 16 ≤ b ^ 16 * 2 ^ (n + (16 * (eb - ea)).toNat) else a ^ 16 * 2 ^ (16 * (ea - eb)).toNat ≤ b ^ 16 * 2 ^ n)) ∧
  (∀ (w : Nat) (m r : Word), IsNaN m ∨ IsNaN r ∨ r.setWidth 31 = 0 ∨ r.setWidth 31 = 0x7F800000 ∨ m.setWidth 31 = 0x7F800000 →
    relCertificate w m r % 1024 = 0) ∧
  (∀ (w : Nat) (m r : Word), relCertificate w m r / 1024 = w / 1024 % 4 + 4 + if w / 8192 % 2 = 1 then 8 else 0) ∧
  relCertificate 330 0x44800000 0x40400000 = 195 + 4096

/-- R214, R215, R171: TIGHTEN waits while another one of the same child is outstanding from any warp of the block; then its checks in order, its wait
as `.rel`, and what it then does: the child's share raised by the deficit and 16, the retry
count or FORCE after it, the re-dispatch asked for, and the instruction outstanding. -/
def Sys2Proof.Claims.TightenDemand : Prop :=
  (∀ (s : State) (f : Fields) (c : Ctx), Issues .tighten f s c →
    (∃ v ∈ c.b.warps, ∃ y ∈ v.ops, ∃ d q, y.body = .tighten d (c.w.scalar f.a.toNat).toNat q) → exec (.tighten f) s = .next (waiting s c .tightenTurn)) ∧
  (∀ (s : State) (f : Fields) (c : Ctx) (w : Sweep) (x : Node), Issues .tighten f s c →
    (∀ v ∈ c.b.warps, ∀ y ∈ v.ops, ∀ d q, y.body ≠ .tighten d (c.w.scalar f.a.toNat).toNat q) →
    let n := (c.w.scalar f.a.toNat).toNat
    let deficit := min 1023 (scalarB c.w f (immUnsigned f)).toNat
    let child := c.b.first + n
    let drawer := (w.drawerOf c.b.stage child).getD 0
    let spent := (x.retain = false ∧ x.count ≠ 0) ∨ (w.run c.b.stage child).effect = true
    (c.b.spawn = true ∨ c.b.down = true → exec (.tighten f) s = sweepRaised s c .sweepContext 0) ∧
    (c.b.spawn = false → c.b.down = false → c.b.nchild ≤ n → exec (.tighten f) s = sweepRaised s c .childRange n) ∧
    (c.b.spawn = false → c.b.down = false → n < c.b.nchild → s.sys.sweep c.b.sweep = some w → w.node child = some x →
      (spent → exec (.tighten f) s = sweepRaised s c .tightenNoInput drawer) ∧
      (¬ spent → x.share.getLsbD 13 = true → exec (.tighten f) s = sweepRaised s c .tightenLimit drawer) ∧
      (¬ spent → x.share.getLsbD 13 = false → ¬ Drained c.w → exec (.tighten f) s = .next (waiting s c .release)) ∧
      (¬ spent → x.share.getLsbD 13 = false → Drained c.w → c.b.tower < s.sys.towers.length →
        ∃ t v y, exec (.tighten f) s = .next t ∧ Started s t c .tighten false (.tighten f.d.toNat n deficit) ∧
          (t.sys.tower c.b.tower).redispatches = (s.sys.tower c.b.tower).redispatches ++ [{ sweep := c.b.sweep, node := child, stage := c.b.stage }] ∧
          t.sys.sweep c.b.sweep = some v ∧ v.node child = some y ∧ y = { x with share := BitVec.ofNat 16 (redemand x.share.toNat deficit) }))) ∧
  (∀ old deficit : Nat, redemand old deficit % 1024 = min 1023 (old % 1024 + deficit + 16) ∧
    redemand old deficit / 4096 % 2 = old / 4096 % 2 ∧
    (old / 1024 % 4 < 2 → redemand old deficit / 1024 % 4 = old / 1024 % 4 + 1 ∧ redemand old deficit / 8192 = 0) ∧
    (2 ≤ old / 1024 % 4 → redemand old deficit / 1024 % 4 = 2 ∧ redemand old deficit / 8192 = 1))

/-- CERT, CERT.REL and TIGHTEN. The parts: `Certificates`, `RelativeCertificates`, `TightenDemand`. The model's choices in it, not the
spec's: log 28, 139, 147. -/
def Obligations.CertificatesAndTighten : Prop :=
  Sys2Proof.Claims.Certificates ∧
  Sys2Proof.Claims.RelativeCertificates ∧
  Sys2Proof.Claims.TightenDemand

/-! ## Encoding, the step, memory and reset -/

namespace Sys2Proof.Claims

/-- The fields of a 32-bit instruction. -/
def short (d a b : BitVec 8) (imm : Bool) : Fields :=
  { form := .w32, d := d, a := a, b := b, c := 0, imm := imm, x := false, guard := .all, rnd := .rn, sat := false, sub := 0, mod := 0, lit := 0 }

/-- The state in which the first move laid down is taken, with what ECC has found noted (R243). -/
def taken (s : State) (rest : List Move) : State := State.takeEcc { s with sys := { s.sys with agenda := rest } }

/-- The state in which no slot issues and no packet starts. -/
def unslotted (s : State) : State := { s with sys := { s.sys with starting := none, cursor := none } }

/-- The state in which a slot's next item of `n` words is made ready to issue: if the item takes the pair's turn, the slice's issue pointer has
passed the pair. -/
def readyToIssue (s : State) (r : WarpRef) (z : SlotId) (b : Block) (w : Warp) (n : Nat) (turn : Bool) : State :=
  let passed := s.sys.setCore b.coreRef fun k => { k with issuePtr := k.issuePtr.set w.slice ((2 * w.warpSlot + (if z = .A then 0 else 1) + 1) % 32) }
  let y := if turn then passed else s.sys
  { s with sys := { y with starting := none, cursor := some (r, z), words := n } }

/-- A state in which the reading of some bytes is noted (R303): the first of them, if there is one, that a bad host completion answers is an
error event in the log; else nothing has happened. -/
def readNoted (s : State) (pas : List Nat) : State :=
  match pas.find? fun a => s.sys.hostBad a 1 with
  | some a => { s with sys := s.sys.logError (.host a 1) }
  | none => s

/-- The physical addresses of a slot's next `n` words, and of the table of a BRX in their place, as the core's translations have them. -/
def codeBytes (y : State) (c : Ctx) (i : Instr) (n : Nat) : List Nat :=
  let table := match i with
    | .brx f => branchTableRead f y.phys y.sys c (c.active f.guard)
    | _ => []
  (((List.range n).map c.slot.pc.plus ++ table).filterMap (codeAddr y.phys y.sys c.b)).flatMap fun a => (List.range 4).map (a + ·)

end Sys2Proof.Claims

/-- R47 to R51, R54, R60, R70: what the encoder writes for a well-formed instruction decodes to that instruction, at its length,
whatever words follow; and what decodes is well-formed. -/
def Obligations.DecodeEncode : Prop :=
  (∀ (i : Instr) (ws more : List Word), i.wellFormed = true → encode i = some ws →
    decodeWords ((ws ++ more).getD 0 0) ((ws ++ more).getD 1 0) ((ws ++ more).getD 2 0) = .ok i ∧
    ws.length = itemWords ((ws ++ more).getD 0 0)) ∧
  ∀ (w0 w1 w2 : Word) (i : Instr), decodeWords w0 w1 w2 = .ok i → i.wellFormed = true

/-- The worked encodings behind R70: headers, CHDR, LDT, SLI and STT, and the two ways to select m1. -/
def Obligations.WorkedEncodings : Prop :=
  decodeWords 0x01040003 0 0 = .ok (.clauseHeader { wait := 0, setA := 0, setB := 1, len := 4 }) ∧
  decodeWords 0x013C8003 0 0 = .ok (.clauseHeader { wait := 0, setA := 2, setB := 15, len := 4 }) ∧
  decodeWords 0x40002B84 0 0 = .ok (.chdr (short 10 0 0 true)) ∧
  decodeWords 0x40803384 0 0 = .ok (.chdr (short 12 0 2 true)) ∧
  decodeWords 0x440A2AC8 0 0 = .ok (.ldt (short 10 10 16 true)) ∧
  decodeWords 0x400050C2 0 0x150 = .ok (.sli { short 20 0 0 true with form := .w96, lit := 0x150 }) ∧
  decodeWords 0x500356CE 0 0x110 = .ok (.stt { short 21 3 0 true with form := .w96, lit := 0x110, guard := .set 1 }) ∧
  decodeWords 0x400356CE 0x4000 0x110 = .ok (.stt { short 21 3 0 true with form := .w96, lit := 0x110, guard := .set 1 }) ∧
  decodeWords 0x500356CE 0x4000 0x110 = .error .mask

/-- A step runs what the words of the slot that the selector picks decode to (R34, R47, R62, R70): in a clause the decoded instruction,
or the trap of an illegal one; at a header position the header, or the trap of what stands there in its place; a slot that is not
the pick does not issue; of the words that an item reads at its first offer, and of a packet at its start, a bad host completion is
logged (R303); an event is executed as it stands; a header that starts its clause takes no turn (R228, log 17); a queue's start runs
the packet that its ring holds (R324), unless the ring's memory is not ready (R230) or a SWEEP's tower is not (R351); and the
evaluation of a WAIT whose signal has reached its value comes first (R325). The model's choices in it, not the spec's: log 1, 15,
17, 19, 110, 156. -/
def Obligations.StepRunsDecoded : Prop :=
  (∀ (s : State) (r : WarpRef) (z : SlotId) (rest : List Move) (b : Block) (w : Warp) (w0 w1 w2 : Word),
    s.sys.agenda = .issue r z :: rest → dueWait s.phys s.sys = none →
    let y := taken s rest
    y.sys.block r.block = some b → b.warp r.rank = some w →
    let ready := fun (i : Instr) (n : Nat) (turn : Bool) =>
      readyToIssue (if (w.slot z).hold = .none then readNoted y (codeBytes y ⟨r, z, b, w⟩ i n) else y) r z b w n turn
    (y.sys.pick y.phys b.coreRef w.slice ≠ some (r, z) → step s = .next (unslotted y)) ∧
    (y.sys.pick y.phys b.coreRef w.slice = some (r, z) → codeWord y.phys y.sys b (w.slot z).pc = some w0 →
      let n := itemWords w0
      let tag := w0.extractLsb' 0 2
      let left := (w.slot z).left
      let laid := (1 < n → codeWord y.phys y.sys b ((w.slot z).pc + 1) = some w1) ∧ (2 < n → codeWord y.phys y.sys b ((w.slot z).pc + 2) = some w2)
      (left ≠ 0 → tag ≠ 3 → laid → ∀ i, decodeWords w0 w1 w2 = .ok i → step s = exec i (ready i n true)) ∧
      (left ≠ 0 → tag ≠ 3 → laid → ∀ e, decodeWords w0 w1 w2 = .error e → step s = exec .illegalInstr (ready .illegalInstr n true)) ∧
      (left = 0 → tag = 3 → ∀ i, decodeWords w0 w1 w2 = .ok i → step s = exec i (ready i 1 ((w.slot z).serialOp.bind w.op).isSome)) ∧
      (left = 0 → tag = 3 → ∀ e, decodeWords w0 w1 w2 = .error e → step s = exec .illegalClause (ready .illegalClause 1 true)) ∧
      ((left = 0 ↔ tag ≠ 3) → step s = exec .illegalClause (ready .illegalClause 1 true)))) ∧
  (∀ (s : State) (i : Instr) (rest : List Move), s.sys.agenda = .event i :: rest → dueWait s.phys s.sys = none → i.view = none →
    (∀ h, i ≠ .clauseHeader h) → i ≠ .illegalInstr → i ≠ .illegalClause → step s = exec i (unslotted (taken s rest))) ∧
  (∀ (s : State) (q : Nat) (rest : List Move), s.sys.agenda = .start q :: rest → dueWait s.phys s.sys = none →
    let y := unslotted (taken s rest)
    let x := y.sys.queue q
    let rptr := x.field 191 160
    let va := x.field 51 0 + 64 * (rptr % 2 ^ (x.field 67 64 + 4))
    let ring := readVirtual y.phys y.sys (x.field 79 68) va 64
    (y.sys.mayStart q = false → step s = .next y) ∧
    (y.sys.mayStart q = true → ∀ a, ring = .error (a, .held) → step s = .next y) ∧
    (y.sys.mayStart q = true → ∀ v, ring = .ok v →
      let p := packetRef q (BitVec.ofNat 32 rptr) v
      let behind := (p.barrier = true ∧ ∃ x ∈ y.sys.packets, x.ref.queue = q) ∨ sweepWaits y.phys y.sys q (decodePacket p v) = true
      (behind → step s = .next y) ∧
      (¬ behind → step s = exec (decodePacket p v)
        { y with sys := { (y.sys.noteRead y.phys (x.field 79 68) va 64).setQueue q fun x => x.setField 191 160 (rptr + 1) with starting := some p } }) ∧
      ∀ pas, walkRange y.phys y.sys (x.field 79 68) va 64 true false = .ok pas → { y with sys := y.sys.noteRead y.phys (x.field 79 68) va 64 } = readNoted y pas)) ∧
  ∀ (s : State) (id : Nat), dueWait s.phys s.sys = some id → step s = exec (.waitEvaluate id) (unslotted s.takeEcc)

/-- Every step keeps memory in its canonical form: addresses rising, and no byte listed that reads as an unwritten one. -/
def Obligations.StepKeepsMemoryCanonical : Prop :=
  ∀ (s t : State), s.Canonical → step s = .next t → t.Canonical

/-- R320, R333, R342, R346, R350, R351, R355, R356: the state after reset: memory lists nothing, no function is ready, nothing is
resident or queued, every queue is disabled with CLASS 01 and WEIGHT 1, fabric time is UNSET, the power limit is 2,800 W, each
island has its reset ratio, the identity block holds the part, its stepping, its serial number and the hash of its key, and the
measurement log the boot ROM and the image; the values that the spec gives. The model's choices in it, not the spec's: log 5. -/
def Obligations.ResetState : Prop :=
  State.reset.Canonical ∧ State.reset.phys.mem = [] ∧ State.reset.sys.device.devReady = 0 ∧ State.reset.sys.blocks = [] ∧
  State.reset.sys.sweeps = [] ∧ State.reset.sys.packets = [] ∧ State.reset.sys.queues.length = 32 ∧
  (∀ q ∈ State.reset.sys.queues, q.field 106 106 = 0 ∧ q.field 107 107 = 0 ∧ q.field 81 80 = 1 ∧ q.field 89 82 = 1) ∧
  State.reset.sys.time.state = .unset ∧ State.reset.sys.market.board = [] ∧ State.reset.sys.power.plim = 2800 ∧
  (∀ i, i < 512 → (State.reset.sys.power.islands[i]?).map (fun x => (x.trim, x.lock, x.ratio, x.uecnt)) =
    some (0, false, if i < 504 ∧ i % 7 ≠ 6 then 8 else 0, 0)) ∧ State.reset.sys.device.fabric = 0 ∧
  (let id := State.reset.sys.identity
   id % 2 ^ 64 = 0x2B000004B34 ∧ natBits id 127 64 ≠ 0 ∧ natBits id 191 164 = 0 ∧ natBits id 255 228 = 0 ∧
   natBits id 511 256 = keyHash.toNat % 2 ^ 256) ∧
  State.reset.sys.device.measurements = [.bootRom, .firmware 0]

/-- R9, R154 (b), R243, R244 (d): a store of consecutive bytes leaves each of them in memory, little-endian, and lifts the poison of a
unit that it covers whole; in a unit that is poisoned and not covered whole nothing is stored; every byte outside stays. -/
def Obligations.MemoryStores : Prop :=
  ∀ (o : Phys) (t : Tx o) (pa : Nat) (bs : List Byte),
    (∀ a, a < pa ∨ pa + bs.length ≤ a → (t.store pa bs).phys.byte a = t.phys.byte a) ∧
    (∀ i b, bs[i]? = some b →
      let u := poisonBase (pa + i)
      let whole := pa ≤ u ∧ u + poisonUnit u ≤ pa + bs.length
      (t.phys.poisoned (pa + i) = false ∨ whole →
        (t.store pa bs).phys.byte (pa + i) = b ∧ (t.store pa bs).phys.poisoned (pa + i) = false) ∧
      (t.phys.poisoned (pa + i) = true → ¬ whole →
        (t.store pa bs).phys.byte (pa + i) = t.phys.byte (pa + i) ∧ (t.store pa bs).phys.poisoned (pa + i) = true)) ∧
    ∀ n x, t.phys.anyPoison pa n = false → (t.storeNum pa n x).phys.num pa n = x % 256 ^ n

/-- R230, R235 to R239: a walk of five levels ends at the 4 KiB page that its leaf names, a clear V bit in the last level ends it with no page
present, a table in a memory that is not ready holds it, and a cached translation is used without a walk, under its permissions. -/
def Sys2Proof.Claims.Translation : Prop :=
  (∀ (p : Phys) (s : Sys) (c : CoreRef) (asid va e p1 p2 p3 p4 leaf : Nat), cachedPage s c asid va = none → asidEntry p s asid = some e → va < 2 ^ 52 →
    s.ownFirstTier (natBits e 51 12 * 4096) = true → p1 < 2 ^ 45 → p2 < 2 ^ 45 → p3 < 2 ^ 45 → p4 < 2 ^ 45 → leaf < 2 ^ 40 →
    s.ownFirstTier (128 * p1) = true → s.ownFirstTier (128 * p2) = true →
    s.ownFirstTier (128 * p3) = true → s.ownFirstTier (128 * p4) = true → p1 % 32 = 0 → p2 % 32 = 0 → p3 % 32 = 0 → s.region (4096 * leaf + va % 4096) ≠ .invalid →
    let entry := fun (table level : Nat) => p.num (table + 8 * levelIndex level va) 8
    entry (natBits e 51 12 * 4096) 4 = 1 + 128 * p1 → entry (128 * p1) 3 = 1 + 128 * p2 → entry (128 * p2) 2 = 1 + 128 * p3 →
    entry (128 * p3) 1 = 1 + 128 * p4 →
    let present := fun (table level : Nat) => s.memReady (table + 8 * levelIndex level va) = true
    s.contextHeld asid = false → present (natBits e 51 12 * 4096) 4 → present (128 * p1) 3 → present (128 * p2) 2 → present (128 * p3) 1 →
    (¬ present (128 * p4) 0 → ∀ r w : Bool, translate p s c asid va r w = .held) ∧
    (present (128 * p4) 0 → ∀ rd wr : Bool, entry (128 * p4) 0 = 1 + 2 + 4 * rd.toNat + 8 * wr.toNat + 4096 * leaf →
      ∀ r w : Bool, translate p s c asid va r w =
        if (r = true ∧ rd = false) ∨ (w = true ∧ wr = false) then .notPermitted else .ok (4096 * leaf + va % 4096)) ∧
    (present (128 * p4) 0 → entry (128 * p4) 0 % 2 = 0 → ∀ r w : Bool, translate p s c asid va r w = .notPresent)) ∧
  (∀ (p : Phys) (s : Sys) (c : CoreRef) (asid va : Nat), cachedPage s c asid va = none → s.contextHeld asid = true → ∀ r w : Bool,
    translate p s c asid va r w = .held) ∧
  (∀ (p : Phys) (s : Sys) (c : CoreRef) (asid va : Nat) (e : TlbEntry) (rest : List TlbEntry), (s.core c).tlb = e :: rest → e.asid = asid →
    e.window = false → e.base ≤ va → va < e.base + e.size → s.region (e.pa + (va - e.base)) ≠ .invalid → ∀ r w : Bool,
      translate p s c asid va r w = if (r = true ∧ e.r = false) ∨ (w = true ∧ e.w = false) then .notPermitted else .ok (e.pa + (va - e.base))) ∧
  ∀ (p : Phys) (s : Sys) (c : CoreRef) (asid off n : Nat), off < 2 ^ 32 → cachedWindow s c asid (off / 65536) = none →
    windowEntry p s asid c.tower (off / 65536) = some n →
      translateWindow p s c asid off = some (s.partNo * 2 ^ 43 + 0x20000000000 + c.tower * 0x100000000 + n * 65536 + off % 65536)

/-- R239, R240, R322: a page that needs a walk joins the miss queue of its tower, while the queue has room, and until the walk ends an access that
misses takes its result (the result is there at once: log 114). PAGE_WALK_COMPLETE takes the walk out of the queue and leaves its translation in the
core's cache; without such a walk it does nothing. INVALIDATION_COMPLETE waits for the outstanding accesses of the range; then no cache of the part
holds an entry of a window page in it, and the packet is done. -/
def Sys2Proof.Claims.WalksAndInvalidations : Prop :=
  (∀ (p : Phys) (s : Sys) (c : CoreRef) (asid page n : Nat), c.tower < s.towers.length → cachedWindow s c asid page = none →
    windowEntry p s asid c.tower page = some n →
    let e : TlbEntry := { asid := asid, window := true, base := page, size := 1, pa := n }
    let t := fillWindow p s c asid page
    ((s.tower c.tower).walks.length < 1024 → (t.tower c.tower).walks = (s.tower c.tower).walks ++ [e] ∧
      ∀ k, k.tower = c.tower → cachedWindow s k asid page = none → cachedWindow t k asid page = some e) ∧
    (1024 ≤ (s.tower c.tower).walks.length → t = s)) ∧
  (∀ (s : State) (c : CoreRef) (asid a : Nat) (window : Bool), c.tower < s.sys.towers.length → c.core < (s.sys.tower c.tower).cores.length →
    let mine := fun (e : TlbEntry) => e.asid = asid ∧ e.window = window ∧ e.base ≤ a ∧ a < e.base + e.size
    let walk := exec (.pageWalkComplete c (if window then .window asid a else .page asid a)) s
    ((∀ e ∈ (s.sys.tower c.tower).walks, ¬ mine e) → walk = .next s) ∧
    (∀ before e later, (s.sys.tower c.tower).walks = before ++ e :: later → (∀ x ∈ before, ¬ mine x) → mine e →
      ∃ t, walk = .next t ∧ t.phys = s.phys ∧ (t.sys.core c).tlb.head? = some e ∧ e ∉ (t.sys.tower c.tower).walks ∧
        ∀ x ∈ (s.sys.tower c.tower).walks, x ≠ e → x ∈ (t.sys.tower c.tower).walks)) ∧
  ∀ (s : State) (id tower base n : Nat) (q : Packet), s.sys.packet id = some q → q.work = .invalidate true tower base n →
    let asid := s.sys.queueAsid q.ref.queue
    let uses := fun (b : Block) => b.asid = asid ∧ b.uses base n = true
    let inFlight := (∃ b ∈ s.sys.blocks, uses b) ∨ ∃ t ∈ s.sys.towers, ∃ x ∈ t.saved, uses x.block
    (inFlight → exec (.invalidationComplete id) s = .next s) ∧
    (¬ inFlight → ∃ t, exec (.invalidationComplete id) s = .next t ∧ t.phys = s.phys ∧
      (t.sys.packet id).map (fun x => (x.work, x.fault)) = some (.done 0 0 0 0, none) ∧
      ∀ c page, c.tower < s.sys.towers.length → base ≤ page → page < base + n → cachedWindow t.sys c asid page = none)

/-- Page table walks, cached translations, the window, and invalidation. The parts: `Translation`, `WalksAndInvalidations`. The model's
choices in it, not the spec's: log 3, 33, 34, 35, 114. -/
def Obligations.TranslationAndWalks : Prop :=
  Sys2Proof.Claims.Translation ∧
  Sys2Proof.Claims.WalksAndInvalidations

/-! ## The Sweep Sequencer -/

namespace Sys2Proof.Claims

/-- A new packet of the queue: no packet of its header is started yet. -/
def Unstarted (s : State) (p : PacketRef) : Prop := ∀ y ∈ s.sys.packets, y.ref ≠ p

/-- A packet that its start opens with this work. -/
def opened (s : State) (p : PacketRef) (work : PacketWork) (waits : Bool) : Packet := { id := s.sys.fresh, ref := p, work := work, waits := waits }

/-- No earlier choice is open to a tower: no saved block, restart, re-dispatch or ready forming warp. -/
def NothingFirst (s : State) (tower : Nat) : Prop :=
  (s.sys.tower tower).saved = [] ∧ (s.sys.tower tower).restarts = [] ∧ (s.sys.tower tower).redispatches = [] ∧
  ∀ k, ∀ g ∈ (s.sys.core ⟨tower, k⟩).forming, g.ready = false

end Sys2Proof.Claims

/-- R230, R249, R252, R253, R257, R267: a SWEEP whose context or descriptor lies in a memory that is not ready is held at its start; one whose ASID
has no context, whose descriptor fails a check, or, the descriptor being good, whose page tables lie outside own first-tier memory (R234), ends
LAUNCH_FAILED with the code and the ASID or the failing byte, and launches nothing (the descriptor is read from ROOT wherever that lies: log 158); a bad sensitivity table SENS_TABLE
with its first bad class (R271). A sweep of one leaf whose record, table and shelf are good passes, its demand written to SHARES as the root's share,
and its root is admitted at every stage with the one drawer it needs. -/
def Sys2Proof.Claims.LaunchOutcomes : Prop :=
  ∀ (s : State) (p : PacketRef) (va : Nat), Unstarted s p → (∀ y ∈ s.sys.packets, y.id < s.sys.fresh) → (∀ w ∈ s.sys.sweeps, w.pkt < s.sys.fresh) →
    let asid := s.sys.queueAsid p.queue
    let failed := fun (code detail : Nat) => ∃ t w, exec (.sweep p va) s = .next t ∧ t.phys = s.phys ∧ t.sys.blocks = s.sys.blocks ∧
      t.sys.packets = s.sys.packets ++ [opened s p (.done 1 0 code detail) false] ∧ t.sys.sweeps = s.sys.sweeps ++ [w] ∧
      w.phase = .aborted ∧ w.passed = false ∧ w.descriptor = va ∧ w.asid = asid
    let descriptor := readDescriptor s.phys s.sys asid va
    (∀ e, asidEntry s.phys s.sys asid = some e → s.sys.rootInside e = true → descriptor = readVirtual s.phys s.sys asid va 128) ∧
    (s.sys.contextHeld asid = true ∨ ((asidEntry s.phys s.sys asid).isSome = true ∧ ∃ a, descriptor = .error (a, .held)) →
      ∃ t, exec (.sweep p va) s = .next t ∧ t.phys = s.phys ∧ t.sys.sweeps = s.sys.sweeps ∧
        t.sys.packets = s.sys.packets ++ [opened s p (.sweep va none) false]) ∧
    (s.sys.contextHeld asid = false → asidEntry s.phys s.sys asid = none → failed 0x11 asid) ∧
    (∀ e d off, s.sys.contextHeld asid = false → asidEntry s.phys s.sys asid = some e → descriptor = .ok d →
      firstBad (descriptorChecks d p.queue asid) = some off → failed 0x10 off) ∧
    (∀ e d, s.sys.contextHeld asid = false → asidEntry s.phys s.sys asid = some e → descriptor = .ok d →
      firstBad (descriptorChecks d p.queue asid) = none → s.sys.ready (26 + (Descriptor.parse d).tower) = true → (Descriptor.parse d).pred = 0 →
      s.sys.rootInside e = false ∨ (tableSet e (Descriptor.parse d).tower).any s.sys.tableInside = false → failed 0x11 asid) ∧
    (∀ e d tb c, s.sys.contextHeld asid = false → asidEntry s.phys s.sys asid = some e → s.sys.rootInside e = true → descriptor = .ok d →
      firstBad (descriptorChecks d p.queue asid) = none → s.sys.ready (26 + (Descriptor.parse d).tower) = true →
      (tableSet e (Descriptor.parse d).tower).any s.sys.tableInside = true → (Descriptor.parse d).pred = 0 → (Descriptor.parse d).sens ≠ 0 →
      readVirtual s.phys s.sys asid (Descriptor.parse d).sens 1024 = .ok tb → c < 64 → classOk (tableEntry tb c) = false →
      (∀ k, k < c → classOk (tableEntry tb k) = true) → failed 0x12 c) ∧
    ∀ e d v tb pas, s.sys.contextHeld asid = false → asidEntry s.phys s.sys asid = some e → s.sys.rootInside e = true → descriptor = .ok d →
      firstBad (descriptorChecks d p.queue asid) = none →
      let x := Descriptor.parse d
      s.sys.ready (26 + x.tower) = true → (tableSet e x.tower).any s.sys.tableInside = true → x.pred = 0 → x.bitmap = 0 →
      (x.sens = 0 ∨ readVirtual s.phys s.sys asid x.sens 1024 = .ok tb ∧ ∀ c, c < 64 → classOk (tableEntry tb c) = true) →
      let shared := x.shares ≠ 0 ∧ x.demand % 1024 ≠ 0
      (shared → walkRange s.phys s.sys asid x.shares 2 false true = .ok pas ∧ pas.Nodup ∧ s.phys.poison = []) →
      x.dir ≠ 2 → x.nodes = 1 → readVirtual s.phys s.sys asid x.tree 32 = .ok v → recordOk v = true → natBits v 23 0 = 0xFFFFFF →
      natBits v 63 48 = 0 → shelfGap s.phys s.sys asid x = none →
      ∃ t w n, exec (.sweep p va) s = .next t ∧ (¬ shared → t.phys = s.phys) ∧
        (shared → pas.map t.phys.byte = natToBytes 2 x.demand ∧ ∀ a, a ∉ pas → t.phys.byte a = s.phys.byte a) ∧
        t.sys.packets = s.sys.packets ++ [opened s p (.sweep va (some (if x.sens = 0 then none else some tb))) false] ∧
        w.table = (if x.sens = 0 then [] else (List.range 64).map fun c => ClassEntry.parse (tableEntry tb c)) ∧
        n.share = (if x.demand % 1024 = 0 then 0 else BitVec.ofNat 16 x.demand) ∧
        t.sys.sweeps = s.sys.sweeps ++ [w] ∧ t.sys.nextSweep = s.sys.nextSweep + 1 ∧ w.id = s.sys.nextSweep ∧ w.pkt = s.sys.fresh ∧
        w.phase = .running ∧ w.passed = true ∧ w.tower = x.tower ∧ w.shelf = x.shelf ∧ w.cap = x.cap ∧ w.nodes = [n] ∧
        n.index = 0 ∧ n.prog = natBits v 71 64 ∧ n.warps = natBits v 77 72 ∧ n.need = 1 ∧ n.hold = (if x.dir = 1 then 0 else 1) ∧
        ∀ st, st < x.stages → (w.run st 0).state = .admitted ∧ (w.run st 0).res = 1 ∧ w.poolAt st = x.cap - 1

/-- R256, R208, R270, R271: the demand pass over nodes in pre-order: nothing for a demand of 0; else the root's share is the demand, and a child's is its
parent's t with u_in, s and, for EQUAL, ⌈16·log2 COUNT⌉ of the parent's own class entry added, within 0 to 1023, kind REL for a REL child, retry and
FORCE 0; nothing else changes. The fields and checks of a class entry, with the table of the least valid u_in. -/
def Sys2Proof.Claims.DemandPass : Prop :=
  (∀ (table : List ClassEntry) (demand root : Nat) (nodes : List Node),
    let out := demandPass table demand root nodes
    let child := fun (n c : Node) => n.first ≤ c.index ∧ c.index < n.first + n.count
    let shape := fun (x : Node) => { x with share := 0 }
    (demand % 1024 = 0 → out = nodes) ∧
    (demand % 1024 ≠ 0 → (nodes.map Node.index).Nodup → nodes.Pairwise (fun a b => ¬ child b a) → (∀ a ∈ nodes, ¬ child a a ∧ ∀ b ∈ nodes, ∀ c ∈ nodes,
        child a c → c.index ≠ root ∧ (child b c → a.index = b.index)) →
      out.map shape = nodes.map shape ∧ (∀ x ∈ out, x.index = root → x.share = BitVec.ofNat 16 demand) ∧
      ∀ n ∈ out, ∀ c ∈ out, child n c →
        let e := classEntry table n.opClass
        let t : Int := (n.share.toNat % 1024 : Nat) + e.uIn + e.s + if e.equal then (ceil16Log2 n.count : Int) else 0
        c.share.toNat = (max 0 (min 1023 t)).toNat + if c.rel then 4096 else 0)) ∧
  (∀ e : Nat, e < 2 ^ 128 →
    let x := ClassEntry.parse e
    x.uOwn = e % 256 ∧ x.uIn = e / 2 ^ 8 % 256 ∧ x.s = (BitVec.ofNat 8 (e / 2 ^ 16)).toInt ∧ (x.equal = true ↔ e / 2 ^ 24 % 4 = 0) ∧
    x.kind = e / 2 ^ 26 % 4 ∧ x.init = e / 2 ^ 32 % 256 ∧ x.gain = e / 2 ^ 40 % 256 ∧
    (classOk e = true ↔ e / 2 ^ 28 % 16 = 0 ∧ e / 2 ^ 48 = 0 ∧ e / 2 ^ 24 % 4 ≤ 1 ∧ x.kind ≤ 2 ∧
      (if x.kind = 2 then 1 ≤ x.init ∧ x.init ≤ 24 ∧ 1 ≤ x.gain ∧ x.gain ≤ 24 else x.init = 0 ∧ x.gain = 0) ∧ weightsOk x.uOwn x.uIn = true)) ∧
  (∀ a b : Nat, weightsOk a b = weightsOk b a) ∧
  ∀ x ∈ [(4, 43), (8, 29), (16, 16), (24, 11), (32, 7), (48, 4)], ∀ b, b < 256 → (weightsOk x.1 b = true ↔ x.2 ≤ b)

/-- A SWEEP fails its launch with its code, or is launched and admitted, and the demand pass. The parts: `LaunchOutcomes`, `DemandPass`.
The model's choices in it, not the spec's: log 58, 60, 158. -/
def Obligations.SweepLaunched : Prop :=
  Sys2Proof.Claims.LaunchOutcomes ∧
  Sys2Proof.Claims.DemandPass

/-- R253, R254: the need and hold of a node from its children's: a leaf needs 1; upward, in the canonical order (need − hold descending,
then the lower index), each child's need on top of the drawers that those before it hold, and all holds with the own drawer; downward one
more than the greatest. -/
def Obligations.NeedAndHold : Prop :=
  ∀ (x : Node) (done : List Node),
    let cs := done.filter fun c => x.first ≤ c.index && c.index < x.first + x.count
    (cs = [] → (x.measured false done).need = 1 ∧ (x.measured true done).need = 1) ∧
    (cs ≠ [] → ∀ k, (x.measured true done).need ≤ k ↔ ∀ c ∈ cs, c.need + 1 ≤ k) ∧
    (x.measured true done).hold = 0 ∧ (x.measured false done).hold = (if x.retain then 1 + x.count else 1) ∧
    ∀ order : List Node, order.Perm cs → cs ≠ [] →
      order.Pairwise (fun a b => (b.need : Int) - b.hold < a.need - a.hold ∨ ((b.need : Int) - b.hold = a.need - a.hold ∧ a.index < b.index)) →
      ∀ k, (x.measured false done).need ≤ k ↔
        (order.map Node.hold).sum + 1 ≤ k ∧ ∀ i c, order[i]? = some c → c.need + ((order.take i).map Node.hold).sum ≤ k

/-- R202, R251, R259, R20, R23, R31, R33: in a core cycle in which the tower has dispatched a block no other goes. Else BLOCK_DISPATCH of the one admitted and ready node: it takes the lowest free drawer, whose header is
written PENDING with the node and stage; its block stands on the core that admits it with as many warps as the record says, every
warp at the program's entry with all lanes, TVEC, FTZ and TOL set, and the registers that the header preloads; the rest of memory stays. -/
def Sys2Proof.Claims.NodeDispatched : Prop :=
  (∀ (s : State) (tower : Nat), (s.sys.tower tower).dispatchedAt = some (s.sys.tower tower).clock.toNat →
    ∃ t, exec (.blockDispatch tower) s = .next t ∧ t.sys.blocks = s.sys.blocks) ∧
  ∀ (s : State) (w : Sweep) (before later : List Run) (r : Run) (x : Node) (h : ProgramHeader) (c : CoreRef) (ks : List Nat) (pa : Nat),
    s.sys.sweeps = [w] → w.phase = .running → w.pred = none → NothingFirst s w.tower → (∀ b ∈ s.sys.blocks, b.down = false) →
    w.runs = before ++ r :: later → (∀ y ∈ before ++ later, y.state ≠ .admitted ∧ ¬ (y.node = r.node ∧ y.stage = r.stage)) →
    r.state = .admitted → r.readyAt.isSome = true → r.drawer = none → w.node r.node = some x → w.heldHeader x.prog = some (some h) →
    h.fits x.warps (x.units h) = true → s.sys.coreFor w.tower h x.warps (x.units h) = some (c, ks) → w.queue < 32 →
    (s.sys.tower w.tower).dispatchedAt ≠ some (s.sys.tower w.tower).clock.toNat → 0 < (s.sys.queue w.queue).weight → (s.sys.tower w.tower).deficit.length = 32 → w.tower < s.sys.towers.length →
    let slot := w.freeSlot r.stage
    let now := (s.sys.tower w.tower).clock.toNat
    let off := w.shelf + (r.stage * w.cap + slot) * w.drawerSize
    towerWindow s.phys s.sys w.asid w.tower off = some pa → s.phys.poison = [] →
    ∃ t b v, exec (.blockDispatch w.tower) s = .next t ∧ t.sys.blocks = s.sys.blocks ++ [b] ∧ t.sys.sweeps = [v] ∧
      (t.sys.tower w.tower).dispatchedAt = some now ∧ (v.run r.stage r.node).state = .dispatched ∧ (v.run r.stage r.node).drawer = some slot ∧
      t.phys.num pa 16 = ((x.index * 2 ^ 8 + r.stage * 2 ^ 32) * 2 ^ 16) % 2 ^ 128 ∧
      (∀ a, a < pa ∨ pa + 16 ≤ a → t.phys.byte a = s.phys.byte a) ∧
      b.id = s.sys.fresh ∧ b.coreRef = c ∧ b.sweep = w.id ∧ b.asid = w.asid ∧ b.node.toNat = x.index % 2 ^ 24 ∧ b.stage = r.stage ∧
      b.hdr = h ∧ b.drawer = off ∧ b.granted = (h.fullRegs == 0) ∧ b.warps.map Warp.rank = List.range x.warps ∧
      ∀ y ∈ b.warps, y.slotA = { valid := true, pc := h.entry, mask := BitVec.allOnes 64, ch := h.entry } ∧ y.slotB.valid = false ∧
        y.rs = [] ∧ y.ops = [] ∧ y.flags = 0 ∧ y.tvec = h.tvec ∧ y.ftz = h.ftz ∧ y.tol = x.share ∧
        (∀ q ∈ [(0, 1, x.index % 2 ^ 24), (1, 2, x.count), (2, 3, off), (3, 4, x.share.toNat), (4, 5, x.user.toNat), (5, 6, r.stage), (6, 7, w.id),
          (7, 8, x.depth % 2 ^ 24)], y.scalar q.2.1 = if h.preload.getLsbD q.1 then BitVec.ofNat 64 q.2.2 else 0) ∧
        ∀ l, l < 64 → y.elem 0 l = (if h.preload.getLsbD 8 then BitVec.ofNat 32 l else 0) ∧
          y.elem 1 l = (if h.preload.getLsbD 9 then BitVec.ofNat 32 y.rank else 0)

/-- R226, R251, R253, R257, R259, R265: BLOCK_RETIRE of an upward node's block: the block is gone and its queue charged, the header says VALID
with the node and stage, its certificate field kept; the node counts as retired and its children's drawers are freed unless it retains;
the sweep goes on, or, at the root of its last stage, is complete. -/
def Sys2Proof.Claims.NodeRetired : Prop :=
  ∀ (s : State) (b : Block) (w : Sweep) (x : Node) (slot pa : Nat),
    s.sys.block b.id = some b → b.spawn = false → b.down = false → b.redispatch = false → s.sys.mayRetire b = true →
    (∀ a ∈ (s.sys.core b.coreRef).accSlots, a.block ≠ b.id) → s.sys.sweep b.sweep = some w → w.phase = .running → w.dir = 0 → w.bitmap = 0 →
    b.stage < w.stages → w.node b.node.toNat = some x → (w.run b.stage b.node.toNat).drawer = some slot →
    (w.run b.stage b.node.toNat).state = .dispatched → b.tower < s.sys.towers.length → b.queue < (s.sys.tower b.tower).deficit.length →
    towerWindow s.phys s.sys w.asid w.tower (w.shelf + (b.stage * w.cap + slot) * w.drawerSize) = some pa → s.phys.poison = [] →
    ∃ t v, exec (.blockRetire b.id) s = .next t ∧ t.sys.block b.id = none ∧ t.sys.sweep b.sweep = some v ∧
      t.phys.num pa 2 = s.phys.num pa 2 ∧ t.phys.num (pa + 2) 14 = (1 + b.node.toNat * 2 ^ 8 + b.stage * 2 ^ 32) % 2 ^ 112 ∧
      (∀ a, a < pa ∨ pa + 16 ≤ a → t.phys.byte a = s.phys.byte a) ∧ (v.run b.stage b.node.toNat).state = .retired ∧
      (x.retain = false → ∀ c ∈ x.children, (v.run b.stage c).drawer = none) ∧
      (t.sys.tower b.tower).deficit.getD b.queue 0 = (s.sys.tower b.tower).deficit.getD b.queue 0 -
        b.warps.length * (b.resident + ((s.sys.tower b.tower).clock.toNat - b.since)) ∧
      ((w.run 0 w.root).state ≠ .retired ∧ w.root ≠ b.node.toNat → v.phase = .running) ∧
      (w.root = b.node.toNat → w.stages = 1 → w.items = 0 → v.phase = .complete ∧ ∀ q, s.sys.packet w.pkt = some q →
        let aborted := (w.nodes.filter fun n => w.runs.any fun r => r.node == n.index && r.aborted).length
        (t.sys.packet w.pkt).map Packet.work = some (.done 0 0 (if aborted = 0 then 0 else 1) aborted))

/-- A node's block is dispatched with its registers, and retired with its header. The parts: `NodeDispatched`, `NodeRetired`. The
model's choices in it, not the spec's: log 64, 124. -/
def Obligations.NodeLifecycle : Prop :=
  Sys2Proof.Claims.NodeDispatched ∧
  Sys2Proof.Claims.NodeRetired

/-- R13, R205, R206, R262: a forming warp becomes ready when its timeout has run out, and is dispatched as a spawn block of one warp
whose first lanes hold its items; its retire lowers the sweep's count and its spawners'; an item of the spawn area comes back to the
queue while there is room. The model's choices in it, not the spec's: log 67, 68, 116. -/
def Obligations.SpawnedItems : Prop :=
  (∀ (s : State) (c : CoreRef) (id : Nat), c.tower < s.sys.towers.length → c.core < (s.sys.tower c.tower).cores.length →
    ∃ t, exec (.spawnPackTimeout c id) s = .next t ∧ t.phys = s.phys ∧ t.sys.blocks = s.sys.blocks ∧
      (t.sys.core c).forming = (s.sys.core c).forming.map fun g =>
        if g.id = id ∧ ((s.sys.sweep g.sweep).map Sweep.pkto).getD 2048 ≤ (s.sys.tower c.tower).clock.toNat - g.since then { g with ready := true } else g) ∧
  (∀ (s : State) (k : Nat) (g : Forming) (later : List Forming) (w : Sweep) (h : ProgramHeader) (ks : List Nat) (tower : Nat),
    (s.sys.tower tower).saved = [] → (s.sys.tower tower).restarts = [] → (s.sys.tower tower).redispatches = [] → k < 36 →
    (∀ j, j < k → (s.sys.core ⟨tower, j⟩).forming = []) → (s.sys.core ⟨tower, k⟩).forming = g :: later → g.ready = true → s.sys.sweeps = [w] →
    w.id = g.sweep → (∀ r ∈ w.runs, r.state ≠ .admitted) → (∀ b ∈ s.sys.blocks, b.down = false) → w.heldHeader g.prog = some (some h) →
    h.fits 1 h.bsmu = true → s.sys.admits ⟨tower, k⟩ h 1 h.bsmu = some ks → (∀ y ∈ later, y.ready = false ∧ y.id ≠ g.id) →
    (∀ j, k < j → (s.sys.core ⟨tower, j⟩).forming = []) → g.items.length ≤ 64 →
    (s.sys.tower tower).dispatchedAt ≠ some (s.sys.tower tower).clock.toNat →
    ∃ t b y, exec (.blockDispatch tower) s = .next t ∧ t.phys = s.phys ∧ t.sys.blocks = s.sys.blocks ++ [b] ∧ b.spawn = true ∧ b.sweep = w.id ∧
      b.stage = g.stage ∧ b.spawners = g.items.map SpawnItem.spawner ∧ b.warps = [y] ∧ (t.sys.core ⟨tower, k⟩).forming = later ∧
      y.slotA.pc = h.entry ∧ (∀ l, l < 64 → y.slotA.mask.getLsbD l = decide (l < g.items.length)) ∧ y.scalar 1 = 0xFFFFFF ∧
      y.scalar 3 = 0 ∧ y.scalar 8 = 0 ∧
      y.scalar 6 = BitVec.ofNat 64 g.stage ∧ y.scalar 7 = BitVec.ofNat 64 w.id ∧
      ∀ l x, g.items[l]? = some x → y.elem 0 l = BitVec.ofNat 32 l ∧ y.pair 2 l = x.arg0 ∧ y.pair 4 l = x.arg1) ∧
  (∀ (s : State) (b : Block) (w : Sweep), s.sys.block b.id = some b → b.spawn = true → s.sys.mayRetire b = true → s.sys.sweep b.sweep = some w →
    (∀ a ∈ (s.sys.core b.coreRef).accSlots, a.block ≠ b.id) → w.phase = .running → w.dir = 0 → 0 < w.stages → (w.run 0 w.root).state ≠ .retired →
    ∃ t v, exec (.blockRetire b.id) s = .next t ∧ t.phys = s.phys ∧ t.sys.block b.id = none ∧ t.sys.sweep b.sweep = some v ∧
      v.items = w.items - b.spawners.length ∧ ∀ y ∈ s.sys.blocks, y.id ≠ b.id →
        { y with spawnOutstanding := y.spawnOutstanding - b.spawners.count y.id } ∈ t.sys.blocks) ∧
  ∀ (s : State) (c : CoreRef) (x : SpawnItem) (w : Sweep), s.sys.sweeps = [w] → w.tower = c.tower → w.id = x.sweep → x ∈ w.spawnArea → x.core = c.core →
    (∀ y ∈ w.spawnArea, y.core = c.core → y = x ∨ x.seq < y.seq) → (s.sys.core c).queued < 4096 → c.tower < s.sys.towers.length →
    c.core < (s.sys.tower c.tower).cores.length → ((s.sys.core c).forming.filter fun g => g.takes x).length ≤ 1 →
    ∃ t v, exec (.spawnAreaRefill c) s = .next t ∧ t.phys = s.phys ∧ t.sys.sweeps = [v] ∧
      v.spawnArea = (w.spawnArea.filter fun y => y.seq != x.seq) ∧ (t.sys.core c).queued = (s.sys.core c).queued + 1 ∧
      ∃ g ∈ (t.sys.core c).forming, x ∈ g.items ∧ g.sweep = x.sweep ∧ g.prog = x.prog ∧ g.stage = x.stage

/-! ## Pre-emption -/

/-- R308 to R311, R264: a request for a resident block that has none: while 16 records are busy it waits for one; else a record is made, in the
place of none that is busy. A block that R310 lets restart is flushed and its record is done; when the pool has room for the context the record
names the units to stop, the block is stopped, and the room lies in the pool clear of every room in use; without room a request of any reason
but a deadlock is refused and its record done, and for a deadlock the block is aborted with CONTEXT_POOL. -/
def Sys2Proof.Claims.PreemptionRequests : Prop :=
  ∀ (s : State) (b : Block) (reason : PreemptReason), s.sys.block b.id = some b → b.tower < s.sys.towers.length → (∀ w ∈ b.warps, w.slice < 6) →
    let k := s.sys.tower b.tower
    let busy := k.records.filter fun r => r.state != 3
    let flushable := (reason = .highLatency ∨ reason = .hostRequest) ∧ b.idemp = true ∧ b.effect = false ∧ b.norst = false ∧ b.spawn = false ∧
      ∀ w ∈ b.warps, ∀ x ∈ w.ops, ∀ d c n, x.body ≠ .tighten d c n
    let size := s.sys.contextSize b
    let clear := fun (a : Nat) => a + size ≤ s.sys.poolSize b.tower ∧ ∀ x ∈ k.rooms, a + size ≤ x.1 ∨ x.1 + x.2 ≤ a
    let request := exec (.preemptRequest b.id reason) s
    ((∃ r ∈ busy, r.block = b.id) → request = .next s) ∧
    ((∀ r ∈ busy, r.block ≠ b.id) →
      (16 ≤ busy.length → ∃ t, request = .next t ∧ t.phys = s.phys ∧ t.sys.blocks = s.sys.blocks ∧ (t.sys.tower b.tower).records = k.records ∧
        (t.sys.tower b.tower).waiting = if k.waiting.any (fun x => x.1 == b.id) then k.waiting else k.waiting ++ [(b.id, reason)]) ∧
      (busy.length < 16 → reason = .acquireDeadlock → (∀ a, ¬ clear a) → request =
        work s fun _ t => (t.map fun y => y.makeRecord b reason 0 0).abortBlock b.id .contextPool 0 0 0 0) ∧
      (busy.length < 16 → reason ≠ .acquireDeadlock ∨ (∃ a, clear a) → ∃ t r, request = .next t ∧ t.phys = s.phys ∧
        (t.sys.tower b.tower).records = (k.records.filter fun x => x.index != r.index) ++ [r] ∧ r.index < 16 ∧ (∀ x ∈ busy, x.index ≠ r.index) ∧
        r.block = b.id ∧ r.core = b.core ∧ r.coreNo = b.coreNo ∧ r.reason = reason ∧ r.ack = 0 ∧ r.t0 = s.sys.ftime ∧
        (∀ i, i < 16 → (r.need.getLsbD i = true ↔ 12 ≤ i ∨ (i < 6 ∧ ∃ w ∈ b.warps, w.slice = i) ∨
          ∃ w ∈ b.warps, i = 6 + w.slice ∧ ∃ x ∈ w.ops, ∃ m, x.body = .mma m)) ∧
        (flushable → r.state = 3 ∧ t.sys.block b.id = none ∧ ∃ q, (t.sys.tower b.tower).restarts = k.restarts ++ [q] ∧
          q.sweep = b.sweep ∧ q.node = b.node.toNat ∧ q.stage = b.stage ∧ q.page = none ∧ q.share = b.share ∧
          q.parentDrawer = b.parentDrawer ∧ q.parentCert = b.parentCert) ∧
        (¬ flushable → (∃ a, clear a) → r.state = 1 ∧ t.sys.block b.id = some { b with stopping := true } ∧ r.size = size ∧ clear r.room) ∧
        (¬ flushable → (∀ a, ¬ clear a) → r.state = 3 ∧ t.sys.blocks = s.sys.blocks)))

/-- R19 (d), R266, R279: a deadlock of the acquire phase asks for the youngest block of the core; a HIGH queue that has waited longer than its
tolerance asks for the youngest BULK block of the tower, a re-dispatch that no core admits for the youngest block that waits in TIGHTEN,
each unless refused, and once in a core cycle; and without that need nothing is done. -/
def Sys2Proof.Claims.PreemptionTriggers : Prop :=
  ∀ (s : State),
    let youngest := fun (b : Block) (bs : List Block) => b ∈ bs ∧ ∀ x ∈ bs, x = b ∨ x.admitted < b.admitted
    let room := fun (tower : Nat) (b : Block) =>
      findRoom (s.sys.tower tower).rooms (s.sys.poolSize tower) (s.sys.contextSize b) ≠ none
    (∀ c, (acquireDeadlocked s.sys c = true → ∀ b, youngest b (s.sys.blocks.filter fun b => b.coreRef == c) →
        exec (.acquireDeadlockEviction c) s = exec (.preemptRequest b.id .acquireDeadlock) s) ∧
      ((∃ b ∈ s.sys.blocks, b.coreRef = c ∧ (b.regRequest = false ∨ b.granted = true ∨ grantPossible s.sys b = true)) →
        exec (.acquireDeadlockEviction c) s = .next s)) ∧
    (∀ tower, let now := some (s.sys.tower tower).clock.toNat
      ((s.sys.tower tower).highAt ≠ now → highWaiting s.sys tower s.sys.clockCode = true → ∀ b,
        youngest b (s.sys.blocks.filter fun b => b.tower == tower && (s.sys.queue b.queue).cls == 2 && !b.stopping) → s.sys.block b.id = some b →
        (b.idemp = true ∧ b.effect = false ∧ b.norst = false ∧ b.spawn = false ∧ b.tightening = false) ∨ room tower b →
        exec (.highLatencyPreempt tower) s = exec (.preemptRequest b.id .highLatency)
          { s with sys := s.sys.setTower tower fun k => { k with highAt := now } }) ∧
      ((s.sys.tower tower).highAt = now ∨ (∀ q, q < 32 → (s.sys.queue q).cls ≠ 0) → exec (.highLatencyPreempt tower) s = .next s)) ∧
    ∀ tower, let now := some (s.sys.tower tower).clock.toNat
      (∀ (r : Redispatch) (w : Sweep) (x : Node) (h : ProgramHeader) (b : Block), (s.sys.tower tower).roomAt ≠ now →
        r ∈ (s.sys.tower tower).redispatches → s.sys.sweep r.sweep = some w →
        w.node r.node = some x → w.heldHeader x.prog = some (some h) → h.fits x.warps (x.units h) = true →
        s.sys.coreFor w.tower h x.warps (x.units h) = none →
        youngest b (s.sys.blocks.filter fun b => b.tower == tower && b.tightening && !b.stopping) → s.sys.block b.id = some b → room tower b →
        exec (.redispatchRoomPreempt tower) s = exec (.preemptRequest b.id .redispatchRoom)
          { s with sys := s.sys.setTower tower fun k => { k with roomAt := now } }) ∧
      ((s.sys.tower tower).roomAt = now ∨ (s.sys.tower tower).redispatches = [] → exec (.redispatchRoomPreempt tower) s = .next s)

/-- Pre-emption requests and the events that make them. The parts: `PreemptionRequests`, `PreemptionTriggers`. The model's choices in
it, not the spec's: log 3, 63, 73, 76, 77, 118. -/
def Obligations.PreemptionRequestsAndTriggers : Prop :=
  Sys2Proof.Claims.PreemptionRequests ∧
  Sys2Proof.Claims.PreemptionTriggers

/-- R307, R309, R312, R310: a unit that a request names and that has stopped sets its bit; the last one writes the context: the block leaves its
core for the pool with its cards, its registers as they stood, and the record is saving until CONTEXT_SAVE_DONE writes the bytes of the context
to its room, and the record is done. A unit that has not
stopped sets nothing; a request still short of its units after 160 µs is a FATAL error (R305, R303): the part is reset, and the error logged and
sent. -/
def Sys2Proof.Claims.StopsAndSaves : Prop :=
  (∀ (s : State) (tower : Nat) (u : StopUnit) (before later : List PreemptRecord) (r : PreemptRecord) (b : Block),
    tower < s.sys.towers.length → (s.sys.tower tower).records = before ++ r :: later → (∀ x ∈ before ++ later, x.index ≠ r.index ∧ x.block ≠ b.id) →
    s.sys.block r.block = some b → b.tower = tower → r.state = 1 → r.need.getLsbD (stopBit u) = true →
    let ack := r.ack ||| (1#16 <<< stopBit u)
    (unitStopped s.phys s.sys b u = false → exec (.unitStopAck tower r.index u) s = .next s) ∧
    (unitStopped s.phys s.sys b u = true → ack ≠ r.need → ∃ t, exec (.unitStopAck tower r.index u) s = .next t ∧ t.phys = s.phys ∧
      t.sys.blocks = s.sys.blocks ∧ (t.sys.tower tower).records = before ++ { r with ack := ack } :: later) ∧
    (unitStopped s.phys s.sys b u = true → ack = r.need → (∀ w ∈ b.warps, ∀ y ∈ w.ops, ∀ n v, y.body ≠ .contribute n v) → ∃ t x, exec (.unitStopAck tower r.index u) s = .next t ∧ t.phys = s.phys ∧
      t.sys.blocks = (s.sys.blocks.filter fun y => y.id != b.id) ∧ (t.sys.tower tower).saved = (s.sys.tower tower).saved ++ [x] ∧
      (t.sys.tower tower).records = before ++ { r with state := 2, ack := r.need } :: later ∧ x.room = r.room ∧ x.size = r.size ∧
      x.block.id = b.id ∧ x.block.bsm = b.bsm ∧ x.block.barriers = b.barriers ∧ x.block.units = [] ∧ x.cards.map Card.id = (s.sys.cardsOf b).map Card.id ∧
      ∀ (i : Nat) (w : Warp), b.warps[i]? = some w → (∀ y ∈ w.ops, ∀ k, y.body ≠ .mma k) → ∃ v, x.block.warps[i]? = some v ∧
        { v with ops := w.ops, slotA := w.slotA, slotB := w.slotB, clearing := w.clearing } = w ∧ v.clearing = [] ∧
        v.ops = w.ops.filter (fun y => match y.body with | .regacq _ | .kick => false | _ => true) ∧
        (w.slotA.hold ≠ .regacq → v.slotA = w.slotA) ∧ (w.slotB.hold ≠ .regacq → v.slotB = w.slotB))) ∧
  (∀ (s : State) (tower i : Nat), tower < s.sys.towers.length → ∃ t, exec (.contextSaveDone tower i) s = .next t ∧ t.sys.blocks = s.sys.blocks ∧
    (t.sys.tower tower).saved = (s.sys.tower tower).saved ∧
    (t.sys.tower tower).records = ((s.sys.tower tower).records.map fun r => if r.index = i ∧ r.state = 2 then { r with state := 3 } else r) ∧
    ((∀ r ∈ (s.sys.tower tower).records, ∀ x ∈ (s.sys.tower tower).saved, r.index = i → r.state = 2 → x.block.id ≠ r.block) → t.phys = s.phys) ∧
    ∀ r x, ((s.sys.tower tower).records.find? fun r => r.index == i && r.state == 2) = some r →
      ((s.sys.tower tower).saved.find? fun x => x.block.id == r.block) = some x →
      let base := s.sys.poolBase tower + x.room
      let outside := fun (a : Nat) => a < base ∨ base + x.size ≤ a
      (∀ k v, k < x.size → x.recordByte k = some v → t.phys.byte (base + k) = v) ∧ (∀ u ∈ t.phys.poison, outside u) ∧
      (∀ a, outside a → t.phys.byte a = s.phys.byte a) ∧ ∀ u, outside u → (u ∈ t.phys.poison ↔ u ∈ s.phys.poison)) ∧
  ∀ s : State,
    ((∀ k ∈ s.sys.towers, ∀ r ∈ k.records, r.state = 1 → s.sys.now < r.at_ + 160000000) → exec .preemptTimeout s = .next s) ∧
    ((∃ k ∈ s.sys.towers, ∃ r ∈ k.records, r.state = 1 ∧ r.at_ + 160000000 ≤ s.sys.now) →
      exec .preemptTimeout s = exec (.fatalError .preemptTimeout) s ∧ ∃ t, exec .preemptTimeout s = .next t ∧ t.phys = s.phys ∧ t.sys.blocks = [] ∧
        t.sys.sweeps = [] ∧ t.sys.packets = [] ∧ t.sys.queues = List.replicate 32 Queue.reset ∧ t.sys.device.devReady = 0 ∧
        t.sys.device.messages = s.sys.device.messages + 1 ∧
        (s.sys.device.log.length < 16383 → t.sys.device.log = s.sys.device.log ++ [.fatal .preemptTimeout]))

/-- R17, R25, R286, R312 to R315: the bytes of a context record: a card entry of 256 bytes for each card in order, with its progress record, PERM, the
bay map, the scalar and mask registers, the stack, the bays and behind their poison map the tiles at their offsets of a warp record; a stack is read back as it was saved, and the
restore fails on a position of TYPE 000, 110 or 111 below RSP, a reserved bit of it or of a card entry, a TRAP position without its partner, a clause
distance of 0 or above 187, and poison anywhere in the record. -/
def Sys2Proof.Claims.ContextRecord : Prop :=
  (∀ (x : SavedBlock) (i : Nat) (c : Card), i < 64 → x.cards[i]? = some c → ∀ j, j < 64 →
    x.recordByte (0x1000 + 256 * i + j) = some (BitVec.ofNat 8 (c.card / 2 ^ (8 * j))) ∧
    x.recordByte (0x1040 + 256 * i + j) = some (BitVec.ofNat 8 (c.shape / 2 ^ (8 * j))) ∧
    (j < 16 → x.recordByte (0x1080 + 256 * i + j) = some (BitVec.ofNat 8 (c.progress / 2 ^ (8 * j))))) ∧
  (∀ c : Card, c.nextn < 2 ^ 64 → c.progress =
    (0#33 ++ BitVec.ofNat 15 (c.addr / 64) ++ BitVec.ofBool c.retry ++
      (match c.state with | .waiting => 0#2 | .running => 1#2 | .suspended => 2#2) ++ BitVec.ofNat 13 (min 4096 (c.cnibs / 2)) ++ BitVec.ofNat 64 c.nextn).toNat) ∧
  (∀ (b : Block) (w : Warp) (j : Nat), j < 8 →
    (∀ n, n < 6 → b.recordByte w (0x80 + 8 * n + j) = some (w.perm.extractLsb' (64 * n + 8 * j) 8)) ∧
    b.recordByte w (0xC0 + j) = some (match w.bays[j]? with | some n => 0#1 ++ 1#1 ++ BitVec.ofNat 6 n | none => 0) ∧
    (∀ n, n < 64 → b.recordByte w (0x200 + 8 * n + j) = some ((w.scalar n).extractLsb' (8 * j) 8)) ∧
    (∀ n, 1 ≤ n → n < 8 → b.recordByte w (0x3F8 + 8 * n + j) = some ((w.m.get n).extractLsb' (8 * j) 8)) ∧
    b.recordByte w (0x438 + j) = some 0) ∧
  (∀ (b : Block) (w : Warp) (k j : Nat), j < 4 → w.bays.length ≤ 64 →
    (k < 2048 * w.bays.length → b.recordByte w (0x7000 + 4 * k + j) =
      some (if NatSet.has w.vPoison k then 0 else (w.v.get k).extractLsb' (8 * j) 8)) ∧
    (k < 4096 * b.tileCount → b.recordByte w (0x7000 + 8448 * w.bays.length + 4 * k + j) =
      some (if NatSet.has w.tilePoison k then 0 else (w.tiles.get k).extractLsb' (8 * j) 8))) ∧
  (∀ (b : Block) (w : Warp) (i j : Nat), i < 132 → j < 16 →
    b.recordByte w (0x800 + 16 * i + j) = some (BitVec.ofNat 8 ((w.rs.flatMap RsEntry.bits).getD i 0 / 2 ^ (8 * j)))) ∧
  (∀ (pc : Pc) (m r : LaneMask) (cause : Byte) (after dist : Nat),
    (RsEntry.join pc m).bits = [(1#14 ++ pc ++ m).toNat] ∧ (RsEntry.loop pc m).bits = [(2#14 ++ pc ++ m).toNat] ∧
    (RsEntry.pend pc m).bits = [(3#14 ++ pc ++ m).toNat] ∧
    (after < 64 → dist < 256 → (RsEntry.trap m pc r cause after dist).bits =
      [(4#14 ++ pc ++ m).toNat, (5#14 ++ 0#28 ++ BitVec.ofNat 8 dist ++ BitVec.ofNat 6 after ++ cause ++ r).toNat])) ∧
  (∀ rs : List RsEntry, (∀ m pc r cause after dist, RsEntry.trap m pc r cause after dist ∈ rs → after < 64 ∧ 1 ≤ dist ∧ dist ≤ 187) →
    readStack (rs.flatMap RsEntry.bits) = some rs) ∧
  (∀ (before later : List Nat) (p : Nat),
    let kind := p / 2 ^ 114 % 8
    (kind = 0 ∨ kind = 6 ∨ kind = 7 ∨ p / 2 ^ 117 % 2 ^ 11 ≠ 0 → readStack (before ++ p :: later) = none) ∧
    (kind = 5 → p / 2 ^ 78 % 2 ^ 8 = 0 ∨ 187 < p / 2 ^ 78 % 2 ^ 8 ∨ (∀ q ∈ before, q / 2 ^ 114 % 8 ≠ 4) → readStack (before ++ p :: later) = none) ∧
    (kind = 4 → (∀ q ∈ later, q / 2 ^ 114 % 8 ≠ 5) → readStack (before ++ p :: later) = none)) ∧
  (∀ (x : SavedBlock) (p : Phys) (base i : Nat), i < x.cards.length →
    let entry := base + 0x1000 + 256 * i
    cardReservedOk (p.num entry 64) = false ∨ shapeReservedOk (p.num (entry + 64) 64) = false ∨ p.num (entry + 128) 16 / 2 ^ 77 % 4 = 3 ∨
      p.num (entry + 128) 16 / 2 ^ 95 ≠ 0 → x.readBack p base = none) ∧
  ∀ (x : SavedBlock) (p : Phys) (base u : Nat), u ∈ p.poison → base ≤ u → u < base + x.recordEnd → x.readBack p base = none

/-- Stop acknowledgements, the save of a context and its record in memory. The parts: `StopsAndSaves`, `ContextRecord`. The model's
choices in it, not the spec's: log 3, 53, 72, 75, 118, 142. -/
def Obligations.StopAndSave : Prop :=
  Sys2Proof.Claims.StopsAndSaves ∧
  Sys2Proof.Claims.ContextRecord

/-! ## Budgets, windows and the engine control register -/

/-- R293 to R295: a new interval of 256 cycles gives the budget that the register holds, 64 bytes for each unit, less an overdraft,
which the budgets of intervals that have passed without an event pay first; a new window of 64 cycles moves the count of MMAs on and
takes the step; a write with a reserved bit is ignored (for bits 63 to 32: log 120), OVC 11 keeps the old code, and a write changes
no value in force. The model's choices in it, not the spec's: log 3, 41, 120. -/
def Obligations.EngineControl : Prop :=
  ∀ (s : State) (c : CoreRef), c.tower < s.sys.towers.length → c.core < (s.sys.tower c.tower).cores.length →
    let k := s.sys.core c
    let clock := (s.sys.tower c.tower).clock.toNat
    let reg := k.control.toNat
    let unit : Int := 64 * (reg / 2 ^ 16 % 2 ^ 16 : Nat)
    (∃ t, exec (.budgetInterval c) s = .next t ∧ t.phys = s.phys ∧ t.sys.blocks = s.sys.blocks ∧ t.sys.core c = if clock / 256 = k.intervalAt then k else
      { k with intervalAt := clock / 256, budget := reg / 2 ^ 16 % 2 ^ 16, ovc := reg % 4,
               budgetLeft := unit + if k.budget = 0 then 0 else min 0 (k.budgetLeft + unit * (clock / 256 - k.intervalAt - 1 : Nat)) }) ∧
    (∃ t, exec (.slewWindow c) s = .next t ∧ t.phys = s.phys ∧ t.sys.blocks = s.sys.blocks ∧ t.sys.core c = if clock / 64 = k.windowAt then k else
      { k with windowAt := clock / 64, mmaPrev := if clock / 64 = k.windowAt + 1 then k.mmaNow else 0, mmaNow := 0, mstep := reg / 4 % 256, ovc := reg % 4 }) ∧
    ∀ v : DWord,
      (v.extractLsb' 10 6 ≠ 0 ∨ v.extractLsb' 32 32 ≠ 0 → exec (.engineControlWrite c v) s = .next s) ∧
      (v.extractLsb' 10 6 = 0 → v.extractLsb' 32 32 = 0 → ∃ t, exec (.engineControlWrite c v) s = .next t ∧ t.phys = s.phys ∧ t.sys.blocks = s.sys.blocks ∧
        t.sys.core c = { k.rolled clock with
          control := if v.extractLsb' 0 2 = 3 then v.extractLsb' 2 62 ++ k.control.extractLsb' 0 2 else v })

/-! ## Queues and packets -/

namespace Sys2Proof.Claims

/-- A packet is opened with this work, and nothing else of packets, blocks or memory differs. -/
def Opens (s t : State) (p : PacketRef) (work : PacketWork) (waits : Bool) : Prop :=
  t.phys = s.phys ∧ t.sys.blocks = s.sys.blocks ∧ t.sys.packets = s.sys.packets ++ [opened s p work waits]

/-- A started packet is left with this work, and no fault holds it. -/
def EndsIn (t : State) (id : Nat) (work : PacketWork) : Prop :=
  (t.sys.packet id).map (fun x => (x.work, x.fault)) = some (work, none)

/-- The memory of `p` reads as that of `s` but at some addresses. -/
def AgreeBut (p q : Phys) (at_ : Nat → Prop) : Prop := (∀ a, ¬ at_ a → p.byte a = q.byte a) ∧ ∀ a, p.poisoned a = q.poisoned a

end Sys2Proof.Claims

/-- R320, R329, R351: a doorbell writes WPTR and halts the queue when it runs further ahead than the ring is long; EN := 1 succeeds when
the checked fields are good, latching CLASS, WEIGHT and LTOL, halts the queue when WPTR is further ahead than the ring is long, and
else changes nothing; EN := 0 clears HALT; the other fields and queues stay. While the Command Processor does not run the accesses
are held, and in recovery nothing answers. The model's choices in it, not the spec's: log 3, 85. -/
def Obligations.QueueRegisters : Prop :=
  ∀ (s : State) (q : Nat) (w : Word), q < s.sys.queues.length →
    let x := s.sys.queue q
    let others := fun (t : State) => t.phys = s.phys ∧ t.sys.blocks = s.sys.blocks ∧ ∀ k, k ≠ q → t.sys.queue k = s.sys.queue k
    let on := s.sys.ready 1 = true
    let good := x.field 67 64 ≤ 12 ∧ x.field 81 80 ≠ 3 ∧ x.field 89 82 ≠ 0 ∧ x.field 107 107 = 0 ∧ x.field 51 0 % 4096 = 0 ∧
      x.field 243 192 % 8 = 0 ∧ x.field 307 256 % 4096 = 0 ∧ x.field 371 320 % 4096 = 0
    let ahead := fun (wptr : Nat) => 2 ^ (x.field 67 64 + 4) < (wptr + 2 ^ 32 - x.field 191 160) % 2 ^ 32
    (∀ i ∈ [Instr.queueDoorbell q w, .queueEnable q, .queueDisable q], ¬ on →
      (s.sys.device.recovery = true → exec i s = .next s) ∧
      (s.sys.device.recovery = false → exec i s = .next { s with sys := { s.sys with heldAccesses := s.sys.heldAccesses ++ [i] } })) ∧
    (on → ∃ t, exec (.queueDoorbell q w) s = .next t ∧ others t ∧ (t.sys.queue q).field 159 128 = w.toNat ∧
      (t.sys.queue q).field 107 107 = (if ahead w.toNat then 1 else x.field 107 107) ∧
      ∀ hi lo, lo ≤ hi → hi < 107 ∨ (107 < lo ∧ hi < 128) ∨ 159 < lo → (t.sys.queue q).field hi lo = x.field hi lo) ∧
    (on → x.field 106 106 = 0 → good → ∃ t, exec (.queueEnable q) s = .next t ∧ others t ∧ (t.sys.queue q).field 106 106 = 1 ∧
      (t.sys.queue q).cls = x.field 81 80 ∧ (t.sys.queue q).weight = x.field 89 82 ∧ (t.sys.queue q).ltol = x.field 105 90 ∧
      (t.sys.queue q).field 107 107 = (if ahead (x.field 159 128) then 1 else 0) ∧
      ∀ hi lo, lo ≤ hi → hi < 106 ∨ 107 < lo → (t.sys.queue q).field hi lo = x.field hi lo) ∧
    (on → x.field 106 106 = 1 ∨ ¬ good → exec (.queueEnable q) s = .next s) ∧
    (on → ∃ t, exec (.queueDisable q) s = .next t ∧ others t ∧ (t.sys.queue q).field 106 106 = 0 ∧ (t.sys.queue q).field 107 107 = 0 ∧
      ∀ hi lo, lo ≤ hi → hi < 106 ∨ 107 < lo → (t.sys.queue q).field hi lo = x.field hi lo)

/-- R230, R240, R322 to R325: NOP and a bad packet complete at their start; WAIT completes when its signal has reached the value and else waits; SIGNAL
writes or adds; MAP writes the entries of a run of window pages, or reports a bad run, and then invalidates; OP 10 invalidates; each is held while
the memory that it needs is not ready. -/
def Sys2Proof.Claims.PacketsStart : Prop :=
  ∀ (s : State) (p : PacketRef), Unstarted s p → (∀ y ∈ s.sys.packets, y.id < s.sys.fresh) →
    let asid := s.sys.queueAsid p.queue
    (s.sys.starting = some p → ∃ t, exec .nopPacket s = .next t ∧ Opens s t p (.done 0 0 0 0) false) ∧
    (∀ off, ∃ t, exec (.badPacket p off) s = .next t ∧ Opens s t p (.done 3 1 0 off) false) ∧
    (∀ va value timeout pa, mainByte s.phys s.sys asid va true false = .ok pa → ∃ t, exec (.wait p va value timeout) s = .next t ∧
      Opens s t p (if value.toNat ≤ s.phys.num pa 8 then .done 0 0 0 0 else .wait va value timeout s.sys.now false) true) ∧
    (∀ va value (add : Bool) pa, mainByte s.phys s.sys asid va add true = .ok pa → s.phys.anyPoison pa 8 = false →
      ∃ t, exec (.signal p va value add) s = .next t ∧ t.sys.packets = s.sys.packets ++ [opened s p (.done 0 0 0 0) false] ∧
        t.phys.num pa 8 = (if add then (value.toNat + s.phys.num pa 8) % 2 ^ 64 else value.toNat) ∧ AgreeBut t.phys s.phys fun a => pa ≤ a ∧ a < pa + 8) ∧
    (∀ va value timeout, mainByte s.phys s.sys asid va true false = .error .held → ∃ t, exec (.wait p va value timeout) s = .next t ∧
      Opens s t p (.wait va value timeout s.sys.now false) true) ∧
    (∀ va value (add : Bool), mainByte s.phys s.sys asid va add true = .error .held → ∃ t, exec (.signal p va value add) s = .next t ∧
      Opens s t p (.signal va value add) false) ∧
    (∀ va pages, ∃ t, exec (.invalidatePages p va pages) s = .next t ∧ Opens s t p (.invalidate false 0 va pages) false) ∧
    ∀ tower first count,
      let ready := fun (base : Nat) => ∀ k, k < count → s.sys.memReady (base + 8 * (first + k)) = true
      (s.sys.contextHeld asid = true ∨ (∃ base, windowTable s.phys s.sys asid tower = some base ∧ first + count ≤ 65536 ∧ ¬ ready base) →
        (∃ t, exec (.unmapRun p tower first count) s = .next t ∧ Opens s t p (.map tower first count none) false) ∧
        ∀ phys, phys + count ≤ 3072 → ∃ t, exec (.mapRun p tower first count phys) s = .next t ∧ Opens s t p (.map tower first count (some phys)) false) ∧
      (s.sys.contextHeld asid = false → windowTable s.phys s.sys asid tower = none ∨ 65536 < first + count →
        (∃ t, exec (.unmapRun p tower first count) s = .next t ∧ Opens s t p (.done 3 4 0 0) false) ∧
        ∀ phys, ∃ t, exec (.mapRun p tower first count phys) s = .next t ∧ Opens s t p (.done 3 4 0 0) false) ∧
      (∀ phys, s.sys.contextHeld asid = false → 3072 < phys + count → ∃ t, exec (.mapRun p tower first count phys) s = .next t ∧ Opens s t p (.done 3 4 0 0) false) ∧
      ∀ base, s.sys.contextHeld asid = false → windowTable s.phys s.sys asid tower = some base → first + count ≤ 65536 → ready base →
        s.phys.poison = [] →
        let written := fun (i : Instr) (entry : Nat → Nat) => ∃ t, exec i s = .next t ∧
          t.sys.packets = s.sys.packets ++ [opened s p (.invalidate true tower first count) false] ∧
          (∀ k, k < count → t.phys.num (base + 8 * (first + k)) 8 = entry k) ∧
          AgreeBut t.phys s.phys fun a => base + 8 * first ≤ a ∧ a < base + 8 * (first + count)
        written (.unmapRun p tower first count) (fun _ => 0) ∧
        ∀ phys, phys + count ≤ 3072 → written (.mapRun p tower first count phys) fun k => 1 + 2 * (phys + k)

/-- R230, R245, R322: a COPY whose bytes can all be reached, whatever the copied bytes are, and whose places do not meet, leaves each source byte at its
destination and nothing else changed, and is done; the byte of a bad host completion poisons its destination, and is logged
(R303); a COPY whose first source byte lies
on an unmapped window page ends with KIND 11 at offset 0 and copies nothing, and one whose first source byte is in a memory that is not ready is
held. -/
def Sys2Proof.Claims.CopyPacket : Prop :=
  ∀ (s : State) (p : PacketRef) (src dst : CopyOperand) (len : Nat), Unstarted s p → (∀ y ∈ s.sys.packets, y.id < s.sys.fresh) → s.phys.poison = [] →
    let asid := s.sys.queueAsid p.queue
    (∀ f g : Nat → Nat,
      (∀ i j, i < len → j < len → f i ≠ g j ∧ (i ≠ j → g i ≠ g j)) →
      (∀ m : Phys, (AgreeBut m s.phys fun a => ∃ i, i < len ∧ a = g i) → ∀ i, i < len →
        copyByte src m s.sys asid i false = .ok (f i) ∧ copyByte dst m s.sys asid i true = .ok (g i)) →
      (∀ i, i < len → s.sys.hostBad (f i) 1 = false) →
      ∃ t, exec (.copy p src dst len) s = .next t ∧ t.sys.packets = s.sys.packets ++ [opened s p (.done 0 0 0 0) false] ∧
        (∀ i, i < len → t.phys.byte (g i) = s.phys.byte (f i)) ∧ AgreeBut t.phys s.phys fun a => ∃ i, i < len ∧ a = g i) ∧
    (∀ a b, len = 1 → copyByte src s.phys s.sys asid 0 false = .ok a → copyByte dst s.phys s.sys asid 0 true = .ok b → s.sys.hostBad a 1 = true →
      ∃ t, exec (.copy p src dst len) s = .next t ∧ t.sys.packets = s.sys.packets ++ [opened s p (.done 0 0 0 0) false] ∧
        t.phys.poisoned b = true ∧ (s.sys.device.log.length < 16383 → t.sys.device.log = s.sys.device.log ++ [.host a 1])) ∧
    (0 < len → copyByte src s.phys s.sys asid 0 false = .error .held →
      ∃ t, exec (.copy p src dst len) s = .next t ∧ Opens s t p (.copy src dst len 0) false) ∧
    ∀ tower off, src = .window tower off → s.sys.ready (26 + tower) = true → towerWindow s.phys s.sys asid tower off = none → 0 < len →
      ∃ t, exec (.copy p src dst len) s = .next t ∧ Opens s t p (.done 3 3 0 0) false

/-- Packets start, and COPY moves its bytes. The parts: `PacketsStart`, `CopyPacket`. The model's choices in it, not the spec's: log 35,
82, 83. -/
def Obligations.PacketsAndCopy : Prop :=
  Sys2Proof.Claims.PacketsStart ∧
  Sys2Proof.Claims.CopyPacket

/-- R230, R325, R327: an evaluation of a WAIT completes it when the signal has reached the value, asks for a page that is not present,
goes on waiting while the signal's memory is not ready, and ends with KIND 11 on any other failure; the timeout ends a WAIT that
still waits with KIND 10, and not before its time; a declined Page Request ends it; a response resumes or ends what its fault holds.
The model's choices in it, not the spec's: log 3, 84, 128. -/
def Obligations.WaitsAndFaults : Prop :=
  (∀ (s : State) (q : Packet) (va : Nat) (value : DWord) (timeout started : Nat) (asked : Bool), s.sys.packet q.id = some q →
    q.work = .wait va value timeout started asked → q.fault = none →
    let asid := s.sys.queueAsid q.ref.queue
    let read := mainByte s.phys s.sys asid va true false
    let ends := fun (i : Instr) (w : PacketWork) => ∃ t, exec i s = .next t ∧ t.phys = s.phys ∧ t.sys.blocks = s.sys.blocks ∧ EndsIn t q.id w
    let elapsed := started + 1000000 * timeout ≤ s.sys.now ∧ timeout ≠ 0
    (asked = false → ∀ pa, read = .ok pa → value.toNat ≤ s.phys.num pa 8 → ends (.waitEvaluate q.id) (.done 0 0 0 0) ∧ (elapsed → ends (.waitTimeout q.id) (.done 0 0 0 0))) ∧
    (asked = false → ∀ pa, read = .ok pa → s.phys.num pa 8 < value.toNat → exec (.waitEvaluate q.id) s = .next s ∧ (elapsed → ends (.waitTimeout q.id) (.done 2 0 0 0))) ∧
    (asked = false → read = .error .held → exec (.waitEvaluate q.id) s = .next s ∧ (elapsed → ends (.waitTimeout q.id) (.done 2 0 0 0))) ∧
    (asked = false → ∀ a, read = .error (.fault a .notPresent) → ends (.waitEvaluate q.id) (.wait va value timeout started true)) ∧
    (asked = false → ∀ a w, read = .error (.fault a w) → w ≠ .notPresent → ends (.waitEvaluate q.id) (.done 3 2 0 0)) ∧
    (started ≤ s.sys.now → ¬ elapsed → exec (.waitTimeout q.id) s = .next s) ∧ (asked = true → elapsed → ends (.waitTimeout q.id) (.done 2 0 0 0)) ∧
    (asked = true → ends (.pageRequestResponse q.id false) (.done 3 2 0 0) ∧
      ∀ pa, read = .ok pa → ends (.pageRequestResponse q.id true) (if value.toNat ≤ s.phys.num pa 8 then .done 0 0 0 0 else .wait va value timeout started false))) ∧
  (∀ (s : State) (id : Nat), (∀ f ∈ s.sys.faults, f.id ≠ id) → exec (.faultResponseResume id) s = .next s ∧ exec (.faultResponseDecline id) s = .next s) ∧
  ∀ (s : State) (f : Suspension), s.sys.faults.find? (fun x => x.id == f.id) = some f →
    let rest := s.sys.faults.filter fun x => x.id != f.id
    (∀ c id, f.owner = .card c id → ∃ t, exec (.faultResponseResume f.id) s = .next t ∧ t.phys = s.phys ∧ t.sys.faults = rest ∧
      ∀ r, (t.sys.core r).cards = (s.sys.core r).cards.map fun x => if x.id = id then { x with faultId := none, state := .waiting } else x) ∧
    ∀ id q, f.owner = .packet id → s.sys.packet id = some q →
      let declined := fun (w : PacketWork) => ∃ t, exec (.faultResponseDecline f.id) s = .next t ∧ t.phys = s.phys ∧ t.sys.faults = rest ∧ EndsIn t id w
      (∀ k c d e, q.work = .done k c d e → ∃ t, exec (.faultResponseResume f.id) s = .next t ∧ t.phys = s.phys ∧ t.sys.faults = rest ∧ EndsIn t id q.work) ∧
      (∀ va table, q.work = .sweep va table → declined (.done 1 0 0x17 f.id)) ∧ (∀ x y n off, q.work = .copy x y n off → declined (.done 3 3 0 off)) ∧
      (∀ va v a, q.work = .signal va v a → declined (.done 3 5 0 0))

/-- R323, R326: PACKET_COMPLETION leaves the 16-byte record at the ring's next place with tag, KIND, PCODE, CODE, DETAIL and FTIME,
counts the completion signal up by one, raises the queue's vector, and halts the queue for KIND 10 and 11; while the signal's memory
is not ready the packet stays (R230); MSIX_DELIVERY raises a pending vector that is not masked. The model's choices in it, not the
spec's: log 3. -/
def Obligations.PacketCompletes : Prop :=
  (∀ (s : State) (q : Packet) (kind pcode code detail v : Nat) (pas ps : List Nat), s.sys.packet q.id = some q → q.work = .done kind pcode code detail → q.fault = none →
    q.ref.queue < s.sys.queues.length → kind < 4 →
    let x := s.sys.queue q.ref.queue
    let asid := s.sys.queueAsid q.ref.queue
    let csig := x.field 243 192
    readVirtual s.phys s.sys asid csig 8 = .ok v → walkRange s.phys s.sys asid (x.field 307 256 + 16 * (v % 2 ^ (x.field 311 308 + 8))) 16 false true = .ok pas →
    (∀ m : Phys, (AgreeBut m s.phys fun a => a ∈ pas) → walkRange m s.sys asid csig 8 false true = .ok ps) → s.phys.poison = [] → (pas ++ ps).Nodup →
    ∃ t, exec (.packetCompletion q.id) s = .next t ∧ t.sys.packets = (s.sys.packets.filter fun y => y.id != q.id) ∧
      pas.map t.phys.byte = natToBytes 16 (q.ref.tag.toNat + kind * 2 ^ 16 + pcode * 2 ^ 18 + code * 2 ^ 24 + detail % 2 ^ 32 * 2 ^ 32 + s.sys.ftime.toNat * 2 ^ 64) ∧
      ps.map t.phys.byte = natToBytes 8 (v + 1) ∧ (AgreeBut t.phys s.phys fun a => a ∈ pas ∨ a ∈ ps) ∧ NatSet.has t.sys.device.msix q.ref.queue = true ∧
      (t.sys.queue q.ref.queue).field 107 107 = if 2 ≤ kind then 1 else x.field 107 107) ∧
  (∀ (s : State) (q : Packet) (kind pcode code detail a : Nat), s.sys.packet q.id = some q → q.work = .done kind pcode code detail → q.fault = none →
    q.ref.queue < s.sys.queues.length →
    readVirtual s.phys s.sys (s.sys.queueAsid q.ref.queue) ((s.sys.queue q.ref.queue).field 243 192) 8 = .error (a, .held) →
    ∃ t, exec (.packetCompletion q.id) s = .next t ∧ t.phys = s.phys ∧ t.sys.packets = s.sys.packets) ∧
  ∀ (s : State) (n : Nat),
    (NatSet.has s.sys.device.msix n = true → NatSet.has s.sys.device.masked n = false → ∃ t, exec (.msixDelivery n) s = .next t ∧ t.phys = s.phys ∧
      t.sys.blocks = s.sys.blocks ∧ t.sys.device.raised = s.sys.device.raised ++ [n] ∧ NatSet.has t.sys.device.msix n = false ∧
      ∀ k, k ≠ n → NatSet.has t.sys.device.msix k = NatSet.has s.sys.device.msix k) ∧
    (NatSet.has s.sys.device.msix n = false ∨ NatSet.has s.sys.device.masked n = true → exec (.msixDelivery n) s = .next s)

/-! ## The market and fabric time -/

namespace Sys2Proof.Claims

/-- A record that the part sends now (R334): its own market, the current bell, epoch and sequence number. -/
def ownRecord (s : State) (kind code eff stall : Nat) (to_ : Option Nat) (board : List BoardEntry) : SentRecord :=
  { ports := s.sys.market.forward, kind := kind, to_ := to_, board := board,
    post := { market := s.sys.market.number, stall := stall, code := code, send := s.sys.bellNow, eff := eff, epoch := s.sys.market.epoch.toNat,
              seq := s.sys.market.seq.toNat } }

/-- A step outside blocks and memory. -/
def MarketOnly (s t : State) : Prop := t.phys = s.phys ∧ t.sys.blocks = s.sys.blocks ∧ t.sys.sweeps = s.sys.sweeps ∧ t.sys.queues = s.sys.queues

/-- A MARKET packet ends or goes on with this work. -/
def Answers (s t : State) (p : PacketRef) (work : PacketWork) : Prop := MarketOnly s t ∧ t.sys.packets = s.sys.packets ++ [opened s p work false]

/-- A record taken in at a port and passed on to the other ports of the mask (R336). -/
def passedOn (s : State) (kind : Nat) (r : ReceivedRecord) : SentRecord :=
  { ports := if natBit s.sys.market.forward r.port then s.sys.market.forward - 2 ^ r.port else s.sys.market.forward, kind := kind, post := r.post,
    to_ := r.to_, board := r.board }

/-- Part of the market, and free to send (R333). -/
def Sending (s : State) : Prop := s.sys.time.state = .locked ∨ s.sys.time.state = .holdover

end Sys2Proof.Claims

/-- R335, R338, R339, R347: CONFIG and JOIN answer KIND 11 for a part in a market, and JOIN KIND 10 without time or a market number;
CONFIG sets number, stall and forward mask; JOIN founds or sends JOIN_REQ for four bells on; LEAVE sends LEAVE and makes the own
entry LEAVING until its bell; POST sets the ceiling and sends the new desired code, a NOTICE when it is lower. The model's choices
in it, not the spec's: log 89, 90, 92. -/
def Obligations.MarketMembership : Prop :=
  ∀ (s : State) (p : PacketRef), Unstarted s p → (∀ y ∈ s.sys.packets, y.id < s.sys.fresh) →
    let m := s.sys.market
    let b := s.sys.bellNow
    let busy := m.member = true ∨ m.join.isSome = true
    let done := fun (i : Instr) (kind pcode : Nat) => ∃ t, exec i s = .next t ∧ Answers s t p (.done kind pcode 0 0) ∧ t.sys.market = m
    (∀ n st fw, (busy → done (.config p n st fw) 3 6) ∧ (¬ busy → ∃ t, exec (.config p n st fw) s = .next t ∧ Answers s t p (.done 0 0 0 0) ∧
      t.sys.market = { m with number := n, stall := st, forward := fw, board := [] })) ∧
    (∀ sponsor,
      (busy → done (.join p sponsor) 3 6) ∧
      (¬ busy → s.sys.time.state = .unset ∨ m.number = 0 ∨ (sponsor = s.sys.partNo ∧ s.sys.time.state ≠ .locked) → done (.join p sponsor) 2 0) ∧
      (¬ busy → m.number ≠ 0 → Sending s → sponsor ≠ s.sys.partNo ∨ s.sys.time.state = .locked → ∃ t, exec (.join p sponsor) s = .next t ∧ Answers s t p .join ∧
        t.sys.market.join = some { pkt := s.sys.fresh, since := b, found := sponsor == s.sys.partNo, activeAt := none } ∧
        t.sys.market.sent = m.sent ++ (if sponsor = s.sys.partNo then [] else [ownRecord s 4 0 (b + 4) m.stall (some sponsor) []]))) ∧
    (∀ bell, (m.member = false → done (.marketLeave p bell) 3 6) ∧
      (m.member = true → Sending s → ∀ e, m.entry m.stall = some e → ∃ t x, exec (.marketLeave p bell) s = .next t ∧
        Answers s t p (.untilBell (max bell (b + 2))) ∧ t.sys.market.lastPost = b ∧ t.sys.market.sent = m.sent ++ [ownRecord s 7 0 (max bell (b + 2)) m.stall none []] ∧
        t.sys.market.entry m.stall = some x ∧ x.state = .leaving ∧ x.leaveAt = some (max bell (b + 2)) ∧ x.code = e.code ∧ x.pending = e.pending)) ∧
    ∀ c,
      let d := min c (min m.power (min m.thermal m.sensor))
      (m.member = true → Sending s → m.lastPosted ≠ some d → ∃ t, exec (.marketPost p c) s = .next t ∧ Answers s t p (.untilBell (b + 2)) ∧
        t.sys.market.ceiling = c ∧ t.sys.market.lastPosted = some d ∧
        t.sys.market.sent = m.sent ++ [ownRecord s (match m.lastPosted with | some o => if d < o then 1 else 0 | none => 0) d (b + 2) m.stall none []] ∧
        (t.sys.market.entry m.stall).map BoardEntry.pending = (m.entry m.stall).map fun e => e.pending ++ [(b + 2, m.seq.toNat, d)]) ∧
      (m.member = false ∨ ¬ Sending s ∨ m.lastPosted = some d → ∃ t, exec (.marketPost p c) s = .next t ∧ Answers s t p (.done 0 0 0 0) ∧
        t.sys.market = { m with ceiling := c })

/-- R334, R336, R340, R341: a POST, NOTICE, LATE or HEARTBEAT of a known member is put on its entry, passed on and heard; any other is discarded and
counted; an entry of another stall is left alone. Without a record nothing happens. -/
def Sys2Proof.Claims.PostsReceived : Prop :=
  ∀ (s : State) (i : Instr × Nat), i ∈ [(Instr.post, 0), (.notice, 1), (.late, 2), (.heartbeat, 3)] →
    let m := s.sys.market
    (s.sys.inputs.records = [] → exec i.1 s = .next s) ∧
    ∀ (r : ReceivedRecord) (rest : List ReceivedRecord), s.sys.inputs.records = r :: rest →
      let ours := m.number ≠ 0 ∧ r.post.market = m.number
      (∀ e, ours → m.entry r.post.stall = some e → e.state ≠ .evicted → ∃ t x, exec i.1 s = .next t ∧ MarketOnly s t ∧ t.sys.packets = s.sys.packets ∧
        t.sys.inputs.records = rest ∧ t.sys.market.sent = m.sent ++ [passedOn s i.2 r] ∧ t.sys.market.discarded = m.discarded ∧
        t.sys.market.entry r.post.stall = some x ∧ x.code = e.code ∧ x.state = e.state ∧ x.last = max e.last r.post.send ∧
        x.pending = e.pending ++ [(r.post.eff, r.post.seq, r.post.code)] ∧
        (e.state = .silent → e.last < r.post.send → ∀ a, e.activeAt = some a → x.activeAt = some (min a r.post.eff)) ∧
        (e.state = .silent → e.last < r.post.send → e.activeAt = none → x.activeAt = some r.post.eff) ∧
        (∀ k, k ≠ r.post.stall → t.sys.market.entry k = m.entry k) ∧
        t.sys.market.heard = (if r.post.stall = m.stall then m.heard else max m.heard s.sys.bellNow) ∧
        t.sys.market.lateArrivals = (if s.sys.time.state ≠ .unset ∧ r.post.eff ≤ s.sys.time.bell then m.lateArrivals + 1 else m.lateArrivals)) ∧
      (¬ ours ∨ (∀ e, m.entry r.post.stall = some e → e.state = .evicted) → ∃ t, exec i.1 s = .next t ∧ MarketOnly s t ∧
        t.sys.inputs.records = rest ∧ t.sys.market = { m with discarded := m.discarded + 1 })

/-- R334, R336, R338, R339: a discarded record is counted; a sponsor that is ACTIVE answers JOIN_REQ with its board to the joiner and JOIN_ANN to all, for
four bells on, and a part that the request does not name passes it on; the joiner takes the board over and is JOINING on it, and another part passes a
snapshot of a known sender on, which is heard with it, and discards any other; a member enters the joiner that JOIN_ANN names; LEAVE makes its sender LEAVING; each of
these posts that comes after its bell is counted, and one of another member is heard (R341). That the
SNAPSHOT record carries CODE 0, the bell four on as its EFF and the whole board as its data is the model's choice, not the spec's: log 90. -/
def Sys2Proof.Claims.MembershipRecords : Prop :=
  ∀ (s : State) (r : ReceivedRecord) (rest : List ReceivedRecord), s.sys.inputs.records = r :: rest →
    let m := s.sys.market
    let b := s.sys.bellNow
    let ours := m.number ≠ 0 ∧ r.post.market = m.number
    let k := r.post.stall
    let taken := fun (t : State) => MarketOnly s t ∧ t.sys.inputs.records = rest
    let named := r.to_ = none ∨ r.to_ = some s.sys.partNo
    let known := ∃ e, m.entry k = some e ∧ e.state ≠ .evicted
    let arrivals := if s.sys.time.state ≠ .unset ∧ r.post.eff ≤ s.sys.time.bell then m.lateArrivals + 1 else m.lateArrivals
    let heardBy := fun (e : BoardEntry) => { e with
      last := max e.last r.post.send
      activeAt := if e.state = .silent ∧ e.last < r.post.send then some (match e.activeAt with | some a => min a r.post.eff | none => r.post.eff)
        else e.activeAt }
    (∀ i ∈ [Instr.discardedPost, .joinReq, .snapshot, .joinAnn, .leave], i = .discardedPost ∨ ¬ ours →
      ∃ t, exec i s = .next t ∧ taken t ∧ t.sys.market = { m with discarded := m.discarded + 1 }) ∧
    (ours → ¬ named → ∃ t, exec .joinReq s = .next t ∧ taken t ∧ t.sys.market = { m with sent := m.sent ++ [passedOn s 4 r] }) ∧
    (ours → named → m.own = .active → (m.board.filter fun e => e.state != .evicted).length < 4096 → Sending s → k ≠ m.stall → ∃ t x, exec .joinReq s = .next t ∧ taken t ∧
      t.sys.market.sent = m.sent ++ [ownRecord s 5 0 (b + 4) m.stall (some k) m.board,
        { ownRecord s 6 0 (b + 4) k none [] with post := { (ownRecord s 6 0 (b + 4) k none []).post with seq := (m.seq + 1).toNat } }] ∧
      t.sys.market.lastPost = b ∧ t.sys.market.entry k = some x ∧ x.state = .joining ∧ x.activeAt = some (b + 4) ∧ x.pending = []) ∧
    (ours → named → m.own ≠ .active → ∃ t, exec .joinReq s = .next t ∧ taken t ∧ t.sys.market = m) ∧
    (ours → r.to_ = none ∨ r.to_ = some m.stall → ∀ j, m.join = some j → j.found = false → j.activeAt = none → Sending s → ∃ t x, exec .snapshot s = .next t ∧ taken t ∧
      t.sys.market.join = some { j with activeAt := some r.post.eff } ∧ t.sys.market.entry m.stall = some x ∧ x.state = .joining ∧ x.activeAt = some r.post.eff ∧
      (∀ n, n ≠ m.stall → n ≠ k → t.sys.market.entry n = r.board.find? fun e => e.stall == n) ∧
      (k ≠ m.stall → t.sys.market.entry k = (r.board.find? fun e => e.stall == k).map heardBy) ∧ t.sys.market.epoch = BitVec.ofNat 16 r.post.epoch) ∧
    (ours → m.join = none ∨ (∃ n, r.to_ = some n ∧ n ≠ m.stall) →
      (known → ∃ t, exec .snapshot s = .next t ∧ taken t ∧ t.sys.market =
        { m with sent := m.sent ++ [passedOn s 5 r], lateArrivals := arrivals, heard := if k = m.stall then m.heard else max m.heard b,
                 board := m.board.map fun e => if e.stall = k then heardBy e else e }) ∧
      (¬ known → ∃ t, exec .snapshot s = .next t ∧ taken t ∧ t.sys.market = { m with discarded := m.discarded + 1 })) ∧
    (ours → m.member = true → k ≠ m.stall → ∃ t x, exec .joinAnn s = .next t ∧ taken t ∧ t.sys.market.sent = m.sent ++ [passedOn s 6 r] ∧
      t.sys.market.entry k = some x ∧ x.state = .joining ∧ x.activeAt = some r.post.eff ∧ (∀ n, n ≠ k → t.sys.market.entry n = m.entry n) ∧
      t.sys.market.lateArrivals = arrivals ∧ t.sys.market.heard = max m.heard b) ∧
    (ours → ¬ known → ∃ t, exec .leave s = .next t ∧ taken t ∧ t.sys.market = { m with discarded := m.discarded + 1 }) ∧
    ∀ e, ours → m.entry k = some e → e.state ≠ .evicted → ∃ t x, exec .leave s = .next t ∧ taken t ∧ t.sys.market.sent = m.sent ++ [passedOn s 7 r] ∧
      t.sys.market.entry k = some x ∧ x.state = .leaving ∧ x.leaveAt = some r.post.eff ∧ x.code = e.code ∧ (∀ n, n ≠ k → t.sys.market.entry n = m.entry n) ∧ t.sys.market.lateArrivals = arrivals

/-- Market records received: posts, notices, late ones, and membership. The parts: `PostsReceived`, `MembershipRecords`. The model's
choices in it, not the spec's: log 3, 87, 90, 91, 92, 157. -/
def Obligations.MarketRecords : Prop :=
  Sys2Proof.Claims.PostsReceived ∧
  Sys2Proof.Claims.MembershipRecords

/-- R332, R338 to R340: at a bell a due JOINING member turns ACTIVE, one not heard for 50 bells SILENT and, 50 bells later, EVICTED and
without its code, and a due LEAVING one is gone; each code in force is that of the newest due post; the tariff is the least code of
the members that count; the timers of HEARTBEAT and JOIN act when due, and nothing happens before. The model's choices in it, not
the spec's: log 86, 88, 94. -/
def Obligations.BellRings : Prop :=
  (∀ s : State, s.sys.time.state = .unset ∨ s.sys.time.count < (s.sys.time.bell + 1) * 100000 → exec .bell s = .next s) ∧
  (∀ (s : State) (own : BoardEntry), s.sys.time.state = .locked → (s.sys.time.bell + 1) * 100000 ≤ s.sys.time.count → s.sys.power.band = 0 →
    let m := s.sys.market
    let b := s.sys.time.bell + 1
    m.join = none → m.entry m.stall = some own → own.state = .active → own.leaveAt = none → (m.board.map BoardEntry.stall).Nodup →
    ∃ t, exec .bell s = .next t ∧ MarketOnly s t ∧ t.sys.time.bell = b ∧
      (∀ e ∈ m.board, e.stall ≠ m.stall → e.state ≠ .evicted →
        let after := t.sys.market.entry e.stall
        ((∃ a, e.leaveAt = some a ∧ a ≤ b) → after = none) ∧
        (e.leaveAt = none → e.state = .joining → (∃ a, e.activeAt = some a ∧ a ≤ b) → after.map BoardEntry.state = some .active) ∧
        (e.leaveAt = none → e.state = .active → e.last + 50 ≤ b → after.map (fun x => (x.state, x.exit)) = some (.silent, e.last + 100)) ∧
        (e.leaveAt = none → e.state = .silent → e.activeAt = none → e.exit ≤ b → after.map (fun x => (x.state, x.code)) = some (.evicted, 0)) ∧
        (e.leaveAt = none → e.state = .active → b < e.last + 50 → ∃ x, after = some x ∧ x.state = .active ∧
          (∀ y, y ∈ x.pending ↔ y ∈ e.pending ∧ b < y.1) ∧ ((∀ y ∈ e.pending, b < y.1) → x.code = e.code) ∧
          ∀ y ∈ e.pending, y.1 ≤ b → e.inForce.1 < y.1 → (∀ z ∈ e.pending, z.1 ≤ b → z = y ∨ z.1 < y.1) → x.code = y.2.2)) ∧
      (∀ e ∈ t.sys.market.board, e.counts = true → t.sys.market.tariff ≤ e.code) ∧
      ∃ e ∈ t.sys.market.board, e.counts = true ∧ t.sys.market.tariff = e.code) ∧
  ∀ s : State,
    let m := s.sys.market
    (m.member = true → Sending s → m.lastPost + 10 ≤ s.sys.bellNow → ∃ t, exec .heartbeatTimer s = .next t ∧ MarketOnly s t ∧
      t.sys.market.sent = m.sent ++ [ownRecord s 3 m.desired (s.sys.bellNow + 2) m.stall none []] ∧ t.sys.market.lastPost = s.sys.bellNow) ∧
    (m.member = false ∨ s.sys.bellNow < m.lastPost + 10 → exec .heartbeatTimer s = .next s) ∧
    (∀ j q, m.join = some j → j.found = false → j.activeAt = none → j.since + 20 ≤ s.sys.bellNow → s.sys.packet j.pkt = some q →
      ∃ t, exec .joinTimeout s = .next t ∧ MarketOnly s t ∧ t.sys.market = { m with join := none } ∧ EndsIn t j.pkt (.done 2 0 0 0)) ∧
    (m.join = none ∨ (∃ j, m.join = some j ∧ s.sys.bellNow < j.since + 20) → exec .joinTimeout s = .next s)

/-- R333: a pulse is one microsecond of fabric time and, in LOCKED, steps the counter on, or holds it until fabric time reaches it; the
third agreeing word locks an unset or held-over counter; a word that disagrees, or a missed pulse, ends LOCKED in HOLDOVER and
raises vector 34; 10 ms of HOLDOVER end in LOST, where a member's limit is 47. The model's choices in it, not the spec's: log 3, 89. -/
def Obligations.FabricTimeSteps : Prop :=
  ∀ s : State,
    let t0 := s.sys.time
    let w := s.sys.inputs.timeWord.toNat
    let agrees := w ≤ t0.count + 1000 ∧ t0.count ≤ w + 1000
    let gives := fun (i : Instr) (good : FabricTime → Prop) => ∃ t, exec i s = .next t ∧ MarketOnly s t ∧ t.sys.packets = s.sys.packets ∧ good t.sys.time
    let alarms := fun (i : Instr) => ∃ t, exec i s = .next t ∧ MarketOnly s t ∧ t.sys.time.state = .holdover ∧ t.sys.time.heldSince = s.sys.now ∧
      NatSet.has t.sys.device.msix 34 = true
    gives .timePulse (fun f => f.pulse = t0.pulse + 1000 ∧ f.state = t0.state ∧
      (t0.state ≠ .locked → f.count = t0.count ∧ f.behind = t0.behind) ∧
      (t0.state = .locked → t0.count ≤ t0.pulse + 1000 → f.count = t0.pulse + 1000 ∧ f.behind = 0) ∧
      (t0.state = .locked → t0.pulse + 1000 < t0.count → f.count = t0.count ∧ f.behind = t0.count - (t0.pulse + 1000))) ∧
    (t0.state = .unset → ¬ agrees ∨ t0.agree < 2 → gives .timeWord fun f => f.state = .unset ∧ f.count = w ∧ f.agree = if agrees then t0.agree + 1 else 0) ∧
    (t0.state = .unset → agrees → 2 ≤ t0.agree → gives .timeWord fun f => f.state = .locked ∧ f.count = w ∧ f.bell = w / 100000) ∧
    (t0.state = .locked → agrees → max w t0.count < (t0.bell + 1) * 100000 → gives .timeWord fun f => f.state = .locked ∧ f.count = max w t0.count ∧ f.behind = t0.count - w) ∧
    (t0.state = .locked → ¬ agrees → max w t0.count < (t0.bell + 1) * 100000 → alarms .timeWord) ∧
    (t0.state = .holdover → agrees → 2 ≤ t0.agree → max w t0.count < (t0.bell + 1) * 100000 → gives .timeWord fun f => f.state = .locked) ∧
    (t0.state = .locked → alarms .pulseMissed) ∧ (t0.state ≠ .locked → gives .pulseMissed fun f => f = { t0 with agree := 0 }) ∧
    (t0.state = .holdover → t0.heldSince + 10000000000 ≤ s.sys.now → ∃ t, exec .holdoverTimeout s = .next t ∧ MarketOnly s t ∧ t.sys.time = { t0 with state := .lost } ∧
      (s.sys.market.member = true → t.sys.clockCode ≤ 47)) ∧
    (t0.state ≠ .holdover ∨ s.sys.now < t0.heldSince + 10000000000 → exec .holdoverTimeout s = .next s)

/-! ## Power, sensors and trim -/

/-- R342, R344 to R347: PLIMIT sets the limit, TRIM_REARM unlocks an island, SENSOR_REARM judges a tower's sensors afresh; a trim step raises the island by one
up to 30, lowers it by two and holds it after an error, and leaves a locked island at 0 and a held one where it is; the hold ends after 1 s. -/
def Sys2Proof.Claims.TrimAndRearm : Prop :=
  (∀ (s : State) (p : PacketRef), Unstarted s p → s.sys.market.member = false →
    (∀ w, ∃ t, exec (.plimit p w) s = .next t ∧ Answers s t p (.done 0 0 0 0) ∧ t.sys.market = s.sys.market ∧ t.sys.power = { s.sys.power with plim := w }) ∧
    (∀ i, ∃ t, exec (.trimRearm p i) s = .next t ∧ Answers s t p (.done 0 0 0 0) ∧ ∀ k, t.sys.power.islands[k]? =
      (s.sys.power.islands[k]?).map fun x => if k = i then { x with lock := false } else x) ∧
    ∀ tower, ∃ t, exec (.sensorRearm p tower) s = .next t ∧ Answers s t p (.done 0 0 0 0) ∧
      (∀ xs, t.sys.power.thermal[tower]? = some xs → ∀ x ∈ xs, x.invalid = false ∧ x.still = 0 ∧ x.means = []) ∧
      (∀ k, k ≠ tower → t.sys.power.thermal[k]? = s.sys.power.thermal[k]?) ∧
      t.sys.power.degraded = (s.sys.power.degraded.zipIdx.map fun x => if x.2 = tower then false else x.1) ∧
      t.sys.market.sensor = if true ∈ t.sys.power.degraded then 94 else 188) ∧
  ∀ (s : State) (i errors : Nat) (x : Island), s.sys.power.islands[i]? = some x →
    let count := (((x.errors + errors) :: x.window).take 10).sum
    let now := s.sys.now
    let others := fun (t : State) => MarketOnly s t ∧ ∀ k, k ≠ i → t.sys.power.islands[k]? = s.sys.power.islands[k]?
    (∃ t y, exec (.trimStep i errors) s = .next t ∧ others t ∧ t.sys.power.islands[i]? = some y ∧ y.errors = 0 ∧ y.lock = x.lock ∧ y.ratio = x.ratio ∧
      (x.lock = true → y.trim = 0 ∧ y.hold = x.hold) ∧ (x.lock = false → x.hold = true → y.trim = x.trim ∧ y.hold = true) ∧
      (x.lock = false → x.hold = false → count = 0 → y.trim = min 30 (x.trim + 1) ∧ y.hold = false) ∧
      (x.lock = false → x.hold = false → count ≠ 0 → y.trim = x.trim - 2 ∧ y.hold = true ∧ y.holdAt = now)) ∧
    (x.hold = true → x.holdAt + 1000000000000 ≤ now → ∃ t, exec (.trimHoldExpiry i) s = .next t ∧ others t ∧ t.sys.power.islands[i]? = some { x with hold := false }) ∧
    (x.hold = false ∨ now < x.holdAt + 1000000000000 → exec (.trimHoldExpiry i) s = .next s)

/-- R337, R342 to R345: a power sample adds the monitors' sum, an invalid monitor at its rated maximum, and sets the power code to the highest code of
47 to 188 whose forecast stays at or below the limit; when the average of the last ten passes 1.05 of the limit, the part clocks no faster than that code
at once, and raises vector 34 unless the tariff is there already. A uniform temperature sets the thermal code by its band: from 100 °C on, the clock code
in force less 8. 125 °C, or an outlet above 70 °C for 1 s, is FATAL. -/
def Sys2Proof.Claims.PowerAndSensors : Prop :=
  (∀ s : State,
    let m := s.sys.market
    let total := (s.sys.inputs.monitors.zipIdx.map fun x => x.1.getD (Config.ratedMaximum x.2)).sum
    let xs := (total :: s.sys.power.samples).take 100
    let fits := fun c => Config.forecast xs c ≤ 1000 * s.sys.power.plim
    let bites := (xs.take 10).length * s.sys.power.plim * 1050 < (xs.take 10).sum
    ∃ t c, exec .powerSample s = .next t ∧ MarketOnly s t ∧ t.sys.power.samples = xs ∧ t.sys.power.monitors = s.sys.inputs.monitors ∧ t.sys.market.power = c ∧ 47 ≤ c ∧ c ≤ 188 ∧
      (fits c ∨ c = 47) ∧ (∀ k, c < k → k ≤ 188 → ¬ fits k) ∧ (t.sys.market.powerBites = true ↔ bites) ∧ (bites → t.sys.clockCode ≤ c) ∧
      (bites → m.latePower = none → m.member = false → c < m.tariff →
        t.sys.market.lateNotices = m.lateNotices + 1 ∧ NatSet.has t.sys.device.msix 34 = true) ∧
      (¬ bites ∨ m.tariff ≤ c → t.sys.market.lateNotices = m.lateNotices)) ∧
  (∀ (s : State) (n : Nat) (x : Int) (a : Nat), s.sys.inputs.outlet[n]? = some x → 560 < x → s.sys.power.outletSince[n]? = some (some a) →
    a + 1000000000000 ≤ s.sys.now → exec .sensorSample s = exec (.fatalError .thermalTrip) s) ∧
  ∀ (s : State) (x : Int) (a b : List ThermalSensor), (∀ y ∈ s.sys.inputs.outlet, y ≤ 560) → s.sys.inputs.thermal = List.replicate 256 x → -320 ≤ x →
    x ≤ 1200 → s.sys.power.thermal = [a, b] → a.length = 128 → b.length = 128 → (∀ z ∈ a ++ b, z.invalid = false ∧ z.means.length < 9999) →
    let m := s.sys.market
    let inForce := ({ s.sys with market := { m with sensor := if true ∈ s.sys.power.degraded then 94 else 188 } } : Sys).clockCode
    (1000 ≤ x → exec .sensorSample s = exec (.fatalError .thermalTrip) s) ∧
    (x < 1000 → ∃ t, exec .sensorSample s = .next t ∧ MarketOnly s t ∧ t.sys.power.hottest = x ∧
      (∀ zs ∈ t.sys.power.thermal, ∀ z ∈ zs, z.reading = x ∧ z.invalid = false) ∧
      (x < 760 → t.sys.market.thermal = 188) ∧
      (760 ≤ x → x < 800 → t.sys.market.thermal = if s.sys.power.band = 1 then m.thermal else max 47 (m.thermal - 4)) ∧
      (800 ≤ x → s.sys.power.band ≠ 2 → t.sys.market.thermal = max 47 (inForce - 8) ∧ t.sys.clockCode ≤ max 47 (inForce - 8)))

/-- Trim, re-arming, the power limit and the sensors. The parts: `TrimAndRearm`, `PowerAndSensors`. The model's choices in it, not the
spec's: log 3, 93, 99, 100, 101, 126. -/
def Obligations.TrimPowerAndSensors : Prop :=
  Sys2Proof.Claims.TrimAndRearm ∧
  Sys2Proof.Claims.PowerAndSensors

/-! ## The device -/

/-- R230, R303, R328, R329, R351, R352, R356: a reset leaves nothing at work, no function ready, the queues and fabric time at their
reset values, the two boot measurements, and every core usable but those that fail the self-test; an image is verified by its
ML-DSA-87 signature under the key of the fused hash (log 102); a FATAL error is a reset that keeps the error log, adds its own and
sends one message; a function-level reset discards all work and resets the queues, no more; a function becomes ready once the
functions of the earlier rows are, and then the writes and register accesses held for it go on. The model's choices in it, not the
spec's: log 3, 95, 98, 128. -/
def Obligations.ResetsAndBringUp : Prop :=
  (∀ n, imageVerifies n = true ↔ sha3 (Config.imageKey n) = Config.firmwareKeyHash ∧
    dsaVerify (Config.imageKey n) (natToBytes 64 (imageDigest n).toNat) (Config.imageSignature n) = true) ∧
  (∀ (s : State) (i : Instr) (log : List LogRecord), (i = .reset ∧ log = []) ∨ (∃ c, i = .fatalError c ∧ log = s.sys.device.log ++ [.fatal c] ∧ s.sys.device.log.length < 16383) →
    ∃ t, exec i s = .next t ∧ t.phys = s.phys ∧ t.sys.blocks = [] ∧ t.sys.sweeps = [] ∧ t.sys.packets = [] ∧ t.sys.faults = [] ∧ t.sys.queues = List.replicate 32 Queue.reset ∧
      t.sys.device.devReady = 0 ∧ t.sys.device.log = log ∧ t.sys.time.state = .unset ∧ t.sys.market = {} ∧ t.sys.device.fabric = 0 ∧ t.sys.device.globals = 0 ∧
      t.sys.device.measurements = [.bootRom, .firmware s.sys.device.image] ∧ t.sys.device.image = s.sys.device.image ∧
      t.sys.device.recovery = !(s.sys.device.imageWhole && imageVerifies s.sys.device.image) ∧
      t.sys.device.messages = (if i = .reset then s.sys.device.messages else s.sys.device.messages + 1) ∧
      ∀ tw c, tw < 2 → c < 36 → ((t.sys.core ⟨tw, c⟩).usable = true ↔ ⟨tw, c⟩ ∉ s.sys.inputs.failing)) ∧
  (∀ s : State, ∃ t, exec .functionLevelReset s = .next t ∧ t.phys = s.phys ∧ t.sys.blocks = [] ∧ t.sys.sweeps = [] ∧ t.sys.packets = [] ∧ t.sys.faults = [] ∧
    t.sys.queues = List.replicate 32 Queue.reset ∧ t.sys.device = s.sys.device ∧ t.sys.time = s.sys.time ∧ t.sys.power = s.sys.power ∧
    t.sys.market = { s.sys.market with join := none } ∧ ∀ c, (t.sys.core c).cards = [] ∧ (t.sys.core c).accSlots = [] ∧ (t.sys.core c).usable = (s.sys.core c).usable) ∧
  ∀ (s : State) (x : DeviceFunction × Nat × Prop),
    let hbm := ∀ n, n < 8 → s.sys.ready (2 + n) = true
    let lp := ∀ n, n < 16 → s.sys.ready (10 + n) = true
    let has := fun n => ∃ c ∈ (s.sys.tower n).cores, c.usable = true
    let cp := s.sys.ready 1 = true
    x = (.pcie, 0, True) ∨ x = (.cp, 1, s.sys.ready 0 = true ∧ s.sys.device.recovery = false) ∨ (∃ n, n < 8 ∧ x = (.hbm n, 2 + n, cp)) ∨
      (∃ n, n < 16 ∧ x = (.lp n, 10 + n, cp ∧ hbm)) ∨ (∃ n, n < 2 ∧ x = (.tower n, 26 + n, cp ∧ hbm ∧ lp ∧ has n)) ∨
      (∃ n, n < 24 ∧ x = (.port n, 28 + n, cp ∧ hbm ∧ lp ∧ (∀ k, k < 2 → s.sys.ready (26 + k) = true ∨ ¬ has k) ∧ s.sys.device.fabric.getLsbD (32 + n) = true)) →
    (s.sys.ready x.2.1 = true ∨ ¬ x.2.2 → exec (.functionReady x.1) s = .next s) ∧
    (s.sys.ready x.2.1 = false → x.2.2 → ∃ t, exec (.functionReady x.1) s = .next t ∧ t.sys.blocks = s.sys.blocks ∧
      (∀ k, k < 64 → t.sys.ready k = if k = x.2.1 then true else s.sys.ready k) ∧
      t.sys.agenda = (if x.1 = .cp then s.sys.heldAccesses.map Move.event else []) ++ s.sys.agenda ∧
      t.sys.heldAccesses = (if x.1 = .cp then [] else s.sys.heldAccesses) ∧
      (s.sys.ringWrites = [] →
        let due := fun (y : Nat × Byte × Bool) => t.sys.route y.1 = .ok
        (∀ y, y ∈ t.sys.heldWrites ↔ y ∈ s.sys.heldWrites ∧ ¬ due y) ∧ ((∀ y ∈ s.sys.heldWrites, ¬ due y) → t.phys = s.phys) ∧
        ∀ y, s.sys.heldWrites = [y] → due y → s.phys.poison = [] →
          t.phys.byte y.1 = (if y.2.2 then s.phys.byte y.1 ||| y.2.1 else y.2.1) ∧ AgreeBut t.phys s.phys fun z => z = y.1))

/-- R304, R349 to R351: a failed retry marks the port down and logs it, a good one leaves it up and is logged as transient, or as
lasting when it comes within 1 s after a transient one of the port; a port trains when it is enabled and the earlier functions are
ready, and its first failed attempt is logged once; PARTNO is written only with no reserved bit and no trained port, PORTEN takes
its 24 bits; both are held while the Command Processor does not run. The model's choices in it, not the spec's: log 3, 97, 167. -/
def Obligations.PortsAndFabric : Prop :=
  ∀ (s : State) (n : Nat), n < 24 →
    let up := s.sys.ready (28 + n) = true
    let keeps := fun (t : State) => t.phys = s.phys ∧ t.sys.blocks = s.sys.blocks
    let others := fun (t : State) => ∀ k, k ≠ 28 + n → t.sys.ready k = s.sys.ready k
    (¬ up → ∀ ok, exec (.flitRetry n ok) s = .next s) ∧
    (up → ∃ t, exec (.flitRetry n false) s = .next t ∧ keeps t ∧ others t ∧ t.sys.ready (28 + n) = false ∧ NatSet.has t.sys.device.portDown n = true ∧
      (s.sys.device.log.length < 16383 → t.sys.device.log = s.sys.device.log ++ [.failed (.port n)])) ∧
    (up → ∃ t, exec (.flitRetry n true) s = .next t ∧ keeps t ∧ t.sys.device.devReady = s.sys.device.devReady ∧
      let lasting := ∃ at_, (RetryUnit.port n, at_) ∈ s.sys.device.transients ∧ s.sys.now ≤ at_ + 1000000000000
      (lasting → t.sys.device.transients = s.sys.device.transients ∧
        (s.sys.device.log.length < 16383 → t.sys.device.log = s.sys.device.log ++ [.retried (.port n) true])) ∧
      (¬ lasting → t.sys.device.transients = (.port n, s.sys.now) :: s.sys.device.transients.filter (fun x => x.1 != .port n) ∧
        (s.sys.device.log.length < 16383 → t.sys.device.log = s.sys.device.log ++ [.retried (.port n) false]))) ∧
    (up ∨ s.sys.earlierReady (.port n) = false → ∀ ok, exec (.portTrain n ok) s = .next s) ∧
    (¬ up → s.sys.earlierReady (.port n) = true → (∃ t, exec (.portTrain n true) s = .next t ∧ t.sys.blocks = s.sys.blocks ∧
        (s.sys.heldWrites = [] → s.sys.ringWrites = [] → t.phys = s.phys) ∧ others t ∧ t.sys.ready (28 + n) = true ∧
        NatSet.has t.sys.device.portDown n = false) ∧
      (n ∉ s.sys.device.portLogged → s.sys.device.log.length < 16383 → ∃ t, exec (.portTrain n false) s = .next t ∧ keeps t ∧
        t.sys.device.log = s.sys.device.log ++ [.training n] ∧ n ∈ t.sys.device.portLogged) ∧
      (n ∈ s.sys.device.portLogged → exec (.portTrain n false) s = .next s)) ∧
    ∀ v : Word,
      (∀ i ∈ [Instr.partnoWrite v, .portenWrite v], s.sys.ready 1 = false → (s.sys.device.recovery = true → exec i s = .next s) ∧
        (s.sys.device.recovery = false → exec i s = .next { s with sys := { s.sys with heldAccesses := s.sys.heldAccesses ++ [i] } })) ∧
      (s.sys.ready 1 = true → v.extractLsb' 9 23 ≠ 0 ∨ up → exec (.partnoWrite v) s = .next s) ∧
      (s.sys.ready 1 = true → v.extractLsb' 9 23 = 0 → (∀ k, k < 24 → s.sys.ready (28 + k) = false) → ∃ t, exec (.partnoWrite v) s = .next t ∧ keeps t ∧
        t.sys.device.fabric = s.sys.device.fabric.extractLsb' 32 32 ++ v) ∧
      (s.sys.ready 1 = true → ∃ t, exec (.portenWrite v) s = .next t ∧ keeps t ∧
        t.sys.device.fabric = (0#8 ++ v.extractLsb' 0 24) ++ s.sys.device.fabric.extractLsb' 0 32)

/-- R230, R231, R243 to R246, R352: a core that fails its self-check is logged, unusable and holds no block any more, and vector 33 is
raised; the scrubber goes on to the next unit, logs what it corrects and poisons and logs what it cannot; a peer's write is stored
as a local one, a poisoned one poisons, a read is answered with the bytes and their poison, a request for what the part does not
hold is answered as invalid, and one for a memory that is not ready waits. The model's choices in it, not the spec's: log 3, 39, 40,
96, 125. -/
def Obligations.FieldErrorsAndPeers : Prop :=
  (∀ (s : State) (c : CoreRef), c.tower < s.sys.towers.length → c.core < (s.sys.tower c.tower).cores.length → ∃ t, exec (.coreSelfCheckFail c) s = .next t ∧
    (t.sys.core c).usable = false ∧ (∀ b ∈ t.sys.blocks, b.coreRef ≠ c) ∧ NatSet.has t.sys.device.msix 33 = true ∧
    (s.sys.device.log.length < 16383 → s.sys.device.log ++ [.core c] <+: t.sys.device.log)) ∧
  (∀ s : State,
    let a := s.sys.partNo * 2 ^ 43 + s.sys.device.scrubAt
    let unit := EccUnit.memory (poisonBase a)
    (s.sys.memReady a = false → exec .patrolScrub s = .next s) ∧
    (s.sys.memReady a = true → (s.sys.eccIsland unit).isSome = true → ∃ t, exec .patrolScrub s = .next t ∧ (∀ x, t.phys.byte x = s.phys.byte x) ∧
      t.sys.blocks = s.sys.blocks ∧ t.sys.device.scrubAt = nextScrub s.sys.device.scrubAt ∧ (s.sys.inputs.scrub ≠ .uncorrectable → t.phys = s.phys) ∧
      (s.sys.inputs.scrub = .clean → t.sys.device.log = s.sys.device.log) ∧
      (s.sys.inputs.scrub = .corrected → s.sys.device.log.length < 16383 → t.sys.device.log = s.sys.device.log ++ [.corrected unit]) ∧
      (s.sys.inputs.scrub = .uncorrectable → t.phys.poisoned a = true ∧ (∀ x, poisonBase x ≠ poisonBase a → t.phys.poisoned x = s.phys.poisoned x) ∧
        (s.sys.device.log.length < 16383 → s.sys.device.log ++ [.poisoned unit] <+: t.sys.device.log)))) ∧
  (∀ s : State, s.sys.inputs.peers = [] → exec .peerAccess s = .next s) ∧
  ∀ (s : State) (port : Nat) (r : PeerRequest) (rest : List (Nat × PeerRequest)), s.sys.inputs.peers = (port, r) :: rest →
    let ours := fun pa n => ∀ i, i < n → s.sys.region (pa + i) = .firstTier ∨ s.sys.region (pa + i) = .secondTier ∨ ∃ w, s.sys.region (pa + i) = .scratchpad w
    let there := fun pa n => ∀ i, i < n → s.sys.memReady (pa + i) = true
    let takenIn := fun (t : State) (answers : List (Option (List Byte × Bool))) => t.sys.inputs = { s.sys.inputs with peers := rest } ∧
      t.sys.blocks = s.sys.blocks ∧ t.sys.device = { s.sys.device with answers := s.sys.device.answers ++ answers.map fun x => (port, x) }
    let place := fun pa n => r = .read pa n ∨ ∃ bs bad, r = .write pa bs bad ∧ bs.length = n
    ∀ pa n, place pa n →
      (¬ ours pa n → ∃ t, exec .peerAccess s = .next t ∧ takenIn t [none] ∧ t.phys = s.phys) ∧
      (ours pa n → ¬ there pa n → exec .peerAccess s = .next s) ∧
      (ours pa n → there pa n → r = .read pa n → ∃ t bs poisoned, exec .peerAccess s = .next t ∧ takenIn t [some (bs, poisoned)] ∧ t.phys = s.phys ∧
        bs.length = n ∧ (∀ k b, bs[k]? = some b → b = s.phys.byte (pa + k)) ∧ (poisoned = true ↔ ∃ k, k < n ∧ s.phys.poisoned (pa + k) = true)) ∧
      ∀ bs bad, ours pa n → there pa n → r = .write pa bs bad → ∃ t, exec .peerAccess s = .next t ∧ takenIn t [] ∧
        (bad = true → t.phys.mem = s.phys.mem ∧ ∀ k, k < n → t.phys.poisoned (pa + k) = true) ∧
        (bad = false → s.phys.poison = [] → (∀ k b, bs[k]? = some b → t.phys.byte (pa + k) = b) ∧
          AgreeBut t.phys s.phys fun x => pa ≤ x ∧ x < pa + n)

/-- R319, R320, R329, R350, R351, R356: a firmware update replaces the image and is measured; a quote signs the digest of the nonce that
stood at its request, the identity words and the measurement log; a write of BAR0 that is not 4 or 8 aligned bytes is ignored, and
one that comes before the Command Processor runs is held; the fabric, nonce, quote, doorbell and fault-response registers act as the
steps of those names. The model's choices in it, not the spec's: log 3, 85, 102, 113. -/
def Obligations.HostRegisters : Prop :=
  ∀ s : State,
    let keeps := fun (t : State) => t.phys = s.phys ∧ t.sys.blocks = s.sys.blocks ∧ t.sys.packets = s.sys.packets
    let d := s.sys.device
    let on := s.sys.ready 1 = true
    (∀ image whole, on ∨ d.recovery = true → ∃ t, exec (.firmwareUpdate image whole) s = .next t ∧ keeps t ∧ t.sys.device.image = image ∧
      t.sys.device.imageWhole = whole ∧ t.sys.device.measurements = d.measurements ++ [.firmware image] ∧ t.sys.device.booted = d.booted ∧ t.sys.device.devReady = d.devReady) ∧
    (on → ∃ t, exec .quoteRequest s = .next t ∧ keeps t ∧ t.sys.device = { d with quoting := true, quoteDone := false, quoteNonce := d.nonce }) ∧
    (d.quoting = true → ∃ t, exec .quoteComplete s = .next t ∧ keeps t ∧ t.sys.device.quoteDone = true ∧ t.sys.device.quoting = false ∧
      t.sys.device.quoted = some (sha3 (natToBytes 64 d.quoteNonce.toNat ++
        natToBytes 16 (0x4B34 + 0xB0 * 2 ^ 32 + 0x02 * 2 ^ 40 + s.sys.partNo * 2 ^ 48 + serialNumber.toNat * 2 ^ 64) ++
        natToBytes 4 d.measurements.length ++ d.measurements.flatMap fun x => natToBytes 64 x.digest.toNat))) ∧ (d.quoting = false → exec .quoteComplete s = .next s) ∧
    (∀ off (v : DWord), on → off % 8 = 0 → off < 64 → ∃ t, exec (.quoteNonceWrite off 8 v) s = .next t ∧ keeps t ∧
      t.sys.device.quoteNonce = d.quoteNonce ∧ (t.sys.device.nonce >>> (8 * off)).setWidth 64 = v ∧ ∀ k, k < 8 * off ∨ 8 * off + 64 ≤ k → t.sys.device.nonce.getLsbD k = d.nonce.getLsbD k) ∧
    (∀ off size v, (size ≠ 4 ∧ size ≠ 8) ∨ off % size ≠ 0 → exec (.registerWrite off size v) s = .next s) ∧
    (∀ off size v, size = 4 ∨ size = 8 → off % size = 0 → ¬ on → (d.recovery = true → exec (.registerWrite off size v) s = .next s) ∧
      (d.recovery = false → exec (.registerWrite off size v) s = .next { s with sys := { s.sys with heldAccesses := s.sys.heldAccesses ++ [.registerWrite off size v] } })) ∧
    (on → ∀ v : DWord,
      exec (.registerWrite 0x2000 4 v) s = exec (.partnoWrite (v.setWidth 32)) s ∧ exec (.registerWrite 0x2004 4 v) s = exec (.portenWrite (v.setWidth 32)) s ∧
      (∀ off, off % 8 = 0 → off < 64 → exec (.registerWrite (0x3000 + off) 8 v) s = exec (.quoteNonceWrite off 8 v) s) ∧
      exec (.registerWrite 0x3040 4 1) s = exec .quoteRequest s ∧
      (∀ q, q < 32 → (s.sys.queue q).field 106 106 = 1 → exec (.registerWrite (0x10000 + 64 * q + 16) 4 v) s = exec (.queueDoorbell q (v.setWidth 32)) s) ∧
      ∃ g : BitVec 512, g.extractLsb' 288 17 = v.extractLsb' 0 17 ∧ (∀ k, k < 288 ∨ 304 < k → g.getLsbD k = d.globals.getLsbD k) ∧
        exec (.registerWrite 36 4 v) s = exec (if v.getLsbD 16 then .faultResponseDecline (v.extractLsb' 0 16).toNat else .faultResponseResume (v.extractLsb' 0 16).toNat)
          { s with sys := { s.sys with device := { d with globals := g } } })

/-! ## What holds an instruction at issue -/

/-- R17, R28, R29, R63 (b), R65 (c), R67: an instruction performs nothing and stays at issue while its flag is set, while an earlier
instruction will write a register that it writes, while its path's counter or the store buffer is full, and in serial mode while the
one before it is outstanding; with none of these, a register or tile out of range raises REG_RANGE. R220, R222 (c): so does an access behind
an `.acq` that is outstanding, issued in its slot, or by lanes that have passed a join or a split behind it, whose lanes and slots an
`.acq` gathers at each control instruction. -/
def Sys2Proof.Claims.IssueWaits : Prop :=
  ∀ (s : State) (i : Instr) (m : Mnem) (f : Fields) (c : Ctx), i.view = some (m, f) → s.sys.issuing = some c →
    let e := c.active f.guard
    let held := ∃ h, exec i s = .next (waiting s c h)
    (c.waits m f e ≠ none → held) ∧
    (m.variableLatency = true → (∃ n, c.slot.nextFlag = some n ∧ FlagSeen c.w n) → held) ∧
    ((∃ x ∈ c.w.ops, (∃ n ∈ m.vectorWrites f, n ∈ x.vectorDst) ∨ ∃ n ∈ m.scalarWrites f, n ∈ x.scalarDst) → held) ∧
    (∀ p, m.path = some p → (if p = .mma then 15 else 63) ≤ (c.w.ops.filter fun x => x.path == some p).length → held) ∧
    (m = .stb ∨ m = .stt → e ≠ 0 → 32 ≤ (c.w.ops.filter Op.isStore).length → held) ∧
    ((∃ n ∈ c.slot.serialOp, ∃ x ∈ c.w.ops, x.id = n) → held) ∧
    (c.waits m f e = none → e ≠ 0 → m.inRange f c.b c.w = false → exec i s = raised s c { cause := .regRange, resume := e }) ∧
    (m = .vadd → 32 * c.w.bays.length ≤ f.d.toNat ∨ 32 * c.w.bays.length ≤ f.a.toNat → m.inRange f c.b c.w = false) ∧
    (m = .mzero → c.b.tileCount ≤ f.d.toNat → m.inRange f c.b c.w = false) ∧
    (∀ x ∈ c.w.ops, ∀ k, x.acq = some k → x.slot = c.z ∨ c.z ∈ x.acqSlots ∨ (∃ l, l < 64 ∧ k.getLsbD l = true ∧ c.slot.mask.getLsbD l = true) →
      m ∈ [Mnem.ldb, .ldt, .stb, .stt, .atom, .atomc, .atomf, .afaddo] → held) ∧
    ∀ (x : Op) (v : Warp),
      let y := x.carryAcquire c.w v
      let behind := fun (z : SlotId) => c.w.behindAcquire z x = true
      y = { x with acq := y.acq, acqSlots := y.acqSlots } ∧ (x.acq = none → y.acq = none ∧ y.acqSlots = []) ∧
      ∀ k, x.acq = some k → (∀ z, z ∈ y.acqSlots ↔ behind z) ∧ ∃ q, y.acq = some q ∧ ∀ l, l < 64 →
        (q.getLsbD l = true ↔ k.getLsbD l = true ∨ ∃ z, behind z ∧ ((c.w.slot z).mask.getLsbD l = true ∨ (v.slot z).mask.getLsbD l = true))

/-- The start of a clause, WAITF, NOP, YIELD, the waits at issue and REG_RANGE. The parts: `FlagWait`, `NopAndYield`, `ClauseStart`,
`IssueWaits`. The model's choices in it, not the spec's: log 11, 16, 17, 110. -/
def Obligations.ClausesAndWaitsAtIssue : Prop :=
  Sys2Proof.Claims.FlagWait ∧
  Sys2Proof.Claims.NopAndYield ∧
  Sys2Proof.Claims.ClauseStart ∧
  Sys2Proof.Claims.IssueWaits
end

