-- ==== Sys2Proof/Laws/Sparse.lean ====
section
/-! SUPPORT. The laws of sparse contents and of sets of numbers: a read after a write, for every list, canonical or not. -/

namespace Sys2Proof

namespace Sparse

variable {n : Nat} (m : Sparse n) (k j : Nat) (v : BitVec n)

/-- A key taken out reads zero. -/
theorem get_filter_same : Sparse.get (m.filter fun c => c.1 != k) k = 0#n := by
  induction m with
  | nil => rfl
  | cons c rest ih =>
    rw [List.filter_cons]
    split
    · next h =>
      have : k ≠ c.1 := by simpa using Ne.symm (by simpa using h)
      simp [Sparse.get, this, ih]
    · exact ih

/-- A key taken out leaves the other keys. -/
theorem get_filter_other (h : j ≠ k) : Sparse.get (m.filter fun c => c.1 != k) j = Sparse.get m j := by
  induction m with
  | nil => rfl
  | cons c rest ih =>
    obtain ⟨i, w⟩ := c
    rw [List.filter_cons]
    split
    · simp [Sparse.get, ih]
    · next hc =>
      have : j ≠ i := by rintro rfl; simp_all
      simp [Sparse.get, this, ih]

/-- A key put in reads its value. -/
theorem get_insert_same : Sparse.get (Sparse.insert m k v) k = v := by
  induction m with
  | nil => simp [Sparse.insert, Sparse.get]
  | cons c rest ih =>
    unfold Sparse.insert
    split
    · simp [Sparse.get]
    · split
      · simp [Sparse.get]
      · next h => simp [Sparse.get, h, ih]

/-- A key put in leaves the other keys. -/
theorem get_insert_other (h : j ≠ k) : Sparse.get (Sparse.insert m k v) j = Sparse.get m j := by
  induction m with
  | nil => simp [Sparse.insert, Sparse.get, h]
  | cons c rest ih =>
    obtain ⟨i, w⟩ := c
    unfold Sparse.insert
    split
    · simp [Sparse.get, h]
    · split
      · next hk => subst hk; simp [Sparse.get, h]
      · simp [Sparse.get, ih]

/-- A write reads back. -/
@[simp] theorem get_put_same : Sparse.get (Sparse.put m k v) k = v := by
  unfold Sparse.put
  split
  · next h => rw [get_filter_same, h]
  · exact get_insert_same m k v

/-- A write leaves every other key. -/
theorem get_put_other (h : j ≠ k) : Sparse.get (Sparse.put m k v) j = Sparse.get m j := by
  unfold Sparse.put
  split
  · exact get_filter_other m k j h
  · exact get_insert_other m k j v h

end Sparse

namespace NatSet

variable (s : NatSet) (k j : Nat)

/-- A member added is one. -/
@[simp] theorem has_add_same : NatSet.has (NatSet.add s k) k = true := by
  induction s with
  | nil => simp [NatSet.add, NatSet.has]
  | cons a rest ih =>
    unfold NatSet.add
    split
    · simp [NatSet.has]
    · split
      · next h => simp [NatSet.has, h]
      · simp only [NatSet.has, List.any_cons] at ih ⊢
        simp [ih]

/-- A member added changes no other membership. -/
theorem has_add_other (h : j ≠ k) : NatSet.has (NatSet.add s k) j = NatSet.has s j := by
  induction s with
  | nil => simp [NatSet.add, NatSet.has, Ne.symm h]
  | cons a rest ih =>
    unfold NatSet.add
    split
    · simp [NatSet.has, Ne.symm h]
    · split
      · rfl
      · simp only [NatSet.has, List.any_cons] at ih ⊢
        rw [ih]

/-- A member removed is none. -/
@[simp] theorem has_del_same : NatSet.has (NatSet.del s k) k = false := by
  simp [NatSet.has, NatSet.del]

/-- A member removed changes no other membership. -/
theorem has_del_other (h : j ≠ k) : NatSet.has (NatSet.del s k) j = NatSet.has s j := by
  induction s with
  | nil => rfl
  | cons a rest ih =>
    simp only [NatSet.has, NatSet.del] at ih ⊢
    rw [List.filter_cons]
    split
    · simp [ih]
    · next ha =>
      have : a ≠ j := by rintro rfl; simp_all
      simp [this, ih]

end NatSet

namespace Machine

/-- A byte stored reads back. -/
@[simp] theorem byte_store_same (m : Memory) (a : Nat) (b : Byte) : (m.store a b).byte a = b :=
  Sparse.get_put_same (n := 8) m a b

/-- A byte stored leaves every other byte. -/
theorem byte_store_other (m : Memory) (a x : Nat) (b : Byte) (h : x ≠ a) : (m.store a b).byte x = m.byte x :=
  Sparse.get_put_other (n := 8) m a x b h

end Machine

end Sys2Proof
end

