-- ==== Sys2Proof/Laws/State.lean ====
section
/-! SUPPORT. What each update of the state leaves alone: one lemma for a field and an update. -/

namespace Sys2Proof.Machine

/-! ## The whole state -/

variable {o : Phys}

@[simp] theorem Tx.map_phys (t : Tx o) (f : Sys → Sys) : (t.map f).phys = t.phys := rfl
@[simp] theorem Tx.map_sys (t : Tx o) (f : Sys → Sys) : (t.map f).sys = f t.sys := rfl
@[simp] theorem Tx.upd_phys (t : Tx o) (f : Phys → Sys → Sys) : (t.upd f).phys = t.phys := rfl
@[simp] theorem Tx.upd_sys (t : Tx o) (f : Phys → Sys → Sys) : (t.upd f).sys = f t.phys t.sys := rfl
@[simp] theorem Tx.byte_sys (t : Tx o) (a : Nat) (b : Byte) : (t.byte a b).sys = t.sys := rfl
@[simp] theorem Tx.byte_mem (t : Tx o) (a : Nat) (b : Byte) : (t.byte a b).phys.mem = t.phys.mem.store a b := rfl
@[simp] theorem Tx.byte_poison (t : Tx o) (a : Nat) (b : Byte) : (t.byte a b).phys.poison = t.phys.poison := rfl
@[simp] theorem Tx.mark_sys (t : Tx o) (a : Nat) (b : Bool) : (t.mark a b).sys = t.sys := rfl
@[simp] theorem Tx.mark_mem (t : Tx o) (a : Nat) (b : Bool) : (t.mark a b).phys.mem = t.phys.mem := rfl
@[simp] theorem Tx.start_phys (s : State) : (Tx.start s).phys = s.phys := rfl
@[simp] theorem Tx.start_sys (s : State) : (Tx.start s).sys = s.sys := rfl
@[simp] theorem Tx.state_phys (t : Tx o) : t.state.phys = t.phys := rfl
@[simp] theorem Tx.state_sys (t : Tx o) : t.state.sys = t.sys := rfl

/-! ## A block changed -/

@[simp] theorem Sys.setBlock_agenda (s : Sys) (i : Nat) (g : Block → Block) : (s.setBlock i g).agenda = s.agenda := rfl
@[simp] theorem Sys.setBlock_cursor (s : Sys) (i : Nat) (g : Block → Block) : (s.setBlock i g).cursor = s.cursor := rfl
@[simp] theorem Sys.setBlock_words (s : Sys) (i : Nat) (g : Block → Block) : (s.setBlock i g).words = s.words := rfl
@[simp] theorem Sys.setBlock_starting (s : Sys) (i : Nat) (g : Block → Block) : (s.setBlock i g).starting = s.starting := rfl
@[simp] theorem Sys.setBlock_fresh (s : Sys) (i : Nat) (g : Block → Block) : (s.setBlock i g).fresh = s.fresh := rfl
@[simp] theorem Sys.setBlock_now (s : Sys) (i : Nat) (g : Block → Block) : (s.setBlock i g).now = s.now := rfl
@[simp] theorem Sys.setBlock_free (s : Sys) (i : Nat) (g : Block → Block) : (s.setBlock i g).free = s.free := rfl
@[simp] theorem Sys.setBlock_order (s : Sys) (i : Nat) (g : Block → Block) : (s.setBlock i g).order = s.order := rfl
@[simp] theorem Sys.setBlock_towers (s : Sys) (i : Nat) (g : Block → Block) : (s.setBlock i g).towers = s.towers := rfl
@[simp] theorem Sys.setBlock_sweeps (s : Sys) (i : Nat) (g : Block → Block) : (s.setBlock i g).sweeps = s.sweeps := rfl
@[simp] theorem Sys.setBlock_nextSweep (s : Sys) (i : Nat) (g : Block → Block) : (s.setBlock i g).nextSweep = s.nextSweep := rfl
@[simp] theorem Sys.setBlock_queues (s : Sys) (i : Nat) (g : Block → Block) : (s.setBlock i g).queues = s.queues := rfl
@[simp] theorem Sys.setBlock_packets (s : Sys) (i : Nat) (g : Block → Block) : (s.setBlock i g).packets = s.packets := rfl
@[simp] theorem Sys.setBlock_faults (s : Sys) (i : Nat) (g : Block → Block) : (s.setBlock i g).faults = s.faults := rfl
@[simp] theorem Sys.setBlock_nextFault (s : Sys) (i : Nat) (g : Block → Block) : (s.setBlock i g).nextFault = s.nextFault := rfl
@[simp] theorem Sys.setBlock_ringWrites (s : Sys) (i : Nat) (g : Block → Block) : (s.setBlock i g).ringWrites = s.ringWrites := rfl
@[simp] theorem Sys.setBlock_heldWrites (s : Sys) (i : Nat) (g : Block → Block) : (s.setBlock i g).heldWrites = s.heldWrites := rfl
@[simp] theorem Sys.setBlock_heldAccesses (s : Sys) (i : Nat) (g : Block → Block) : (s.setBlock i g).heldAccesses = s.heldAccesses := rfl
@[simp] theorem Sys.setBlock_time (s : Sys) (i : Nat) (g : Block → Block) : (s.setBlock i g).time = s.time := rfl
@[simp] theorem Sys.setBlock_market (s : Sys) (i : Nat) (g : Block → Block) : (s.setBlock i g).market = s.market := rfl
@[simp] theorem Sys.setBlock_power (s : Sys) (i : Nat) (g : Block → Block) : (s.setBlock i g).power = s.power := rfl
@[simp] theorem Sys.setBlock_device (s : Sys) (i : Nat) (g : Block → Block) : (s.setBlock i g).device = s.device := rfl
@[simp] theorem Sys.setBlock_inputs (s : Sys) (i : Nat) (g : Block → Block) : (s.setBlock i g).inputs = s.inputs := rfl

/-! ## A warp written back -/

@[simp] theorem Sys.putWarp_agenda (s : Sys) (r : WarpRef) (w : Warp) : (s.putWarp r w).agenda = s.agenda := rfl
@[simp] theorem Sys.putWarp_cursor (s : Sys) (r : WarpRef) (w : Warp) : (s.putWarp r w).cursor = s.cursor := rfl
@[simp] theorem Sys.putWarp_words (s : Sys) (r : WarpRef) (w : Warp) : (s.putWarp r w).words = s.words := rfl
@[simp] theorem Sys.putWarp_starting (s : Sys) (r : WarpRef) (w : Warp) : (s.putWarp r w).starting = s.starting := rfl
@[simp] theorem Sys.putWarp_fresh (s : Sys) (r : WarpRef) (w : Warp) : (s.putWarp r w).fresh = s.fresh := rfl
@[simp] theorem Sys.putWarp_now (s : Sys) (r : WarpRef) (w : Warp) : (s.putWarp r w).now = s.now := rfl
@[simp] theorem Sys.putWarp_free (s : Sys) (r : WarpRef) (w : Warp) : (s.putWarp r w).free = s.free := rfl
@[simp] theorem Sys.putWarp_order (s : Sys) (r : WarpRef) (w : Warp) : (s.putWarp r w).order = s.order := rfl
@[simp] theorem Sys.putWarp_towers (s : Sys) (r : WarpRef) (w : Warp) : (s.putWarp r w).towers = s.towers := rfl
@[simp] theorem Sys.putWarp_sweeps (s : Sys) (r : WarpRef) (w : Warp) : (s.putWarp r w).sweeps = s.sweeps := rfl
@[simp] theorem Sys.putWarp_nextSweep (s : Sys) (r : WarpRef) (w : Warp) : (s.putWarp r w).nextSweep = s.nextSweep := rfl
@[simp] theorem Sys.putWarp_queues (s : Sys) (r : WarpRef) (w : Warp) : (s.putWarp r w).queues = s.queues := rfl
@[simp] theorem Sys.putWarp_packets (s : Sys) (r : WarpRef) (w : Warp) : (s.putWarp r w).packets = s.packets := rfl
@[simp] theorem Sys.putWarp_faults (s : Sys) (r : WarpRef) (w : Warp) : (s.putWarp r w).faults = s.faults := rfl
@[simp] theorem Sys.putWarp_nextFault (s : Sys) (r : WarpRef) (w : Warp) : (s.putWarp r w).nextFault = s.nextFault := rfl
@[simp] theorem Sys.putWarp_ringWrites (s : Sys) (r : WarpRef) (w : Warp) : (s.putWarp r w).ringWrites = s.ringWrites := rfl
@[simp] theorem Sys.putWarp_heldWrites (s : Sys) (r : WarpRef) (w : Warp) : (s.putWarp r w).heldWrites = s.heldWrites := rfl
@[simp] theorem Sys.putWarp_heldAccesses (s : Sys) (r : WarpRef) (w : Warp) : (s.putWarp r w).heldAccesses = s.heldAccesses := rfl
@[simp] theorem Sys.putWarp_time (s : Sys) (r : WarpRef) (w : Warp) : (s.putWarp r w).time = s.time := rfl
@[simp] theorem Sys.putWarp_market (s : Sys) (r : WarpRef) (w : Warp) : (s.putWarp r w).market = s.market := rfl
@[simp] theorem Sys.putWarp_power (s : Sys) (r : WarpRef) (w : Warp) : (s.putWarp r w).power = s.power := rfl
@[simp] theorem Sys.putWarp_device (s : Sys) (r : WarpRef) (w : Warp) : (s.putWarp r w).device = s.device := rfl
@[simp] theorem Sys.putWarp_inputs (s : Sys) (r : WarpRef) (w : Warp) : (s.putWarp r w).inputs = s.inputs := rfl

/-! ## A core changed -/

@[simp] theorem Sys.setCore_agenda (s : Sys) (c : CoreRef) (g : Core → Core) : (s.setCore c g).agenda = s.agenda := rfl
@[simp] theorem Sys.setCore_cursor (s : Sys) (c : CoreRef) (g : Core → Core) : (s.setCore c g).cursor = s.cursor := rfl
@[simp] theorem Sys.setCore_words (s : Sys) (c : CoreRef) (g : Core → Core) : (s.setCore c g).words = s.words := rfl
@[simp] theorem Sys.setCore_starting (s : Sys) (c : CoreRef) (g : Core → Core) : (s.setCore c g).starting = s.starting := rfl
@[simp] theorem Sys.setCore_fresh (s : Sys) (c : CoreRef) (g : Core → Core) : (s.setCore c g).fresh = s.fresh := rfl
@[simp] theorem Sys.setCore_now (s : Sys) (c : CoreRef) (g : Core → Core) : (s.setCore c g).now = s.now := rfl
@[simp] theorem Sys.setCore_free (s : Sys) (c : CoreRef) (g : Core → Core) : (s.setCore c g).free = s.free := rfl
@[simp] theorem Sys.setCore_order (s : Sys) (c : CoreRef) (g : Core → Core) : (s.setCore c g).order = s.order := rfl
@[simp] theorem Sys.setCore_blocks (s : Sys) (c : CoreRef) (g : Core → Core) : (s.setCore c g).blocks = s.blocks := rfl
@[simp] theorem Sys.setCore_sweeps (s : Sys) (c : CoreRef) (g : Core → Core) : (s.setCore c g).sweeps = s.sweeps := rfl
@[simp] theorem Sys.setCore_nextSweep (s : Sys) (c : CoreRef) (g : Core → Core) : (s.setCore c g).nextSweep = s.nextSweep := rfl
@[simp] theorem Sys.setCore_queues (s : Sys) (c : CoreRef) (g : Core → Core) : (s.setCore c g).queues = s.queues := rfl
@[simp] theorem Sys.setCore_packets (s : Sys) (c : CoreRef) (g : Core → Core) : (s.setCore c g).packets = s.packets := rfl
@[simp] theorem Sys.setCore_faults (s : Sys) (c : CoreRef) (g : Core → Core) : (s.setCore c g).faults = s.faults := rfl
@[simp] theorem Sys.setCore_nextFault (s : Sys) (c : CoreRef) (g : Core → Core) : (s.setCore c g).nextFault = s.nextFault := rfl
@[simp] theorem Sys.setCore_ringWrites (s : Sys) (c : CoreRef) (g : Core → Core) : (s.setCore c g).ringWrites = s.ringWrites := rfl
@[simp] theorem Sys.setCore_heldWrites (s : Sys) (c : CoreRef) (g : Core → Core) : (s.setCore c g).heldWrites = s.heldWrites := rfl
@[simp] theorem Sys.setCore_heldAccesses (s : Sys) (c : CoreRef) (g : Core → Core) : (s.setCore c g).heldAccesses = s.heldAccesses := rfl
@[simp] theorem Sys.setCore_time (s : Sys) (c : CoreRef) (g : Core → Core) : (s.setCore c g).time = s.time := rfl
@[simp] theorem Sys.setCore_market (s : Sys) (c : CoreRef) (g : Core → Core) : (s.setCore c g).market = s.market := rfl
@[simp] theorem Sys.setCore_power (s : Sys) (c : CoreRef) (g : Core → Core) : (s.setCore c g).power = s.power := rfl
@[simp] theorem Sys.setCore_device (s : Sys) (c : CoreRef) (g : Core → Core) : (s.setCore c g).device = s.device := rfl
@[simp] theorem Sys.setCore_inputs (s : Sys) (c : CoreRef) (g : Core → Core) : (s.setCore c g).inputs = s.inputs := rfl

/-! ## A tower changed -/

@[simp] theorem Sys.setTower_agenda (s : Sys) (i : Nat) (g : Tower → Tower) : (s.setTower i g).agenda = s.agenda := rfl
@[simp] theorem Sys.setTower_cursor (s : Sys) (i : Nat) (g : Tower → Tower) : (s.setTower i g).cursor = s.cursor := rfl
@[simp] theorem Sys.setTower_words (s : Sys) (i : Nat) (g : Tower → Tower) : (s.setTower i g).words = s.words := rfl
@[simp] theorem Sys.setTower_starting (s : Sys) (i : Nat) (g : Tower → Tower) : (s.setTower i g).starting = s.starting := rfl
@[simp] theorem Sys.setTower_fresh (s : Sys) (i : Nat) (g : Tower → Tower) : (s.setTower i g).fresh = s.fresh := rfl
@[simp] theorem Sys.setTower_now (s : Sys) (i : Nat) (g : Tower → Tower) : (s.setTower i g).now = s.now := rfl
@[simp] theorem Sys.setTower_free (s : Sys) (i : Nat) (g : Tower → Tower) : (s.setTower i g).free = s.free := rfl
@[simp] theorem Sys.setTower_order (s : Sys) (i : Nat) (g : Tower → Tower) : (s.setTower i g).order = s.order := rfl
@[simp] theorem Sys.setTower_blocks (s : Sys) (i : Nat) (g : Tower → Tower) : (s.setTower i g).blocks = s.blocks := rfl
@[simp] theorem Sys.setTower_sweeps (s : Sys) (i : Nat) (g : Tower → Tower) : (s.setTower i g).sweeps = s.sweeps := rfl
@[simp] theorem Sys.setTower_nextSweep (s : Sys) (i : Nat) (g : Tower → Tower) : (s.setTower i g).nextSweep = s.nextSweep := rfl
@[simp] theorem Sys.setTower_queues (s : Sys) (i : Nat) (g : Tower → Tower) : (s.setTower i g).queues = s.queues := rfl
@[simp] theorem Sys.setTower_packets (s : Sys) (i : Nat) (g : Tower → Tower) : (s.setTower i g).packets = s.packets := rfl
@[simp] theorem Sys.setTower_faults (s : Sys) (i : Nat) (g : Tower → Tower) : (s.setTower i g).faults = s.faults := rfl
@[simp] theorem Sys.setTower_nextFault (s : Sys) (i : Nat) (g : Tower → Tower) : (s.setTower i g).nextFault = s.nextFault := rfl
@[simp] theorem Sys.setTower_ringWrites (s : Sys) (i : Nat) (g : Tower → Tower) : (s.setTower i g).ringWrites = s.ringWrites := rfl
@[simp] theorem Sys.setTower_heldWrites (s : Sys) (i : Nat) (g : Tower → Tower) : (s.setTower i g).heldWrites = s.heldWrites := rfl
@[simp] theorem Sys.setTower_heldAccesses (s : Sys) (i : Nat) (g : Tower → Tower) : (s.setTower i g).heldAccesses = s.heldAccesses := rfl
@[simp] theorem Sys.setTower_time (s : Sys) (i : Nat) (g : Tower → Tower) : (s.setTower i g).time = s.time := rfl
@[simp] theorem Sys.setTower_market (s : Sys) (i : Nat) (g : Tower → Tower) : (s.setTower i g).market = s.market := rfl
@[simp] theorem Sys.setTower_power (s : Sys) (i : Nat) (g : Tower → Tower) : (s.setTower i g).power = s.power := rfl
@[simp] theorem Sys.setTower_device (s : Sys) (i : Nat) (g : Tower → Tower) : (s.setTower i g).device = s.device := rfl
@[simp] theorem Sys.setTower_inputs (s : Sys) (i : Nat) (g : Tower → Tower) : (s.setTower i g).inputs = s.inputs := rfl

/-! ## A sweep changed -/

@[simp] theorem Sys.setSweep_agenda (s : Sys) (i : Nat) (g : Sweep → Sweep) : (s.setSweep i g).agenda = s.agenda := rfl
@[simp] theorem Sys.setSweep_cursor (s : Sys) (i : Nat) (g : Sweep → Sweep) : (s.setSweep i g).cursor = s.cursor := rfl
@[simp] theorem Sys.setSweep_words (s : Sys) (i : Nat) (g : Sweep → Sweep) : (s.setSweep i g).words = s.words := rfl
@[simp] theorem Sys.setSweep_starting (s : Sys) (i : Nat) (g : Sweep → Sweep) : (s.setSweep i g).starting = s.starting := rfl
@[simp] theorem Sys.setSweep_fresh (s : Sys) (i : Nat) (g : Sweep → Sweep) : (s.setSweep i g).fresh = s.fresh := rfl
@[simp] theorem Sys.setSweep_now (s : Sys) (i : Nat) (g : Sweep → Sweep) : (s.setSweep i g).now = s.now := rfl
@[simp] theorem Sys.setSweep_free (s : Sys) (i : Nat) (g : Sweep → Sweep) : (s.setSweep i g).free = s.free := rfl
@[simp] theorem Sys.setSweep_order (s : Sys) (i : Nat) (g : Sweep → Sweep) : (s.setSweep i g).order = s.order := rfl
@[simp] theorem Sys.setSweep_blocks (s : Sys) (i : Nat) (g : Sweep → Sweep) : (s.setSweep i g).blocks = s.blocks := rfl
@[simp] theorem Sys.setSweep_towers (s : Sys) (i : Nat) (g : Sweep → Sweep) : (s.setSweep i g).towers = s.towers := rfl
@[simp] theorem Sys.setSweep_nextSweep (s : Sys) (i : Nat) (g : Sweep → Sweep) : (s.setSweep i g).nextSweep = s.nextSweep := rfl
@[simp] theorem Sys.setSweep_queues (s : Sys) (i : Nat) (g : Sweep → Sweep) : (s.setSweep i g).queues = s.queues := rfl
@[simp] theorem Sys.setSweep_packets (s : Sys) (i : Nat) (g : Sweep → Sweep) : (s.setSweep i g).packets = s.packets := rfl
@[simp] theorem Sys.setSweep_faults (s : Sys) (i : Nat) (g : Sweep → Sweep) : (s.setSweep i g).faults = s.faults := rfl
@[simp] theorem Sys.setSweep_nextFault (s : Sys) (i : Nat) (g : Sweep → Sweep) : (s.setSweep i g).nextFault = s.nextFault := rfl
@[simp] theorem Sys.setSweep_ringWrites (s : Sys) (i : Nat) (g : Sweep → Sweep) : (s.setSweep i g).ringWrites = s.ringWrites := rfl
@[simp] theorem Sys.setSweep_heldWrites (s : Sys) (i : Nat) (g : Sweep → Sweep) : (s.setSweep i g).heldWrites = s.heldWrites := rfl
@[simp] theorem Sys.setSweep_heldAccesses (s : Sys) (i : Nat) (g : Sweep → Sweep) : (s.setSweep i g).heldAccesses = s.heldAccesses := rfl
@[simp] theorem Sys.setSweep_time (s : Sys) (i : Nat) (g : Sweep → Sweep) : (s.setSweep i g).time = s.time := rfl
@[simp] theorem Sys.setSweep_market (s : Sys) (i : Nat) (g : Sweep → Sweep) : (s.setSweep i g).market = s.market := rfl
@[simp] theorem Sys.setSweep_power (s : Sys) (i : Nat) (g : Sweep → Sweep) : (s.setSweep i g).power = s.power := rfl
@[simp] theorem Sys.setSweep_device (s : Sys) (i : Nat) (g : Sweep → Sweep) : (s.setSweep i g).device = s.device := rfl
@[simp] theorem Sys.setSweep_inputs (s : Sys) (i : Nat) (g : Sweep → Sweep) : (s.setSweep i g).inputs = s.inputs := rfl

/-! ## A queue changed -/

@[simp] theorem Sys.setQueue_agenda (s : Sys) (i : Nat) (g : Queue → Queue) : (s.setQueue i g).agenda = s.agenda := rfl
@[simp] theorem Sys.setQueue_cursor (s : Sys) (i : Nat) (g : Queue → Queue) : (s.setQueue i g).cursor = s.cursor := rfl
@[simp] theorem Sys.setQueue_words (s : Sys) (i : Nat) (g : Queue → Queue) : (s.setQueue i g).words = s.words := rfl
@[simp] theorem Sys.setQueue_starting (s : Sys) (i : Nat) (g : Queue → Queue) : (s.setQueue i g).starting = s.starting := rfl
@[simp] theorem Sys.setQueue_fresh (s : Sys) (i : Nat) (g : Queue → Queue) : (s.setQueue i g).fresh = s.fresh := rfl
@[simp] theorem Sys.setQueue_now (s : Sys) (i : Nat) (g : Queue → Queue) : (s.setQueue i g).now = s.now := rfl
@[simp] theorem Sys.setQueue_free (s : Sys) (i : Nat) (g : Queue → Queue) : (s.setQueue i g).free = s.free := rfl
@[simp] theorem Sys.setQueue_order (s : Sys) (i : Nat) (g : Queue → Queue) : (s.setQueue i g).order = s.order := rfl
@[simp] theorem Sys.setQueue_blocks (s : Sys) (i : Nat) (g : Queue → Queue) : (s.setQueue i g).blocks = s.blocks := rfl
@[simp] theorem Sys.setQueue_towers (s : Sys) (i : Nat) (g : Queue → Queue) : (s.setQueue i g).towers = s.towers := rfl
@[simp] theorem Sys.setQueue_sweeps (s : Sys) (i : Nat) (g : Queue → Queue) : (s.setQueue i g).sweeps = s.sweeps := rfl
@[simp] theorem Sys.setQueue_nextSweep (s : Sys) (i : Nat) (g : Queue → Queue) : (s.setQueue i g).nextSweep = s.nextSweep := rfl
@[simp] theorem Sys.setQueue_packets (s : Sys) (i : Nat) (g : Queue → Queue) : (s.setQueue i g).packets = s.packets := rfl
@[simp] theorem Sys.setQueue_faults (s : Sys) (i : Nat) (g : Queue → Queue) : (s.setQueue i g).faults = s.faults := rfl
@[simp] theorem Sys.setQueue_nextFault (s : Sys) (i : Nat) (g : Queue → Queue) : (s.setQueue i g).nextFault = s.nextFault := rfl
@[simp] theorem Sys.setQueue_ringWrites (s : Sys) (i : Nat) (g : Queue → Queue) : (s.setQueue i g).ringWrites = s.ringWrites := rfl
@[simp] theorem Sys.setQueue_heldWrites (s : Sys) (i : Nat) (g : Queue → Queue) : (s.setQueue i g).heldWrites = s.heldWrites := rfl
@[simp] theorem Sys.setQueue_heldAccesses (s : Sys) (i : Nat) (g : Queue → Queue) : (s.setQueue i g).heldAccesses = s.heldAccesses := rfl
@[simp] theorem Sys.setQueue_time (s : Sys) (i : Nat) (g : Queue → Queue) : (s.setQueue i g).time = s.time := rfl
@[simp] theorem Sys.setQueue_market (s : Sys) (i : Nat) (g : Queue → Queue) : (s.setQueue i g).market = s.market := rfl
@[simp] theorem Sys.setQueue_power (s : Sys) (i : Nat) (g : Queue → Queue) : (s.setQueue i g).power = s.power := rfl
@[simp] theorem Sys.setQueue_device (s : Sys) (i : Nat) (g : Queue → Queue) : (s.setQueue i g).device = s.device := rfl
@[simp] theorem Sys.setQueue_inputs (s : Sys) (i : Nat) (g : Queue → Queue) : (s.setQueue i g).inputs = s.inputs := rfl

/-! ## A packet changed -/

@[simp] theorem Sys.setPacket_agenda (s : Sys) (i : Nat) (g : Packet → Packet) : (s.setPacket i g).agenda = s.agenda := rfl
@[simp] theorem Sys.setPacket_cursor (s : Sys) (i : Nat) (g : Packet → Packet) : (s.setPacket i g).cursor = s.cursor := rfl
@[simp] theorem Sys.setPacket_words (s : Sys) (i : Nat) (g : Packet → Packet) : (s.setPacket i g).words = s.words := rfl
@[simp] theorem Sys.setPacket_starting (s : Sys) (i : Nat) (g : Packet → Packet) : (s.setPacket i g).starting = s.starting := rfl
@[simp] theorem Sys.setPacket_fresh (s : Sys) (i : Nat) (g : Packet → Packet) : (s.setPacket i g).fresh = s.fresh := rfl
@[simp] theorem Sys.setPacket_now (s : Sys) (i : Nat) (g : Packet → Packet) : (s.setPacket i g).now = s.now := rfl
@[simp] theorem Sys.setPacket_free (s : Sys) (i : Nat) (g : Packet → Packet) : (s.setPacket i g).free = s.free := rfl
@[simp] theorem Sys.setPacket_order (s : Sys) (i : Nat) (g : Packet → Packet) : (s.setPacket i g).order = s.order := rfl
@[simp] theorem Sys.setPacket_blocks (s : Sys) (i : Nat) (g : Packet → Packet) : (s.setPacket i g).blocks = s.blocks := rfl
@[simp] theorem Sys.setPacket_towers (s : Sys) (i : Nat) (g : Packet → Packet) : (s.setPacket i g).towers = s.towers := rfl
@[simp] theorem Sys.setPacket_sweeps (s : Sys) (i : Nat) (g : Packet → Packet) : (s.setPacket i g).sweeps = s.sweeps := rfl
@[simp] theorem Sys.setPacket_nextSweep (s : Sys) (i : Nat) (g : Packet → Packet) : (s.setPacket i g).nextSweep = s.nextSweep := rfl
@[simp] theorem Sys.setPacket_queues (s : Sys) (i : Nat) (g : Packet → Packet) : (s.setPacket i g).queues = s.queues := rfl
@[simp] theorem Sys.setPacket_faults (s : Sys) (i : Nat) (g : Packet → Packet) : (s.setPacket i g).faults = s.faults := rfl
@[simp] theorem Sys.setPacket_nextFault (s : Sys) (i : Nat) (g : Packet → Packet) : (s.setPacket i g).nextFault = s.nextFault := rfl
@[simp] theorem Sys.setPacket_ringWrites (s : Sys) (i : Nat) (g : Packet → Packet) : (s.setPacket i g).ringWrites = s.ringWrites := rfl
@[simp] theorem Sys.setPacket_heldWrites (s : Sys) (i : Nat) (g : Packet → Packet) : (s.setPacket i g).heldWrites = s.heldWrites := rfl
@[simp] theorem Sys.setPacket_heldAccesses (s : Sys) (i : Nat) (g : Packet → Packet) : (s.setPacket i g).heldAccesses = s.heldAccesses := rfl
@[simp] theorem Sys.setPacket_time (s : Sys) (i : Nat) (g : Packet → Packet) : (s.setPacket i g).time = s.time := rfl
@[simp] theorem Sys.setPacket_market (s : Sys) (i : Nat) (g : Packet → Packet) : (s.setPacket i g).market = s.market := rfl
@[simp] theorem Sys.setPacket_power (s : Sys) (i : Nat) (g : Packet → Packet) : (s.setPacket i g).power = s.power := rfl
@[simp] theorem Sys.setPacket_device (s : Sys) (i : Nat) (g : Packet → Packet) : (s.setPacket i g).device = s.device := rfl
@[simp] theorem Sys.setPacket_inputs (s : Sys) (i : Nat) (g : Packet → Packet) : (s.setPacket i g).inputs = s.inputs := rfl

/-! ## An MSI-X vector made pending -/

@[simp] theorem Sys.raise_agenda (s : Sys) (v : Nat) : (s.raise v).agenda = s.agenda := rfl
@[simp] theorem Sys.raise_cursor (s : Sys) (v : Nat) : (s.raise v).cursor = s.cursor := rfl
@[simp] theorem Sys.raise_words (s : Sys) (v : Nat) : (s.raise v).words = s.words := rfl
@[simp] theorem Sys.raise_starting (s : Sys) (v : Nat) : (s.raise v).starting = s.starting := rfl
@[simp] theorem Sys.raise_fresh (s : Sys) (v : Nat) : (s.raise v).fresh = s.fresh := rfl
@[simp] theorem Sys.raise_now (s : Sys) (v : Nat) : (s.raise v).now = s.now := rfl
@[simp] theorem Sys.raise_free (s : Sys) (v : Nat) : (s.raise v).free = s.free := rfl
@[simp] theorem Sys.raise_order (s : Sys) (v : Nat) : (s.raise v).order = s.order := rfl
@[simp] theorem Sys.raise_blocks (s : Sys) (v : Nat) : (s.raise v).blocks = s.blocks := rfl
@[simp] theorem Sys.raise_towers (s : Sys) (v : Nat) : (s.raise v).towers = s.towers := rfl
@[simp] theorem Sys.raise_sweeps (s : Sys) (v : Nat) : (s.raise v).sweeps = s.sweeps := rfl
@[simp] theorem Sys.raise_nextSweep (s : Sys) (v : Nat) : (s.raise v).nextSweep = s.nextSweep := rfl
@[simp] theorem Sys.raise_queues (s : Sys) (v : Nat) : (s.raise v).queues = s.queues := rfl
@[simp] theorem Sys.raise_packets (s : Sys) (v : Nat) : (s.raise v).packets = s.packets := rfl
@[simp] theorem Sys.raise_faults (s : Sys) (v : Nat) : (s.raise v).faults = s.faults := rfl
@[simp] theorem Sys.raise_nextFault (s : Sys) (v : Nat) : (s.raise v).nextFault = s.nextFault := rfl
@[simp] theorem Sys.raise_ringWrites (s : Sys) (v : Nat) : (s.raise v).ringWrites = s.ringWrites := rfl
@[simp] theorem Sys.raise_heldWrites (s : Sys) (v : Nat) : (s.raise v).heldWrites = s.heldWrites := rfl
@[simp] theorem Sys.raise_heldAccesses (s : Sys) (v : Nat) : (s.raise v).heldAccesses = s.heldAccesses := rfl
@[simp] theorem Sys.raise_time (s : Sys) (v : Nat) : (s.raise v).time = s.time := rfl
@[simp] theorem Sys.raise_market (s : Sys) (v : Nat) : (s.raise v).market = s.market := rfl
@[simp] theorem Sys.raise_power (s : Sys) (v : Nat) : (s.raise v).power = s.power := rfl
@[simp] theorem Sys.raise_inputs (s : Sys) (v : Nat) : (s.raise v).inputs = s.inputs := rfl

/-! ## A vector element written -/

@[simp] theorem Warp.setElem_rank (w : Warp) (n l : Nat) (x : Word) : (w.setElem n l x).rank = w.rank := rfl
@[simp] theorem Warp.setElem_slice (w : Warp) (n l : Nat) (x : Word) : (w.setElem n l x).slice = w.slice := rfl
@[simp] theorem Warp.setElem_warpSlot (w : Warp) (n l : Nat) (x : Word) : (w.setElem n l x).warpSlot = w.warpSlot := rfl
@[simp] theorem Warp.setElem_bays (w : Warp) (n l : Nat) (x : Word) : (w.setElem n l x).bays = w.bays := rfl
@[simp] theorem Warp.setElem_s (w : Warp) (n l : Nat) (x : Word) : (w.setElem n l x).s = w.s := rfl
@[simp] theorem Warp.setElem_sPoison (w : Warp) (n l : Nat) (x : Word) : (w.setElem n l x).sPoison = w.sPoison := rfl
@[simp] theorem Warp.setElem_m (w : Warp) (n l : Nat) (x : Word) : (w.setElem n l x).m = w.m := rfl
@[simp] theorem Warp.setElem_tiles (w : Warp) (n l : Nat) (x : Word) : (w.setElem n l x).tiles = w.tiles := rfl
@[simp] theorem Warp.setElem_tilePoison (w : Warp) (n l : Nat) (x : Word) : (w.setElem n l x).tilePoison = w.tilePoison := rfl
@[simp] theorem Warp.setElem_tileCtl (w : Warp) (n l : Nat) (x : Word) : (w.setElem n l x).tileCtl = w.tileCtl := rfl
@[simp] theorem Warp.setElem_flags (w : Warp) (n l : Nat) (x : Word) : (w.setElem n l x).flags = w.flags := rfl
@[simp] theorem Warp.setElem_ftz (w : Warp) (n l : Nat) (x : Word) : (w.setElem n l x).ftz = w.ftz := rfl
@[simp] theorem Warp.setElem_fmask (w : Warp) (n l : Nat) (x : Word) : (w.setElem n l x).fmask = w.fmask := rfl
@[simp] theorem Warp.setElem_fcause (w : Warp) (n l : Nat) (x : Word) : (w.setElem n l x).fcause = w.fcause := rfl
@[simp] theorem Warp.setElem_faddr (w : Warp) (n l : Nat) (x : Word) : (w.setElem n l x).faddr = w.faddr := rfl
@[simp] theorem Warp.setElem_tvec (w : Warp) (n l : Nat) (x : Word) : (w.setElem n l x).tvec = w.tvec := rfl
@[simp] theorem Warp.setElem_rpr (w : Warp) (n l : Nat) (x : Word) : (w.setElem n l x).rpr = w.rpr := rfl
@[simp] theorem Warp.setElem_tol (w : Warp) (n l : Nat) (x : Word) : (w.setElem n l x).tol = w.tol := rfl
@[simp] theorem Warp.setElem_mcert (w : Warp) (n l : Nat) (x : Word) : (w.setElem n l x).mcert = w.mcert := rfl
@[simp] theorem Warp.setElem_rngkey (w : Warp) (n l : Nat) (x : Word) : (w.setElem n l x).rngkey = w.rngkey := rfl
@[simp] theorem Warp.setElem_perm (w : Warp) (n l : Nat) (x : Word) : (w.setElem n l x).perm = w.perm := rfl
@[simp] theorem Warp.setElem_slotA (w : Warp) (n l : Nat) (x : Word) : (w.setElem n l x).slotA = w.slotA := rfl
@[simp] theorem Warp.setElem_slotB (w : Warp) (n l : Nat) (x : Word) : (w.setElem n l x).slotB = w.slotB := rfl
@[simp] theorem Warp.setElem_rs (w : Warp) (n l : Nat) (x : Word) : (w.setElem n l x).rs = w.rs := rfl
@[simp] theorem Warp.setElem_rsPoison (w : Warp) (n l : Nat) (x : Word) : (w.setElem n l x).rsPoison = w.rsPoison := rfl
@[simp] theorem Warp.setElem_ops (w : Warp) (n l : Nat) (x : Word) : (w.setElem n l x).ops = w.ops := rfl
@[simp] theorem Warp.setElem_draining (w : Warp) (n l : Nat) (x : Word) : (w.setElem n l x).draining = w.draining := rfl
@[simp] theorem Warp.setElem_priv (w : Warp) (n l : Nat) (x : Word) : (w.setElem n l x).priv = w.priv := rfl
@[simp] theorem Warp.setElem_privPoison (w : Warp) (n l : Nat) (x : Word) : (w.setElem n l x).privPoison = w.privPoison := rfl
@[simp] theorem Warp.setElem_took (w : Warp) (n l : Nat) (x : Word) : (w.setElem n l x).took = w.took := rfl
@[simp] theorem Warp.setElem_arrived (w : Warp) (n l : Nat) (x : Word) : (w.setElem n l x).arrived = w.arrived := rfl
@[simp] theorem Warp.setElem_clearing (w : Warp) (n l : Nat) (x : Word) : (w.setElem n l x).clearing = w.clearing := rfl

/-! ## A mask register written -/

@[simp] theorem Warp.setMask_rank (w : Warp) (n : Nat) (x : LaneMask) : (w.setMask n x).rank = w.rank := rfl
@[simp] theorem Warp.setMask_slice (w : Warp) (n : Nat) (x : LaneMask) : (w.setMask n x).slice = w.slice := rfl
@[simp] theorem Warp.setMask_warpSlot (w : Warp) (n : Nat) (x : LaneMask) : (w.setMask n x).warpSlot = w.warpSlot := rfl
@[simp] theorem Warp.setMask_bays (w : Warp) (n : Nat) (x : LaneMask) : (w.setMask n x).bays = w.bays := rfl
@[simp] theorem Warp.setMask_v (w : Warp) (n : Nat) (x : LaneMask) : (w.setMask n x).v = w.v := rfl
@[simp] theorem Warp.setMask_vPoison (w : Warp) (n : Nat) (x : LaneMask) : (w.setMask n x).vPoison = w.vPoison := rfl
@[simp] theorem Warp.setMask_vUnloaded (w : Warp) (n : Nat) (x : LaneMask) : (w.setMask n x).vUnloaded = w.vUnloaded := rfl
@[simp] theorem Warp.setMask_s (w : Warp) (n : Nat) (x : LaneMask) : (w.setMask n x).s = w.s := rfl
@[simp] theorem Warp.setMask_sPoison (w : Warp) (n : Nat) (x : LaneMask) : (w.setMask n x).sPoison = w.sPoison := rfl
@[simp] theorem Warp.setMask_tiles (w : Warp) (n : Nat) (x : LaneMask) : (w.setMask n x).tiles = w.tiles := rfl
@[simp] theorem Warp.setMask_tilePoison (w : Warp) (n : Nat) (x : LaneMask) : (w.setMask n x).tilePoison = w.tilePoison := rfl
@[simp] theorem Warp.setMask_tileCtl (w : Warp) (n : Nat) (x : LaneMask) : (w.setMask n x).tileCtl = w.tileCtl := rfl
@[simp] theorem Warp.setMask_flags (w : Warp) (n : Nat) (x : LaneMask) : (w.setMask n x).flags = w.flags := rfl
@[simp] theorem Warp.setMask_ftz (w : Warp) (n : Nat) (x : LaneMask) : (w.setMask n x).ftz = w.ftz := rfl
@[simp] theorem Warp.setMask_fmask (w : Warp) (n : Nat) (x : LaneMask) : (w.setMask n x).fmask = w.fmask := rfl
@[simp] theorem Warp.setMask_fcause (w : Warp) (n : Nat) (x : LaneMask) : (w.setMask n x).fcause = w.fcause := rfl
@[simp] theorem Warp.setMask_faddr (w : Warp) (n : Nat) (x : LaneMask) : (w.setMask n x).faddr = w.faddr := rfl
@[simp] theorem Warp.setMask_tvec (w : Warp) (n : Nat) (x : LaneMask) : (w.setMask n x).tvec = w.tvec := rfl
@[simp] theorem Warp.setMask_rpr (w : Warp) (n : Nat) (x : LaneMask) : (w.setMask n x).rpr = w.rpr := rfl
@[simp] theorem Warp.setMask_tol (w : Warp) (n : Nat) (x : LaneMask) : (w.setMask n x).tol = w.tol := rfl
@[simp] theorem Warp.setMask_mcert (w : Warp) (n : Nat) (x : LaneMask) : (w.setMask n x).mcert = w.mcert := rfl
@[simp] theorem Warp.setMask_rngkey (w : Warp) (n : Nat) (x : LaneMask) : (w.setMask n x).rngkey = w.rngkey := rfl
@[simp] theorem Warp.setMask_perm (w : Warp) (n : Nat) (x : LaneMask) : (w.setMask n x).perm = w.perm := rfl
@[simp] theorem Warp.setMask_slotA (w : Warp) (n : Nat) (x : LaneMask) : (w.setMask n x).slotA = w.slotA := rfl
@[simp] theorem Warp.setMask_slotB (w : Warp) (n : Nat) (x : LaneMask) : (w.setMask n x).slotB = w.slotB := rfl
@[simp] theorem Warp.setMask_rs (w : Warp) (n : Nat) (x : LaneMask) : (w.setMask n x).rs = w.rs := rfl
@[simp] theorem Warp.setMask_rsPoison (w : Warp) (n : Nat) (x : LaneMask) : (w.setMask n x).rsPoison = w.rsPoison := rfl
@[simp] theorem Warp.setMask_ops (w : Warp) (n : Nat) (x : LaneMask) : (w.setMask n x).ops = w.ops := rfl
@[simp] theorem Warp.setMask_draining (w : Warp) (n : Nat) (x : LaneMask) : (w.setMask n x).draining = w.draining := rfl
@[simp] theorem Warp.setMask_priv (w : Warp) (n : Nat) (x : LaneMask) : (w.setMask n x).priv = w.priv := rfl
@[simp] theorem Warp.setMask_privPoison (w : Warp) (n : Nat) (x : LaneMask) : (w.setMask n x).privPoison = w.privPoison := rfl
@[simp] theorem Warp.setMask_took (w : Warp) (n : Nat) (x : LaneMask) : (w.setMask n x).took = w.took := rfl
@[simp] theorem Warp.setMask_arrived (w : Warp) (n : Nat) (x : LaneMask) : (w.setMask n x).arrived = w.arrived := rfl
@[simp] theorem Warp.setMask_clearing (w : Warp) (n : Nat) (x : LaneMask) : (w.setMask n x).clearing = w.clearing := rfl

/-! ## A scalar register written -/

@[simp] theorem Warp.setScalar_rank (w : Warp) (n : Nat) (x : DWord) : (w.setScalar n x).rank = w.rank := by unfold Warp.setScalar; split <;> rfl
@[simp] theorem Warp.setScalar_slice (w : Warp) (n : Nat) (x : DWord) : (w.setScalar n x).slice = w.slice := by unfold Warp.setScalar; split <;> rfl
@[simp] theorem Warp.setScalar_warpSlot (w : Warp) (n : Nat) (x : DWord) : (w.setScalar n x).warpSlot = w.warpSlot := by unfold Warp.setScalar; split <;> rfl
@[simp] theorem Warp.setScalar_bays (w : Warp) (n : Nat) (x : DWord) : (w.setScalar n x).bays = w.bays := by unfold Warp.setScalar; split <;> rfl
@[simp] theorem Warp.setScalar_v (w : Warp) (n : Nat) (x : DWord) : (w.setScalar n x).v = w.v := by unfold Warp.setScalar; split <;> rfl
@[simp] theorem Warp.setScalar_vPoison (w : Warp) (n : Nat) (x : DWord) : (w.setScalar n x).vPoison = w.vPoison := by unfold Warp.setScalar; split <;> rfl
@[simp] theorem Warp.setScalar_vUnloaded (w : Warp) (n : Nat) (x : DWord) : (w.setScalar n x).vUnloaded = w.vUnloaded := by unfold Warp.setScalar; split <;> rfl
@[simp] theorem Warp.setScalar_m (w : Warp) (n : Nat) (x : DWord) : (w.setScalar n x).m = w.m := by unfold Warp.setScalar; split <;> rfl
@[simp] theorem Warp.setScalar_tiles (w : Warp) (n : Nat) (x : DWord) : (w.setScalar n x).tiles = w.tiles := by unfold Warp.setScalar; split <;> rfl
@[simp] theorem Warp.setScalar_tilePoison (w : Warp) (n : Nat) (x : DWord) : (w.setScalar n x).tilePoison = w.tilePoison := by unfold Warp.setScalar; split <;> rfl
@[simp] theorem Warp.setScalar_tileCtl (w : Warp) (n : Nat) (x : DWord) : (w.setScalar n x).tileCtl = w.tileCtl := by unfold Warp.setScalar; split <;> rfl
@[simp] theorem Warp.setScalar_flags (w : Warp) (n : Nat) (x : DWord) : (w.setScalar n x).flags = w.flags := by unfold Warp.setScalar; split <;> rfl
@[simp] theorem Warp.setScalar_ftz (w : Warp) (n : Nat) (x : DWord) : (w.setScalar n x).ftz = w.ftz := by unfold Warp.setScalar; split <;> rfl
@[simp] theorem Warp.setScalar_fmask (w : Warp) (n : Nat) (x : DWord) : (w.setScalar n x).fmask = w.fmask := by unfold Warp.setScalar; split <;> rfl
@[simp] theorem Warp.setScalar_fcause (w : Warp) (n : Nat) (x : DWord) : (w.setScalar n x).fcause = w.fcause := by unfold Warp.setScalar; split <;> rfl
@[simp] theorem Warp.setScalar_faddr (w : Warp) (n : Nat) (x : DWord) : (w.setScalar n x).faddr = w.faddr := by unfold Warp.setScalar; split <;> rfl
@[simp] theorem Warp.setScalar_tvec (w : Warp) (n : Nat) (x : DWord) : (w.setScalar n x).tvec = w.tvec := by unfold Warp.setScalar; split <;> rfl
@[simp] theorem Warp.setScalar_rpr (w : Warp) (n : Nat) (x : DWord) : (w.setScalar n x).rpr = w.rpr := by unfold Warp.setScalar; split <;> rfl
@[simp] theorem Warp.setScalar_tol (w : Warp) (n : Nat) (x : DWord) : (w.setScalar n x).tol = w.tol := by unfold Warp.setScalar; split <;> rfl
@[simp] theorem Warp.setScalar_mcert (w : Warp) (n : Nat) (x : DWord) : (w.setScalar n x).mcert = w.mcert := by unfold Warp.setScalar; split <;> rfl
@[simp] theorem Warp.setScalar_rngkey (w : Warp) (n : Nat) (x : DWord) : (w.setScalar n x).rngkey = w.rngkey := by unfold Warp.setScalar; split <;> rfl
@[simp] theorem Warp.setScalar_perm (w : Warp) (n : Nat) (x : DWord) : (w.setScalar n x).perm = w.perm := by unfold Warp.setScalar; split <;> rfl
@[simp] theorem Warp.setScalar_slotA (w : Warp) (n : Nat) (x : DWord) : (w.setScalar n x).slotA = w.slotA := by unfold Warp.setScalar; split <;> rfl
@[simp] theorem Warp.setScalar_slotB (w : Warp) (n : Nat) (x : DWord) : (w.setScalar n x).slotB = w.slotB := by unfold Warp.setScalar; split <;> rfl
@[simp] theorem Warp.setScalar_rs (w : Warp) (n : Nat) (x : DWord) : (w.setScalar n x).rs = w.rs := by unfold Warp.setScalar; split <;> rfl
@[simp] theorem Warp.setScalar_rsPoison (w : Warp) (n : Nat) (x : DWord) : (w.setScalar n x).rsPoison = w.rsPoison := by unfold Warp.setScalar; split <;> rfl
@[simp] theorem Warp.setScalar_ops (w : Warp) (n : Nat) (x : DWord) : (w.setScalar n x).ops = w.ops := by unfold Warp.setScalar; split <;> rfl
@[simp] theorem Warp.setScalar_draining (w : Warp) (n : Nat) (x : DWord) : (w.setScalar n x).draining = w.draining := by unfold Warp.setScalar; split <;> rfl
@[simp] theorem Warp.setScalar_priv (w : Warp) (n : Nat) (x : DWord) : (w.setScalar n x).priv = w.priv := by unfold Warp.setScalar; split <;> rfl
@[simp] theorem Warp.setScalar_privPoison (w : Warp) (n : Nat) (x : DWord) : (w.setScalar n x).privPoison = w.privPoison := by unfold Warp.setScalar; split <;> rfl
@[simp] theorem Warp.setScalar_took (w : Warp) (n : Nat) (x : DWord) : (w.setScalar n x).took = w.took := by unfold Warp.setScalar; split <;> rfl
@[simp] theorem Warp.setScalar_arrived (w : Warp) (n : Nat) (x : DWord) : (w.setScalar n x).arrived = w.arrived := by unfold Warp.setScalar; split <;> rfl
@[simp] theorem Warp.setScalar_clearing (w : Warp) (n : Nat) (x : DWord) : (w.setScalar n x).clearing = w.clearing := by unfold Warp.setScalar; split <;> rfl

/-! ## A slot changed -/

@[simp] theorem Warp.setSlot_rank (w : Warp) (z : SlotId) (g : PcSlot → PcSlot) : (w.setSlot z g).rank = w.rank := by cases z <;> rfl
@[simp] theorem Warp.setSlot_slice (w : Warp) (z : SlotId) (g : PcSlot → PcSlot) : (w.setSlot z g).slice = w.slice := by cases z <;> rfl
@[simp] theorem Warp.setSlot_warpSlot (w : Warp) (z : SlotId) (g : PcSlot → PcSlot) : (w.setSlot z g).warpSlot = w.warpSlot := by cases z <;> rfl
@[simp] theorem Warp.setSlot_bays (w : Warp) (z : SlotId) (g : PcSlot → PcSlot) : (w.setSlot z g).bays = w.bays := by cases z <;> rfl
@[simp] theorem Warp.setSlot_v (w : Warp) (z : SlotId) (g : PcSlot → PcSlot) : (w.setSlot z g).v = w.v := by cases z <;> rfl
@[simp] theorem Warp.setSlot_vPoison (w : Warp) (z : SlotId) (g : PcSlot → PcSlot) : (w.setSlot z g).vPoison = w.vPoison := by cases z <;> rfl
@[simp] theorem Warp.setSlot_vUnloaded (w : Warp) (z : SlotId) (g : PcSlot → PcSlot) : (w.setSlot z g).vUnloaded = w.vUnloaded := by cases z <;> rfl
@[simp] theorem Warp.setSlot_s (w : Warp) (z : SlotId) (g : PcSlot → PcSlot) : (w.setSlot z g).s = w.s := by cases z <;> rfl
@[simp] theorem Warp.setSlot_sPoison (w : Warp) (z : SlotId) (g : PcSlot → PcSlot) : (w.setSlot z g).sPoison = w.sPoison := by cases z <;> rfl
@[simp] theorem Warp.setSlot_m (w : Warp) (z : SlotId) (g : PcSlot → PcSlot) : (w.setSlot z g).m = w.m := by cases z <;> rfl
@[simp] theorem Warp.setSlot_tiles (w : Warp) (z : SlotId) (g : PcSlot → PcSlot) : (w.setSlot z g).tiles = w.tiles := by cases z <;> rfl
@[simp] theorem Warp.setSlot_tilePoison (w : Warp) (z : SlotId) (g : PcSlot → PcSlot) : (w.setSlot z g).tilePoison = w.tilePoison := by cases z <;> rfl
@[simp] theorem Warp.setSlot_tileCtl (w : Warp) (z : SlotId) (g : PcSlot → PcSlot) : (w.setSlot z g).tileCtl = w.tileCtl := by cases z <;> rfl
@[simp] theorem Warp.setSlot_flags (w : Warp) (z : SlotId) (g : PcSlot → PcSlot) : (w.setSlot z g).flags = w.flags := by cases z <;> rfl
@[simp] theorem Warp.setSlot_ftz (w : Warp) (z : SlotId) (g : PcSlot → PcSlot) : (w.setSlot z g).ftz = w.ftz := by cases z <;> rfl
@[simp] theorem Warp.setSlot_fmask (w : Warp) (z : SlotId) (g : PcSlot → PcSlot) : (w.setSlot z g).fmask = w.fmask := by cases z <;> rfl
@[simp] theorem Warp.setSlot_fcause (w : Warp) (z : SlotId) (g : PcSlot → PcSlot) : (w.setSlot z g).fcause = w.fcause := by cases z <;> rfl
@[simp] theorem Warp.setSlot_faddr (w : Warp) (z : SlotId) (g : PcSlot → PcSlot) : (w.setSlot z g).faddr = w.faddr := by cases z <;> rfl
@[simp] theorem Warp.setSlot_tvec (w : Warp) (z : SlotId) (g : PcSlot → PcSlot) : (w.setSlot z g).tvec = w.tvec := by cases z <;> rfl
@[simp] theorem Warp.setSlot_rpr (w : Warp) (z : SlotId) (g : PcSlot → PcSlot) : (w.setSlot z g).rpr = w.rpr := by cases z <;> rfl
@[simp] theorem Warp.setSlot_tol (w : Warp) (z : SlotId) (g : PcSlot → PcSlot) : (w.setSlot z g).tol = w.tol := by cases z <;> rfl
@[simp] theorem Warp.setSlot_mcert (w : Warp) (z : SlotId) (g : PcSlot → PcSlot) : (w.setSlot z g).mcert = w.mcert := by cases z <;> rfl
@[simp] theorem Warp.setSlot_rngkey (w : Warp) (z : SlotId) (g : PcSlot → PcSlot) : (w.setSlot z g).rngkey = w.rngkey := by cases z <;> rfl
@[simp] theorem Warp.setSlot_perm (w : Warp) (z : SlotId) (g : PcSlot → PcSlot) : (w.setSlot z g).perm = w.perm := by cases z <;> rfl
@[simp] theorem Warp.setSlot_rs (w : Warp) (z : SlotId) (g : PcSlot → PcSlot) : (w.setSlot z g).rs = w.rs := by cases z <;> rfl
@[simp] theorem Warp.setSlot_rsPoison (w : Warp) (z : SlotId) (g : PcSlot → PcSlot) : (w.setSlot z g).rsPoison = w.rsPoison := by cases z <;> rfl
@[simp] theorem Warp.setSlot_ops (w : Warp) (z : SlotId) (g : PcSlot → PcSlot) : (w.setSlot z g).ops = w.ops := by cases z <;> rfl
@[simp] theorem Warp.setSlot_draining (w : Warp) (z : SlotId) (g : PcSlot → PcSlot) : (w.setSlot z g).draining = w.draining := by cases z <;> rfl
@[simp] theorem Warp.setSlot_priv (w : Warp) (z : SlotId) (g : PcSlot → PcSlot) : (w.setSlot z g).priv = w.priv := by cases z <;> rfl
@[simp] theorem Warp.setSlot_privPoison (w : Warp) (z : SlotId) (g : PcSlot → PcSlot) : (w.setSlot z g).privPoison = w.privPoison := by cases z <;> rfl
@[simp] theorem Warp.setSlot_took (w : Warp) (z : SlotId) (g : PcSlot → PcSlot) : (w.setSlot z g).took = w.took := by cases z <;> rfl
@[simp] theorem Warp.setSlot_arrived (w : Warp) (z : SlotId) (g : PcSlot → PcSlot) : (w.setSlot z g).arrived = w.arrived := by cases z <;> rfl
@[simp] theorem Warp.setSlot_clearing (w : Warp) (z : SlotId) (g : PcSlot → PcSlot) : (w.setSlot z g).clearing = w.clearing := by cases z <;> rfl

/-! ## FLAGS accumulated -/

@[simp] theorem Warp.orFlags_rank (w : Warp) (x : BitVec 5) : (w.orFlags x).rank = w.rank := rfl
@[simp] theorem Warp.orFlags_slice (w : Warp) (x : BitVec 5) : (w.orFlags x).slice = w.slice := rfl
@[simp] theorem Warp.orFlags_warpSlot (w : Warp) (x : BitVec 5) : (w.orFlags x).warpSlot = w.warpSlot := rfl
@[simp] theorem Warp.orFlags_bays (w : Warp) (x : BitVec 5) : (w.orFlags x).bays = w.bays := rfl
@[simp] theorem Warp.orFlags_v (w : Warp) (x : BitVec 5) : (w.orFlags x).v = w.v := rfl
@[simp] theorem Warp.orFlags_vPoison (w : Warp) (x : BitVec 5) : (w.orFlags x).vPoison = w.vPoison := rfl
@[simp] theorem Warp.orFlags_vUnloaded (w : Warp) (x : BitVec 5) : (w.orFlags x).vUnloaded = w.vUnloaded := rfl
@[simp] theorem Warp.orFlags_s (w : Warp) (x : BitVec 5) : (w.orFlags x).s = w.s := rfl
@[simp] theorem Warp.orFlags_sPoison (w : Warp) (x : BitVec 5) : (w.orFlags x).sPoison = w.sPoison := rfl
@[simp] theorem Warp.orFlags_m (w : Warp) (x : BitVec 5) : (w.orFlags x).m = w.m := rfl
@[simp] theorem Warp.orFlags_tiles (w : Warp) (x : BitVec 5) : (w.orFlags x).tiles = w.tiles := rfl
@[simp] theorem Warp.orFlags_tilePoison (w : Warp) (x : BitVec 5) : (w.orFlags x).tilePoison = w.tilePoison := rfl
@[simp] theorem Warp.orFlags_tileCtl (w : Warp) (x : BitVec 5) : (w.orFlags x).tileCtl = w.tileCtl := rfl
@[simp] theorem Warp.orFlags_ftz (w : Warp) (x : BitVec 5) : (w.orFlags x).ftz = w.ftz := rfl
@[simp] theorem Warp.orFlags_fmask (w : Warp) (x : BitVec 5) : (w.orFlags x).fmask = w.fmask := rfl
@[simp] theorem Warp.orFlags_fcause (w : Warp) (x : BitVec 5) : (w.orFlags x).fcause = w.fcause := rfl
@[simp] theorem Warp.orFlags_faddr (w : Warp) (x : BitVec 5) : (w.orFlags x).faddr = w.faddr := rfl
@[simp] theorem Warp.orFlags_tvec (w : Warp) (x : BitVec 5) : (w.orFlags x).tvec = w.tvec := rfl
@[simp] theorem Warp.orFlags_rpr (w : Warp) (x : BitVec 5) : (w.orFlags x).rpr = w.rpr := rfl
@[simp] theorem Warp.orFlags_tol (w : Warp) (x : BitVec 5) : (w.orFlags x).tol = w.tol := rfl
@[simp] theorem Warp.orFlags_mcert (w : Warp) (x : BitVec 5) : (w.orFlags x).mcert = w.mcert := rfl
@[simp] theorem Warp.orFlags_rngkey (w : Warp) (x : BitVec 5) : (w.orFlags x).rngkey = w.rngkey := rfl
@[simp] theorem Warp.orFlags_perm (w : Warp) (x : BitVec 5) : (w.orFlags x).perm = w.perm := rfl
@[simp] theorem Warp.orFlags_slotA (w : Warp) (x : BitVec 5) : (w.orFlags x).slotA = w.slotA := rfl
@[simp] theorem Warp.orFlags_slotB (w : Warp) (x : BitVec 5) : (w.orFlags x).slotB = w.slotB := rfl
@[simp] theorem Warp.orFlags_rs (w : Warp) (x : BitVec 5) : (w.orFlags x).rs = w.rs := rfl
@[simp] theorem Warp.orFlags_rsPoison (w : Warp) (x : BitVec 5) : (w.orFlags x).rsPoison = w.rsPoison := rfl
@[simp] theorem Warp.orFlags_ops (w : Warp) (x : BitVec 5) : (w.orFlags x).ops = w.ops := rfl
@[simp] theorem Warp.orFlags_draining (w : Warp) (x : BitVec 5) : (w.orFlags x).draining = w.draining := rfl
@[simp] theorem Warp.orFlags_priv (w : Warp) (x : BitVec 5) : (w.orFlags x).priv = w.priv := rfl
@[simp] theorem Warp.orFlags_privPoison (w : Warp) (x : BitVec 5) : (w.orFlags x).privPoison = w.privPoison := rfl
@[simp] theorem Warp.orFlags_took (w : Warp) (x : BitVec 5) : (w.orFlags x).took = w.took := rfl
@[simp] theorem Warp.orFlags_arrived (w : Warp) (x : BitVec 5) : (w.orFlags x).arrived = w.arrived := rfl
@[simp] theorem Warp.orFlags_clearing (w : Warp) (x : BitVec 5) : (w.orFlags x).clearing = w.clearing := rfl

@[simp] theorem Warp.orFlags_flags (w : Warp) (x : BitVec 5) : (w.orFlags x).flags = w.flags ||| x := rfl

@[simp] theorem Warp.slot_setSlot_same (w : Warp) (z : SlotId) (g : PcSlot → PcSlot) : (w.setSlot z g).slot z = g (w.slot z) := by
  cases z <;> rfl
@[simp] theorem Warp.slot_setSlot_other (w : Warp) (z : SlotId) (g : PcSlot → PcSlot) :
    (w.setSlot z g).slot (otherSlot z) = w.slot (otherSlot z) := by
  cases z <;> rfl

/-! ## A slot moved on -/

@[simp] theorem PcSlot.step_valid (z : PcSlot) (n : Nat) : (z.step n).valid = z.valid := rfl
@[simp] theorem PcSlot.step_mask (z : PcSlot) (n : Nat) : (z.step n).mask = z.mask := rfl
@[simp] theorem PcSlot.step_ch (z : PcSlot) (n : Nat) : (z.step n).ch = z.ch := rfl
@[simp] theorem PcSlot.step_issued (z : PcSlot) (n : Nat) : (z.step n).issued = z.issued := rfl
@[simp] theorem PcSlot.step_setA (z : PcSlot) (n : Nat) : (z.step n).setA = z.setA := rfl
@[simp] theorem PcSlot.step_setB (z : PcSlot) (n : Nat) : (z.step n).setB = z.setB := rfl
@[simp] theorem PcSlot.step_serial (z : PcSlot) (n : Nat) : (z.step n).serial = z.serial := rfl
@[simp] theorem PcSlot.step_trap (z : PcSlot) (n : Nat) : (z.step n).trap = z.trap := rfl
@[simp] theorem PcSlot.step_serialOp (z : PcSlot) (n : Nat) : (z.step n).serialOp = z.serialOp := rfl
@[simp] theorem PcSlot.step_pc (z : PcSlot) (n : Nat) : (z.step n).pc = z.pc.plus n := rfl
@[simp] theorem PcSlot.step_left (z : PcSlot) (n : Nat) : (z.step n).left = z.left - 1 := rfl

/-! ## An instruction taken out of the outstanding ones -/

@[simp] theorem Warp.dropOp_rank (w : Warp) (i : Nat) : (w.dropOp i).rank = w.rank := rfl
@[simp] theorem Warp.dropOp_slice (w : Warp) (i : Nat) : (w.dropOp i).slice = w.slice := rfl
@[simp] theorem Warp.dropOp_warpSlot (w : Warp) (i : Nat) : (w.dropOp i).warpSlot = w.warpSlot := rfl
@[simp] theorem Warp.dropOp_bays (w : Warp) (i : Nat) : (w.dropOp i).bays = w.bays := rfl
@[simp] theorem Warp.dropOp_v (w : Warp) (i : Nat) : (w.dropOp i).v = w.v := rfl
@[simp] theorem Warp.dropOp_vPoison (w : Warp) (i : Nat) : (w.dropOp i).vPoison = w.vPoison := rfl
@[simp] theorem Warp.dropOp_vUnloaded (w : Warp) (i : Nat) : (w.dropOp i).vUnloaded = w.vUnloaded := rfl
@[simp] theorem Warp.dropOp_s (w : Warp) (i : Nat) : (w.dropOp i).s = w.s := rfl
@[simp] theorem Warp.dropOp_sPoison (w : Warp) (i : Nat) : (w.dropOp i).sPoison = w.sPoison := rfl
@[simp] theorem Warp.dropOp_m (w : Warp) (i : Nat) : (w.dropOp i).m = w.m := rfl
@[simp] theorem Warp.dropOp_tiles (w : Warp) (i : Nat) : (w.dropOp i).tiles = w.tiles := rfl
@[simp] theorem Warp.dropOp_tilePoison (w : Warp) (i : Nat) : (w.dropOp i).tilePoison = w.tilePoison := rfl
@[simp] theorem Warp.dropOp_tileCtl (w : Warp) (i : Nat) : (w.dropOp i).tileCtl = w.tileCtl := rfl
@[simp] theorem Warp.dropOp_flags (w : Warp) (i : Nat) : (w.dropOp i).flags = w.flags := rfl
@[simp] theorem Warp.dropOp_ftz (w : Warp) (i : Nat) : (w.dropOp i).ftz = w.ftz := rfl
@[simp] theorem Warp.dropOp_fmask (w : Warp) (i : Nat) : (w.dropOp i).fmask = w.fmask := rfl
@[simp] theorem Warp.dropOp_fcause (w : Warp) (i : Nat) : (w.dropOp i).fcause = w.fcause := rfl
@[simp] theorem Warp.dropOp_faddr (w : Warp) (i : Nat) : (w.dropOp i).faddr = w.faddr := rfl
@[simp] theorem Warp.dropOp_tvec (w : Warp) (i : Nat) : (w.dropOp i).tvec = w.tvec := rfl
@[simp] theorem Warp.dropOp_rpr (w : Warp) (i : Nat) : (w.dropOp i).rpr = w.rpr := rfl
@[simp] theorem Warp.dropOp_tol (w : Warp) (i : Nat) : (w.dropOp i).tol = w.tol := rfl
@[simp] theorem Warp.dropOp_mcert (w : Warp) (i : Nat) : (w.dropOp i).mcert = w.mcert := rfl
@[simp] theorem Warp.dropOp_rngkey (w : Warp) (i : Nat) : (w.dropOp i).rngkey = w.rngkey := rfl
@[simp] theorem Warp.dropOp_perm (w : Warp) (i : Nat) : (w.dropOp i).perm = w.perm := rfl
@[simp] theorem Warp.dropOp_slotA (w : Warp) (i : Nat) : (w.dropOp i).slotA = w.slotA := rfl
@[simp] theorem Warp.dropOp_slotB (w : Warp) (i : Nat) : (w.dropOp i).slotB = w.slotB := rfl
@[simp] theorem Warp.dropOp_rs (w : Warp) (i : Nat) : (w.dropOp i).rs = w.rs := rfl
@[simp] theorem Warp.dropOp_rsPoison (w : Warp) (i : Nat) : (w.dropOp i).rsPoison = w.rsPoison := rfl
@[simp] theorem Warp.dropOp_draining (w : Warp) (i : Nat) : (w.dropOp i).draining = w.draining := rfl
@[simp] theorem Warp.dropOp_priv (w : Warp) (i : Nat) : (w.dropOp i).priv = w.priv := rfl
@[simp] theorem Warp.dropOp_privPoison (w : Warp) (i : Nat) : (w.dropOp i).privPoison = w.privPoison := rfl
@[simp] theorem Warp.dropOp_took (w : Warp) (i : Nat) : (w.dropOp i).took = w.took := rfl
@[simp] theorem Warp.dropOp_arrived (w : Warp) (i : Nat) : (w.dropOp i).arrived = w.arrived := rfl
@[simp] theorem Warp.dropOp_ops (w : Warp) (i : Nat) : (w.dropOp i).ops = w.ops.filter (fun x => x.id != i) := rfl
@[simp] theorem Warp.dropOp_clearing (w : Warp) (i : Nat) : (w.dropOp i).clearing = w.cleared (w.ops.filter fun x => x.id == i) := rfl

/-! ## The error log -/

@[simp] theorem Sys.logError_agenda (s : Sys) (r : LogRecord) : (s.logError r).agenda = s.agenda := by unfold Sys.logError; split <;> rfl
@[simp] theorem Sys.logError_cursor (s : Sys) (r : LogRecord) : (s.logError r).cursor = s.cursor := by unfold Sys.logError; split <;> rfl
@[simp] theorem Sys.logError_words (s : Sys) (r : LogRecord) : (s.logError r).words = s.words := by unfold Sys.logError; split <;> rfl
@[simp] theorem Sys.logError_starting (s : Sys) (r : LogRecord) : (s.logError r).starting = s.starting := by unfold Sys.logError; split <;> rfl
@[simp] theorem Sys.logError_fresh (s : Sys) (r : LogRecord) : (s.logError r).fresh = s.fresh := by unfold Sys.logError; split <;> rfl
@[simp] theorem Sys.logError_now (s : Sys) (r : LogRecord) : (s.logError r).now = s.now := by unfold Sys.logError; split <;> rfl
@[simp] theorem Sys.logError_free (s : Sys) (r : LogRecord) : (s.logError r).free = s.free := by unfold Sys.logError; split <;> rfl
@[simp] theorem Sys.logError_order (s : Sys) (r : LogRecord) : (s.logError r).order = s.order := by unfold Sys.logError; split <;> rfl
@[simp] theorem Sys.logError_towers (s : Sys) (r : LogRecord) : (s.logError r).towers = s.towers := by unfold Sys.logError; split <;> rfl
@[simp] theorem Sys.logError_sweeps (s : Sys) (r : LogRecord) : (s.logError r).sweeps = s.sweeps := by unfold Sys.logError; split <;> rfl
@[simp] theorem Sys.logError_nextSweep (s : Sys) (r : LogRecord) : (s.logError r).nextSweep = s.nextSweep := by unfold Sys.logError; split <;> rfl
@[simp] theorem Sys.logError_queues (s : Sys) (r : LogRecord) : (s.logError r).queues = s.queues := by unfold Sys.logError; split <;> rfl
@[simp] theorem Sys.logError_packets (s : Sys) (r : LogRecord) : (s.logError r).packets = s.packets := by unfold Sys.logError; split <;> rfl
@[simp] theorem Sys.logError_faults (s : Sys) (r : LogRecord) : (s.logError r).faults = s.faults := by unfold Sys.logError; split <;> rfl
@[simp] theorem Sys.logError_nextFault (s : Sys) (r : LogRecord) : (s.logError r).nextFault = s.nextFault := by unfold Sys.logError; split <;> rfl
@[simp] theorem Sys.logError_ringWrites (s : Sys) (r : LogRecord) : (s.logError r).ringWrites = s.ringWrites := by unfold Sys.logError; split <;> rfl
@[simp] theorem Sys.logError_heldWrites (s : Sys) (r : LogRecord) : (s.logError r).heldWrites = s.heldWrites := by unfold Sys.logError; split <;> rfl
@[simp] theorem Sys.logError_heldAccesses (s : Sys) (r : LogRecord) : (s.logError r).heldAccesses = s.heldAccesses := by unfold Sys.logError; split <;> rfl
@[simp] theorem Sys.logError_time (s : Sys) (r : LogRecord) : (s.logError r).time = s.time := by unfold Sys.logError; split <;> rfl
@[simp] theorem Sys.logError_market (s : Sys) (r : LogRecord) : (s.logError r).market = s.market := by unfold Sys.logError; split <;> rfl
@[simp] theorem Sys.logError_power (s : Sys) (r : LogRecord) : (s.logError r).power = s.power := by unfold Sys.logError; split <;> rfl
@[simp] theorem Sys.logError_inputs (s : Sys) (r : LogRecord) : (s.logError r).inputs = s.inputs := by unfold Sys.logError; split <;> rfl
@[simp] theorem Sys.logError_blocks (s : Sys) (r : LogRecord) : (s.logError r).blocks = s.blocks := by unfold Sys.logError; split <;> rfl

end Sys2Proof.Machine
end

