-- ==== Sys2Proof/Laws/Ops.lean ====
section
/-! SUPPORT. What the shared operations do: the accessors after an update, the issue of an instruction, and the canonical form
of memory across a step. -/

namespace Sys2Proof.Machine

/-! ## Lists -/

/-- The first element of a class after that class was mapped, the map keeping the class. -/
theorem find_updateWhere_same {α : Type} (p : α → Bool) (f : α → α) (hf : ∀ x, p x = true → p (f x) = true) (xs : List α) :
    (updateWhere p f xs).find? p = (xs.find? p).map f := by
  induction xs with
  | nil => rfl
  | cons x xs ih =>
    unfold updateWhere at ih ⊢
    by_cases h : p x = true
    · simp [h, hf x h]
    · simp only [List.map_cons, h, List.find?_cons] at ih ⊢
      simp [h, ih]

/-- The first element of another class is left alone. -/
theorem find_updateWhere_other {α : Type} (p q : α → Bool) (f : α → α) (h : ∀ x, p x = true → q x = false ∧ q (f x) = false)
    (xs : List α) : (updateWhere p f xs).find? q = xs.find? q := by
  induction xs with
  | nil => rfl
  | cons x xs ih =>
    unfold updateWhere at ih ⊢
    by_cases hp : p x = true
    · simp [hp, h x hp, ih]
    · simp only [List.map_cons, hp, List.find?_cons]
      simp [ih]

/-! ## Blocks and warps after an update -/

/-- The changed block, when the change keeps its number. -/
theorem Sys.block_setBlock_same (s : Sys) (i : Nat) (g : Block → Block) (hg : ∀ b, (g b).id = b.id) :
    (s.setBlock i g).block i = (s.block i).map g :=
  find_updateWhere_same _ g (fun b h => by simpa [hg b] using h) s.blocks

/-- Another block. -/
theorem Sys.block_setBlock_other (s : Sys) (i j : Nat) (g : Block → Block) (hg : ∀ b, (g b).id = b.id) (h : j ≠ i) :
    (s.setBlock i g).block j = s.block j :=
  find_updateWhere_other _ _ g (fun b hb => by
    have : b.id = i := by simpa using hb
    simp [hg b, this, Ne.symm h]) s.blocks

/-- The warp written back reads back, when it keeps its rank. -/
theorem Sys.warp_putWarp_same (s : Sys) (r : WarpRef) (b : Block) (w w' : Warp) (hb : s.block r.block = some b)
    (hw : b.warp r.rank = some w) (hr : w'.rank = r.rank) : (s.putWarp r w').warp r = some w' := by
  have h1 := Sys.block_setBlock_same s r.block (fun b => b.setWarp r.rank fun _ => w') (fun _ => rfl)
  have h2 : (b.setWarp r.rank fun _ => w').warp r.rank = (b.warp r.rank).map fun _ => w' :=
    find_updateWhere_same _ (fun _ => w') (fun _ _ => by simp [hr]) b.warps
  unfold Sys.putWarp Sys.setWarp Sys.warp
  rw [h1, hb]
  simp [h2, hw]

/-- Every other warp is left alone. -/
theorem Sys.warp_putWarp_other (s : Sys) (r q : WarpRef) (w' : Warp) (hr : w'.rank = r.rank) (h : q ≠ r) :
    (s.putWarp r w').warp q = s.warp q := by
  unfold Sys.putWarp Sys.setWarp Sys.warp
  by_cases hb : q.block = r.block
  · rw [hb, Sys.block_setBlock_same s r.block (fun b => b.setWarp r.rank fun _ => w') (fun _ => rfl)]
    have hq : q.rank ≠ r.rank := fun he => h (by cases q; cases r; simp_all)
    cases s.block r.block with
    | none => rfl
    | some b =>
      exact find_updateWhere_other _ _ (fun _ => w') (fun x hx => by
        have : x.rank = r.rank := by simpa using hx
        simp [hr, this, Ne.symm hq]) b.warps
  · rw [Sys.block_setBlock_other s r.block q.block (fun b => b.setWarp r.rank fun _ => w') (fun _ => rfl) hb]

/-- The issuing slot's context is the state's. -/
theorem Sys.issuing_some {s : Sys} {c : Ctx} (h : s.issuing = some c) :
    s.cursor = some (c.ref, c.z) ∧ s.block c.ref.block = some c.b ∧ c.b.warp c.ref.rank = some c.w := by
  unfold Sys.issuing at h
  split at h
  · cases h
  · next r z hc =>
    split at h
    · cases h
    · next b hb =>
      split at h
      · cases h
      · next w hw => cases h; exact ⟨hc, hb, hw⟩

/-- The rank of the issuing warp is its reference's. -/
theorem Ctx.rank_eq {s : Sys} {c : Ctx} (h : s.issuing = some c) : c.w.rank = c.ref.rank := by
  obtain ⟨-, -, hw⟩ := Sys.issuing_some h
  simpa using List.find?_some hw

/-! ## Registers after a write -/

/-- A scalar register other than s63 reads back. -/
theorem Warp.scalar_setScalar_same (w : Warp) (n : Nat) (x : DWord) (h : n ≠ 63) : (w.setScalar n x).scalar n = x := by
  simp [Warp.setScalar, Warp.scalar, h]

/-- Every other scalar register is left alone. -/
theorem Warp.scalar_setScalar_other (w : Warp) (n k : Nat) (x : DWord) (h : k ≠ n) : (w.setScalar n x).scalar k = w.scalar k := by
  by_cases hn : n = 63 <;> simp [Warp.setScalar, Warp.scalar, hn, Sparse.get_put_other _ _ _ _ h]

/-- An element reads back. -/
@[simp] theorem Warp.elem_setElem_same (w : Warp) (n l : Nat) (x : Word) : (w.setElem n l x).elem n l = x := by
  simp [Warp.setElem, Warp.elem]

/-- The key of an element names its register and lane. -/
theorem elemKey_inj {n l k j : Nat} (hl : l < 64) (hj : j < 64) : elemKey n l = elemKey k j ↔ n = k ∧ l = j := by
  unfold elemKey
  omega

/-- Every other element is left alone. -/
theorem Warp.elem_setElem_other (w : Warp) (n l k j : Nat) (x : Word) (h : elemKey k j ≠ elemKey n l) :
    (w.setElem n l x).elem k j = w.elem k j := by
  simp [Warp.setElem, Warp.elem, Sparse.get_put_other _ _ _ _ h]

/-! ## The issue of an instruction -/

/-- An instruction that nothing holds and no register fault meets takes its own effect. -/
theorem issue_go {m : Mnem} {f : Fields} {s : State} {c : Ctx} {e : LaneMask} {fl : Option Nat} (hc : s.sys.issuing = some c)
    (ha : c.admits m f = .go e fl) (k : (o : Phys) → Tx o → Ctx → LaneMask → Option Nat → Tx o) :
    issue m f s k = .next (k s.phys (Tx.start s) c e fl).state := by
  unfold issue work
  simp [hc, ha]

/-- An instruction of fixed latency writes its warp and goes on. -/
theorem fixedOp_go {m : Mnem} {f : Fields} {s : State} {c : Ctx} {e : LaneMask} {fl : Option Nat} (g : Ctx → LaneMask → Warp)
    (hc : s.sys.issuing = some c) (ha : c.admits m f = .go e fl) :
    fixedOp m f s g = .next { s with sys := s.sys.putWarp c.ref ((g c e).setSlot c.z fun z => z.step s.sys.words) } := by
  unfold fixedOp
  rw [issue_go hc ha]
  rfl

/-- An instruction that reads elements at lanes of its choice, none of them poisoned, writes its warp and goes on. -/
theorem laneReadOp_go {m : Mnem} {f : Fields} {s : State} {c : Ctx} {e : LaneMask} {fl : Option Nat}
    (reads : Ctx → LaneMask → List (Nat × Nat)) (g : Ctx → LaneMask → Warp) (hc : s.sys.issuing = some c)
    (ha : c.admits m f = .go e fl) (hp : ∀ x ∈ reads c e, c.w.elemPoisoned x.1 x.2 = false) :
    laneReadOp m f s reads g =
      .next { s with sys := s.sys.putWarp c.ref ((g c e).setSlot c.z fun z => z.step s.sys.words) } := by
  unfold laneReadOp
  rw [issue_go hc ha]
  have h : ((reads c e).any fun x => c.w.elemPoisoned x.1 x.2) = false := by simpa using hp
  simp only [h]
  rfl

/-- The checks in front of an instruction let it go exactly when nothing holds it and no register fault meets it. -/
theorem Ctx.admit_go_iff (c : Ctx) (m : Mnem) (f : Fields) (e : LaneMask) (fl : Option Nat) :
    c.admits m f = .go e fl ↔
      c.waits m f (c.active f.guard) = none ∧ c.registerFault m f (c.active f.guard) = none ∧ e = c.active f.guard ∧
        fl = (if m.variableLatency then c.slot.nextFlag else none) := by
  unfold Ctx.admits
  simp only
  split
  · next h => simp [h]
  · next h =>
    split
    · next h2 => simp [h2]
    · next h2 =>
      constructor
      · intro h3
        cases h3
        exact ⟨h, h2, rfl, rfl⟩
      · rintro ⟨-, -, rfl, rfl⟩
        rfl

/-! ## The canonical form of memory -/

/-- A step that leaves memory alone keeps its canonical form. -/
theorem keepMemory_wf {s t : State} {f : Phys → Sys → Sys} (h : keepMemory s f = .next t) : t.phys = s.phys := by
  unfold keepMemory at h
  cases h
  rfl

/-- A step's work keeps the canonical form. -/
theorem work_wf {s t : State} {f : (o : Phys) → Tx o → Tx o} (h : work s f = .next t) (hw : s.phys.mem.wf = true) :
    t.phys.mem.wf = true := by
  unfold work at h
  cases h
  exact (f s.phys (Tx.start s)).keeps hw

/-- The issue of an instruction keeps the canonical form. -/
theorem issue_wf {m : Mnem} {f : Fields} {s t : State} {k : (o : Phys) → Tx o → Ctx → LaneMask → Option Nat → Tx o}
    (h : issue m f s k = .next t) (hw : s.phys.mem.wf = true) : t.phys.mem.wf = true := by
  unfold issue at h
  split at h
  · cases h
  · split at h
    · rw [keepMemory_wf h]; exact hw
    · exact work_wf h hw
    · exact work_wf h hw

/-! ## What a read that a bad host completion answers leaves in the log (R303) -/

theorem Sys.noteHostAt_eq (s : Sys) (pas : List Nat) :
    s.noteHostAt pas = match pas.find? fun a => s.hostBad a 1 with | some a => s.logError (.host a 1) | none => s := by
  unfold Sys.noteHostAt Sys.noteHost
  cases h : pas.find? fun a => s.hostBad a 1 with
  | none => rfl
  | some a => simp [List.find?_some h]

theorem Sys.noteHostAt_none (s : Sys) (pas : List Nat) (h : s.inputs.hostErrors = []) : s.noteHostAt pas = s := by
  have : (pas.find? fun a => s.hostBad a 1) = none := by simp [Sys.hostBad, h]
  simp [Sys.noteHostAt_eq, this]

theorem Sys.noteRead_ok (p : Phys) (s : Sys) (asid va n : Nat) (pas : List Nat) (h : walkRange p s asid va n true false = .ok pas) :
    s.noteRead p asid va n = s.noteHostAt pas := by
  unfold Sys.noteRead
  split
  · next h0 => rw [Sys.noteHostAt_none s pas (by simpa using h0)]
  · rw [h]

/-! ## Walks of a range -/

/-- A walk that leaves each byte where it is reads the bytes of the range. -/
theorem walkBytes_flat (walk : Nat → Walk) (va n : Nat) (hn : va + n ≤ 2 ^ 52) (h : ∀ i, i < n → walk (va + i) = .ok (va + i)) :
    walkBytes walk va n = .ok ((List.range n).map (va + ·)) := by
  have key : ∀ k, k ≤ n → ((List.range k).foldl (fun (acc : Except (Nat × Walk) (List Nat)) (i : Nat) =>
      match acc with
      | .error e => .error e
      | .ok l => if 2 ^ 52 ≤ va + i then .error ((va + i) % 2 ^ 52, .invalid)
        else match walk (va + i) with
          | .ok pa => .ok (pa :: l)
          | w => .error (va + i, w)) (.ok [])) = .ok (((List.range k).map (va + ·)).reverse) := by
    intro k
    induction k with
    | zero => intro _; rfl
    | succ k ih =>
      intro hk
      have hlt : ¬ (2 ^ 52 ≤ va + k) := by omega
      rw [List.range_succ, List.foldl_append, ih (by omega)]
      simp only [List.foldl_cons, List.foldl_nil, if_neg hlt, h k (by omega)]
      simp
  have e := key n (le_refl n)
  have z : walkBytes walk va n = _ := congrArg (fun z : Except (Nat × Walk) (List Nat) => match z with | .ok l => Except.ok l.reverse | .error e => .error e) e
  rw [z]
  dsimp only
  rw [List.reverse_reverse]

/-- So does a reading. -/
theorem readVirtual_flat (p : Phys) (s : Sys) (asid va n : Nat) (hn : va + n ≤ 2 ^ 52) (h : ∀ i, i < n → walkAddr p s asid (va + i) true false = .ok (va + i)) :
    readVirtual p s asid va n = .ok (numAt p ((List.range n).map (va + ·))) := by
  rw [readVirtual, walkRange, walkBytes_flat _ va n hn h, Except.map]

end Sys2Proof.Machine
end

