-- ==== Sys2Proof/Laws/PerInstr.lean ====
section
/-! SUPPORT. A family of lemmas with one for each constructor: what the view of an instruction shows rebuilds it. -/

namespace Sys2Proof.Laws.ViewInverse

/-- The mnemonic and the fields that an instruction's view shows are those of the instruction itself. -/
def Statement (i : Instr) : Prop := ∀ m f, i.view = some (m, f) → Instr.ofMnem m f = i

/-- A step without an encoding shows no view. -/
theorem of_none {i : Instr} (h : i.view = none) : Statement i := fun m f h2 => by rw [h] at h2; cases h2

theorem clauseHeader (h : HeaderFields) : Statement (.clauseHeader h) := of_none rfl
theorem nop (f : Fields) : Statement (.nop f) := fun _ _ h => by cases h; rfl
theorem bra (f : Fields) : Statement (.bra f) := fun _ _ h => by cases h; rfl
theorem brc (f : Fields) : Statement (.brc f) := fun _ _ h => by cases h; rfl
theorem brx (f : Fields) : Statement (.brx f) := fun _ _ h => by cases h; rfl
theorem call (f : Fields) : Statement (.call f) := fun _ _ h => by cases h; rfl
theorem ret (f : Fields) : Statement (.ret f) := fun _ _ h => by cases h; rfl
theorem prepj (f : Fields) : Statement (.prepj f) := fun _ _ h => by cases h; rfl
theorem prepl (f : Fields) : Statement (.prepl f) := fun _ _ h => by cases h; rfl
theorem recv (f : Fields) : Statement (.recv f) := fun _ _ h => by cases h; rfl
theorem brk (f : Fields) : Statement (.brk f) := fun _ _ h => by cases h; rfl
theorem cont (f : Fields) : Statement (.cont f) := fun _ _ h => by cases h; rfl
theorem exit (f : Fields) : Statement (.exit f) := fun _ _ h => by cases h; rfl
theorem trap (f : Fields) : Statement (.trap f) := fun _ _ h => by cases h; rfl
theorem rtt (f : Fields) : Statement (.rtt f) := fun _ _ h => by cases h; rfl
theorem rttSkip (f : Fields) : Statement (.rttSkip f) := fun _ _ h => by cases h; rfl
theorem bkpt (f : Fields) : Statement (.bkpt f) := fun _ _ h => by cases h; rfl
theorem yield (f : Fields) : Statement (.yield f) := fun _ _ h => by cases h; rfl
theorem srd (f : Fields) : Statement (.srd f) := fun _ _ h => by cases h; rfl
theorem swr (f : Fields) : Statement (.swr f) := fun _ _ h => by cases h; rfl
theorem regacq (f : Fields) : Statement (.regacq f) := fun _ _ h => by cases h; rfl
theorem waitf (f : Fields) : Statement (.waitf f) := fun _ _ h => by cases h; rfl
theorem sadd (f : Fields) : Statement (.sadd f) := fun _ _ h => by cases h; rfl
theorem ssub (f : Fields) : Statement (.ssub f) := fun _ _ h => by cases h; rfl
theorem smul (f : Fields) : Statement (.smul f) := fun _ _ h => by cases h; rfl
theorem smulh (f : Fields) : Statement (.smulh f) := fun _ _ h => by cases h; rfl
theorem smad (f : Fields) : Statement (.smad f) := fun _ _ h => by cases h; rfl
theorem sand (f : Fields) : Statement (.sand f) := fun _ _ h => by cases h; rfl
theorem sor (f : Fields) : Statement (.sor f) := fun _ _ h => by cases h; rfl
theorem sxor (f : Fields) : Statement (.sxor f) := fun _ _ h => by cases h; rfl
theorem snot (f : Fields) : Statement (.snot f) := fun _ _ h => by cases h; rfl
theorem sshl (f : Fields) : Statement (.sshl f) := fun _ _ h => by cases h; rfl
theorem sshr (f : Fields) : Statement (.sshr f) := fun _ _ h => by cases h; rfl
theorem ssar (f : Fields) : Statement (.ssar f) := fun _ _ h => by cases h; rfl
theorem smin (f : Fields) : Statement (.smin f) := fun _ _ h => by cases h; rfl
theorem smax (f : Fields) : Statement (.smax f) := fun _ _ h => by cases h; rfl
theorem scmp (f : Fields) : Statement (.scmp f) := fun _ _ h => by cases h; rfl
theorem ssel (f : Fields) : Statement (.ssel f) := fun _ _ h => by cases h; rfl
theorem smov (f : Fields) : Statement (.smov f) := fun _ _ h => by cases h; rfl
theorem sli (f : Fields) : Statement (.sli f) := fun _ _ h => by cases h; rfl
theorem sliHi (f : Fields) : Statement (.sliHi f) := fun _ _ h => by cases h; rfl
theorem spopc (f : Fields) : Statement (.spopc f) := fun _ _ h => by cases h; rfl
theorem sclz (f : Fields) : Statement (.sclz f) := fun _ _ h => by cases h; rfl
theorem sctz (f : Fields) : Statement (.sctz f) := fun _ _ h => by cases h; rfl
theorem vadd (f : Fields) : Statement (.vadd f) := fun _ _ h => by cases h; rfl
theorem vsub (f : Fields) : Statement (.vsub f) := fun _ _ h => by cases h; rfl
theorem vmul (f : Fields) : Statement (.vmul f) := fun _ _ h => by cases h; rfl
theorem vmulh (f : Fields) : Statement (.vmulh f) := fun _ _ h => by cases h; rfl
theorem vmad (f : Fields) : Statement (.vmad f) := fun _ _ h => by cases h; rfl
theorem vmin (f : Fields) : Statement (.vmin f) := fun _ _ h => by cases h; rfl
theorem vmax (f : Fields) : Statement (.vmax f) := fun _ _ h => by cases h; rfl
theorem vabs (f : Fields) : Statement (.vabs f) := fun _ _ h => by cases h; rfl
theorem vneg (f : Fields) : Statement (.vneg f) := fun _ _ h => by cases h; rfl
theorem vand (f : Fields) : Statement (.vand f) := fun _ _ h => by cases h; rfl
theorem vor (f : Fields) : Statement (.vor f) := fun _ _ h => by cases h; rfl
theorem vxor (f : Fields) : Statement (.vxor f) := fun _ _ h => by cases h; rfl
theorem vnot (f : Fields) : Statement (.vnot f) := fun _ _ h => by cases h; rfl
theorem vshl (f : Fields) : Statement (.vshl f) := fun _ _ h => by cases h; rfl
theorem vshr (f : Fields) : Statement (.vshr f) := fun _ _ h => by cases h; rfl
theorem vsar (f : Fields) : Statement (.vsar f) := fun _ _ h => by cases h; rfl
theorem vrot (f : Fields) : Statement (.vrot f) := fun _ _ h => by cases h; rfl
theorem vfun (f : Fields) : Statement (.vfun f) := fun _ _ h => by cases h; rfl
theorem vpopc (f : Fields) : Statement (.vpopc f) := fun _ _ h => by cases h; rfl
theorem vclz (f : Fields) : Statement (.vclz f) := fun _ _ h => by cases h; rfl
theorem vctz (f : Fields) : Statement (.vctz f) := fun _ _ h => by cases h; rfl
theorem vbrev (f : Fields) : Statement (.vbrev f) := fun _ _ h => by cases h; rfl
theorem vcmp (f : Fields) : Statement (.vcmp f) := fun _ _ h => by cases h; rfl
theorem vsel (f : Fields) : Statement (.vsel f) := fun _ _ h => by cases h; rfl
theorem vmov (f : Fields) : Statement (.vmov f) := fun _ _ h => by cases h; rfl
theorem vli (f : Fields) : Statement (.vli f) := fun _ _ h => by cases h; rfl
theorem vbcst (f : Fields) : Statement (.vbcst f) := fun _ _ h => by cases h; rfl
theorem vextr (f : Fields) : Statement (.vextr f) := fun _ _ h => by cases h; rfl
theorem icvt (f : Fields) : Statement (.icvt f) := fun _ _ h => by cases h; rfl
theorem bmm8 (f : Fields) : Statement (.bmm8 f) := fun _ _ h => by cases h; rfl
theorem pdep (f : Fields) : Statement (.pdep f) := fun _ _ h => by cases h; rfl
theorem pext (f : Fields) : Statement (.pext f) := fun _ _ h => by cases h; rfl
theorem ldperm (f : Fields) : Statement (.ldperm f) := fun _ _ h => by cases h; rfl
theorem bperm (f : Fields) : Statement (.bperm f) := fun _ _ h => by cases h; rfl
theorem bfx (f : Fields) : Statement (.bfx f) := fun _ _ h => by cases h; rfl
theorem bfi (f : Fields) : Statement (.bfi f) := fun _ _ h => by cases h; rfl
theorem mand (f : Fields) : Statement (.mand f) := fun _ _ h => by cases h; rfl
theorem mor (f : Fields) : Statement (.mor f) := fun _ _ h => by cases h; rfl
theorem mxor (f : Fields) : Statement (.mxor f) := fun _ _ h => by cases h; rfl
theorem mnot (f : Fields) : Statement (.mnot f) := fun _ _ h => by cases h; rfl
theorem mmov (f : Fields) : Statement (.mmov f) := fun _ _ h => by cases h; rfl
theorem mcnt (f : Fields) : Statement (.mcnt f) := fun _ _ h => by cases h; rfl
theorem mfirst (f : Fields) : Statement (.mfirst f) := fun _ _ h => by cases h; rfl
theorem mtos (f : Fields) : Statement (.mtos f) := fun _ _ h => by cases h; rfl
theorem stom (f : Fields) : Statement (.stom f) := fun _ _ h => by cases h; rfl
theorem shflIdx (f : Fields) : Statement (.shflIdx f) := fun _ _ h => by cases h; rfl
theorem shflXor (f : Fields) : Statement (.shflXor f) := fun _ _ h => by cases h; rfl
theorem shflUp (f : Fields) : Statement (.shflUp f) := fun _ _ h => by cases h; rfl
theorem shflDn (f : Fields) : Statement (.shflDn f) := fun _ _ h => by cases h; rfl
theorem redl (f : Fields) : Statement (.redl f) := fun _ _ h => by cases h; rfl
theorem scanl (f : Fields) : Statement (.scanl f) := fun _ _ h => by cases h; rfl
theorem vote (f : Fields) : Statement (.vote f) := fun _ _ h => by cases h; rfl
theorem laneid (f : Fields) : Statement (.laneid f) := fun _ _ h => by cases h; rfl
theorem crngLo (f : Fields) : Statement (.crngLo f) := fun _ _ h => by cases h; rfl
theorem crngHi (f : Fields) : Statement (.crngHi f) := fun _ _ h => by cases h; rfl
theorem fadd (f : Fields) : Statement (.fadd f) := fun _ _ h => by cases h; rfl
theorem fsub (f : Fields) : Statement (.fsub f) := fun _ _ h => by cases h; rfl
theorem fmul (f : Fields) : Statement (.fmul f) := fun _ _ h => by cases h; rfl
theorem ffma (f : Fields) : Statement (.ffma f) := fun _ _ h => by cases h; rfl
theorem fmin (f : Fields) : Statement (.fmin f) := fun _ _ h => by cases h; rfl
theorem fmax (f : Fields) : Statement (.fmax f) := fun _ _ h => by cases h; rfl
theorem fcmp (f : Fields) : Statement (.fcmp f) := fun _ _ h => by cases h; rfl
theorem fclass (f : Fields) : Statement (.fclass f) := fun _ _ h => by cases h; rfl
theorem frnd (f : Fields) : Statement (.frnd f) := fun _ _ h => by cases h; rfl
theorem fcvt (f : Fields) : Statement (.fcvt f) := fun _ _ h => by cases h; rfl
theorem icvtf (f : Fields) : Statement (.icvtf f) := fun _ _ h => by cases h; rfl
theorem fcvti (f : Fields) : Statement (.fcvti f) := fun _ _ h => by cases h; rfl
theorem fscl (f : Fields) : Statement (.fscl f) := fun _ _ h => by cases h; rfl
theorem pfadd (f : Fields) : Statement (.pfadd f) := fun _ _ h => by cases h; rfl
theorem pfmul (f : Fields) : Statement (.pfmul f) := fun _ _ h => by cases h; rfl
theorem pffma (f : Fields) : Statement (.pffma f) := fun _ _ h => by cases h; rfl
theorem fdot4 (f : Fields) : Statement (.fdot4 f) := fun _ _ h => by cases h; rfl
theorem rcp (f : Fields) : Statement (.rcp f) := fun _ _ h => by cases h; rfl
theorem rsq (f : Fields) : Statement (.rsq f) := fun _ _ h => by cases h; rfl
theorem sqrt (f : Fields) : Statement (.sqrt f) := fun _ _ h => by cases h; rfl
theorem exp2 (f : Fields) : Statement (.exp2 f) := fun _ _ h => by cases h; rfl
theorem log2 (f : Fields) : Statement (.log2 f) := fun _ _ h => by cases h; rfl
theorem sin (f : Fields) : Statement (.sin f) := fun _ _ h => by cases h; rfl
theorem cos (f : Fields) : Statement (.cos f) := fun _ _ h => by cases h; rfl
theorem rcpT (f : Fields) : Statement (.rcpT f) := fun _ _ h => by cases h; rfl
theorem rsqT (f : Fields) : Statement (.rsqT f) := fun _ _ h => by cases h; rfl
theorem sqrtT (f : Fields) : Statement (.sqrtT f) := fun _ _ h => by cases h; rfl
theorem exp2T (f : Fields) : Statement (.exp2T f) := fun _ _ h => by cases h; rfl
theorem log2T (f : Fields) : Statement (.log2T f) := fun _ _ h => by cases h; rfl
theorem sinT (f : Fields) : Statement (.sinT f) := fun _ _ h => by cases h; rfl
theorem cosT (f : Fields) : Statement (.cosT f) := fun _ _ h => by cases h; rfl
theorem ldb (f : Fields) : Statement (.ldb f) := fun _ _ h => by cases h; rfl
theorem stb (f : Fields) : Statement (.stb f) := fun _ _ h => by cases h; rfl
theorem ldt (f : Fields) : Statement (.ldt f) := fun _ _ h => by cases h; rfl
theorem stt (f : Fields) : Statement (.stt f) := fun _ _ h => by cases h; rfl
theorem ldl (f : Fields) : Statement (.ldl f) := fun _ _ h => by cases h; rfl
theorem stl (f : Fields) : Statement (.stl f) := fun _ _ h => by cases h; rfl
theorem atom (f : Fields) : Statement (.atom f) := fun _ _ h => by cases h; rfl
theorem atomc (f : Fields) : Statement (.atomc f) := fun _ _ h => by cases h; rfl
theorem atomf (f : Fields) : Statement (.atomf f) := fun _ _ h => by cases h; rfl
theorem afaddo (f : Fields) : Statement (.afaddo f) := fun _ _ h => by cases h; rfl
theorem accopen (f : Fields) : Statement (.accopen f) := fun _ _ h => by cases h; rfl
theorem fence (f : Fields) : Statement (.fence f) := fun _ _ h => by cases h; rfl
theorem barset (f : Fields) : Statement (.barset f) := fun _ _ h => by cases h; rfl
theorem bararr (f : Fields) : Statement (.bararr f) := fun _ _ h => by cases h; rfl
theorem bwait (f : Fields) : Statement (.bwait f) := fun _ _ h => by cases h; rfl
theorem bsync (f : Fields) : Statement (.bsync f) := fun _ _ h => by cases h; rfl
theorem waitc (f : Fields) : Statement (.waitc f) := fun _ _ h => by cases h; rfl
theorem kick (f : Fields) : Statement (.kick f) := fun _ _ h => by cases h; rfl
theorem mma (f : Fields) : Statement (.mma f) := fun _ _ h => by cases h; rfl
theorem mmaByp (f : Fields) : Statement (.mmaByp f) := fun _ _ h => by cases h; rfl
theorem mmas (f : Fields) : Statement (.mmas f) := fun _ _ h => by cases h; rfl
theorem mmasByp (f : Fields) : Statement (.mmasByp f) := fun _ _ h => by cases h; rfl
theorem mzero (f : Fields) : Statement (.mzero f) := fun _ _ h => by cases h; rfl
theorem mdrain (f : Fields) : Statement (.mdrain f) := fun _ _ h => by cases h; rfl
theorem mbyp (f : Fields) : Statement (.mbyp f) := fun _ _ h => by cases h; rfl
theorem mrd (f : Fields) : Statement (.mrd f) := fun _ _ h => by cases h; rfl
theorem mwr (f : Fields) : Statement (.mwr f) := fun _ _ h => by cases h; rfl
theorem mcertr (f : Fields) : Statement (.mcertr f) := fun _ _ h => by cases h; rfl
theorem ninfo (f : Fields) : Statement (.ninfo f) := fun _ _ h => by cases h; rfl
theorem chdr (f : Fields) : Statement (.chdr f) := fun _ _ h => by cases h; rfl
theorem take (f : Fields) : Statement (.take f) := fun _ _ h => by cases h; rfl
theorem spawn (f : Fields) : Statement (.spawn f) := fun _ _ h => by cases h; rfl
theorem spwait (f : Fields) : Statement (.spwait f) := fun _ _ h => by cases h; rfl
theorem tighten (f : Fields) : Statement (.tighten f) := fun _ _ h => by cases h; rfl
theorem cert (f : Fields) : Statement (.cert f) := fun _ _ h => by cases h; rfl
theorem certRel (f : Fields) : Statement (.certRel f) := fun _ _ h => by cases h; rfl
theorem tolsplIn (f : Fields) : Statement (.tolsplIn f) := fun _ _ h => by cases h; rfl
theorem tolsplOwn (f : Fields) : Statement (.tolsplOwn f) := fun _ _ h => by cases h; rfl
theorem toladdLog (f : Fields) : Statement (.toladdLog f) := fun _ _ h => by cases h; rfl
theorem toladdOff (f : Fields) : Statement (.toladdOff f) := fun _ _ h => by cases h; rfl
theorem fpick (f : Fields) : Statement (.fpick f) := fun _ _ h => by cases h; rfl
theorem fpickCvt (f : Fields) : Statement (.fpickCvt f) := fun _ _ h => by cases h; rfl
theorem tolsetDem (f : Fields) : Statement (.tolsetDem f) := fun _ _ h => by cases h; rfl
theorem tolsetCert (f : Fields) : Statement (.tolsetCert f) := fun _ _ h => by cases h; rfl
theorem tolsetVal (f : Fields) : Statement (.tolsetVal f) := fun _ _ h => by cases h; rfl
theorem tolsetFld (f : Fields) : Statement (.tolsetFld f) := fun _ _ h => by cases h; rfl
theorem trapEntry (w : WarpRef) (z : SlotId) : Statement (.trapEntry w z) := of_none rfl
theorem loadStoreCompletion (w : WarpRef) (op : Nat) (ecc : EccOutcome) : Statement (.loadStoreCompletion w op ecc) := of_none rfl
theorem storeBufferEntryPerformed (w : WarpRef) (op : Nat) : Statement (.storeBufferEntryPerformed w op) := of_none rfl
theorem atomicEngineAccept (c : CoreRef) : Statement (.atomicEngineAccept c) := of_none rfl
theorem hotLineTransfer (c : CoreRef) (line : Nat) : Statement (.hotLineTransfer c line) := of_none rfl
theorem accSlotSumDone (c : CoreRef) (slot : Nat) : Statement (.accSlotSumDone c slot) := of_none rfl
theorem sfuCompletion (w : WarpRef) (op : Nat) : Statement (.sfuCompletion w op) := of_none rfl
theorem crngCompletion (w : WarpRef) (op : Nat) : Statement (.crngCompletion w op) := of_none rfl
theorem mmaCompletion (w : WarpRef) (op : Nat) : Statement (.mmaCompletion w op) := of_none rfl
theorem tileOpCompletion (w : WarpRef) (op : Nat) : Statement (.tileOpCompletion w op) := of_none rfl
theorem certCompletion (w : WarpRef) (op : Nat) : Statement (.certCompletion w op) := of_none rfl
theorem regacqGrant (block : Nat) : Statement (.regacqGrant block) := of_none rfl
theorem acquireDeadlockEviction (c : CoreRef) : Statement (.acquireDeadlockEviction c) := of_none rfl
theorem cardEnterChecker (c : CoreRef) : Statement (.cardEnterChecker c) := of_none rfl
theorem cardStart (c : CoreRef) : Statement (.cardStart c) := of_none rfl
theorem cardChunk (c : CoreRef) (card : Nat) (transfer : TransferOutcome) : Statement (.cardChunk c card transfer) := of_none rfl
theorem cardComplete (c : CoreRef) (card : Nat) : Statement (.cardComplete c card) := of_none rfl
theorem pageWalkComplete (c : CoreRef) (req : WalkRequest) : Statement (.pageWalkComplete c req) := of_none rfl
theorem invalidationComplete (pkt : Nat) : Statement (.invalidationComplete pkt) := of_none rfl
theorem blockDispatch (tower : Nat) : Statement (.blockDispatch tower) := of_none rfl
theorem blockRetire (block : Nat) : Statement (.blockRetire block) := of_none rfl
theorem spawnPackTimeout (c : CoreRef) (forming : Nat) : Statement (.spawnPackTimeout c forming) := of_none rfl
theorem spawnAreaRefill (c : CoreRef) : Statement (.spawnAreaRefill c) := of_none rfl
theorem highLatencyPreempt (tower : Nat) : Statement (.highLatencyPreempt tower) := of_none rfl
theorem redispatchRoomPreempt (tower : Nat) : Statement (.redispatchRoomPreempt tower) := of_none rfl
theorem preemptRequest (block : Nat) (reason : PreemptReason) : Statement (.preemptRequest block reason) := of_none rfl
theorem unitStopAck (tower : Nat) (record : Nat) (unit : StopUnit) : Statement (.unitStopAck tower record unit) := of_none rfl
theorem contextSaveDone (tower : Nat) (record : Nat) : Statement (.contextSaveDone tower record) := of_none rfl
theorem coreSelfCheckFail (c : CoreRef) : Statement (.coreSelfCheckFail c) := of_none rfl
theorem queueDoorbell (q : Nat) (wptr : Word) : Statement (.queueDoorbell q wptr) := of_none rfl
theorem queueEnable (q : Nat) : Statement (.queueEnable q) := of_none rfl
theorem queueDisable (q : Nat) : Statement (.queueDisable q) := of_none rfl
theorem faultResponseResume (id : Nat) : Statement (.faultResponseResume id) := of_none rfl
theorem faultResponseDecline (id : Nat) : Statement (.faultResponseDecline id) := of_none rfl
theorem registerWrite (offset : Nat) (size : Nat) (value : DWord) : Statement (.registerWrite offset size value) := of_none rfl
theorem partnoWrite (value : Word) : Statement (.partnoWrite value) := of_none rfl
theorem portenWrite (value : Word) : Statement (.portenWrite value) := of_none rfl
theorem engineControlWrite (c : CoreRef) (value : DWord) : Statement (.engineControlWrite c value) := of_none rfl
theorem quoteNonceWrite (offset : Nat) (size : Nat) (value : DWord) : Statement (.quoteNonceWrite offset size value) := of_none rfl
theorem sweep (p : PacketRef) (descriptor : Nat) : Statement (.sweep p descriptor) := of_none rfl
theorem copy (p : PacketRef) (src : CopyOperand) (dst : CopyOperand) (len : Nat) : Statement (.copy p src dst len) := of_none rfl
theorem wait (p : PacketRef) (signal : Nat) (value : DWord) (timeout : Nat) : Statement (.wait p signal value timeout) := of_none rfl
theorem waitEvaluate (pkt : Nat) : Statement (.waitEvaluate pkt) := of_none rfl
theorem waitTimeout (pkt : Nat) : Statement (.waitTimeout pkt) := of_none rfl
theorem pageRequestResponse (pkt : Nat) (ok : Bool) : Statement (.pageRequestResponse pkt ok) := of_none rfl
theorem signal (p : PacketRef) (signal : Nat) (value : DWord) (add : Bool) : Statement (.signal p signal value add) := of_none rfl
theorem mapRun (p : PacketRef) (tower : Nat) (first : Nat) (count : Nat) (phys : Nat) : Statement (.mapRun p tower first count phys) := of_none rfl
theorem unmapRun (p : PacketRef) (tower : Nat) (first : Nat) (count : Nat) : Statement (.unmapRun p tower first count) := of_none rfl
theorem invalidatePages (p : PacketRef) (va : Nat) (pages : Nat) : Statement (.invalidatePages p va pages) := of_none rfl
theorem packetCompletion (pkt : Nat) : Statement (.packetCompletion pkt) := of_none rfl
theorem msixDelivery (vector : Nat) : Statement (.msixDelivery vector) := of_none rfl
theorem config (p : PacketRef) (market : Nat) (stall : Nat) (forward : Nat) : Statement (.config p market stall forward) := of_none rfl
theorem join (p : PacketRef) (sponsor : Nat) : Statement (.join p sponsor) := of_none rfl
theorem marketLeave (p : PacketRef) (bell : Nat) : Statement (.marketLeave p bell) := of_none rfl
theorem marketPost (p : PacketRef) (ceiling : Nat) : Statement (.marketPost p ceiling) := of_none rfl
theorem sensorRearm (p : PacketRef) (tower : Nat) : Statement (.sensorRearm p tower) := of_none rfl
theorem trimRearm (p : PacketRef) (island : Nat) : Statement (.trimRearm p island) := of_none rfl
theorem plimit (p : PacketRef) (watts : Nat) : Statement (.plimit p watts) := of_none rfl
theorem trimStep (island : Nat) (errors : Nat) : Statement (.trimStep island errors) := of_none rfl
theorem trimHoldExpiry (island : Nat) : Statement (.trimHoldExpiry island) := of_none rfl
theorem budgetInterval (c : CoreRef) : Statement (.budgetInterval c) := of_none rfl
theorem slewWindow (c : CoreRef) : Statement (.slewWindow c) := of_none rfl
theorem flitRetry (port : Nat) (ok : Bool) : Statement (.flitRetry port ok) := of_none rfl
theorem portTrain (port : Nat) (ok : Bool) : Statement (.portTrain port ok) := of_none rfl
theorem functionReady (f : DeviceFunction) : Statement (.functionReady f) := of_none rfl
theorem fatalError (cause : FatalCause) : Statement (.fatalError cause) := of_none rfl
theorem mmaRowFetch (w : WarpRef) (op : Nat) : Statement (.mmaRowFetch w op) := of_none rfl
theorem badPacket (p : PacketRef) (offset : Nat) : Statement (.badPacket p offset) := of_none rfl
theorem firmwareUpdate (image : Nat) (whole : Bool) : Statement (.firmwareUpdate image whole) := of_none rfl
theorem preemptTimeout : Statement (.preemptTimeout) := of_none rfl
theorem patrolScrub : Statement (.patrolScrub) := of_none rfl
theorem quoteRequest : Statement (.quoteRequest) := of_none rfl
theorem quoteComplete : Statement (.quoteComplete) := of_none rfl
theorem nopPacket : Statement (.nopPacket) := of_none rfl
theorem post : Statement (.post) := of_none rfl
theorem notice : Statement (.notice) := of_none rfl
theorem late : Statement (.late) := of_none rfl
theorem heartbeat : Statement (.heartbeat) := of_none rfl
theorem joinReq : Statement (.joinReq) := of_none rfl
theorem snapshot : Statement (.snapshot) := of_none rfl
theorem joinAnn : Statement (.joinAnn) := of_none rfl
theorem leave : Statement (.leave) := of_none rfl
theorem heartbeatTimer : Statement (.heartbeatTimer) := of_none rfl
theorem joinTimeout : Statement (.joinTimeout) := of_none rfl
theorem bell : Statement (.bell) := of_none rfl
theorem timePulse : Statement (.timePulse) := of_none rfl
theorem timeWord : Statement (.timeWord) := of_none rfl
theorem pulseMissed : Statement (.pulseMissed) := of_none rfl
theorem holdoverTimeout : Statement (.holdoverTimeout) := of_none rfl
theorem powerSample : Statement (.powerSample) := of_none rfl
theorem sensorSample : Statement (.sensorSample) := of_none rfl
theorem reset : Statement (.reset) := of_none rfl
theorem functionLevelReset : Statement (.functionLevelReset) := of_none rfl
theorem illegalInstr : Statement (.illegalInstr) := of_none rfl
theorem illegalClause : Statement (.illegalClause) := of_none rfl
theorem peerAccess : Statement (.peerAccess) := of_none rfl
theorem discardedPost : Statement (.discardedPost) := of_none rfl

end Sys2Proof.Laws.ViewInverse
end

