-- ==== Sys2Proof/Tests/Slice0.lean ====
section
/-! SUPPORT. The model's own tests: ill-formed terms refused, words decoded, single steps with results worked by hand from the
spec, and for the statements states that meet their hypotheses. A group of checks is a list of (what, does it hold). -/

namespace Sys2Proof.Tests

open Sys2Proof Sys2Proof.Machine Sys2Proof.Claims

set_option Elab.async false

/-! ## Small states -/

/-- Code at 0x100000. -/
def codeMem (ws : List Word) : Memory :=
  ((ws.flatMap fun w => natToBytes 4 w.toNat).zipIdx).foldl (fun m x => Memory.store m (0x100000 + x.2) x.1) []

/-- Block 1 of one warp on core 0 of tower 0, whose slot A issues, with changes to the warp, the block and the rest. -/
def mk (ws : List Word) (fw : Warp → Warp := id) (fb : Block → Block := id) (fs : Sys → Sys := id) : State :=
  let b := placedBlock 1 false
  let b := fb { b with warps := b.warps.map fw }
  let e : TlbEntry := { asid := 0, window := false, base := 0x100000, size := 0x1000, pa := 0x100000 }
  let y : Sys := { blocks := [b], cursor := some ({block := 1, rank := 0}, .A), words := 1, fresh := 10, device := { devReady := 0x3FFFFFFF } }
  { phys := { mem := codeMem ws }, sys := fs (y.setCore ⟨0,0⟩ fun k => { k with tlb := [e] }) }

/-- The outcome is this next state. -/
def same (x : Host.Outcome State Fault Refusal) (t : State) : Bool := match x with | .next u => u == t | _ => false

/-- Two outcomes are one next state. -/
def sameo (x y : Host.Outcome State Fault Refusal) : Bool := match x, y with | .next u, .next t => u == t | _, _ => false

/-- The context of the issuing slot. -/
def ctx (s : State) : Ctx := s.sys.issuing.getD { ref := ⟨0,0⟩, z := .A, b := placedBlock 0 false, w := { rank := 0 } }

/-- Fields by name. -/
def F (form : Form := .w64) (d a b c : Nat := 0) (imm : Bool := false) (sub md : Nat := 0) (g : Guard := .all) (lit : Nat := 0) : Fields :=
  { form := form, d := BitVec.ofNat 8 d, a := BitVec.ofNat 8 a, b := BitVec.ofNat 8 b, c := BitVec.ofNat 8 c, imm := imm, x := false,
    guard := g, rnd := .rn, sat := false, sub := BitVec.ofNat 4 sub, mod := BitVec.ofNat 6 md, lit := BitVec.ofNat 32 lit }

/-- A clause header of one instruction. -/
def H : Word := 0x007FC003

/-- The next state of an outcome. -/
def resOf (x : Host.Outcome State Fault Refusal) : State := match x with | .next u => u | _ => {}

/-- The warp of block 1 after an outcome. -/
def wof (x : Host.Outcome State Fault Refusal) : Warp := ((resOf x).sys.warp ⟨1,0⟩).getD { rank := 99 }

/-- Memory with a number stored, little-endian. -/
def setMem (m : Memory) (a n v : Nat) : Memory := ((natToBytes n v).zipIdx).foldl (fun m x => Memory.store m (a + x.2) x.1) m
/-- The context table at 0x10000, its root at 0x20000: addresses below 2^34 map to themselves. The window table of tower 0 is at
0x40000: its pages 0 to 3 are frames 77 to 80. -/
def vMem : Memory :=
  let m := setMem [] 0x10000 32 (1 + 0x20000 + 2^64 + 2^76 * 0x40)
  let m := setMem m 0x20000 8 (1 + 0x30000)
  let m := setMem m 0x30000 8 (1 + 2 + 4 + 8)
  (List.range 4).foldl (fun m i => setMem m (0x40000 + 8 * i) 8 (1 + 2 * (77 + i))) m
/-- DEV.READY with every unit up. -/
def ready : DWord := 0x3FFFFFFF
/-- A packet of queue 2. -/
def pr (q : Nat := 2) : PacketRef := { queue := q, index := 0, tag := 5, barrier := false, acq := 0, rel := 0 }
/-- A device with address space 0 and the queues as at reset. -/
def sV (m : Memory → Memory := id) (f : Sys → Sys := id) : State := { phys := { mem := m vMem }, sys := f { device := { globals := 0x10000, devReady := ready }, queues := List.replicate 32 Queue.reset, fresh := 10 } }
/-- A SWEEP descriptor of one stage. -/
def descr (nodes : Nat := 1) : Nat := 0x80000 + nodes * 2^64 + 0x81000 * 2^128 + 0x400 * 2^192 + 4 * 2^224 + 2 * 2^688 + 2^693
/-- The record of a root node. -/
def rootRec : Nat := 0xFFFFFF + 3 * 2^64 + 2 * 2^72

/-- Does the statements' premise `Issues` hold? -/
def issues (m : Mnem) (f : Fields) (s : State) : Bool :=
  s.sys.issuing.any fun c => (c.waits m f (c.active f.guard)).isNone && (c.registerFault m f (c.active f.guard)).isNone

/-- `exec`, for an instruction of an encoding only where it issues: a check through it also shows that the premise holds. -/
def run (i : Instr) (s : State) : Host.Outcome State Fault Refusal :=
  if i.view.all (fun x => issues x.1 x.2 s) then exec i s else .fault .noSlot

/-- The instruction started an operation with this body and everything else stands as after an issue. -/
def started (o : Host.Outcome State Fault Refusal) (s : State) (c : Ctx) (m : Mnem) (acq : Bool) (body : OpBody) : Bool :=
  let t := resOf o
  let x : Op := { id := s.sys.fresh, slot := c.z, flag := flagOf m c, path := m.path, body := body, acq := if acq then some c.slot.mask else none }
  let next := fun (z : PcSlot) => { z with pc := nextPc s c, left := z.left - 1, resume := none, hold := .none, issued := z.issued + 1, serialOp := if z.serial then some s.sys.fresh else none }
  t.phys == s.phys && t.sys.warp c.ref == some (Warp.setSlot { c.w with ops := c.w.ops ++ [x] } c.z next)

/-- A warp whose m1 is 5, three words before the end of its clause, with eight lanes in slot A and set 2. -/
def wm (w : Warp) : Warp := { w with m := w.m.put 1 5, slotA := { w.slotA with left := 3, mask := 0xFF, setA := 2 } }

/-- Every check holds. -/
def ok (xs : List (String × Bool)) : Bool := xs.all fun x => x.2

/-! ## Well-formed instructions (R70) -/

/-- Each check refuses a term that breaks it and nothing else. -/
theorem test_ill_formed_refused :
    (Instr.nop { F .w32 with c := 1 }).wellFormed = false ∧
    Mnem.sadd.illegal { F with x := true } = some .modifierBit ∧
    Mnem.sadd.illegal (F (d := 64)) = some .operand ∧ Mnem.vadd.illegal (F (d := 1) (md := 6)) = some .operand ∧
    Mnem.mand.illegal (F (d := 0)) = some .operand ∧ Mnem.smad.illegal (F .w32) = some .operand ∧
    Mnem.sadd.illegal (F (g := .set 1)) = some .mask ∧ Mnem.sadd.illegal { F with rnd := .rz } = some .rounding ∧
    Mnem.sand.illegal { F with sat := true } = some .rounding ∧ Mnem.fadd.illegal { F with rnd := .sr } = some .rounding ∧
    Mnem.sadd.illegal (F (sub := 1)) = some .subOperation ∧ Mnem.vcmp.illegal (F (d := 1) (sub := 6)) = some .subOperation ∧
    Mnem.sadd.illegal (F (md := 2)) = some .modifiers ∧ Mnem.ldb.illegal (F (b := 4) (imm := true) (md := 7)) = some .modifiers ∧
    Mnem.waitf.illegal (F .w96 (imm := true) (lit := 0x1000)) = some .operand ∧
    Mnem.shflXor.illegal (F (b := 0) (imm := true)) = some .operand ∧ Mnem.srd.illegal (F (a := 0) (b := 63) (imm := true)) = some .operand ∧
    (Instr.sadd (F (d := 1) (a := 2) (b := 3))).wellFormed = true := by decide +kernel

/-- Words that are no instruction, by name (R47, R50, R61, R69). -/
theorem test_bad_words :
    decodeWords 0 0 0 = .error .reservedOpcode ∧ decodeWords 0xFFFFFFFF 0 0 = .error .headerReserved ∧
    decodeWords 0x000050C2 0 0x150 = .error .literalForm ∧ decodeBytes [0x81, 0, 0, 0] = .error .truncated ∧ decodeBytes [] = .error .truncated ∧
    decodeTableWord 32 0 = none := by decide +kernel

/-! ## Decoding by family

Each row is a word as the spec's encoding table gives it, its length in bits, and its instruction. Where the table of opcodes gives
no word, the word is built from R48, R49 and R69: 01 | OP ≪ 2 | D ≪ 10 | A ≪ 16 | B ≪ 22 | I ≪ 30 | X ≪ 31, then C ≪ 6 | SUB ≪ 22 | MOD ≪ 26. -/

/-- Every row decodes to its instruction. -/
def decodes (xs : List (Nat × Nat × Mnem)) : Bool := xs.all fun x => ((decodeTableWord x.1 x.2.1).bind Instr.view).map Prod.fst == some x.2.2

/-- The control family. -/
theorem test_decode_control : decodes
   [(32, 0x4, .nop), (32, 0x40000008, .bra), (32, 0x4000000C, .brc), (32, 0x40000010, .brx), (32, 0x40000014, .call),
    (32, 0x18, .ret), (32, 0x4000001C, .prepj), (32, 0x40000020, .prepl), (32, 0x24, .recv), (32, 0x28, .brk),
    (32, 0x4000002C, .cont), (32, 0x30, .exit), (32, 0x40000034, .trap), (32, 0x38, .rtt), (32, 0x80000038, .rttSkip),
    (32, 0x3C, .bkpt), (32, 0x40, .yield), (32, 0x40000044, .srd), (32, 0x48000C48, .swr), (32, 0x4C, .regacq),
    (32, 0x40000050, .waitf)] = true := by decide +kernel

/-- The scalar family. -/
theorem test_decode_scalar : decodes
   [(32, 0x80, .sadd), (32, 0x84, .ssub), (32, 0x88, .smul), (32, 0x8C, .smulh), (64, 0x10000C20491, .smad), (32, 0x94, .sand),
    (32, 0x98, .sor), (32, 0x9C, .sxor), (32, 0xA0, .snot), (32, 0xA4, .sshl), (32, 0xA8, .sshr), (32, 0x800000A8, .ssar),
    (32, 0xAC, .smin), (32, 0xB0, .smax), (32, 0xB4, .scmp), (64, 0x10000C204B9, .ssel), (32, 0xBC, .smov),
    (32, 0x400000C0, .sli), (32, 0xC00000C0, .sliHi), (32, 0xC4, .spopc), (32, 0xC8, .sclz), (32, 0xCC, .sctz)] = true := by decide +kernel

/-- The vector family. -/
theorem test_decode_vector : decodes
   [(32, 0xD0, .vadd), (32, 0xD4, .vsub), (32, 0xD8, .vmul), (32, 0xDC, .vmulh), (64, 0x10000C204E1, .vmad), (32, 0xE4, .vmin),
    (32, 0xE8, .vmax), (32, 0xEC, .vabs), (32, 0xF0, .vneg), (32, 0xF4, .vand), (32, 0xF8, .vor), (32, 0xFC, .vxor),
    (32, 0x100, .vnot), (32, 0x104, .vshl), (32, 0x108, .vshr), (32, 0x80000108, .vsar), (32, 0x10C, .vrot),
    (64, 0x40010000C20511, .vfun), (32, 0x114, .vpopc), (32, 0x118, .vclz), (32, 0x11C, .vctz), (32, 0x120, .vbrev),
    (32, 0xC20524, .vcmp), (64, 0x10000C20529, .vsel), (32, 0x12C, .vmov), (32, 0x40000130, .vli), (32, 0x134, .vbcst),
    (32, 0x138, .vextr), (32, 0x13C, .icvt)] = true := by decide +kernel

/-- The bits family. -/
theorem test_decode_bits : decodes
   [(64, 0x1800000001840941, .bmm8), (32, 0x144, .pdep), (32, 0x148, .pext), (32, 0x4000014C, .ldperm),
    (64, 0x1C00000000040951, .bperm), (32, 0x154, .bfx), (64, 0x10000C20559, .bfi), (32, 0xC2055C, .mand), (32, 0xC20560, .mor),
    (32, 0xC20564, .mxor), (32, 0x20568, .mnot), (32, 0x2056C, .mmov), (32, 0x170, .mcnt), (32, 0x174, .mfirst),
    (32, 0x178, .mtos), (32, 0x2057C, .stom)] = true := by decide +kernel

/-- The lanes family. -/
theorem test_decode_lanes : decodes
   [(32, 0x180, .shflIdx), (32, 0x41020584, .shflXor), (32, 0x41020588, .shflUp), (32, 0x4102058C, .shflDn), (32, 0x190, .redl),
    (32, 0x194, .scanl), (32, 0x198, .vote), (32, 0x19C, .laneid), (32, 0x1A0, .crngLo), (32, 0x800001A0, .crngHi)] = true := by decide +kernel

/-- The float family. -/
theorem test_decode_float : decodes
   [(32, 0x200, .fadd), (32, 0x204, .fsub), (32, 0x208, .fmul), (64, 0x10000C2060D, .ffma), (32, 0x210, .fmin),
    (32, 0x214, .fmax), (32, 0xC20618, .fcmp), (32, 0x21C, .fclass), (32, 0x220, .frnd), (64, 0x400000000020625, .fcvt),
    (32, 0x228, .icvtf), (32, 0x22C, .fcvti), (32, 0x230, .fscl), (64, 0x400000000C20635, .pfadd),
    (64, 0x800000000C20639, .pfmul), (64, 0x400010000C2063D, .pffma), (64, 0x6000010000C20641, .fdot4), (32, 0x260, .rcp),
    (32, 0x264, .rsq), (32, 0x268, .sqrt), (32, 0x26C, .exp2), (32, 0x270, .log2), (32, 0x274, .sin), (32, 0x278, .cos),
    (32, 0x80000260, .rcpT), (32, 0x80000264, .rsqT), (32, 0x80000268, .sqrtT), (32, 0x8000026C, .exp2T),
    (32, 0x80000270, .log2T), (32, 0x80000274, .sinT), (32, 0x80000278, .cosT)] = true := by decide +kernel

/-- The memory family. -/
theorem test_decode_memory : decodes
   [(32, 0x400002C0, .ldb), (32, 0x400002C4, .stb), (32, 0x400002C8, .ldt), (32, 0x400002CC, .stt), (32, 0x400002D0, .ldl),
    (32, 0x400002D4, .stl), (32, 0x2D8, .atom), (64, 0x10000C206DD, .atomc), (32, 0x2E0, .atomf), (32, 0x2E4, .afaddo),
    (64, 0x10000C206E9, .accopen), (32, 0x2EC, .fence), (32, 0x2F0, .barset), (32, 0x2F4, .bararr), (32, 0x2F8, .bwait),
    (32, 0x2FC, .bsync), (32, 0x300, .waitc)] = true := by decide +kernel

/-- The matrix family. -/
theorem test_decode_matrix : decodes
   [(32, 0x340, .kick), (64, 0x10000C20745, .mma), (64, 0x10080C20745, .mmaByp), (64, 0x10000C20749, .mmas),
    (64, 0x10080C20749, .mmasByp), (32, 0x34C, .mzero), (32, 0x350, .mdrain), (32, 0x354, .mbyp), (32, 0x358, .mrd),
    (32, 0x35C, .mwr), (32, 0x360, .mcertr)] = true := by decide +kernel

/-- The sweep family. -/
theorem test_decode_sweep : decodes
   [(32, 0x380, .ninfo), (32, 0x384, .chdr), (32, 0x388, .take), (64, 0x10000C2038D, .spawn), (32, 0x390, .spwait),
    (32, 0x394, .tighten), (32, 0x398, .cert), (64, 0x10080C20799, .certRel), (32, 0x39C, .tolsplIn),
    (64, 0x4000000002079D, .tolsplOwn), (32, 0x3A0, .toladdLog), (64, 0x40000000C207A1, .toladdOff), (32, 0x3A4, .fpick),
    (32, 0x800003A4, .fpickCvt), (32, 0x3A8, .tolsetDem), (64, 0x400000000207A9, .tolsetCert), (64, 0x800000000207A9, .tolsetVal),
    (64, 0xC00000414207A9, .tolsetFld)] = true := by decide +kernel

/-! ## Results worked by hand from the tables of R120 to R145

s1 = 5, s2 = 2^64 − 1, s3 = 2^63, s4 = 64, s5 = 0xF0, s6 = 336, s7 = 0.5 in FP32; m1 = 1, m2 = 3; lanes 0 and 1 are active. A check is
the instruction, its destination, and what lanes 0 and 1 of it hold after. -/

/-- Elements of lanes 0 and 1. -/
def handV : List (Nat × Nat × Nat) :=
  [(0, 0xFFFFFFFF, 5), (2, 3, 0x80000000), (4, 4, 0), (8, 0x3F800000, 0x3F800000), (10, 0x40400000, 0x40400000), (11, 0x7F800001, 0x40200000),
   (12, 0xB5, 0xB5), (13, 0xF0F, 0xF0F), (14, 260, 260), (16, 0x12345678, 0), (17, 0x9ABCDEF0, 0), (18, 0x08040201, 0), (19, 0x80402010, 0),
   (24, 0x3C003C00, 0x3C003C00), (25, 0x3F803F80, 0x3F803F80), (26, 0x38383838, 0x38383838), (27, 0x40000000, 0)]

/-- The state of these checks. -/
def S : State := mk [] fun w =>
  let w := ([5, 0xFFFFFFFFFFFFFFFF, 0x8000000000000000, 64, 0xF0, 336, 0x3F000000] : List DWord).zipIdx.foldl (fun (w : Warp) x => w.setScalar (x.2 + 1) x.1) w
  let w := handV.foldl (fun (w : Warp) x => (w.setElem x.1 0 (BitVec.ofNat 32 x.2.1)).setElem x.1 1 (BitVec.ofNat 32 x.2.2)) w
  { w with m := (w.m.put 1 1).put 2 3, slotA := { w.slotA with left := 3, mask := 3 } }

/-- s9 after the instruction. -/
def sv (i : Instr) (x : DWord) : Bool := (wof (run i S)).scalar 9 == x
/-- m3 after the instruction. -/
def mv (i : Instr) (x : LaneMask) : Bool := (wof (run i S)).m.get 3 == x
/-- v20 after the instruction. -/
def vv (i : Instr) (x y : Word) : Bool := (wof (run i S)).elem 20 0 == x && (wof (run i S)).elem 20 1 == y
/-- FLAGS after the instruction. -/
def fv (i : Instr) (x : BitVec 5) : Bool := (wof (run i S)).flags == x
/-- Fields that write s9. -/
def sF (a b : Nat) (c : Nat := 0) (imm : Bool := false) (sub md : Nat := 0) : Fields := F (d := 9) (a := a) (b := b) (c := c) (imm := imm) (sub := sub) (md := md)
/-- Fields that write v20. -/
def vF (a b : Nat) (c : Nat := 0) (imm : Bool := false) (sub md : Nat := 0) : Fields := F (d := 20) (a := a) (b := b) (c := c) (imm := imm) (sub := sub) (md := md)
/-- Fields that write m3. -/
def mF (a b : Nat) (sub md : Nat := 0) : Fields := F (d := 3) (a := a) (b := b) (sub := sub) (md := md)
/-- All 64 bits. -/
def ones : DWord := 0xFFFFFFFFFFFFFFFF

/-- Scalar results (R120). -/
theorem test_scalar :
    (sv (.sadd (sF 2 1)) 4 && sv (.ssub (sF 1 2)) 6 && sv (.smul (sF 2 1)) (-5) && sv (.smulh (sF 2 1)) ones && sv (.smulh (sF 2 1 0 false 0 1)) 4 &&
     sv (.smad (sF 1 1 2)) 24 && sv (.sand (sF 2 5)) 0xF0 && sv (.sor (sF 1 5)) 0xF5 && sv (.sxor (sF 1 5)) 0xF5 && sv (.snot (sF 1 0)) (-6) &&
     sv (.sshl (sF 1 4)) 0 && sv (.sshl (sF 1 3 0 true)) 40 && sv (.sshr (sF 3 63 0 true)) 1 && sv (.sshr (sF 3 4)) 0 && sv (.ssar (sF 3 4)) ones &&
     sv (.smin (sF 1 2)) ones && sv (.smin (sF 1 2 0 false 0 1)) 5 && sv (.smax (sF 1 2)) 5 && sv (.scmp (sF 2 1 0 false 2)) 1 && sv (.scmp (sF 2 1 0 false 2 1)) 0 &&
     sv (.ssel (sF 1 5 63)) 0xF0 && sv (.ssel (sF 1 5 2)) 5 && sv (.smov (sF 3 0)) 0x8000000000000000 && sv (.sli (sF 0 0xFF 0 true)) ones &&
     sv (.sliHi (sF 0 1 0 true)) 0x100000000 && sv (.spopc (sF 5 0)) 4 && sv (.sclz (sF 5 0)) 56 && sv (.sctz (sF 5 0)) 4 && sv (.sctz (sF 63 0)) 64 &&
     sv (.sadd { sF 3 3 with sat := true }) 0x8000000000000000 && sv (.ssub { sF 1 2 0 false 0 1 with sat := true }) 0) = true := by decide +kernel

/-- Vector results (R121 to R123). -/
theorem test_vector :
    (vv (.vadd (vF 0 2)) 2 0x80000005 && vv (.vadd (vF 0 0xFF 0 true)) 0xFFFFFFFE 4 && vv (.vsub { vF 2 0 with sat := true }) 4 0x80000000 &&
     vv (.vmul (vF 0 2)) 0xFFFFFFFD 0x80000000 && vv (.vmulh (vF 0 2)) 0xFFFFFFFF 0xFFFFFFFD && vv (.vmulh (vF 0 2 0 false 0 1)) 2 2 &&
     vv (.vmad (vF 0 2 4)) 1 0x80000000 && vv (.vmin (vF 0 2)) 0xFFFFFFFF 0x80000000 && vv (.vmax (vF 0 2 0 false 0 1)) 0xFFFFFFFF 0x80000000 &&
     vv (.vabs (vF 2 0)) 3 0x80000000 && vv (.vabs { vF 2 0 with sat := true }) 3 0x7FFFFFFF && vv (.vneg (vF 4 0)) 0xFFFFFFFC 0 &&
     vv (.vand (vF 0 2)) 3 0 && vv (.vor (vF 4 2)) 7 0x80000000 && vv (.vxor (vF 0 2)) 0xFFFFFFFC 0x80000005 && vv (.vnot (vF 4 0)) 0xFFFFFFFB 0xFFFFFFFF &&
     vv (.vshl (vF 2 4)) 0x30 0x80000000 && vv (.vshl (vF 2 0)) 0 0 && vv (.vshr (vF 2 0)) 0 0x4000000 && vv (.vsar (vF 2 0)) 0 0xFC000000 &&
     vv (.vrot (vF 2 0)) 0x80000001 0x10 && vv (.vfun (vF 0 2 4)) 0xF0000000 0x80000000 && vv (.vfun (vF 0 2 4 false 1)) 0xFFFFFFF0 5) = true := by decide +kernel

/-- More vector results (R121, R123, R128). -/
theorem test_vectorBits :
    (vv (.vpopc (vF 0 0)) 32 2 && vv (.vclz (vF 2 0)) 30 0 && vv (.vctz (vF 4 0)) 2 32 && vv (.vbrev (vF 2 0)) 0xC0000000 1 && mv (.vcmp (mF 0 2 2)) 1 &&
     mv (.vcmp (mF 0 2 2 1)) 2 && vv (.vsel (vF 0 2 1)) 0xFFFFFFFF 0x80000000 && vv (.vmov (vF 2 0)) 3 0x80000000 && vv (.vli (vF 0 0xFF 0 true)) 0xFFFFFFFF 0xFFFFFFFF &&
     vv (.vbcst (vF 5 0)) 0xF0 0xF0 && sv (.vextr (sF 0 0 0 true)) ones && sv (.vextr (sF 0 0 0 true 0 1)) 0xFFFFFFFF && vv (.icvt (vF 0 0 0 false 0 5)) 0xFF 5 &&
     vv (.icvt { vF 0 0 0 false 0 5 with sat := true }) 0 5 && vv (.pdep (vF 12 13)) 0xB05 0xB05 && vv (.pext (vF 12 13)) 5 5 && vv (.bfx (vF 12 14)) 0xFFFFFFFB 0xFFFFFFFB &&
     vv (.bfx (vF 12 14 0 false 0 1)) 0xB 0xB && vv (.bfi (vF 12 14 13)) 0xF5F 0xF5F && vv (.bmm8 (vF 16 18 0 false 0 6)) 0x12345678 0 &&
     vv (.bperm (vF 16 0 0 false 0 6)) 0 0 && mv (.mand (mF 1 2)) 1 && mv (.mor (mF 1 2)) 3 && mv (.mxor (mF 1 2)) 2 && mv (.mnot (mF 1 0)) (ones - 1) && mv (.mmov (mF 0 0)) 3 &&
     sv (.mcnt (sF 2 0)) 2 && sv (.mfirst (sF 2 0)) 0 && sv (.mtos (sF 2 0)) 3 && mv (.stom (mF 5 0)) 0xF0) = true := by decide +kernel

/-- Cross-lane results (R129 to R132). The round of CRNG is the spec's own example. -/
theorem test_lanes :
    (vv (.shflIdx (vF 0 1 0 true)) 5 5 && vv (.shflXor (vF 0 6 0 true)) 5 0xFFFFFFFF && vv (.shflUp (vF 0 6 0 true)) 0xFFFFFFFF 0xFFFFFFFF && vv (.shflDn (vF 0 6 0 true)) 5 0 &&
     vv (.redl (vF 0 0 0 false 3)) 4 4 && vv (.scanl (vF 0 0 0 false 3)) 0xFFFFFFFF 4 && vv (.scanl { vF 0 0 0 false 3 with x := true }) 0 0xFFFFFFFF &&
     sv (.vote (sF 4 0)) 1 && sv (.vote (sF 4 0 0 false 1)) 1 && sv (.vote (sF 4 0 0 false 2)) 0 && sv (.vote (sF 1 0 0 false 3)) 1 && vv (.laneid (vF 0 0)) 0 1 &&
     (CrngState.mk 1 0 0 0 0 0).round == CrngState.mk 0 0 0 0x540DABE9 0x9E3779B9 0xB7E15163) = true := by decide +kernel

/-- Floating-point results (R136 to R143). -/
theorem test_float :
    (vv (.fadd (vF 8 10)) 0x40800000 0x40800000 && vv (.fsub (vF 8 10)) 0xC0000000 0xC0000000 && vv (.fmul (vF 8 10)) 0x40400000 0x40400000 && vv (.ffma (vF 8 10 8)) 0x40800000 0x40800000 &&
     vv (.fmin (vF 8 11)) 0x3F800000 0x3F800000 && fv (.fmin (vF 8 11)) 1 && vv (.fmax (vF 8 11)) 0x3F800000 0x40200000 && vv (.fscl (vF 10 2 0 true)) 0x41400000 0x41400000 &&
     mv (.fcmp (mF 8 11 2)) 2 && mv (.fcmp (mF 8 11 7)) 1 && vv (.fclass (vF 11 0)) 256 64 && vv (.frnd { vF 11 0 with rnd := .rz }) 0x7FC00000 0x40000000 &&
     fv (.frnd { vF 11 0 with rnd := .rz }) 0x11 && vv (.fcvt (vF 8 0 0 false 0 1)) 0x3C00 0x3C00 && vv (.icvtf (vF 0 0)) 0xBF800000 0x40A00000 && vv (.fcvti (vF 10 0)) 3 3 &&
     vv (.pfadd (vF 24 24 0 false 0 1)) 0x40004000 0x40004000 && vv (.pfmul (vF 25 25 0 false 0 2)) 0x3F803F80 0x3F803F80 && vv (.pffma (vF 24 24 24 false 0 1)) 0x40004000 0x40004000 &&
     vv (.fdot4 (vF 26 26 8 false 0 24)) 0x40A00000 0x40A00000) = true := by decide +kernel

/-- v20 and FLAGS after a special function that has completed. -/
def special (i : Instr) (x y : Word) (f : BitVec 5) : Bool :=
  let w := wof (exec (.sfuCompletion ⟨1,0⟩ 10) (resOf (run i S)))
  w.elem 20 0 == x && w.elem 20 1 == y && w.flags == f && w.ops == []

/-- Special functions at their exact cases and special operands (R145): 2 and +0, 1 and 1. -/
theorem test_special :
    (special (.rcp (vF 27 0)) 0x3F000000 0x7F800000 2 && special (.rsq (vF 8 0)) 0x3F800000 0x3F800000 0 && special (.sqrt (vF 8 0)) 0x3F800000 0x3F800000 0 &&
     special (.exp2 (vF 27 0)) 0x40800000 0x3F800000 0 && special (.log2 (vF 27 0)) 0x3F800000 0xFF800000 2 && special (.rcpT (vF 27 0)) 0x3F000000 0x7F800000 2) = true := by decide +kernel

/-- Tolerance words (R210): demands, certificates, values and fields. -/
theorem test_toleranceWords :
    (sv (.tolsetDem (sF 7 0)) 16 && sv (.tolsetCert (sF 7 0 0 false 1)) 16 && sv (.tolsetVal (sF 6 0 0 false 2)) 0x35000000 && sv (.tolsetFld (sF 6 13 0 true 3)) 0x3550) = true := by decide +kernel

/-! ## The premise of the statements about an encoded instruction -/

/-- Fields whose registers are in the bays, with m0 as the mask. -/
def someFields : Fields := F (d := 6) (a := 2) (b := 4) (c := 4)

/-- Every encoded instruction issues in the state of the hand checks. -/
theorem test_issues : ∀ m ∈ Mnem.all, Issues m someFields S (ctx S) := by
  unfold Issues
  decide +kernel

/-! ## The statements' results on states that meet their premises

Each group evaluates what the statements say of its instructions in states that meet their premises; `run` shows `Issues` for an
encoded instruction. Expected results are written from the rules named. -/

namespace G4

def ws : List Word := [0,0,0,0,H,0,0,H,H]
def fI (n : Nat) (g : Guard := .all) (d a : Nat := 0) := F (form := .w64) (d := d) (a := a) (b := n) (imm := true) (g := g)
def E1 : LaneMask := 0x5
def base := Pc.ofAddr 0x100000

/-- A warp whose slot has gone on in its clause. -/
def stepped (s : State) (c : Ctx) (w : Warp) : Warp :=
  w.setSlot c.z fun z => { z with pc := nextPc s c, left := z.left - 1, resume := none, hold := .none }

/-- Branches taken, split and refused. From R101, R103. -/
def branches : List (String × Bool) := Id.run do
  let s := mk ws wm
  let c := ctx s
  let t := branchTarget c (fI 4)
  let n := nextPc s c
  let r := fun w => movedOn s c w
  let sB := mk ws (fun w => { wm w with slotB := { valid := true, pc := base, mask := 0xFF00 }, rs := [.join base 0xFFFF, .pend base 0x30000, .join base 0x2, .pend base 0x70000] })
  let cB := ctx sB
  let fg := fI 4 (.set 1)
  let fz := fI 4 (.set 2)
  let rest := c.slot.mask &&& (E1 ^^^ BitVec.allOnes 64)
  let sr := mk ws (fun w => (wm w).setScalar 5 (4 * (base.plus 7).setWidth 64))
  let cr := ctx sr
  return [("bra", same (run (.bra (fI 4)) s) (r (atHeader c.w c.z t c.slot.mask))),
   ("braBad", sameo (run (.bra (fI 5)) s) (raised s c { cause := .illegalTarget, resume := c.slot.mask, addr := 4 * (branchTarget c (fI 5)).toNat })),
   ("call", same (run (.call (fI 4 .all 7)) s) (r ((atHeader c.w c.z t c.slot.mask).setScalar 7 (4 * n.setWidth 64)))),
   ("ret", same (run (.ret (fI 0 .all 0 5)) sr) (movedOn sr cr (atHeader cr.w cr.z (base.plus 7) cr.slot.mask))),
   ("brc0", same (run (.brc fz) s) (r (atHeader c.w c.z n c.slot.mask))),
   ("brcU", same (run (.brc (fI 4)) s) (r (atHeader c.w c.z t c.slot.mask))),
   ("brcS", same (run (.brc fg) s) (r (atHeader (startsAt c.w .B t E1) c.z n rest))),
   ("brcP", same (run (.brc fg) sB) (movedOn sB cB (atHeader { cB.w with rs := [.join base 0xFFFF, .pend base 0x30000] ++ [.join base 0x2, .pend base 0x70000] } cB.z n rest)) == false),
   ("brcP2", same (run (.brc fg) sB) (movedOn sB cB (atHeader { cB.w with rs := [.join base 0xFFFF] ++ [.pend t E1] ++ [.pend base 0x30000, .join base 0x2, .pend base 0x70000] } cB.z n rest)))]

/-- The checks of `branches` hold. -/
theorem test_branches : branches.all (fun x => x.2) = true := by decide +kernel

def wx : List Word := [0,0,0,0,2,3,4,H,H]
/-- BRX: lanes that differ, lanes that agree, an index outside the table. From R102. -/
def branchTables : List (String × Bool) := Id.run do
  let s := mk wx (fun w => ([(0,0),(2,1)] : List (Nat×Nat)).foldl (fun w x => w.setElem 3 x.1 (BitVec.ofNat 32 x.2)) { wm w with slotA := { w.slotA with mask := 0x5 } })
  let c := ctx s
  let f := fI 4 .all 0 3
  let t := branchTarget c f
  let s2 := mk wx (fun w => ([(0,5),(2,1)] : List (Nat×Nat)).foldl (fun w x => w.setElem 3 x.1 (BitVec.ofNat 32 x.2)) { wm w with slotA := { w.slotA with mask := 0x5 } })
  let c2 := ctx s2
  return [("brx", same (run (.brx f) s) (movedOn s c (startsAt (atHeader c.w c.z (t + 3) 1) (otherSlot c.z) (t + 4) 4))),
    ("brx1", same (run (.brx { f with guard := .set 4 }) s) (movedOn s c (atHeader c.w c.z (nextPc s c) c.slot.mask))),
    ("brxbad", sameo (run (.brx f) s2) (raised s2 c2 { cause := .brxRange, resume := 5, addr := 4 * t.toNat }))]

/-- The checks of `branchTables` hold. -/
theorem test_branchTables : branchTables.all (fun x => x.2) = true := by decide +kernel

/-- The reconvergence stack: PREPJ, PREPL, RECV, BRK, CONT, EXIT. From R98, R99, R104 to R107. -/
def stackAndLoops : List (String × Bool) := Id.run do
  let s := mk ws wm
  let c := ctx s
  let t := branchTarget c (fI 4)
  let n := nextPc s c
  let full := List.replicate 130 (RsEntry.pend base 1)
  let sF := mk ws (fun w => { wm w with rs := full })
  let cF := ctx sF
  let sJ := mk ws (fun w => { wm w with rs := [.join base 0xFFFF, .pend 5 0x30000], slotB := { valid := true, pc := base, mask := 0xF00 } })
  let cJ := ctx sJ
  let sJ2 := mk ws (fun w => { wm w with rs := [.join base 0xFFFF, .pend 5 0x30000] })
  let cJ2 := ctx sJ2
  let sJ3 := mk ws (fun w => { wm w with rs := [.join base 0xF, .pend 5 0x30000] })
  let cJ3 := ctx sJ3
  let sL := mk ws (fun w => { wm w with rs := [.loop 77 0xFFFF, .join 5 0xFF] })
  let cL := ctx sL
  let sL2 := mk ws (fun w => { wm w with rs := [.loop 77 0xFFFF, .join 5 0xFF], slotB := { valid := true, pc := base, mask := 0xF00 } })
  let cL2 := ctx sL2
  let fg := fI 4 (.set 1)
  let fz := fI 4 (.set 2)
  let rest : LaneMask := 0xFA
  let lj := fun (c : Ctx) (e : LaneMask) => leftJoins c e [] [.join 5 0xFF] 77 0xFFFF
  return [("prepj", same (run (.prepj (fI 4)) s) (movedOn s c (stepped s c { c.w with rs := c.w.rs ++ [.join t c.slot.mask] }))),
    ("prepl", same (run (.prepl (fI 4)) s) (movedOn s c (stepped s c { c.w with rs := c.w.rs ++ [.loop t c.slot.mask] }))),
    ("prepF", sameo (run (.prepl (fI 4)) sF) (raised sF cF { cause := .rsOverflow, resume := 0xFF })),
    ("prepT", sameo (run (.prepl (fI 5)) sF) (raised sF cF { cause := .illegalTarget, resume := 0xFF, addr := 4 * (branchTarget c (fI 5)).toNat })),
    ("recvN", same (run (.recv (fI 0)) s) (leftFor s c (atHeader c.w c.z n 0xFF))),
    ("recvH", same (run (.recv (fI 0)) sJ) (leftFor sJ cJ (freed cJ.w .A).settle)),
    ("recvL", same (run (.recv (fI 0)) sJ2) (leftFor sJ2 cJ2 (atHeader { cJ2.w with rs := [.pend 5 0x30000] } .A n 0xFFFF))),
    ("recvM", sameo (run (.recv (fI 0)) sJ3) (raised sJ3 cJ3 { cause := .rsMismatch, resume := 0xFF })),
    ("brkR", same (run (.brk fg) sL) (leftFor sL cL (atHeader (lj cL 5) .A n rest).settle)),
    ("brkE", same (run (.brk (fI 0)) sL) (leftFor sL cL (atHeader { lj cL 0xFF with rs := [.join 5 0] } .A 77 0xFFFF).settle)),
    ("brkH", same (run (.brk (fI 0)) sL2) (leftFor sL2 cL2 (freed (lj cL2 0xFF) .A).settle)),
    ("brkX", sameo (run (.brk (fI 0)) s) (raised s c { cause := .rsMismatch, resume := 0xFF })),
    ("contX", sameo (run (.cont (fI 4)) s) (raised s c { cause := .rsMismatch, resume := 0xFF })),
    ("cont0", same (run (.cont fz) sL) (leftFor sL cL (atHeader (lj cL 0) .A n 0xFF).settle)),
    ("contU", same (run (.cont (fI 4)) sL) (leftFor sL cL (atHeader (lj cL 0xFF) .A t 0xFF).settle)),
    ("contS", same (run (.cont fg) sL) (leftFor sL cL (atHeader (startsAt (lj cL 5) .B t 5) .A n rest).settle)),
    ("exitR", same (run (.exit fg) sL) (leftFor sL cL (atHeader { cL.w with rs := cL.w.rs.map fun x => x.drop 5 } .A n rest).settle)),
    ("exitE", same (run (.exit (fI 0)) sL) (leftFor sL cL (freed { cL.w with rs := cL.w.rs.map fun x => x.drop 0xFF } .A).settle))]

/-- The checks of `stackAndLoops` hold. -/
theorem test_stackAndLoops : stackAndLoops.all (fun x => x.2) = true := by decide +kernel

/-- Traps raised and entered, TRAP, BKPT, illegal words, RTT, NOP and YIELD. From R108 to R111. -/
def traps : List (String × Bool) := Id.run do
  let tv := base.plus 4
  let wt := fun w => { wm w with tvec := tv }
  let s := mk ws wt
  let c := ctx s
  let i : TrapInfo := { cause := .misaligned, resume := 5, addr := 77 }
  let op : Op := { id := 3, slot := .A, flag := none, path := none, body := .kick }
  let sO := mk ws (fun w => { wt w with ops := [op] })
  let cO := ctx sO
  let sP := mk ws (fun w => let v := wt w; { v with slotA := { v.slotA with trap := some i } })
  let cP := ctx sP
  let sPO := mk ws (fun w => let v := wt w; { v with slotA := { v.slotA with trap := some i }, ops := [op] })
  let sN := mk ws (fun w => { wm w with tvec := base })
  let cN := ctx sN
  let sX := mk ws (fun w => { wt w with rs := List.replicate 131 (RsEntry.pend base 1) })
  let cX := ctx sX
  let pend := fun (s : State) (c : Ctx) => { s with sys := s.sys.setWarp c.ref fun w => w.setSlot c.z fun y => { y with trap := some i, hold := .none } }
  let sL0 := mk ws (fun w => let v := wt w; { v with slotA := { v.slotA with left := 0, ch := 0 } })
  let cL0 := ctx sL0
  let sR := mk ws (fun w => let v := wt w; { v with rs := [.join 5 7, .trap 0xFF (base.plus 2) 5 9 3 2] })
  let cR := ctx sR
  let back := fun (pc2 : Pc) (n : Nat) (r : Option LaneMask) => moved sR cR (Warp.setSlot { cR.w with rs := [.join 5 7] } .A fun z => { z with pc := pc2, left := n, resume := r, ch := base, issued := 0, setA := 15, setB := 15, serial := true, hold := .none, serialOp := none })
  return [("raise", sameo (raised s c i) (.next (trapped (noted s c i.cause) c i))),
    ("raiseO", sameo (raised sO cO i) (.next (pend (noted sO cO i.cause) cO))),
    ("raiseN", sameo (raised sN cN i) (work (pend (noted sN cN i.cause) cN) fun _ t => t.abortBlock cN.b.id .illegalTarget cN.w.rank cN.slot.pc.addr i.addr cN.slot.mask)),
    ("raiseX", sameo (raised sX cX i) (work (pend (noted sX cX i.cause) cX) fun _ t => t.abortBlock cX.b.id .rsOverflow cX.w.rank cX.slot.pc.addr i.addr cX.slot.mask)),
    ("te", same (run (.trapEntry cP.ref .A) sP) (trapped sP cP i)),
    ("teO", same (run (.trapEntry cP.ref .A) sPO) sPO),
    ("trap", same (run (.trap (fI 9)) s) (trapped s c { cause := .softTrap, resume := 0, addr := 9 })),
    ("bkpt", same (run (.bkpt (fI 9)) s) (trapped s c { cause := .breakpoint, resume := 0 })),
    ("ill", same (exec .illegalInstr s) (trapped (noted s c .illegalInstr) c { cause := .illegalInstr, resume := 0xFF })),
    ("illc", same (exec .illegalClause s) (trapped (noted s c .illegalClause) c { cause := .illegalClause, resume := 0xFF })),
    ("illc0", same (exec .illegalClause sL0) (trapped (noted sL0 cL0 .illegalClause) { cL0 with w := cL0.w.setSlot cL0.z fun z => { z with ch := z.pc } } { cause := .illegalClause, resume := 0xFF })),
    ("rtt", same (run (.rtt (fI 0)) sR) (back (base.plus 2) 4 (some 5))),
    ("rtts", same (run (.rttSkip (fI 0)) sR) (back (base.plus 3) 3 none)),
    ("rttX", sameo (run (.rtt (fI 0)) s) (raised s c { cause := .rsMismatch, resume := 0xFF })),
    ("nop", same (run (.nop (fI 0)) s) (after s c c.w)),
    ("yield", let t := resOf (run (.yield (fI 0)) s); t.phys == s.phys && t.sys.warp ⟨1,0⟩ == (moved s c (atHeader c.w c.z (nextPc s c) 0xFF)).sys.warp ⟨1,0⟩ && (t.sys.core ⟨0,0⟩).issuePtr.getD 0 0 == 1)]

/-- The checks of `traps` hold. -/
theorem test_traps : traps.all (fun x => x.2) = true := by decide +kernel

end G4

namespace G5

/-- Clause headers that start a clause, wait, or are illegal. From R60, R61, R63. -/
def clauseStart : List (String × Bool) := Id.run do
  let allw := (List.range 4096).map fun i => BitVec.ofNat 32 (i * 4)
  let p := (allw.find? fun w => !(wordIsVariable w) && !(wordEndsClause w)).getD 0
  let v := (allw.find? fun w => (wordIsVariable w)).getD 0
  let e := (allw.find? fun w => (wordEndsClause w)).getD 0
  let h : HeaderFields := { (match decodeHeader H with | .ok h => h | .error _ => { len := 0, setA := 0, setB := 0, wait := 0 }) with len := 3 }
  let st := fun (ws : List Word) => mk (H :: ws) (fun w => { w with slotA := { w.slotA with left := 0 } })
  let en := fun (s : State) => let c := ctx s; moved s c (c.w.setSlot c.z fun z => { z with pc := z.pc + 1, ch := z.pc, left := h.len.toNat, issued := 0, setA := h.setA, setB := h.setB, serial := false, serialOp := none, resume := none, hold := .none })
  let s1 := st [p, v, e]; let s2 := st [p, e, p]; let s3 := st [v,v,v]; let s4 := st [p,v,v]; let s5 := st [p,H,p]
  let hb := { h with setA := 3, setB := 3 }
  let sw := mk [H,p,p,p] (fun w => { w with slotA := { w.slotA with left := 0 }, ops := [{ id := 1, slot := .B, flag := some 4, path := none, body := .kick }] })
  let hw := { h with wait := 16 }
  return [("found", p != v && v != e),
    ("ok", same (run (.clauseHeader h) s1) (en s1)),
    ("ok4", same (run (.clauseHeader h) s4) (en s4)),
    ("end", sameo (run (.clauseHeader h) s2) (exec .illegalClause s2)),
    ("var", sameo (run (.clauseHeader h) s3) (exec .illegalClause s3)),
    ("hdr", sameo (run (.clauseHeader h) s5) (exec .illegalClause s5)),
    ("set", sameo (run (.clauseHeader hb) s1) (exec .illegalClause s1)),
    ("wait", same (run (.clauseHeader hw) sw) (waiting sw (ctx sw) .waitFlags)),
    ("nowait", same (run (.clauseHeader h) sw) (en sw))]

/-- The checks of `clauseStart` hold. -/
theorem test_clauseStart : clauseStart.all (fun x => x.2) = true := by decide +kernel

/-- Each status register read, and each writable one written. From R20, R21, R114. -/
def statusRegisters : List (Nat × Bool) := Id.run do
  let s := mk [] (fun w => { (wm w).setScalar 7 0xFEDCBA9876543210 with flags := 5, ftz := true, tol := 0x1234, fmask := 77, fcause := 9, faddr := 0x123456789, tvec := 0x3FFFFFFFFFFFF, rpr := 9, mcert := 88, rngkey := 99, rs := [.join 0 1, .trap 0 0 0 0 0 0] })
    (fun b => { b with node := 5, parent := 6, nchild := 3, depth := 2, stage := 4, sweep := 2^33 + 7, effect := true })
    (fun y => { y with time := { y.time with state := .locked, count := 4444 } })
  let c := ctx s
  let x := c.w.scalar 7
  let rd : List (Nat × DWord) := [(0x000, 64), (0x001, BitVec.ofNat 64 c.w.slice), (0x002, BitVec.ofNat 64 c.b.core), (0x003, BitVec.ofNat 64 c.b.tower),
        (0x004, BitVec.ofNat 64 c.w.rank), (0x005, BitVec.ofNat 64 c.b.warps.length), (0x010, c.b.node.setWidth 64),
        (0x011, c.b.parent.setWidth 64), (0x012, BitVec.ofNat 64 c.b.nchild), (0x013, c.b.depth.setWidth 64),
        (0x014, BitVec.ofNat 64 c.b.stage), (0x015, (BitVec.ofNat 32 c.b.sweep).setWidth 64), (0x016, c.w.tol.setWidth 64),
        (0x017, if c.b.effect then 1 else 0), (0x020, (c.w.flags.setWidth 64) ||| (if c.w.ftz then 0x100 else 0)), (0x021, c.w.fmask),
        (0x022, c.w.fcause.setWidth 64), (0x023, c.w.faddr.setWidth 64), (0x024, 4 * c.w.tvec.setWidth 64), (0x025, BitVec.ofNat 64 c.w.rsp),
        (0x026, BitVec.ofNat 64 c.w.usc), (0x027, c.w.rpr.setWidth 64), (0x030, c.w.mcert.setWidth 64), (0x031, c.w.rngkey),
        (0x040, (s.sys.tower c.b.tower).clock), (0x041, if s.sys.time.state = .unset then 0 else BitVec.ofNat 64 s.sys.time.count)]
  let wr := fun (x : DWord) => [(0x016, { c.w with tol := (x.setWidth 14).setWidth 16 }), (0x020, { c.w with flags := x.setWidth 5, ftz := x.getLsbD 8 }),
        (0x021, { c.w with fmask := x }), (0x022, { c.w with fcause := x.setWidth 8 }), (0x023, { c.w with faddr := x.setWidth 52 }),
        (0x024, { c.w with tvec := x.extractLsb' 2 50 }), (0x027, { c.w with rpr := if 64 < x.toNat then 64 else x.setWidth 8 }),
        (0x031, { c.w with rngkey := x })]
  let g := fun (n : Nat) => { F (a := n / 64) (b := n % 64) (imm := true) (d := 7) with form := .w64 }
  return (rd.map fun y => (y.1, same (run (.srd (g y.1)) s) (after s c (c.w.setScalar 7 y.2)))) ++ ((wr x).map fun y => (y.1, same (run (.swr (g y.1)) s) (after s c y.2)))

/-- The checks of `statusRegisters` hold. -/
theorem test_statusRegisters : statusRegisters.all (fun x => x.2) = true := by decide +kernel

/-- REGACQ when already granted, when it waits, and its grant. From R19, R113. -/
def acquire : List (String × Bool) := Id.run do
  let s := mk [] wm
  let s2 := mk [] (fun w => { wm w with tileCtl := [], bays := [0,1] }) (fun b => { b with granted := false, units := [], hdr := { b.hdr with proRegs := 64, fullRegs := 128, acc := 4 } })
  let t := resOf (run (.regacq (F)) s2)
  let u := resOf (run (.regacqGrant 1) t)
  let b := (u.sys.block 1).getD (placedBlock 1 false)
  let v := wof (run (.regacqGrant 1) t)
  let b0 := (t.sys.block 1).getD (placedBlock 1 false)
  return [("now", same (run (.regacq (F)) s) { s with sys := s.sys.completedOp (ctx s) id }),
    ("req", (wof (run (.regacq F) s2)).slotA.hold == .regacq),
    ("possible", grantPossible t.sys b0),
   ("g", b.granted && !b.regRequest && b.units == List.range 64 && v.bays == [0,1,2,3] && v.tileCtl == List.replicate 4 {} && v.ops == [] && v.slotA == { (ctx s2).slot with pc := (ctx s2).slot.pc + 1, left := 2, issued := 1 })]

/-- The checks of `acquire` hold. -/
theorem test_acquire : acquire.all (fun x => x.2) = true := by decide +kernel

/-- Loads and stores start with their addresses, or trap. From R149 to R153. -/
def accesses : List (String × Bool) := Id.run do
  let s := mk [] (fun w => let w := (wm w).setScalar 4 0x100; ([0,2,3,5].foldl (fun w l => ((w.setElem 2 l (BitVec.ofNat 32 (16*l))).setElem 3 l 0x11223344).setElem 6 l (BitVec.ofNat 32 (16 * l + 1))) w)) (fun b => { b with drawer := 0x40, drawerSize := 64, asid := 3 })
     (fun y => y.setCore ⟨0,0⟩ fun k => { k with tlb := { asid := 3, window := true, base := 0, size := 1, pa := 5 } :: k.tlb })
  let c := ctx s
  let fl := { F (d := 8) (a := 2) (b := 8) (imm := true) (g := .set 1) with form := .w96, lit := 8, mod := 1 }
  let fw := { fl with lit := 0x10000 }
  let fo := { fl with lit := 7 }
  let fs := { fl with d := 2 }
  let lanes := [0,2]
  let ft := { F (d := 8) (a := 4) (imm := true) (g := .set 1) with form := .w96, lit := 0, mod := 1 }
  let tgt := fun l => scratchpadBase 0 0 + 5 * 65536 + 0x100 + l * accessSize ft
  let ok := lanes.map fun l => (l, 16 * l + 8)
  let okp := lanes.map fun l => (l, 512 * l + (16 * l + 8))
  let okt := lanes.map fun l => (l, tgt l)
  let o := (fl.orderCode % 2 == 1)
  let e4 := run (.stt { ft with d := 3 }) s
  return [("acc", accessSize fl == 4),
    ("ldb", started (run (.ldb fl) s) s c .ldb o (accessBody false c fl .bsm ok [])),
    ("stb", started (run (.stb fs) s) s c .stb o (accessBody true c fs .bsm ok [])),
    ("ldl", started (run (.ldl fl) s) s c .ldl o (accessBody false c fl .priv okp [])),
    ("stl", started (run (.stl fs) s) s c .stl o (accessBody true c fs .priv okp [])),
    ("ldt", started (run (.ldt ft) s) s c .ldt o (accessBody false c ft .tsp okt [0])),
    ("stt", started e4 s c .stt o (accessBody true c {ft with d := 3} .tsp okt [0])),
    ("eff", ((resOf e4).sys.block 1).map Block.effect == some true),
    ("e0", same (run (.ldb { fl with guard := .set 2 }) s) { s with sys := s.sys.completedOp c id }),
    ("fault", sameo (run (.ldb { fl with a := 6 , lit := 7}) s) (let f := { fl with a := 6, lit := 7 }; raised { s with sys := s.sys.addOp c .ldb (flagOf .ldb c) (f.orderCode % 2 == 1) (accessBody false c f .bsm [(0,8),(2,40)] []) } c { cause := .bsmRange, resume := 0, addr := 0 }) == false),
    ("faultF", sameo (run (.ldb fw) s) (raised s c { cause := .bsmRange, resume := 5, addr := 0x40000 }) == false),
    ("faultO", sameo (run (.ldb fo) s) (raised s c { cause := .misaligned, resume := 5, addr := 7 })),
    ("ldperm", started (run (.ldperm { F (a := 4) (b := 8) (imm := true) with form := .w64 }) s) s c .ldperm false (.loadPerm 0))]

/-- The checks of `accesses` hold. -/
theorem test_accesses : accesses.all (fun x => x.2) = true := by decide +kernel

/-- An access of which one lane faults, and completions of loads and stores. From R152, R154, R156. -/
def accessesComplete : List (String × Bool) := Id.run do
  let s := mk [] (fun w => let w := (wm w).setScalar 4 0x100; [(0,8),(2,6)].foldl (fun (w : Warp) (x : Nat × Nat) => w.setElem 2 x.1 (BitVec.ofNat 32 x.2)) w) id id
  let c := ctx s
  let fl := { F (d := 8) (a := 2) (imm := true) (g := .set 1) with form := .w96, lit := 0, mod := 1 }
  let s2 := mk [] (fun w => let w := (wm w).setScalar 4 0x100; [(0,8),(2,0x40000)].foldl (fun (w : Warp) (x : Nat × Nat) => w.setElem 2 x.1 (BitVec.ofNat 32 x.2)) w) id id
  let c2 := ctx s2
  let ad := fun (s : State) (c : Ctx) => { s with sys := s.sys.addOp c .ldb (flagOf .ldb c) (fl.orderCode % 2 == 1) (accessBody false c fl .bsm [(0,8)] []) }
  let byte := fun (m : Sparse 8) (a : Nat) (x : Nat) => m.put a (BitVec.ofNat 8 x)
  let bs : Sparse 8 := (List.range 64).foldl (fun m i => byte m i (i + 0x80)) []
  let ld := fun (z : LoadSize) => mk [] (fun w => { wm w with ops := [{ id := 4, slot := .A, flag := some 2, path := some .ldb, body := .load .bsm z 3 [(0,8),(2,16)] [] }] }) (fun b => { b with bsm := bs, bsmPoison := [16] })
  let cmp := fun (z : LoadSize) => wof (run (.loadStoreCompletion ⟨1,0⟩ 4 .clean) (ld z))
  let st := mk [] (fun w => { wm w with ops := [{ id := 4, slot := .A, flag := some 2, path := some .ldb, body := .store .bsm 4 [(0,8,0x11223344),(2,10,0x55667788)] [] }] }) (fun b => { b with bsm := bs })
  let tb := ((resOf (run (.storeBufferEntryPerformed ⟨1,0⟩ 4) st)).sys.block 1).getD (placedBlock 1 false)
  let sp := mk [] (fun w => { wm w with ops := [{ id := 4, slot := .A, flag := some 2, path := some .ldb, body := .store .tsp 4 [(0,0x2000000000C,0x11223344)] [] }] })
  let tp := (resOf (run (.storeBufferEntryPerformed ⟨1,0⟩ 4) sp)).phys
  let sv := mk [] (fun w => { wm w with ops := [{ id := 4, slot := .A, flag := some 2, path := some .ldl, body := .store .priv 2 [(0,0xC,0x11223344)] [] }] })
  let vv := wof (run (.loadStoreCompletion ⟨1,0⟩ 4 .clean) sv)
  return [("mis", sameo (run (.ldb fl) s) (raised (ad s c) c { cause := .misaligned, resume := 4, addr := 6 })),
    ("rng", sameo (run (.ldb fl) s2) (raised (ad s2 c2) c2 { cause := .bsmRange, resume := 4, addr := 0x40000 })),
    ("word", (cmp .word).elem 3 0 == 0x8b8a8988 && (cmp .word).elemPoisoned 3 2 && (cmp .word).ops == []),
    ("i8", (cmp .i8).elem 3 0 == 0xFFFFFF88),
    ("i16", (cmp .i16).elem 3 0 == 0xFFFF8988),
    ("pair", (cmp .pair).pair 3 0 == 0x8f8e8d8c8b8a8988 && (cmp .pair).elemPoisoned 4 2),
    ("st", (List.range 64).all fun a => tb.bsm.get a == storedByte 4 [(0,8,0x11223344),(2,10,0x55667788)] a (bs.get a)),
    ("stt", (List.range 64).all fun a => tp.byte (0x20000000000 + a) == storedByte 4 [(0,0x2000000000C,0x11223344)] (0x20000000000 + a) 0),
    ("stl", (List.range 64).all fun a => vv.priv.get a == storedByte 2 [(0,0xC,0x11223344)] a 0)]

/-- The checks of `accessesComplete` hold. -/
theorem test_accessesComplete : accessesComplete.all (fun x => x.2) = true := by decide +kernel

end G5

namespace G6

/-- Atomic operations start, are performed, and follow the stores that they overlap. From R161, R162, R289. -/
def atomics : List (String × Bool) := Id.run do
  let v0 := fun (w : Warp) => let w := (wm w).setScalar 4 0x100; [(0,8),(2,16)].foldl (fun (w : Warp) (x : Nat × Nat) => ((w.setElem 2 x.1 (BitVec.ofNat 32 x.2)).setElem 3 x.1 0x80000001).setElem 5 x.1 9) w
  let s := mk [] v0
  let c := ctx s
  let so := mk [] (fun w => { v0 w with ops := [{ id := 3, slot := .A, flag := none, path := some .ldb, body := .store .bsm 1 [(0,19,1)] [] }] })
  let co := ctx so
  let f := { F (d := 8) (a := 2) (b := 3) (c := 5) (g := .set 1) with mod := 0, sub := 4 }
  let fi := { f with imm := true, b := 0xFF }
  let lane := fun (b cc : DWord) => [0,2].map fun l => ({ lane := l, addr := if l == 0 then 8 else 16, b := b, c := cc } : AtomicLane)
  let o := f.orderCode % 2 == 1
  let e := run (.atom f) s
  let ff := { f with sub := 1 }
  let bs : Sparse 8 := (List.range 64).foldl (fun m i => m.put i (BitVec.ofNat 8 (i + 0x80))) []
  let all : List AtomicOp := [.add,.and,.or,.xor,.min,.max,.minu,.maxu,.exch,.inc,.dec,.cas]
  let ps := fun (op : AtomicOp) (b c : Word) => mk [] (fun w => { wm w with ops := [{ id := 4, slot := .A, flag := some 2, path := some .atom, body := .atomic op .bsm false 3 [{ lane := 5, addr := 8, b := b.setWidth 64, c := c.setWidth 64 }] [] }] }) (fun b => { b with bsm := bs })
  let chk := fun (op : AtomicOp) (b c : Word) => 
    let s := ps op b c
    let w := (ctx s).w; let b0 := (ctx s).b
    let u := run (.atomicEngineAccept ⟨0,0⟩) s
    let b' := ((resOf u).sys.block 1).getD b0
    wof u == ({ w with ops := [], clearing := [2] }.setElem 3 5 (bsmWord b0 8)).orFlags 0 && bsmWord b' 8 == newWord op (bsmWord b0 8) b c && (List.range 64).all fun a => (8 ≤ a && a < 12) || b'.bsm.get a == b0.bsm.get a
  let hot := fun (new : NatSet) => mk [] id id fun y => (y.setCore ⟨0,1⟩ fun k => { k with hotLines := [1,77,3], newLines := new }).setTower 0 fun t => { t with lineRequests := [(77,3), (77,4)] }
  return [("atom", started e s c .atom o (.atomic .min .bsm false 8 (lane 0x80000001 0) [])),
    ("eff", ((resOf e).sys.block 1).map Block.effect == some true),
    ("atomi", started (run (.atom fi) s) s c .atom o (.atomic .min .bsm false 8 (lane 0xFFFFFFFF 0) [])),
   ("atomc", started (run (.atomc f) s) s c .atomc o (.atomic .cas .bsm false 8 (lane 0x80000001 9) [])),
    ("atomf", started (run (.atomf ff) s) s c .atomf o (.atomic .fmin .bsm false 8 (lane 0x80000001 0) [])),
   ("hold", same (run (.atom f) so) (waiting so co .overlappingStore)),
    ("perf", all.all fun op => chk op 0x90919293 4 && chk op 0x8B8A8988 77 && chk op 0x10203040 0xFFFFFFFF && chk op 0 0),
   ("pend", (List.range 8).all fun n => ((ps .add 0 0).sys.pendingAtomic ⟨0,0⟩ n).isSome == (n == 0)),
   ("hot", let t := resOf (run (.hotLineTransfer ⟨0,3⟩ 77) (hot [])); (t.sys.core ⟨0,3⟩).hotLines == [77] && (t.sys.core ⟨0,1⟩).hotLines == [1,3] && (t.sys.tower 0).lineRequests == [(77,4)]),
   ("hotNew", same (run (.hotLineTransfer ⟨0,3⟩ 77) (hot [77])) (hot [77])),
   ("hotTurn", same (run (.hotLineTransfer ⟨0,4⟩ 77) (hot [])) (hot []))]

/-- The checks of `atomics` hold. -/
theorem test_atomics : atomics.all (fun x => x.2) = true := by decide +kernel

/-- Accumulation slots, barriers, fences and waits. From R160, R163 to R168, R170. -/
def synchronisation : List (String × Bool) := Id.run do
  let v0 := fun (w : Warp) => let w := ((wm w).setScalar 4 0x100).setScalar 5 4000; w.setElem 2 0 77
  let win := fun (k : Core) => { k with tlb := { asid := 0, window := true, base := 0, size := 1, pa := 5 } :: k.tlb }
  let sl : AccSlot := { number := 3, addr := 0x200, asid := 0, count := 100, block := 1, barrier := 2 }
  let s := mk [] v0 id fun y => y.setCore ⟨0,0⟩ win
  let s3 := mk [] v0 id fun y => y.setCore ⟨0,0⟩ fun k => { win k with accSlots := [sl] }
  let c := ctx s; let c3 := ctx s3
  let f := F (d := 3) (a := 4) (b := 5) (c := 7)
  let fa := F (d := 3) (a := 2) (g := .set 1)
  let t := resOf (run (.accopen f) s)
  let ta := run (.afaddo fa) s3
  let s4 := mk [] (fun w => { v0 w with ops := [{ id := 4, slot := .A, flag := some 2, path := some .atom, body := .contribute 3 [(0,77),(2,0)] }] }) id fun y => y.setCore ⟨0,0⟩ fun k => { win k with accSlots := [sl] }
  let t4 := resOf (run (.atomicEngineAccept ⟨0,0⟩) s4)
  let con := fun (n l : Nat) (v : Word) => ({ node := n, stage := 0, rank := 0, lane := l, value := v } : Contribution)
  let s5 := mk [] v0 id fun y => y.setCore ⟨0,0⟩ fun k => { win k with accSlots := [{ sl with count := 2, values := [con 3 1 0x3F800000, con 2 1 0x40000000] }] }
  let t5 := resOf (run (.accSlotSumDone ⟨0,0⟩ 3) s5)
  let pa := scratchpadBase 0 0 + 5*65536 + 0x200
  let fb := F (d := 2) (a := 4) (b := 5)
  let sb := mk [] v0 (fun b => { b with barriers := (List.range 10).map fun i => { count := BitVec.ofNat 32 (i * 3000) } })
  let cb := ctx sb
  let bb := fun o => ((resOf o).sys.block 1).getD (placedBlock 1 false)
  let op : Op := { id := 4, slot := .B, flag := none, path := some .ldb, body := .loadPerm 0 }
  let so := mk [] (fun w => { v0 w with ops := [op] })
  let co := ctx so
  let su := mk [] v0 (fun b => { b with barriers := (List.range 10).map fun i => { count := 0, under := i == 2 } })
  let cu := ctx su
  let f1 := F (imm := true) (b := 1)
  let f0 := F (imm := true) (b := 0)
  return [("open", (t.sys.core ⟨0,0⟩).accSlots == [{ number := 3, addr := 0x100, asid := 0, count := 4000, block := 1, barrier := 7 }] && t.sys.warp ⟨1,0⟩ == ({ s with sys := s.sys.completedOp c id } : State).sys.warp ⟨1,0⟩),
    ("openbad", sameo (run (.accopen f) s3) (raised s3 c3 { cause := .accSlot, resume := c3.slot.mask, addr := 3 })),
    ("openwait", same (run (.accopen { f with d := 4 }) s3) (waiting s3 c3 .accRoom)),
    ("af", started ta s3 c3 .afaddo false (.contribute 3 [(0,77),(2,0)]) && ((resOf ta).sys.core ⟨0,0⟩).accSlots == [{ sl with received := 2 }] && ((resOf ta).sys.block 1).map Block.effect == some true),
    ("afbad", sameo (run (.afaddo fa) s) (raised s c { cause := .accSlot, resume := 5, addr := 3 })),
    ("contr", (t4.sys.core ⟨0,0⟩).accSlots == [{ sl with values := [{ con 0xFFFFFF 0 77 with stage := 0 }, con 0xFFFFFF 2 0] }] && (t4.sys.warp ⟨1,0⟩).map Warp.ops == some []),
    ("sum", t5.phys.num pa 4 == (slotSum [con 3 1 0x3F800000, con 2 1 0x40000000]).toNat && t5.phys.num pa 4 == 0x40400000 && (t5.sys.core ⟨0,0⟩).accSlots == [] && ((t5.sys.block 1).map fun b => b.barrier 2) == some (({} : Barrier).arrive 1)),
    ("barset", let b := bb (run (.barset fb) sb); (List.range 10).all (fun k => b.barrier k == if k == 2 then { count := 4000 } else cb.b.barrier k) && b.warp 0 == (after sb cb cb.w).sys.warp ⟨1,0⟩),
    ("bararr", let b := bb (run (.bararr { fb with d := 2 }) sb); let b1 := bb (run (.bararr { fb with d := 1 }) sb); b.barrier 2 == { count := 2000 } && b1.barrier 1 == { count := 0, under := true } && ((b.warp 0).map fun w => w.slotA) == some { cb.slot with pc := nextPc sb cb, left := cb.slot.left - 1 }),
    ("bararrW", (wof (run (.bararr fb) so)) == (Warp.setSlot { co.w with ops := co.w.ops ++ [{ id := so.sys.fresh, slot := .A, flag := none, path := none, body := .arrive 2 4000 }] } .A fun z => { z with pc := nextPc so co, left := z.left - 1 })),
    ("fence", same (run (.fence fb) s) (after s c c.w)),
    ("fenceW", same (run (.fence fb) so) (waiting so co .fence)),
    ("waitc", same (run (.waitc f1) so) (after so co co.w)),
    ("waitcW", same (run (.waitc f0) so) (waiting so co .waitc)),
    ("bwait", same (run (.bwait {fb with d := 3}) su) (after su cu cu.w)),
    ("bwaitW", same (run (.bwait fb) sb) (waiting sb cb .bwait)),
    ("bwaitU", sameo (run (.bwait fb) su) (raised su cu { cause := .barUnderflow, resume := 0xFF, addr := 2 })),
    ("perm", slotSum [con 3 1 0x3F800000, con 2 1 0x40000000, con 2 0 0x33800000] == slotSum [con 2 0 0x33800000, con 3 1 0x3F800000, con 2 1 0x40000000]),
    ("empty", slotSum [] == 0x80000000)]

/-- The checks of `synchronisation` hold. -/
theorem test_synchronisation : synchronisation.all (fun x => x.2) = true := by decide +kernel

/-- BSYNC with one warp and with two. From R169. -/
def blockSync : List (String × Bool) := Id.run do
  let s := mk [0,0] wm
  let c := ctx s
  let b' := ((resOf (run (.bsync F) s)).sys.block 1).getD (placedBlock 1 false)
  let s2 := mk [0,0] wm (fun b => { b with warps := b.warps ++ [{ (b.warps.headD { rank := 0 }) with rank := 1 }] })
  let b2 := ((resOf (run (.bsync F) s2)).sys.block 1).getD (placedBlock 1 false)
  return [("one", b'.generation == 1 && (b'.warp 0).map (fun w => w.slotA) == some { c.slot with pc := c.slot.pc + 1, left := c.slot.left - 1 } && (b'.warp 0).map (fun w => w.arrived) == some false),
    ("two", b2.generation == 0 && (b2.warp 0).map (fun w => w.slotA) == some { c.slot with hold := .bsync })]

/-- The checks of `blockSync` hold. -/
theorem test_blockSync : blockSync.all (fun x => x.2) = true := by decide +kernel

end G6

namespace G7

def op (id : Nat) (body : OpBody) (path : Option Path := none) : Op := { id := id, slot := .A, flag := some 2, path := path, body := body }
/-- Tile accesses start and complete. From R186, R195, R196. -/
def tiles : List (String × Bool) := Id.run do
  let s := mk [] (fun w => (wm w).setElem 2 0 77)
  let c := ctx s
  let f := F (d := 3) (a := 2) (b := 5) (g := .set 1) (imm := true)
  let fz := { f with guard := .set 3 }
  let sc := { s with sys := s.sys.completedOp c id }
  let tl : Sparse 32 := [(4096*2 + 5, 9), (4096*3+0, 1), (4096*3+64*2+5, 2), (4096*3+64*3+5, 3)]
  let ct : List TileControl := (List.range 8).map fun i => { tc := BitVec.ofNat 16 (i * 100), bypf := 1 }
  let st := fun (b : OpBody) => mk [] (fun w => { wm w with tiles := tl, tilePoison := [4096*3+64*2+5], tileCtl := ct, ops := [op 4 b] })
  let v := fun b => wof (run (.tileOpCompletion ⟨1,0⟩ 4) (st b))
  let keys := (List.range 4).flatMap fun t => (List.range 6).flatMap fun r => (List.range 8).map fun c => 4096*t+64*r+c
  let vz := v (.tileZero 3 0x5)
  let vw := v (.tileWrite 3 5 [(0, 0xAA), (2, 0xBB)])
  let vr := v (.tileRead 7 3 5 0xD)
  let vc := v (.tileCert 9 3)
  let w0 := (ctx (st (.tileCert 9 3))).w
  let vb := v (.tileBypass 3 2 .rn false 0xD)
  return [("mz", started (run (.mzero f) s) s c .mzero false (.tileZero 3 5)),
    ("mrd", started (run (.mrd f) s) s c .mrd false (.tileRead 3 2 5 5)),
    ("mwr", started (run (.mwr f) s) s c .mwr false (.tileWrite 3 5 [(0,77),(2,0)])),
    ("mcertr", started (run (.mcertr f) s) s c .mcertr false (.tileCert 3 2)),
    ("e0", same (run (.mzero fz) s) sc && same (run (.mcertr fz) s) sc && same (run (.mbyp fz) s) sc),
    ("zero", keys.all (fun k => vz.tiles.get k == if k / 4096 = 3 ∧ (5 : LaneMask).getLsbD (k / 64 % 64) = true then 0 else tl.get k) && vz.tileCtl.getD 3 {} == { bypf := 7, tc := 300 } && vz.tileCtl.getD 2 {} == { tc := 200, bypf := 1 }),
    ("write", vw.tiles.get (4096*3+5) == 0xAA && vw.tiles.get (4096*3+64*2+5) == 0xBB && vw.tilePoison == [] && vw.tiles.get (4096*3) == 1 && vw.tileCtl.getD 3 {} == { bypf := 7, tc := 0 }),
    ("read", vr.elem 7 0 == 0 && vr.elemPoisoned 7 2 && vr.elem 7 3 == 3 && vr.tiles == tl),
    ("cert", vc.scalar 9 == 300),
    ("byp", keys.all (fun k => vb.tiles.get k == if k / 4096 = 3 ∧ (0xD : LaneMask).getLsbD (k / 64 % 64) = true ∧ NatSet.has w0.tilePoison k = false then (bypassElement 2 .rn false (tl.get k)).1 else tl.get k) && vb.tileCtl.getD 3 {} == { bypf := 2, tc := BitVec.ofNat 16 (logAdd 300 (convBound 2 .rn)) })]

/-- The checks of `tiles` hold. -/
theorem test_tiles : tiles.all (fun x => x.2) = true := by decide +kernel

def one : Nat := 0x3F800000
def putw (m : Sparse 8) (a x : Nat) : Sparse 8 := (natToBytes 4 x).zipIdx.foldl (fun m y => m.put (a + y.2) y.1) m
/-- A matrix multiply: issue, the slew wait, the rows fetched. From R189, R193, R291, R295. -/
def matrix : List (String × Bool) := Id.run do
  let fb0 := 0
  let bs : Sparse 8 := ((List.range 16).foldl (fun m i => putw m (0x2000 + 256*i + 4) one) (putw (putw [] 0 one) 4 0x40000000))
  let bs := putw (putw bs 0x400 fb0) 0x404 0
  let desc := fun (a st : Nat) => BitVec.ofNat 64 (a + st * 2^32)
  let s := mk [0,0] (fun w => (((wm w).setScalar 1 (desc 0 64)).setScalar 2 (desc 0x2000 256)).setScalar 3 0x400) (fun b => { b with bsm := bs })
  let c := ctx s
  let f := F (d := 2) (a := 1) (b := 2) (c := 3) (g := .set 1)
  let raw := (loadView s.phys c.b c.w c.w.ops .bsm 0x400 32).1
  let x := FormatBlock.parse raw
  let kd := x.kd false
  let k : MmaWork := { sparse := false, byp := false, tile := 2, aTile := 1, aDesc := desc 0 64, bDesc := desc 0x2000 256, fbAddr := 0x400, fb := raw, kd := kd, fmtA := x.afmt, fmtB := x.bfmt, bound := mmaBound x.afmt x.bfmt kd, ftz := false, active := 5, start := 0 }
  let t := resOf (run (.mma f) s)
  let want := Warp.setSlot { c.w with ops := c.w.ops ++ [{ id := s.sys.fresh, slot := c.z, flag := flagOf .mma c, path := some .mma, body := .mma k }] } c.z fun z => { z with hold := .rowFetch, serialOp := if z.serial then some s.sys.fresh else none }
  let slew := mk [0,0] (fun w => (((wm w).setScalar 1 (desc 0 64)).setScalar 2 (desc 0x2000 256)).setScalar 3 0x400) (fun b => { b with bsm := bs }) fun y => y.setCore ⟨0,0⟩ fun k => { k with mstep := 1, mmaNow := 1 }
  let t1 := resOf (run (.mmaRowFetch ⟨1,0⟩ 10) t)
  let t2 := resOf (run (.mmaRowFetch ⟨1,0⟩ 10) t1)
  let t3 := resOf (run (.mmaRowFetch ⟨1,0⟩ 10) t2)
  let w := fun (t : State) => (t.sys.warp ⟨1,0⟩).getD { rank := 9 }
  let kk := fun (t : State) => match ((w t).op 10).map Op.body with | some (.mma k) => k | _ => k
  return [("fits", x.fits false false 7 && k.misaligned.isNone && (k.outside c.b).isNone),
    ("issue", t.sys.warp ⟨1,0⟩ == some want && (t.sys.core ⟨0,0⟩).mmaNow == 1),
    ("slew", same (run (.mma f) slew) (waiting slew (ctx slew) .slew)),
   ("B", (kk t1).bRows.isSome && (kk t1).aRows.length == 0 && (w t1).slotA.hold == .rowFetch),
    ("A0", (kk t2).aRows.map Prod.fst == [0]),
    ("A2", (kk t3).fetched && (w t3).slotA == { (ctx s).slot with pc := (ctx s).slot.pc + 1, left := 2, issued := 1 })]

/-- The checks of `matrix` hold. -/
theorem test_matrix : matrix.all (fun x => x.2) = true := by decide +kernel

/-- A FILL card from KICK to its arrival. From R174 to R182, R284, R285. -/
def cards : List (String × Bool) := Id.run do
  let card : Nat := 7 + 2 * 2^4 + 0 * 2^8 + 1 * 2^11 + 5 * 2^32 + 0x200 * 2^128 + 0xAB * 2^224
  let shape : Nat := 10 * 2^64
  let bs0 : Sparse 8 := ((natToBytes 64 card) ++ (natToBytes 64 shape)).zipIdx.foldl (fun m y => m.put (0x100 + y.2) y.1) []
  let s := mk [] (fun w => (wm w).setScalar 4 0x100) (fun b => { b with bsm := bs0 })
  let c := ctx s
  let f := F (a := 4)
  let t := resOf (run (.kick f) s)
  let ch := readChain c false f.scopeCode 16 0x100
  let ok := match ch with | .ok cs => cs.length == 1 && cs.all (fun x => x.addr == 0x100 && x.card == card && x.shape == shape) | .error _ => false
  let k := (t.sys.core ⟨0,0⟩).kick
  let t1 := resOf (run (.cardEnterChecker ⟨0,0⟩) t)
  let t2 := resOf (run (.cardStart ⟨0,0⟩) t1)
  let cid := (((t1.sys.core ⟨0,0⟩).cards.head?).map Card.id).getD 0
  let t3 := resOf (run (.cardChunk ⟨0,0⟩ cid .ok) t2)
  let t4 := resOf (run (.cardComplete ⟨0,0⟩ cid) t3)
  let b := fun (t : State) => (t.sys.block 1).getD c.b
  let bsf := mk [] (fun w => (wm w).setScalar 4 0x101) (fun b => { b with bsm := bs0 })
  return [("chain", ok),
    ("kick", k.isSome && (k.map fun q => q.cards.map Card.addr) == some [0x100]),
    ("enter", (t1.sys.core ⟨0,0⟩).kick.isNone && (t1.sys.core ⟨0,0⟩).cards.length == 1 && ((t1.sys.warp ⟨1,0⟩).map Warp.ops) == some []),
    ("start", ((t2.sys.core ⟨0,0⟩).cards.map Card.state) == [.running]),
    ("chunk", (List.range 1024).all (fun a => (b t3).bsm.get a == if 0x200 ≤ a ∧ a < 0x20A then 0xAB else bs0.get a) && ((t3.sys.core ⟨0,0⟩).cards.map fun c => (c.written, c.cnibs)) == [(true, 20)]),
    ("done", (t4.sys.core ⟨0,0⟩).cards == [] && (b t4).bsm.get 0x103 == 0 && (b t4).barrier 2 == (c.b.barrier 2).arrive 10),
    ("bad", sameo (run (.kick f) bsf) (raised bsf (ctx bsf) { cause := .misaligned, resume := 0xFF, addr := 0x101 }))]

/-- The checks of `cards` hold. -/
theorem test_cards : cards.all (fun x => x.2) = true := by decide +kernel

end G7

namespace G8

def nd (i : Nat) (share : BitVec 16) (retain : Bool := true) (count : Nat := 0) : Node := { index := i, parent := 0, first := 0, count := count, prog := 0, warps := 1, bsmu := 0, opClass := 0, idemp := false, retain := retain, rel := false, user := 0, share := share }
def sw (runs : List Run) (nodes : List Node) : Sweep := { id := 7, pkt := 1, queue := 0, cls := 1, asid := 0, tower := 0, dir := 0, descriptor := 0, root := 0, nodesN := 3, stages := 1, progs := 0, shelf := 0x1000, cap := 8, drawerSize := 64, bitmap := 0, sparea := 0, splen := 0, pkto := 2048, norst := false, dove := 0, pred := none, table := [], hasTable := false, nodes := nodes, runs := runs, pool := [8], headers := [], headerFault := [], spawnArea := [], items := 0, phase := .running, passed := true }
def sweeps0 := [sw [{ node := 1, stage := 0, drawer := some 3, state := .retired }, { node := 2, stage := 0, drawer := some 4, state := .retired }] [nd 0 0 , nd 1 0x0450, nd 2 0x2450]]
/-- NINFO, CHDR and TAKE on the way up, down and at the root. From R202 to R204. -/
def nodeInformation : List (String × Bool) := Id.run do
  let fb := fun (b : Block) => { b with nchild := 2, first := 1, user := 0x1234567890, share := 0x3FFF, need := 9, rel := true, idemp := true, opClass := 33, prog := 200, sweep := 7, node := 0 }
  let s := mk [] (fun w => ((wm w).setScalar 4 0).setScalar 5 1) fb fun y => { y with sweeps := sweeps0 }
  let sp := mk [] wm (fun b => { fb b with spawn := true })
  let sd := mk [] wm (fun b => { fb b with down := true, parentDrawer := some 0x4440, parent := 2 }) 
  let sroot := mk [] wm (fun b => { fb b with down := true, parent := 0xFFFFFF }) 
  let sdO := mk [] (fun w => { wm w with ops := [{ id := 1, slot := .B, flag := none, path := some .ldb, body := .kick }] }) (fun b => { fb b with down := true, parentDrawer := some 0x4440, parent := 2 }) 
  let c := ctx s
  let n := fun sub i => { F (d := 9) (b := i) (imm := true) (sub := sub) with form := .w64 }
  let r := fun (s : State) (v : DWord) => after s (ctx s) ((ctx s).w.setScalar 9 v)
  let recv := (0#34 ++ BitVec.ofNat 6 c.b.warps.length ++ BitVec.ofNat 8 c.b.prog ++ 0#5 ++ BitVec.ofBool c.b.rel ++ BitVec.ofBool c.b.retain ++ BitVec.ofBool c.b.idemp ++ 0#2 ++ BitVec.ofNat 6 c.b.opClass : DWord)
  let f := n 0 1
  return [("child", same (run (.ninfo (n 0 1)) s) (r s 2)),
    ("range", sameo (exec (.ninfo (n 0 2)) s) (sweepRaised s c .childRange 2)),
    ("user", same (run (.ninfo (n 1 1)) s) (r s 0x1234567890) && same (run (.ninfo (n 1 1)) sp) (r sp 0)),
    ("rec", same (run (.ninfo (n 2 1)) s) (r s recv)),
    ("share", same (run (.ninfo (n 3 1)) s) (r s 0x3FFF)),
    ("need", same (run (.ninfo (n 4 1)) s) (r s 9)),
    ("chdr", same (run (.chdr (n 0 1)) s) (r s (0x1000 + 4*64))),
    ("chdrD", same (run (.chdr (n 0 0)) sd) (r sd 0x4440)),
    ("chdrR", sameo (run (.chdr (n 0 0)) sroot) (sweepRaised sroot (ctx sroot) .childRange 0)),
    ("takeUp", sameo (run (.take f) s) (sweepRaised s c .sweepContext 0)),
    ("takeRoot", same (run (.take f) sroot) { sroot with sys := sroot.sys.completedOp (ctx sroot) id }),
    ("takeW", same (run (.take f) sdO) (waiting sdO (ctx sdO) .release)),
    ("take", wof (run (.take f) sd) == { completed sd (ctx sd) with took := true })]

/-- The checks of `nodeInformation` hold. -/
theorem test_nodeInformation : nodeInformation.all (fun x => x.2) = true := by decide +kernel

/-- SPAWN queues its items and SPWAIT waits for them. From R205, R206. -/
def spawn : List (String × Bool) := Id.run do
  let v0 := fun w => [0,2].foldl (fun (w : Warp) l => ((((w.setElem 2 l (BitVec.ofNat 32 l)).setElem 3 l 7).setElem 4 l 8).setElem 5 l 9)) (wm w)
  let s := mk [] v0 (fun b => { b with sweep := 7, stage := 0 }) fun y => { y with sweeps := sweeps0 }
  let c := ctx s
  let f := { F (a := 2) (b := 33) (c := 4) (imm := true) (g := .set 1) with form := .w64 }
  let t := resOf (run (.spawn f) s)
  let b := (t.sys.block 1).getD c.b
  let k := t.sys.core ⟨0,0⟩
  let sO := mk [] v0 (fun b => { b with spawnOutstanding := 2 })
  return [("spawn", b.effect && b.spawnOutstanding == 2 && b.warp 0 == some (completed s c) && k.queued == 2 && k.forming.map (fun g => g.items.map fun x => (x.prog, x.arg0, x.arg1, x.spawner)) == [[(33, 0x700000000, 0x900000008, 1), (33, 0x700000002, 0x900000008, 1)]]),
    ("spwait", same (run (.spwait f) s) (after s c c.w) && same (run (.spwait f) sO) (waiting sO (ctx sO) .spwait))]

/-- The checks of `spawn` hold. -/
theorem test_spawn : spawn.all (fun x => x.2) = true := by decide +kernel

/-- Tolerance words added to, split, picked and set. From R207 to R210. -/
def tolerance : List (String × Bool) := Id.run do
  let words : List DWord := [0xABCD0147, 0x3F000000]
  let ents : List ClassEntry := [{ uOwn := 100, uIn := 30, s := -50, equal := false }]
  let mut out := []
  for a in words do
    for en in ents do
      for k in ([5] : List DWord) do
        let s := mk [] (fun w => ((wm w).setScalar 4 a).setScalar 5 k) (fun b => { b with entry := en })
        let c := ctx s
        let f := F (d := 9) (a := 4) (b := 5)
        let t := (a.extractLsb' 0 10).toNat
        let upper : DWord := 0#50 ++ a.extractLsb' 10 4 ++ 0#10
        let clampWord := fun (x : Int) => BitVec.ofInt 64 (max 0 (min 1023 x))
        let own := min 1023 (t + c.b.entry.uOwn)
        let force := a.getLsbD 13 || c.b.spawn
        let picked := fun (bound : Nat → Nat) => if force then 0 else
          if own ≤ bound 5 then 5 else if own ≤ bound 4 then 4 else if own ≤ bound 3 then 3 else if own ≤ bound 2 then 2 else if own ≤ bound 1 then 1 else 0
        let kd := max 1 (min (2 ^ 20) k.toNat)
        let bound := fun g => [384, 176, 128, 64, 48, 32].getD g 0
        let got := fun i => (wof (exec i s)).scalar 9
        let fi := { f with imm := true, b := k.setWidth 8 }
        let gi := immUnsigned fi
        let retry : BitVec 2 := if gi.extractLsb' 0 2 = 3 then 2 else gi.extractLsb' 0 2
        let r := [("log", got (.toladdLog f) == (upper ||| BitVec.ofNat 64 (logAdd t (k.extractLsb' 0 10).toNat))),
    ("off", got (.toladdOff f) == (upper ||| clampWord (t + k.toInt))),
          ("in", k.toNat > 100 || got (.tolsplIn f) == (upper ||| clampWord (t + c.b.entry.uIn + c.b.entry.s + if c.b.entry.equal then (ceil16Log2 k.toNat : Int) else 0))),
    ("own", got (.tolsplOwn f) == (upper ||| clampWord (t + c.b.entry.uOwn))),
          ("fpick", got (.fpick f) == (BitVec.ofNat 64 (picked (fun g => mmaBound g g kd) + 2 ^ 16 * mmaBound (picked fun g => mmaBound g g kd) (picked fun g => mmaBound g g kd) kd))),
          ("cvt", got (.fpickCvt f) == (BitVec.ofNat 64 (picked bound + 2 ^ 16 * bound (picked bound)))),
    ("fld", got (.tolsetFld fi) == (0#50 ++ gi.extractLsb' 2 2 ++ retry ++ a.extractLsb' 0 10)),
          ("val", got (.tolsetVal f) == BitVec.ofNat 64 (valueOf t)),
    ("dem", got (.tolsetDem f) == BitVec.ofNat 64 (demandOf (a.setWidth 32)))]
        out := out ++ r
  return out

/-- The checks of `tolerance` hold. -/
theorem test_tolerance : tolerance.all (fun x => x.2) = true := by decide +kernel

/-- Demands, certificates and cancellations hold as exact inequalities. From R200, R210, R212, R215. -/
def logarithms : List (String × Bool) := Id.run do
  let xs : List Word := [0x3F000000, 0x3F7FFFFF, 0x3F000001, 0x3E800000, 0x00000001, 0x00800000, 0x3E99999A, 0x2F123456, 0x3F3504F3]
  let r1 := xs.all fun x => match fp32 x with
    | .fin false m e => ([0,1,2,15,16,17,30,31,32,33,270,271,272,273,1000,1022] : List Nat).all fun t => (decide (demandOf x ≤ t) == decide (2 ^ (-16 * e).toNat ≤ m ^ 16 * 2 ^ t)) && (decide (t ≤ certificateOf x) == decide (m ^ 16 * 2 ^ t ≤ 2 ^ (-16 * e).toNat))
    | _ => false
  let r2 := ([(0x3F800000, 0, 0), (0x7F800000, 0, 0), (0x00000000, 1023, 1023), (0x80000000, 1023, 1023), (0xBF800000, 1023, 0), (0x7FC00000, 1023, 0), (0x3F000000, 16, 16)] : List (Word × Nat × Nat)).all fun x => demandOf x.1 == x.2.1 && certificateOf x.1 == x.2.2
  let ms : List Word := [0x44800000, 0x40400000, 0x3F800000, 0x00000001, 0x7F7FFFFF, 0xC2280000]
  let r3 := ms.all fun m => ms.all fun r => match fp32 m, fp32 r with
    | .fin _ a ea, .fin _ b eb => let k := (cancellation m r).getD 9999; ([0,1,2,15,16,17,50,134,135,136,500,1000, k, k-1, k+1, k+2] : List Nat).all fun n => decide (k ≤ n) == decide (if ea ≤ eb then a ^ 16 ≤ b ^ 16 * 2 ^ (n + (16 * (eb - ea)).toNat) else a ^ 16 * 2 ^ (16 * (ea - eb)).toNat ≤ b ^ 16 * 2 ^ n)
    | _, _ => false
  let r4 := (List.range 40).all fun i => (List.range 5).all fun d => let old := i * 421; let q := redemand old (d * 300); q % 1024 == min 1023 (old % 1024 + d*300 + 16) && q / 4096 % 2 == old / 4096 % 2 && (if old / 1024 % 4 < 2 then q / 1024 % 4 == old / 1024 % 4 + 1 && q / 8192 == 0 else q / 1024 % 4 == 2 && q / 8192 == 1)
  return [("dem", r1),
    ("sp", r2),
    ("rel", r3),
    ("red", r4),
    ("vals", valueOf 336 == 0x35000000 && valueOf 0 == 0x3F800000 && logAdd (logAdd (logAdd 336 384) 384) 384 == 0x147 && relCertificate 330 0x44800000 0x40400000 == 195 + 4096)]

/-- The checks of `logarithms` hold. -/
theorem test_logarithms : logarithms.all (fun x => x.2) = true := by decide +kernel

/-- CERT, CERT.REL and TIGHTEN. From R211, R212, R214, R215. -/
def certificates : List (String × Bool) := Id.run do
  let win := fun (y : Sys) => { y.setCore ⟨0,0⟩ fun k => { k with tlb := { asid := 0, window := true, base := 0, size := 1, pa := 5 } :: k.tlb } with sweeps := sweeps0 }
  let s := mk [] (fun w => { ((wm w).setScalar 4 100).setScalar 5 0x3F800000 with tol := 0x3400 }) (fun b => { b with sweep := 7, drawer := 0x100, down := true, parent := 0xFFFFFF }) win
  let c := ctx s
  let f := F (d := 9) (a := 4) (b := 5) (c := 5)
  let pa := scratchpadBase 0 0 + 5*65536 + 0x100
  let cw := certWord 100 [] c.b.entry.s c.w.tol
  let t2 := resOf (run (.certCompletion ⟨1,0⟩ 10) (resOf (run (.certRel f) s)))
  let st := mk [] (fun w => ((wm w).setScalar 4 0).setScalar 5 5) (fun b => { b with sweep := 7, drawer := 0x100, nchild := 2, first := 1 }) win
  let ct := ctx st
  let ft := F (d := 9) (a := 4) (b := 5)
  let tt := run (.tighten ft) st
  let st1 := mk [] (fun w => ((wm w).setScalar 4 1).setScalar 5 5) (fun b => { b with sweep := 7, drawer := 0x100, nchild := 2, first := 1 }) win
  return [("cert", started (run (.cert f) s) s c .cert false (.cert 9 cw pa none)),
    ("certrel", started (run (.certRel f) s) s c .certRel false (.cert 9 cw pa (some (0x3F800000, 0x3F800000)))),
    ("word", cw == 100 + 1024 * 1 + 8192),
    ("done", t2.phys.num pa 2 == cw && ((t2.sys.warp ⟨1,0⟩).map fun w => w.scalar 9) == some (BitVec.ofNat 64 (relCertificate cw 0x3F800000 0x3F800000))),
    ("tighten", started tt st ct .tighten false (.tighten 9 0 5) && ((resOf tt).sys.tower 0).redispatches == [{ sweep := 7, node := 1, stage := 0 }] && ((((resOf tt).sys.sweep 7).bind fun v => v.node 1).map Node.share) == some (BitVec.ofNat 16 (redemand 0x450 5))),
    ("limit", sameo (run (.tighten ft) st1) (sweepRaised st1 (ctx st1) .tightenLimit (0x1000 + 4 * 64)))]

/-- The checks of `certificates` hold. -/
theorem test_certificates : certificates.all (fun x => x.2) = true := by decide +kernel

end G8

namespace G9b

def ptMem (leaf : Nat) (va : Nat) : Memory :=
  let m := setMem [] 0x10000 32 (1 + 0x20000 + 2^64 + 2^76 * 0x40)  
  let m := setMem m (0x20000 + 8 * levelIndex 4 va) 8 (1 + 0x30000)
  let m := setMem m (0x30000 + 8 * levelIndex 3 va) 8 (1 + 0x31000)
  let m := setMem m (0x31000 + 8 * levelIndex 2 va) 8 (1 + 0x32000)
  let m := setMem m (0x32000 + 8 * levelIndex 1 va) 8 (1 + 0x33080)
  setMem (setMem m (0x33080 + 8 * levelIndex 0 va) 8 leaf) (0x40000 + 8 * 3) 8 (1 + 2 * 77)
def sT (leaf : Nat) : State := { phys := { mem := ptMem leaf 0x482345678 }, sys := { device := { globals := 0x10000, devReady := ready }, queues := List.replicate 32 Queue.reset } }
/-- Translations, window pages, walks and invalidations. From R235 to R240. -/
def walks : List (String × Bool) := Id.run do
  let s := sT (1 + 2 + 4 + 4096 * 0x55)
  let va := 0x482345678
  let c : CoreRef := ⟨1, 3⟩
  let c0 : CoreRef := ⟨0, 3⟩
  let tr := fun s r w => translate s.phys s.sys c 0 va r w
  let s2 := sT 0
  let queued := fun (s : State) (tower : Nat) (e : TlbEntry) => { s with sys := s.sys.setTower tower fun t => { t with walks := [e] } }
  let e3 : TlbEntry := { asid := 0, window := true, base := 3, size := 1, pa := 77 }
  let t := resOf (run (.pageWalkComplete c0 (.window 0 3)) (queued s 0 e3))
  let t2 := resOf (run (.pageWalkComplete c (.page 0 va)) { s with sys := fillPage s.phys s.sys c 0 va })
  let q : Packet := { id := 4, ref := { queue := 2, index := 0, tag := 0, barrier := false, acq := 0, rel := 0 }, work := .invalidate true 0 2 5 }
  let si : State := { t with sys := { t.sys with packets := [q] } }
  let ti := resOf (run (.invalidationComplete 4) si)
  return [("ok", tr s true false == .ok 0x55678),
    ("np", tr s true true == .notPermitted),
    ("npres", tr s2 true false == .notPresent),
   ("win", cachedWindow t.sys c0 0 3 == some e3 && (t.sys.tower 0).walks.isEmpty && translateWindow s.phys s.sys c0 0 0x31234 == some (0x20000000000 + 77 * 65536 + 0x1234)),
   ("pg", (t2.sys.core c).tlb.map (fun e => e.base) == [0x482345000] && (t2.sys.core ⟨1,0⟩).tlb.isEmpty),
    ("none", same (run (.pageWalkComplete c0 (.window 0 3)) s) s),
    ("inv", cachedWindow ti.sys c0 0 3 == none && (ti.sys.packet 4).map Packet.work == some (.done 0 0 0 0) && cachedWindow si.sys c0 0 3 != none)]

/-- The checks of `walks` hold. -/
theorem test_walks : walks.all (fun x => x.2) = true := by decide +kernel

/-- A step of an issuing slot runs what its word decodes to. From R61, R70. -/
def stepDecoded : List (String × Bool) := Id.run do
  let ws : List Word := [H, 0x40002B84, 0x400356CE, 0x4000, 0x110]
  let go := fun (left : Nat) (pcw : Nat) (n : Nat) (i : Instr) (turn : Bool) =>
    let s := mk ws (fun w => { w with slotA := { w.slotA with left := left, pc := .ofAddr (0x100000 + 4 * pcw) } }) id fun y => { y with agenda := [.issue ⟨1,0⟩ .A, .tick] }
    let b := (s.sys.block 1).getD (placedBlock 0 false)
    let w := (b.warp 0).getD { rank := 9 }
    let y := taken s [.tick]
    sameo (step s) (exec i (readyToIssue y ⟨1,0⟩ .A b w n turn)) && (dueWait s.phys s.sys).isNone && y.sys.pick y.phys ⟨0,0⟩ w.slice == some (⟨1,0⟩, .A)
  let i1 := (decodeWords 0x40002B84 0 0).toOption.getD .bell
  let i2 := (decodeWords 0x400356CE 0x4000 0x110).toOption.getD .bell
  let i3 := (decodeWords H 0 0).toOption.getD .bell
  return [("1", go 2 1 1 i1 true),
    ("2", go 2 2 3 i2 true),
    ("3", go 0 0 1 i3 false),
    ("4", go 1 0 1 .illegalClause true),
    ("5", go 0 1 1 .illegalClause true),
    ("6", go 1 4 1 .illegalInstr true)]

/-- The checks of `stepDecoded` hold. -/
theorem test_stepDecoded : stepDecoded.all (fun x => x.2) = true := by decide +kernel

end G9b

namespace G10

/-- A SWEEP packet is admitted, fails its descriptor, or names no address space. From R249, R252. -/
def launch : List (String × Bool) := Id.run do
  let s := sV (fun m => setMem (setMem m 0x90000 128 descr) 0x80000 32 rootRec)
  let t := resOf (run (.sweep (pr 2) 0x90000) s)
  let w := t.sys.sweeps.getD 0 (failedSweep 0 0 0 0)
  let sBad := sV (fun m => setMem (setMem m 0x90000 128 (descr 0)) 0x80000 32 rootRec)
  let sNo : State := { s with sys := { s.sys with device := { s.sys.device with globals := 0 } } }
  return [("good", t.phys == s.phys && t.sys.packets == [opened s (pr 2) (.sweep 0x90000 (some none)) false] && w.phase == .running && w.passed && (w.run 0 0).state == .admitted && (w.run 0 0).res == 1 && w.poolAt 0 == 3 && w.nodes.map (fun n => (n.index, n.prog, n.warps, n.need, n.hold)) == [(0,3,2,1,1)]),
    ("bad", (resOf (run (.sweep (pr 2) 0x90000) sBad)).sys.packets == [opened s (pr 2) (.done 1 0 0x10 8) false]),
    ("noasid", (resOf (run (.sweep (pr 2) 0x90000) sNo)).sys.packets == [opened s (pr 2) (.done 1 0 0x11 0) false])]

/-- The checks of `launch` hold. -/
theorem test_launch : launch.all (fun x => x.2) = true := by decide +kernel

def hdr0 : ProgramHeader := { entry := 0x1000, tvec := 0x2000, proRegs := 33, acc := 2, bsmu := 3, lpriv := 8, preload := 0x3FF, ftz := true }
def nd (i : Nat) (share : BitVec 16) (retain : Bool := false) (count : Nat := 0) (first : Nat := 0) : Node := { index := i, parent := 0, first := first, count := count, prog := 3, warps := 7, bsmu := 0, opClass := 0, idemp := false, retain := retain, rel := false, user := 0xABCD, share := share, need := 1, hold := 1, depth := 1 }
def sw1 (runs : List Run) (nodes : List Node) (dir := 0) : Sweep := { id := 7, pkt := 1, queue := 2, cls := 1, asid := 0, tower := 0, dir := dir, descriptor := 0, root := 0, nodesN := 3, stages := 1, progs := 0, shelf := 0x400, cap := 8, drawerSize := 64, bitmap := 0, sparea := 0x1000, splen := 9, pkto := 2048, norst := false, dove := 0, pred := none, table := [], hasTable := false, nodes := nodes, runs := runs, pool := [8], headers := [(3, some hdr0)], headerFault := [], spawnArea := [], items := 0, phase := .running, passed := true }
/-- Dispatch, retirement and spawn blocks. From R33, R251, R259, R262. -/
def dispatch : List (String × Bool) := Id.run do
  let nodes := [nd 0 0x3210 false 2 1, nd 1 0x1234, nd 2 0x0234]
  let w := sw1 [{ node := 0, stage := 0 }, { node := 1, stage := 0, state := .admitted, readyAt := some 3, res := 1 }, { node := 2, stage := 0, drawer := some 0, state := .retired }] nodes
  let s := sV id fun y => { y with sweeps := [w] }
  let t := resOf (run (.blockDispatch 0) s)
  let b := t.sys.blocks.getD 0 (placedBlock 99 false)
  let v := t.sys.sweeps.getD 0 w
  let off := 0x400 + 64
  let pa := (towerWindow s.phys s.sys 0 0 off).getD 0
  let y := b.warps.getD 6 { rank := 99 }
  let ok1 := t.phys.num pa 16 == (1 * 2^8) * 2^16 && (v.run 0 1).state == .dispatched && (v.run 0 1).drawer == some 1 && b.id == 10 && b.warps.map Warp.rank == List.range 7 && y.slotA == { valid := true, pc := 0x1000, mask := BitVec.allOnes 64, ch := 0x1000 } && y.tol == 0x1234 && y.scalar 1 == 1 && y.scalar 2 == 0 && y.scalar 3 == 0x440 && y.scalar 4 == 0x1234 && y.scalar 5 == 0xABCD && y.scalar 6 == 0 && y.scalar 7 == 7 && y.scalar 8 == 1 && y.elem 0 5 == 5 && y.elem 1 5 == 6 && b.granted && b.units.length == 3
  let w2 := sw1 [{ node := 0, stage := 0, state := .dispatched, drawer := some 3, res := 3 }, { node := 1, stage := 0, state := .retired, drawer := some 1 }, { node := 2, stage := 0, drawer := some 0, state := .retired }] nodes
  let bb : Block := { placedBlock 1 false with sweep := 7, node := 0, stage := 0, queue := 2, warps := [{ rank := 0 }, { rank := 1 }], since := 5, resident := 11 }
  let s2 := sV id fun y => ({ y with sweeps := [w2], blocks := [bb], packets := [{ opened (sV) (pr 2) (.sweep 0 none) false with id := 1 }] }).setTower 0 fun t => { t with clock := 105 }
  let t2 := resOf (run (.blockRetire 1) s2)
  let v2 := t2.sys.sweeps.getD 0 w
  let pa2 := (towerWindow s.phys s.sys 0 0 (0x400 + 3*64)).getD 0
  let ok2 := t2.sys.blocks.isEmpty && t2.phys.num (pa2 + 2) 14 == 1 && (v2.run 0 0).state == .retired && (v2.run 0 1).drawer == none && v2.phase == .complete && (t2.sys.tower 0).deficit.getD 2 0 == -2 * 111 && (t2.sys.packet 1).map Packet.work == some (.done 0 0 0 0)
  let item := fun (n : Nat) => ({ sweep := 7, prog := 3, stage := 0, arg0 := BitVec.ofNat 64 (0x100000001 * n), arg1 := 9, spawner := 1, core := 0, seq := n } : SpawnItem)
  let g : Forming := { id := 4, sweep := 7, prog := 3, stage := 0, items := [item 1, item 2, item 3], since := 0, ready := true }
  let w3 := { sw1 [] nodes with items := 5, spawnArea := [item 9, item 8] }
  let s3 := sV id fun y => ({ y with sweeps := [w3] }).setCore ⟨0,0⟩ fun k => { k with forming := [g, { g with id := 5, ready := false }] }
  let t3 := resOf (run (.blockDispatch 0) s3)
  let b3 := t3.sys.blocks.getD 0 bb
  let y3 := b3.warps.getD 0 { rank := 9 }
  let ok3 := b3.spawn && b3.spawners == [1,1,1] && y3.slotA.mask == 7 && y3.scalar 1 == 0xFFFFFF && y3.scalar 7 == 7 && y3.pair 2 2 == 0x300000003 && y3.pair 4 1 == 9 && y3.elem 0 2 == 2 && (t3.sys.core ⟨0,0⟩).forming.length == 1
  let s4 := sV id fun y => ({ y with sweeps := [{ sw1 [{ node := 0, stage := 0, state := .dispatched }] nodes with items := 5 }], blocks := [{ bb with spawn := true, spawners := [2,2,3] }, { bb with id := 2, spawnOutstanding := 5 }] })
  let t4 := resOf (run (.blockRetire 1) s4)
  let ok4 := (t4.sys.sweeps.map Sweep.items) == [2] && t4.sys.blocks == [{ bb with id := 2, spawnOutstanding := 3 }] && t4.phys == s4.phys
  let t5 := resOf (run (.spawnAreaRefill ⟨0,0⟩) s3)
  let k5 := t5.sys.core ⟨0,0⟩
  let ok5 := k5.queued == 7 && (t5.sys.sweeps.map fun w => w.spawnArea) == [[item 9]] && k5.forming.any fun g => g.items.contains (item 8)
  let s6 := sV id fun y => (({ y with sweeps := [w3] }).setCore ⟨0,0⟩ fun k => { k with forming := [{ g with ready := false }] }).setTower 0 fun t => { t with clock := 3000 }
  let t6 := resOf (run (.spawnPackTimeout ⟨0,0⟩ 4) s6)
  return [("disp", ok1),
    ("retire", ok2),
    ("spawn", ok3),
    ("spret", ok4),
    ("refill", ok5),
    ("timeout", (t6.sys.core ⟨0,0⟩).forming == [g])]

/-- The checks of `dispatch` hold. -/
theorem test_dispatch : dispatch.all (fun x => x.2) = true := by decide +kernel

/-- The measure of a node over two children, against every order of them. From R253, R254. -/
def need : List (String × Bool) := Id.run do
  let mut ok := true
  for a in List.range 4 do
    for b in List.range 4 do
      for h1 in List.range 3 do
        for h2 in List.range 3 do
          let c1 := { nd 1 0 with need := a + 1, hold := h1 }
          let c2 := { nd 2 0 with need := b + 1, hold := h2 }
          let x := nd 0 0 true 2 1
          let ks : Int × Int := ((a + 1 : Int) - h1, (b + 1 : Int) - h2)
          let order := if ks.2 ≤ ks.1 then [c1, c2] else [c2, c1]
          let exp := max ((order.map Node.hold).sum + 1) (max (order.getD 0 c1).need ((order.getD 1 c1).need + (order.getD 0 c1).hold))
          ok := ok && (x.measured false [c2, c1]).need == exp && (x.measured true [c1, c2]).need == 1 + max (a+1) (b+1) && (x.measured false [c1]).hold == 3
  return [("need", ok)]

/-- The checks of `need` hold. -/
theorem test_need : need.all (fun x => x.2) = true := by decide +kernel

end G10

namespace G11

/-- A pre-emption from its request to the saved context. From R307 to R310. -/
def preemption : List (String × Bool) := Id.run do
  let glob : BitVec 512 := 0x10000 ||| (4 <<< 116)   -- pool tower 0: 4 MiB
  let dev := fun (y : Sys) => { y with device := { y.device with globals := glob } }
  let s := mk [] (fun w => { w with warpSlot := 3, slice := 2, slotA := { w.slotA with left := 0 }, ops := [{ id := 3, slot := .A, flag := none, path := none, body := .tileZero 1 5 }] }) (fun b => { b with sweep := 7, node := 5 }) dev
  let sz := s.sys.contextSize ((s.sys.block 1).getD (placedBlock 0 false))
  let t := resOf (run (.preemptRequest 1 .hostRequest) s)
  let r := (t.sys.tower 0).records.getD 0 { index := 99, need := 0, ack := 0, reason := .hostRequest, state := 0, core := 0, coreNo := 0, block := 0, t0 := 0, at_ := 0, room := 0, size := 0 }
  let ok1 := r.need == 0xF004 && r.room == 0 && r.size == sz && (t.sys.block 1).map Block.stopping == some true && r.index == 0
  let t2 := [StopUnit.slice 2, .copyEngine, .atomicEngine, .packingUnit].foldl (fun s u => resOf (run (.unitStopAck 0 0 u) s)) t
  let r2 := (t2.sys.tower 0).records.map fun r => r.ack
  let t3 := resOf (run (.unitStopAck 0 0 .sequencer) t2)
  let x := (t3.sys.tower 0).saved.map fun x => (x.block.id, x.room, x.size, x.block.warps.map Warp.ops)
  let t4 := resOf (run (.contextSaveDone 0 0) t3)
  let sf := mk [] id (fun b => { b with sweep := 7, node := 5, idemp := true }) dev
  let tf := resOf (run (.preemptRequest 1 .highLatency) sf)
  let s0 := mk [] id id
  let t0 := resOf (run (.preemptRequest 1 .highLatency) s0)
  let full := { s with sys := s.sys.setTower 0 fun k => { k with records := (List.range 16).map fun i => { r with index := i, block := 100 + i, state := 1 } } }
  let tq := resOf (run (.preemptRequest 1 .hostRequest) full)
  return [("req", ok1),
    ("acks", r2 == [0x7004]),
    ("saved", t3.sys.blocks.isEmpty && x.map (fun y => (y.1, y.2.1)) == [(1, 0)]),
    ("done", (t4.sys.tower 0).records.map PreemptRecord.state == [3] && (t4.sys.tower 0).saved.length == 1),
    ("flush", tf.sys.blocks.isEmpty && (tf.sys.tower 0).restarts.length == 1),
    ("refuse", (t0.sys.tower 0).records.map (fun r => (r.state, r.block)) == [(3, 1)] && t0.sys.blocks == s0.sys.blocks),
    ("merge", same (run (.preemptRequest 1 .redispatchRoom) t) t),
    ("queue", (tq.sys.tower 0).waiting == [(1, .hostRequest)] && tq.sys.blocks == s.sys.blocks && (tq.sys.tower 0).records.length == 16)]

/-- The checks of `preemption` hold. -/
theorem test_preemption : preemption.all (fun x => x.2) = true := by decide +kernel


/-- The positions of a stack (R25) and what a restore takes and refuses (R315). -/
def contextRecord : List (String × Bool) := Id.run do
  let rs := [RsEntry.join 5 0xFF, .trap 0xF0 7 0x30 0xA1 2 3, .pend 1 0xF]
  let ps := [0xFF + 5 * 2^64 + 2^114, 0xF0 + 7 * 2^64 + 4 * 2^114, 0x30 + 0xA1 * 2^64 + 2 * 2^72 + 3 * 2^78 + 5 * 2^114, 0xF + 2^64 + 3 * 2^114]
  let p := fun (i : Nat) => ps.getD i 0
  let w : Warp := { rank := 0, rs := rs, s := Sparse.putAll [] [(2, 0x0123456789ABCDEF)] }
  let b := { placedBlock 1 false with warps := [w] }
  let c : Card := { id := 1, block := 1, rank := 0, addr := 0, card := 0x0201, shape := 0, tol := 0, rngkey := 0, fmt := 0, scope := 0, asid := 0, drain := none }
  let x : SavedBlock := { block := b, cards := [c], room := 0, size := 0x20000 }
  return [("layout", rs.flatMap RsEntry.bits == ps), ("read", readStack ps == some rs),
    ("type", [0, 6, 7].all fun k => readStack [p 0, 0xF + k * 2^114] == none),
    ("reserved", readStack [p 0 + 2^117] == none), ("partner", readStack [p 1, p 3] == none && readStack [p 2] == none && readStack [p 0, p 1] == none),
    ("distance", [0, 188].all fun d => readStack [p 1, p 2 + d * 2^78 - 3 * 2^78] == none),
    ("edge", (readStack [p 1, p 2 + 187 * 2^78 - 3 * 2^78]).isSome),
    ("scalar", (List.range 8).map (fun j => b.recordByte w (0x210 + j)) == [0xEF, 0xCD, 0xAB, 0x89, 0x67, 0x45, 0x23, 0x01].map some),
    ("card", (List.range 3).map (fun j => x.recordByte (0x1000 + j)) == [some 1, some 2, some 0]),
    ("poison", (x.readBack { mem := [], poison := [0x40] } 0).isNone)]

/-- The checks of `contextRecord` hold. -/
theorem test_contextRecord : contextRecord.all (fun x => x.2) = true := by decide +kernel

/-- An acquire deadlock evicts a block. From R19. -/
def deadlock : List (String × Bool) := Id.run do
  let s := mk [] (fun w => w) (fun b => { b with regRequest := true, granted := false, hdr := { b.hdr with fullRegs := 256, acc := 8, proRegs := 32 }, warps := (List.range 16).map fun i => { rank := i, slice := 0, warpSlot := i, bays := [] } })
  let s := { s with sys := { s.sys with device := { globals := 0x10000 ||| (1#512 <<< 120) } } }
  let t := run (.acquireDeadlockEviction ⟨0,0⟩) s
  return [("dead", acquireDeadlocked s.sys ⟨0,0⟩ && sameo t (run (.preemptRequest 1 .acquireDeadlock) s) && ((resOf t).sys.tower 0).records.length == 1)]

/-- The checks of `deadlock` hold. -/
theorem test_deadlock : deadlock.all (fun x => x.2) = true := by decide +kernel

/-- The budget, the slew and the control register of a matrix engine. From R293 to R295. -/
def engineControl : List (String × Bool) := Id.run do
  let s := mk [] id id fun y => (y.setCore ⟨0,0⟩ fun k => { k with control := 0x50013, budget := 5, budgetLeft := -7, mmaNow := 5, ovc := 1 }).setTower 0 fun t => { t with clock := 300 }
  let k := s.sys.core ⟨0,0⟩
  let t := (resOf (run (.budgetInterval ⟨0,0⟩) s)).sys.core ⟨0,0⟩
  let u := (resOf (run (.slewWindow ⟨0,0⟩) s)).sys.core ⟨0,0⟩
  let w := (resOf (run (.engineControlWrite ⟨0,0⟩ 0x70007) s)).sys.core ⟨0,0⟩
  return [("bud", t == { k with intervalAt := 1, budget := 5, ovc := 3, budgetLeft := 313 }),
    ("slew", u == { k with windowAt := 4, mmaPrev := 0, mmaNow := 0, mstep := 4, ovc := 3 }),
    ("ec", w.control == 0x70007 ),
    ("ec2", same (run (.engineControlWrite ⟨0,0⟩ 0x400) s) s)]

/-- The checks of `engineControl` hold. -/
theorem test_engineControl : engineControl.all (fun x => x.2) = true := by decide +kernel

end G11

namespace G12

/-- Doorbells, packets and completions. From R319 to R327. -/
def packets : List (String × Bool) := Id.run do
  let q0 : BitVec 512 := Queue.reset.regs
  let qr : Queue := (((({ regs := q0 } : Queue).setField 51 0 0x90000).setField 243 192 0xA0000).setField 307 256 0xB0000).setField 159 128 5
  let s := sV id fun y => { y with queues := y.queues.set 2 qr, device := { y.device with masked := [7] } }
  let d := resOf (run (.queueDoorbell 2 3) s)
  let d2 := resOf (run (.queueDoorbell 2 30) s)
  let en := resOf (run (.queueEnable 2) s)
  let di := resOf (run (.queueDisable 2) en)
  let p := pr 2
  let op := fun (i : Instr) (w : PacketWork) (b : Bool) => (resOf (exec i s)).sys.packets == [opened s p w b] && (resOf (exec i s)).phys == s.phys
  let cp := resOf (run (.copy p (.main 0x30000) (.window 0 0x20005) 70) s)
  let dst := (towerWindow s.phys s.sys 0 0 0x20005).getD 0
  let sg := resOf (run (.signal p 0x30000 5 true) s)
  let mp := resOf (run (.mapRun p 0 2 3 99) s)
  let sw := { s with sys := { s.sys with packets := [{ opened s p (.wait 0x30000 0x1000 7 0 false) true with id := 4 }], now := 7000000 } }
  let sw0 := { sw with sys := { sw.sys with now := 6999999 } }
  let ends := fun (t : State) w => (t.sys.packet 4).map (fun x => (x.work, x.fault)) == some (w, none)
  let sc := { s with sys := { s.sys with packets := [{ opened s p (.done 2 0 0 0x123456789) false with id := 4 }] } }
  let tc := resOf (run (.packetCompletion 4) sc)
  let tm := resOf (run (.msixDelivery 2) tc)
  let sf := { s with sys := { s.sys with packets := [{ opened s p (.sweep 0x7000 none) false with id := 4, fault := some 9 }], faults := [{ id := 9, owner := .packet 4, asid := 0, va := 5, write := false }] } }
  let tf := resOf (run (.faultResponseDecline 9) sf)
  return [("door", (d.sys.queue 2).field 159 128 == 3 && (d.sys.queue 2).field 107 107 == 0 && (d2.sys.queue 2).field 107 107 == 1),
    ("en", (en.sys.queue 2).field 106 106 == 1 && (en.sys.queue 2).cls == 1 && (en.sys.queue 2).field 51 0 == 0x90000),
    ("dis", (di.sys.queue 2).field 106 106 == 0),
   ("bad", op (.badPacket p 9) (.done 3 1 0 9) false),
    ("wait", op (.wait p 0x30000 15 3) (.done 0 0 0 0) true && op (.wait p 0x30000 16 3) (.wait 0x30000 16 3 0 false) true),
    ("inv", op (.invalidatePages p 5 6) (.invalidate false 0 5 6) false),
   ("copy", cp.sys.packets == [opened s p (.done 0 0 0 0) false] && cp.phys.num dst 9 == 15 && cp.phys.num (dst+1) 70 == 0),
    ("unm", op (.copy p (.window 0 0x50000) (.main 0) 5) (.done 3 3 0 0) false),
   ("sig", sg.phys.num 0x30000 8 == 20 && sg.sys.packets == [opened s p (.done 0 0 0 0) false]),
    ("map", mp.phys.num (0x40000+8*4) 8 == 1+2*101 && mp.sys.packets == [opened s p (.invalidate true 0 2 3) false]),
    ("mapbad", op (.mapRun p 0 65535 2 0) (.done 3 4 0 0) false && op (.unmapRun p 0 65535 2) (.done 3 4 0 0) false),
   ("wt", ends (resOf (run (.waitTimeout 4) sw)) (.done 2 0 0 0) && same (run (.waitTimeout 4) sw0) sw0 && same (run (.waitEvaluate 4) sw0) sw0),
   ("comp", tc.phys.num 0xB0000 16 == 5 + 2 * 2^16 + 0x23456789 * 2^32 && tc.phys.num 0xA0000 8 == 1 && tc.sys.packets.isEmpty && (tc.sys.queue 2).field 107 107 == 1 && tc.sys.device.msix == [2] && tm.sys.device.raised == [2] && tm.sys.device.msix == []),
   ("decl", (tf.sys.packet 4).map Packet.work == some (.done 1 0 0x17 9) && tf.sys.faults.isEmpty)]

/-- The checks of `packets` hold. -/
theorem test_packets : packets.all (fun x => x.2) = true := by decide +kernel

end G12

namespace G13

def ent (st : Nat) (state : MemberState) (code last exit : Nat) (pend : List (Nat × Nat × Nat)) (act lv : Option Nat := none) : BoardEntry :=
  { stall := st, code := code, state := state, inForce := (1, 0), pending := pend, last := last, exit := exit, activeAt := act, leaveAt := lv }
def brd : List BoardEntry := [ent 3 .active 188 100 0 [], ent 4 .joining 50 100 0 [] (some 101), ent 5 .active 120 40 0 [], ent 6 .silent 60 2 101 [], ent 7 .active 150 99 0 [(101, 4, 140), (102, 5, 130), (99, 3, 99)], ent 8 .leaving 70 99 0 [] none (some 101)]
def mkt : Market := { number := 9, stall := 3, forward := 11, epoch := 5, seq := 7, lastPosted := some 188, heard := 100, board := brd }
def sM (f : Market → Market := id) (g : Sys → Sys := id) : State := sV id fun y => g { y with market := f mkt, time := { state := .locked, count := 10100000, bell := 100, pulse := 10100000 } }
/-- The market: the bell, records in and out, joining and leaving. From R331 to R340. -/
def market : List (String × Bool) := Id.run do
  let s := sM
  let t := resOf (exec .bell s)
  let e := fun k => t.sys.market.entry k
  let p := pr 2
  let lv := resOf (run (.marketLeave p 50) s)
  let po := resOf (run (.marketPost p 90) s)
  let nb := sM fun m => { m with board := [] }
  let jn := resOf (run (.join p 12) nb)
  let cf := resOf (run (.config p 4 5 6) nb)
  let rec0 : ReceivedRecord := { port := 1, post := { market := 9, stall := 7, code := 77, send := 101, eff := 100, epoch := 5, seq := 9 }, board := [] }
  let sr := sM id fun y => { y with inputs := { y.inputs with records := [rec0] } }
  let tr := resOf (exec .notice sr)
  let rj := { rec0 with post := { rec0.post with stall := 44 } }
  let sj := sM id fun y => { y with inputs := { y.inputs with records := [rj] } }
  let tj := resOf (exec .joinReq sj)
  let td := resOf (exec .post sj)
  let ta := resOf (exec .joinAnn sj)
  let sn := sM (fun m => { m with board := [], join := some { pkt := 3, since := 90, found := false, activeAt := none } }) fun y => { y with inputs := { y.inputs with records := [{ rj with board := mkt.board }] } }
  let tn := resOf (exec .snapshot sn)
  let tl := resOf (exec .leave sr)
  return [("bell", t.sys.time.bell == 101 && (e 4).map BoardEntry.state == some .active && (e 5).map (fun x => (x.state, x.exit)) == some (.silent, 140) && (e 6).map BoardEntry.state == some .evicted && (e 8) == none && (e 7).map (fun x => (x.code, x.pending)) == some (140, [(102,5,130)])),
    ("tariff", t.sys.market.tariff == 50),
   ("leave", lv.sys.market.sent == [ownRecord s 7 0 103 3 none []] && lv.sys.packets == [opened s p (.untilBell 103) false]),
    ("post", po.sys.market.sent == [ownRecord s 1 90 103 3 none []] && (po.sys.market.entry 3).map BoardEntry.pending == some [(103, 7, 90)]),
   ("join", jn.sys.market.sent == [ownRecord nb 4 0 105 3 (some 12) []] && jn.sys.packets == [opened s p .join false]),
    ("cfg", cf.sys.market == { nb.sys.market with number := 4, stall := 5, forward := 6, board := [] }),
   ("rec", tr.sys.market.sent == [passedOn sr 1 rec0] && (tr.sys.market.entry 7).map (fun x => (x.last, x.pending.length)) == some (101, 4) && tr.sys.market.lateArrivals == 1 && tr.sys.market.heard == 101),
   ("jreq", tj.sys.market.sent.length == 2 && (tj.sys.market.entry 44).map BoardEntry.activeAt == some (some 105)),
    ("disc", td.sys.market == { sj.sys.market with discarded := 1 }),
    ("ann", (ta.sys.market.entry 44).map BoardEntry.activeAt == some (some 100)),
   ("snap", (tn.sys.market.entry 3).map BoardEntry.state == some .joining && tn.sys.market.entry 7 == mkt.entry 7),
    ("lv", (tl.sys.market.entry 7).map (fun x => (x.state, x.leaveAt)) == some (.leaving, some 100))]

/-- The checks of `market` hold. -/
theorem test_market : market.all (fun x => x.2) = true := by decide +kernel

/-- Fabric time: pulses, words and the loss of time. From R333. -/
def fabricTime : List (String × Bool) := Id.run do
  let s := sM
  let f := fun (t : State) => t.sys.time
  let tp := f (resOf (exec .timePulse s))
  let w := fun (st : TimeState) (ag cnt wd : Nat) => let s := sM id fun y => { y with time := { y.time with state := st, agree := ag, count := cnt, bell := 101 }, inputs := { y.inputs with timeWord := BitVec.ofNat 64 wd } }; resOf (exec .timeWord s)
  let a := w .locked 5 10150000 10150500
  let b := w .locked 5 10150000 10152500
  let c := w .unset 2 10150000 10150100
  let d := w .holdover 2 10150000 10149100
  let h := sM id fun y => { y with time := { y.time with state := .holdover, heldSince := 5 }, now := 10000000005 }
  let ht := resOf (exec .holdoverTimeout h)
  return [("tp", tp.pulse == 10101000 && tp.count == 10101000),
    ("a", (f a).state == .locked && (f a).count == 10150500),
    ("b", (f b).state == .holdover && b.sys.device.msix == [34]),
    ("c", (f c).state == .locked && (f c).bell == 101),
    ("d", (f d).state == .locked && (f d).behind == 900),
    ("h", (f ht).state == .lost && ht.sys.clockCode == 47)]

/-- The checks of `fabricTime` hold. -/
theorem test_fabricTime : fabricTime.all (fun x => x.2) = true := by decide +kernel

end G13

namespace G14

/-- Sensor samples, power samples, register writes and a failed core. From R303, R343, R344, R350. -/
def device : List (String × Bool) := Id.run do
  let th := fun (x : Int) (band : Nat) => let s := sV id fun y => { y with inputs := { thermal := List.replicate 256 x }, power := { y.power with band := band }, market := { y.market with thermal := 150 } }; (s, resOf (exec .sensorSample s))
  let a := th 700 1
  let b := th 770 0
  let b1 := th 770 1
  let c := th 850 1
  let ps := sV id fun y => { y with inputs := { monitors := [some 3000000, some 100] }, power := { y.power with samples := [1] } }
  let f := sV id fun y => { y with faults := [{ id := 77, owner := .ring 3, asid := 0, va := 1, write := true }] }
  let fw := run (.registerWrite 36 4 0x1004D) f
  let g : BitVec 512 := (f.sys.device.globals ||| (BitVec.ofNat 512 0x1004D <<< 288))
  let f2 := { f with sys := { f.sys with device := { f.sys.device with globals := g } } }
  return [("a", a.2.sys.market.thermal == 188 && a.2.sys.power.hottest == 700),
    ("b", b.2.sys.market.thermal == 146 && b1.2.sys.market.thermal == 150),
    ("c", c.2.sys.market.thermal == 142 && c.2.sys.clockCode ≤ 142),
    ("pow", (resOf (exec .powerSample ps)).sys.power.samples == [3000100, 1]),
    ("reg", sameo fw (run (.faultResponseDecline 77) f2)),
    ("r2", sameo (run (.registerWrite 0x2000 4 5) f) (run (.partnoWrite 5) f) && sameo (run (.registerWrite 0x2004 4 0xFF000007) f) (run (.portenWrite 0xFF000007) f) && sameo (run (.registerWrite 0x3008 8 99) f) (run (.quoteNonceWrite 8 8 99) f)),
    ("csf", ((resOf (run (.coreSelfCheckFail ⟨0,0⟩) (mk [] id id))).sys.blocks).isEmpty)]

/-- The checks of `device` hold. -/
theorem test_device : device.all (fun x => x.2) = true := by decide +kernel

end G14

namespace G15

/-- Each wait at issue, and registers outside the bays. From R63 to R65. -/
def waits : List (String × Bool) := Id.run do
  let base := fun (w : Warp) => { w with slotA := { w.slotA with left := 3, mask := 0xFF, setA := 2 }, bays := w.bays.take 2 }
  let op : Op := { id := 1, slot := .B, flag := some 2, path := some .ldb, body := .load .bsm .word 5 [(0,0)] [] }
  let s1 := mk [] (fun w => { base w with ops := [op] })
  let f := F (d:=9) (a:=0) (b:=0) (imm:=true)
  let s2 := mk [] (fun w => { base w with ops := List.replicate 63 { op with flag := none } })
  let st : Op := { op with flag := none, body := .store .bsm 4 [(0,0,0)] [] }
  let s3 := mk [] (fun w => { base w with ops := List.replicate 32 st })
  let s4 := mk [] (fun w => { base w with ops := [{op with flag := none}], slotA := { (base w).slotA with serial := true, serialOp := some 1 } })
  let fr := F (d:=254) (a:=0) (b:=0) (imm:=true)
  let h := fun (i : Instr) (s : State) (x : Hold) => same (exec i s) (waiting s (ctx s) x)
  return [("flag", h (.ldb f) s1 .flagBusy),
    ("write", h (.vadd { f with d := 5 }) s1 .outstandingWrite),
    ("full", h (.ldb f) s2 .fullCounter),
   ("sb", h (.stb f) s3 .fullStoreBuffer),
    ("serial", h (.nop f) s4 .serial),
   ("range", sameo (exec (.vadd fr) (mk [] base)) (raised (mk [] base) (ctx (mk [] base)) { cause := .regRange, resume := 0xFF })),
   ("tile", sameo (exec (.mzero f) (mk [] base)) (raised (mk [] base) (ctx (mk [] base)) { cause := .regRange, resume := 0xFF })),
    ("bays", (ctx s1).w.bays.length * 32 < 254)]

/-- The checks of `waits` hold. -/
theorem test_waits : waits.all (fun x => x.2) = true := by decide +kernel

end G15

namespace G16

/-- What an instruction that has completed but for its fault answers. -/
def trapOn (s : State) (c : Ctx) (i : TrapInfo) : Host.Outcome State Fault Refusal := work s fun _ t => t.raise c.ref c.z i true

/-- Poisoned elements read across lanes, and the flags of a reduction. From R123, R129, R130. -/
def acrossLanes : List (String × Bool) := Id.run do
  let s := mk [] (fun w => let w := wm w; { (w.setElem 1 2 0x4B800000).setElem 1 0 0x3F800000 with vPoison := [64 * 1 + 5, 64 * 2 + 3] })
  let c := ctx s
  let f := F (d := 9) (a := 1) (b := 5) (imm := true) (g := .set 1)
  let bad : TrapInfo := { cause := .poison, resume := 5 }
  let r := wof (run (.redl { f with sub := 0 }) s)
  return [("idx", sameo (run (.shflIdx f) s) (trapOn s c bad)),
    ("idxOk", (wof (run (.shflIdx { f with b := 2 }) s)).elem 9 0 == 0x4B800000),
    ("up", (wof (run (.shflUp { f with b := 6 }) s)).elem 9 2 == 0),
    ("extract", sameo (run (.vextr f) s) (trapOn s c bad)),
    ("redl", r.elem 9 0 == 0x4B800000 && r.elem 9 2 == 0x4B800000 && r.flags == 16)]

/-- The checks of `acrossLanes` hold. -/
theorem test_acrossLanes : ok acrossLanes = true := by decide +kernel

/-- Elements of lanes 0 and 1: 1, 2^−24, −0.3, 3·10^9, 2^−127, 2.5, two halves of 1 + 2^−10, the largest value, 3. -/
def floatV : List Nat := [0x3F800000, 0x33800000, 0xBE99999A, 0x4F32D05E, 0x00400000, 0x40200000, 0x3C013C01, 0x7F7FFFFF, 0x40400000]

/-- The state of these checks. -/
def SF : State := mk [] fun w =>
  let w := floatV.zipIdx.foldl (fun (w : Warp) x => (w.setElem x.2 0 (BitVec.ofNat 32 x.1)).setElem x.2 1 (BitVec.ofNat 32 x.1)) w
  { w with slotA := { w.slotA with left := 3, mask := 3 } }

/-- Lane 1 of v20 and FLAGS after the instruction. -/
def rounds (i : Instr) (x : Word) (fl : BitVec 5) : Bool := let w := wof (run i SF); w.elem 20 1 == x && w.flags == fl

/-- Results rounded once, with their flags. Worked by hand from R79 to R86, R136, R140 to R143. -/
def roundedResults : List (String × Bool) :=
  [("rn", rounds (.fadd (vF 0 1)) 0x3F800000 16), ("ru", rounds (.fadd { vF 0 1 with rnd := .ru }) 0x3F800001 16),
   ("sub", rounds (.fsub (vF 0 1)) 0x3F7FFFFF 0), ("ffma", rounds (.ffma (vF 8 8 5)) 0x41380000 0),
   ("of", rounds (.fmul (vF 7 8)) 0x7F800000 20), ("ofSat", rounds (.fmul { vF 7 8 with sat := true }) 0x7F7FFFFF 16),
   ("fscl", rounds (.fscl (vF 0 0x82 0 true)) 0x00800000 0), ("frnd", rounds (.frnd (vF 5 0)) 0x40000000 16),
   ("pf", rounds (.pfmul (vF 6 6 0 false 0 1)) 0x3C023C02 16), ("negN", rounds (.fcvti (vF 2 0 0 false 0 1)) 0 0),
   ("negI", rounds (.fcvti (vF 2 0)) 0 16), ("clamp", rounds (.fcvti (vF 3 0)) 0x7FFFFFFF 1),
   ("e8m0", rounds (.fcvt (vF 4 0 0 false 0 6)) 0 0), ("e8m0One", rounds (.fcvt (vF 0 0 0 false 0 6)) 127 0),
   ("half", FloatFmt.fp16.round nearest false false { neg := true, m := 3, e := -25 } == (0x8002, 24)),
   ("ftz", FloatFmt.fp16.round nearest false true { neg := true, m := 3, e := -25 } == (0x8000, 24)),
   ("ftzE", FloatFmt.e4m3.round nearest false true { neg := false, m := 1, e := -9 } == (1, 0)),
   ("inf", FloatFmt.fp32.round { mode := .rz } false false { neg := true, m := 1, e := 129 } == (0xFF7FFFFF, 20)),
   ("max", FloatFmt.e4m3.round nearest true false { neg := false, m := 1, e := 10 } == (0x7E, 16))]

/-- The checks of `roundedResults` hold. -/
theorem test_roundedResults : ok roundedResults = true := by decide +kernel

/-- The precision of the .T forms: 100 + 20 sixteenths need 10 bits of an entry with 8 and 4 more for each iteration; and 1/3 to eight
bits is 171 · 2^−9. From R146. -/
def precision : List (String × Bool) :=
  let b (e : ClassEntry) (spawn : Bool) : Block := { placedBlock 1 false with spawn := spawn, entry := e }
  let e : ClassEntry := { uOwn := 20, kind := 2, init := 8, gain := 4 }
  [("iter", tolerantBits (b e false) 100 == 10), ("force", tolerantBits (b e false) (100 + 2 ^ 13) == 24),
   ("spawn", tolerantBits (b e true) 100 == 24), ("kind", tolerantBits (b { e with kind := 1 } false) 100 == 24),
   ("never", tolerantBits (b { e with gain := 0 } false) 100 == 24), ("third", (SpecialFn.rcp.tolerant 8 false false 0x40400000).1 == 0x3EAB0000),
   ("zero", SpecialFn.rcp.tolerant 8 false false 0x80000000 == (0xFF800000, 2))]

/-- The checks of `precision` hold. -/
theorem test_precision : ok precision = true := by decide +kernel

/-- A replaced stack keeps the poison of the positions that stay. From R24, R244 (d). -/
theorem test_stackReplaced :
    let w : Warp := { rank := 0, rs := [.join 5 1, .pend 6 2, .pend 7 4], rsPoison := [1, 2, 3] }
    (w.withRs [.join 5 1, .pend 6 3]).rsPoison = [1] := by decide +kernel

end G16

namespace G17

/-- An operation of slot A. -/
def op (id : Nat) (body : OpBody) (path : Option Path := none) (flag : Option Nat := none) : Op := { id := id, slot := .A, flag := flag, path := path, body := body }
/-- A page of the window at address 0, in the core's cache, and all window pages but that one unmapped. -/
def win (y : Sys) : Sys := y.setCore ⟨0,0⟩ fun k => { k with tlb := { asid := 0, window := true, base := 0, size := 1, pa := 5 } :: k.tlb }
/-- Where address 0 of that page lies. -/
def pw : Nat := scratchpadBase 0 0 + 5 * 65536

/-- Lanes 0 and 2 of an access: lane 0 at 8, lane 2 at an address. -/
def two (a : Nat) : State := mk [] (fun w => let w := (wm w).setScalar 4 (BitVec.ofNat 64 a); (w.setElem 2 0 8).setElem 2 2 (BitVec.ofNat 32 a)) id win

/-- Lane 0 starts with this body, and the instruction traps for the lanes of a mask. -/
def traps (i : Instr) (a : Nat) (m : Mnem) (body : Option OpBody) (k : Cause) (resume : LaneMask) (addr : Nat) : Bool :=
  let s := two a
  let c := ctx s
  let s1 := if m == .atom || m == .atomc || m == .atomf then { s with sys := s.sys.setEffect 1 true } else s
  let t := match body with | some b => { s1 with sys := s1.sys.addOp c m (flagOf m c) false b } | none => s
  sameo (run i s) (raised t c { cause := k, resume := resume, addr := addr })

/-- Misaligned and out-of-range lanes of every access. From R149 to R153, R161. -/
def accessFaults : List (String × Bool) :=
  let f := { F (d := 3) (a := 2) (imm := true) (g := .set 1) with form := .w96, lit := 0, mod := 1 }
  let ft := { f with a := 4 }
  let fa := { F (d := 8) (a := 2) (b := 3) (c := 5) (g := .set 1) with sub := 0 }
  let load (sp : Space) (a : Nat) := some (OpBody.load sp .word 3 [(0, a)] [])
  let store (sp : Space) (a : Nat) := some (OpBody.store sp 4 [(0, a, 0)] [])
  let atom (o : AtomicOp) (sp : Space) (a : Nat) (pages : List Nat) := some (OpBody.atomic o sp false 8 [{ lane := 0, addr := a, b := 0, c := 0 }] pages)
  [("ldbM", traps (.ldb f) 6 .ldb (load .bsm 8) .misaligned 4 6), ("ldbR", traps (.ldb f) 0x40000 .ldb (load .bsm 8) .bsmRange 4 0x40000),
   ("stbM", traps (.stb f) 6 .stb (store .bsm 8) .misaligned 4 6), ("stbR", traps (.stb f) 0x3FFFE .stb (store .bsm 8) .misaligned 4 0x3FFFE),
   ("ldlM", traps (.ldl f) 7 .ldl (load .priv 8) .misaligned 4 7), ("ldlR", traps (.ldl f) 512 .ldl (load .priv 8) .localRange 4 512),
   ("stlM", traps (.stl f) 7 .stl (store .priv 8) .misaligned 4 7), ("stlR", traps (.stl f) 512 .stl (store .priv 8) .localRange 4 512),
   ("ldtM", traps (.ldt ft) 2 .ldt none .misaligned 5 2), ("sttM", traps (.stt ft) 2 .stt none .misaligned 5 2),
   ("ldtR", traps (.ldt ft) 0x10000 .ldt none .windowFault 5 0x10000),
   ("atomM", traps (.atom fa) 6 .atom (atom .add .bsm 8 []) .misaligned 4 6), ("atomcM", traps (.atomc fa) 6 .atomc (atom .cas .bsm 8 []) .misaligned 4 6),
   ("atomfR", traps (.atomf fa) 0x40000 .atomf (atom .fadd .bsm 8 []) .bsmRange 4 0x40000),
   ("atomR", traps (.atom { fa with x := true }) 0x10000 .atom (atom .add .tsp (pw + 8) [0]) .windowFault 4 0x10000)]

/-- The checks of `accessFaults` hold. -/
theorem test_accessFaults : ok accessFaults = true := by decide +kernel

/-- LDPERM refused and held, and a page without room in the miss queue. From R126, R221, R239. -/
def held : List (String × Bool) := Id.run do
  let s := mk [] (fun w => { (wm w).setScalar 4 0x100 with ops := [op 3 (.load .bsm .word 3 [(0, 0x120)] []) (some .ldb)] }) (fun b => { b with bsmPoison := [0x200] })
  let c := ctx s
  let f := fun (n : Nat) => { F (a := 4) (b := n) (imm := true) with form := .w64 }
  let trap := fun (k : Cause) (a : Nat) => raised s c { cause := k, resume := 0xFF, addr := a }
  let far := mk [] fun w => (wm w).setScalar 4 (0x40000 - 40)
  let e : TlbEntry := { asid := 9, window := true, base := 0, size := 1, pa := 0 }
  let full := mk [] (fun w => (wm w).setScalar 4 0x100) id fun y => { y.setTower 0 fun t => { t with walks := List.replicate 1024 e } with device := { globals := 0x10000, devReady := ready } }
  let fullV := { full with phys := { mem := vMem } }
  let atom := { F (d := 8) (a := 2) (b := 3) (g := .set 1) with x := true }
  return [("poison", sameo (run (.ldperm (f 0xD8)) s) (trap .poison 0x1D8)), ("odd", sameo (run (.ldperm (f 4)) s) (trap .misaligned 0x104)),
    ("range", sameo (run (.ldperm (f 0)) far) (raised far (ctx far) { cause := .bsmRange, resume := 0xFF, addr := 0x40000 - 40 })),
    ("earlier", same (run (.ldperm (f 8)) s) (waiting s c .earlierAccess)),
    ("ldt", same (run (.ldt { F (d := 8) (a := 4) (imm := true) (g := .set 1) with form := .w96, mod := 1 }) fullV) (waiting fullV (ctx fullV) .translation)),
    ("atom", same (run (.atom atom) fullV) (waiting fullV (ctx fullV) .translation))]

/-- The checks of `held` hold. -/
theorem test_held : ok held = true := by decide +kernel

/-- Completions: LDPERM, a load from a drawer given up, a load held back, and a store behind another one. From R126, R204, R221, R227. -/
def completions : List (String × Bool) := Id.run do
  let pa := scratchpadBase 0 0 + 77 * 65536 + 0x100
  let sp := mk [] fun w => { wm w with ops := [op 4 (.loadPerm 0xABCDEF) none (some 2)] }
  let dev := fun (y : Sys) => { y with device := { globals := 0x10000, devReady := ready } }
  let sg0 := mk [] (fun w => { wm w with took := true, ops := [op 4 (.load .tsp .word 3 [(0, pa)] [0]) (some .ldt) (some 2)] }) (fun b => { b with parentDrawer := some 0x100, drawerSize := 64 }) dev
  let sg : State := { sg0 with phys := { mem := vMem, poison := [pa] } }
  let sn : State := { sg with sys := { sg.sys with blocks := sg.sys.blocks.map fun b => { b with parentDrawer := none } } }
  let so := mk [] fun w => { wm w with ops := [op 4 (.load .bsm .word 3 [(0, 8)] []) (some .ldb), op 5 (.load .bsm .word 7 [(1, 8)] []) (some .ldb)] }
  let ss := mk [] fun w => { wm w with ops := [op 4 (.store .bsm 4 [(0, 8, 1)] []), op 5 (.store .bsm 4 [(0, 16, 2)] [])] }
  let w := wof (run (.storeBufferEntryPerformed ⟨1,0⟩ 5) ss)
  return [("perm", (wof (run (.loadStoreCompletion ⟨1,0⟩ 4 .clean) sp)).perm == 0xABCDEF),
    ("gaveUp", let w := wof (run (.loadStoreCompletion ⟨1,0⟩ 4 .clean) sg); w.elemPoisoned 3 0 == false && w.ops == []),
    ("kept", (wof (run (.loadStoreCompletion ⟨1,0⟩ 4 .clean) sn)).elemPoisoned 3 0),
    ("order", same (run (.loadStoreCompletion ⟨1,0⟩ 5 .clean) so) so), ("passed", w.ops.map (fun x => (x.id, x.passed)) == [(4, true)])]

/-- The checks of `completions` hold. -/
theorem test_completions : ok completions = true := by decide +kernel

/-- An arrival that waits is made when the last access completes; BSYNC with two warps, and with a load outstanding. From R167, R169. -/
def arrivals : List (String × Bool) := Id.run do
  let bb := fun (o : Host.Outcome State Fault Refusal) => ((resOf o).sys.block 1).getD (placedBlock 9 false)
  let sa := mk [] (fun w => { wm w with ops := [op 4 (.load .bsm .word 3 [(0, 8)] []) (some .ldb), op 5 (.arrive 2 7)] }) fun b => { b with barriers := (List.range 10).map fun i => { count := BitVec.ofNat 32 (5 + i) } }
  let ba := bb (run (.loadStoreCompletion ⟨1,0⟩ 4 .clean) sa)
  let two := fun (ops : List Op) => mk [0,0] wm fun b => { b with warps := b.warps.flatMap fun w => [w, { w with rank := 1, slotA := { w.slotA with hold := .bsync, left := 2 }, ops := ops }] }
  let s := two []
  let c := ctx s
  let b := bb (run (.bsync F) s)
  let sl := two [op 4 (.load .bsm .word 3 [(0, 8)] []) (some .ldb)]
  let bl := bb (run (.bsync F) sl)
  let be := bb (run (.loadStoreCompletion ⟨1,1⟩ 4 .clean) (resOf (run (.bsync F) sl)))
  return [("arrive", ba.barrier 2 == { count := 0 } && ba.barrier 3 == { count := 8 } && (ba.warp 0).map Warp.ops == some []),
    ("both", b.generation == 1 && (b.warp 0).map (fun w => w.slotA) == some { c.slot with pc := c.slot.pc + 1, left := 2 } &&
      (b.warp 1).map (fun w => (w.slotA.pc, w.slotA.left, w.slotA.hold)) == some (c.slot.pc + 1, 1, .none)),
    ("waits", bl.generation == 0 && (bl.warp 0).map (fun w => w.slotA.hold) == some .bsync), ("ends", be.generation == 1)]

/-- The checks of `arrivals` hold. -/
theorem test_arrivals : ok arrivals = true := by decide +kernel

/-- A hot line goes to the engine whose request is the oldest; the Atomic Engine stays with what it has taken. From R162, R289. -/
def engineOrder : List (String × Bool) := Id.run do
  let at_ := fun (n a : Nat) => op n (.atomic .add .bsm false 3 [{ lane := 0, addr := a, b := 1, c := 0 }] []) (some .atom)
  let s := mk [] (fun w => { wm w with ops := [at_ 4 8, at_ 5 16] })
  let taken := { s with sys := s.sys.setCore ⟨0,0⟩ fun k => { k with taking := some (⟨1,0⟩, 5) } }
  let turn := fun (s : State) => (s.sys.nextAtomic ⟨0,0⟩).map fun x => x.2.id
  return [("oldest", turn s == some 4), ("taken", turn taken == some 5)]

/-- The checks of `engineOrder` hold. -/
theorem test_engineOrder : ok engineOrder = true := by decide +kernel

end G17

namespace G18

/-- An operation of slot A. -/
def op (id : Nat) (body : OpBody) (path : Option Path := none) : Op := { id := id, slot := .A, flag := none, path := path, body := body }
/-- A word in the BSM. -/
def putw (m : Sparse 8) (a x : Nat) : Sparse 8 := (natToBytes 4 x).zipIdx.foldl (fun m y => m.put (a + y.2) y.1) m
/-- A's rows 0 and 2 are [1, 2] and [a signalling NaN, 0]; column 1 of B is 1 in every row; the format block is 0. -/
def bsm : Sparse 8 :=
  (List.range 16).foldl (fun m i => putw m (0x2000 + 256 * i + 4) 0x3F800000)
    (putw (putw (putw (putw [] 0 0x3F800000) 4 0x40000000) 128 0x7F800001) 0x400 0)
/-- A descriptor: address and stride. -/
def desc (a st : Nat) : DWord := BitVec.ofNat 64 (a + st * 2 ^ 32)
/-- An MMA of tiles 2 and the BSM. -/
def sm (fw : Warp → Warp := id) (fb : Block → Block := id) (fs : Sys → Sys := id) : State :=
  mk [0,0] (fun w => fw ((((wm w).setScalar 1 (desc 0 64)).setScalar 2 (desc 0x2000 256)).setScalar 3 0x400)) (fun b => fb { b with bsm := bsm }) fs
/-- Its fields. -/
def fm : Fields := F (d := 2) (a := 1) (b := 2) (c := 3) (g := .set 1)
/-- Row fetches one after another. -/
def fetch (s : State) (n : Nat) : State := (List.range n).foldl (fun s _ => resOf (run (.mmaRowFetch ⟨1,0⟩ 10) s)) s

/-- The waits of an MMA at issue and of its fetches. From R188, R193, R221, R295. -/
def matrixWaits : List (String × Bool) := Id.run do
  let byp := sm fun w => { w with ops := [op 4 (.tileBypass 1 2 .rn false 5)] }
  let other := fun (slice : Nat) => sm id (fun b => { b with warps := b.warps.flatMap fun w => [w, { w with rank := 1, slice := slice, slotA := { w.slotA with hold := .slew } }] }) fun y => y.setTower 0 fun t => { t with clock := 4 }
  let heldS := sm fun w => { w with ops := [op 4 (.load .bsm .word 3 [(0, 0x2004)] []) (some .ldb)] }
  let issuedH := resOf (run (.mma fm) heldS)
  return [("bypass", same (run (.mmaByp fm) byp) (waiting byp (ctx byp) .bypassTile)),
    ("turn", same (run (.mma fm) (other 5)) (waiting (other 5) (ctx (other 5)) .slew)), ("ownTurn", same (run (.mma fm) (other 3)) (waiting (other 3) (ctx (other 3)) .slew) == false),
    ("heldB", same (run (.mmaRowFetch ⟨1,0⟩ 10) issuedH) issuedH)]

/-- The checks of `matrixWaits` hold. -/
theorem test_matrixWaits : ok matrixWaits = true := by decide +kernel

/-- A failing fetch before any row, a completion with flags and a row that a re-execution lost, and elements: 0 + 1·1 + 2·1, and a
signalling NaN. From R88, R89, R192 to R194. -/
def matrixEnds : List (String × Bool) := Id.run do
  let k : MmaWork := { sparse := false, byp := false, tile := 2, aTile := 1, aDesc := 0, bDesc := 0, fbAddr := 0x400, fb := 0, kd := 16, fmtA := 0, fmtB := 0, bound := 77, ftz := false, active := 32, start := 0, bRows := some [], bad := [5], fetched := true, flags := 4 }
  let w := wof (run (.mmaCompletion ⟨1,0⟩ 10) (sm fun w => { w with ops := [op 10 (.mma k) (some .mma)] }))
  let rows : MmaWork := { k with aDesc := desc 0 64, active := 5, bad := [], fetched := false, flags := 0 }
  let wb := wof (run (.mmaRowFetch ⟨1,0⟩ 10) (sm (fun w => { w with ops := [op 4 (.tileZero 7 1), op 10 (.mma rows) (some .mma)] }) fun b => { b with bsmPoison := [0] }))
  return [("fail", wb.rpr == 0 && (wb.op 10).isNone && wb.slotA.trap == some { cause := .poison, resume := 5, addr := 0 } && wb.tiles == []),
    ("done", w.ops == [] && w.rpr == 0 && w.mcert == 77 && w.flags == 4 && NatSet.has w.tilePoison (4096 * 2 + 64 * 5 + 9) && (w.tileCtl.getD 2 {}).bypf == 7),
    ("element", matrixElement false 0 [some (fp32 0x3F800000), some (fp32 0x40000000)] [fp32 0x3F800000, fp32 0x3F800000] == (0x40400000, 0)),
    ("signalling", matrixElement false 0 [some (fp32 0x7F800001)] [fp32 0x3F800000] == (0x7FC00000, 1))]

/-- The checks of `matrixEnds` hold. -/
theorem test_matrixEnds : ok matrixEnds = true := by decide +kernel

/-- A FILL card of 10 bytes of the BSM at 0x200, which it declares as its write range. -/
def fill : Nat := 7 + 2 * 2^4 + 0 * 2^8 + 1 * 2^11 + 5 * 2^32 + 0x200 * 2^128 + 0xAB * 2^224 + (1 + 16 + 8 * 2^18) * 2^384
/-- Its shape record. -/
def shape : Nat := 10 * 2^64

/-- Two FILL cards that meet, the waits of KICK and MDRAIN, and a card stopped by its block. From R179, R181, R283 to R285. -/
def cardCourse : List (String × Bool) := Id.run do
  let bs0 : Sparse 8 := ((natToBytes 64 fill) ++ (natToBytes 64 shape)).zipIdx.foldl (fun m y => m.put (0x100 + y.2) y.1) []
  let s := mk [] (fun w => (wm w).setScalar 4 0x100) (fun b => { b with bsm := bs0 })
  let f := F (a := 4)
  let c : Card := { id := 7, block := 1, rank := 0, addr := 0x100, card := fill, shape := shape, tol := 0, rngkey := 0, fmt := 0, scope := 0, asid := 0, drain := none }
  let put := fun (k : Core → Core) => { s with sys := s.sys.setCore ⟨0,0⟩ k }
  let kicked := put fun k => { k with cards := [c], kick := some { warp := ⟨1,0⟩, op := 5, cards := [{ c with id := 8 }] } }
  let t := resOf (run (.cardEnterChecker ⟨0,0⟩) kicked)
  let t1 := resOf (run (.cardStart ⟨0,0⟩) t)
  let t2 := resOf (run (.cardStart ⟨0,0⟩) t1)
  let stop := { t with sys := { t.sys with blocks := t.sys.blocks.map fun b => { b with stopping := true } } }
  let busy := put fun k => { k with kick := some { warp := ⟨1,0⟩, op := 5, cards := [c] } }
  let late := put fun k => { k with kickAt := some 0 }
  let sd := mk [] (fun w => { (wm w).setScalar 4 0x100 with ops := [op 4 (.tileZero 3 1)] }) (fun b => { b with bsm := bs0 })
  let so := mk [] (fun w => { (wm w).setScalar 4 0x100 with ops := [op 4 (.load .bsm .word 3 [(0, 8)] []) (some .ldb)] })
  let states : State → List (Nat × CardState × List Nat) := fun t => (t.sys.core ⟨0,0⟩).cards.map fun x => (x.id, x.state, x.behind)
  return [("enter", states t == [(7, .waiting, []), (8, .waiting, [7])]), ("start", states t1 == [(7, .running, []), (8, .waiting, [7])]),
    ("blocked", states t2 == states t1), ("stopping", states (resOf (run (.cardStart ⟨0,0⟩) stop)) == states t),
    ("busy", same (run (.kick f) busy) (waiting busy (ctx busy) .kickRegister)), ("cycle", same (run (.kick f) late) (waiting late (ctx late) .kickRegister)),
    ("drained", same (run (.kick f) so) (waiting so (ctx so) .release)), ("tile", same (run (.mdrain { f with d := 3 }) sd) (waiting sd (ctx sd) .drainBuffer))]

/-- The checks of `cardCourse` hold. -/
theorem test_cardCourse : ok cardCourse = true := by decide +kernel

/-- SPAWN with the queue full, the order of its items, and a certificate behind a store to its bytes. From R205, R221, R262. -/
def sweepCourse : List (String × Bool) := Id.run do
  let v0 := fun w => [0,2].foldl (fun (w : Warp) l => ((w.setElem 2 l (BitVec.ofNat 32 l)).setElem 3 l 7)) (wm w)
  let f := { F (a := 2) (b := 33) (c := 4) (imm := true) (g := .set 1) with form := .w64 }
  let item := fun (n : Nat) => ({ sweep := 7, prog := 33, stage := 0, arg0 := 0, arg1 := 0, spawner := 9, core := 0, seq := n } : SpawnItem)
  let g : Forming := { id := 4, sweep := 7, prog := 33, stage := 0, items := [item 0, item 1], since := 0 }
  let s := mk [] v0 (fun b => { b with sweep := 7 }) fun y => Sys.setCore { y with sweeps := G8.sweeps0, order := 5 } ⟨0,0⟩ fun k => { k with forming := [g] }
  let t := resOf (run (.spawn f) s)
  let full := fun (area : Nat) => mk [] (fun w => { v0 w with m := w.m.put 1 1, slotA := { w.slotA with left := 3, mask := 0xFF, setA := 2 } }) (fun b => { b with sweep := 7 }) fun y =>
    Sys.setCore { y with sweeps := G8.sweeps0.map fun w => { w with sparea := 0x1000, splen := area } } ⟨0,0⟩ fun k =>
      { k with forming := (List.range 64).map fun n => { g with id := n, ready := true, items := List.replicate 64 (item n) } }
  let v := ((resOf (run (.spawn f) (full 4))).sys.sweeps.head?).map fun w => (w.spawnArea.map fun x => (x.prog, x.arg0), w.items)
  let none_ := run (.spawn f) (full 0)
  let sc := mk [] (fun w => { wm w with ops := [op 3 (.store .tsp 4 [(0, 0x20000000100, 5)] []), op 4 (.cert 9 77 0x20000000100 none)] })
  return [("order", (t.sys.core ⟨0,0⟩).forming.map (fun g => g.items.map fun x => (x.seq, x.arg0)) == [[(0, 0), (1, 0), (5, 0x700000000), (6, 0x700000002)]]),
    ("area", v == some ([(33, 0x700000000)], 1)),
    ("noArea", sameo none_ (work (full 0) fun _ t => (t.map fun y => y.setEffect 1 true).abortSweep .spawnArea 0 0 7)),
    ("cert", same (run (.certCompletion ⟨1,0⟩ 4) sc) sc)]

/-- The checks of `sweepCourse` hold. -/
theorem test_sweepCourse : ok sweepCourse = true := by decide +kernel

end G18

namespace G19

/-- Everything is ready but the memory stack 1, which holds 0x31000. -/
def partly : DWord := 0x3FFFFFF7
/-- A device with its queue 2 enabled and one packet in its ring. -/
def sQ (base : Nat) (dev : DWord) (m : Memory → Memory := id) (f : Sys → Sys := id) : State :=
  sV m fun y => f { y with device := { y.device with devReady := dev },
                            queues := y.queues.set 2 (((({ regs := Queue.reset.regs } : Queue).setField 51 0 base).setField 106 106 1).setField 159 128 1) }

/-- Steps that run an event, the evaluation of a WAIT that is due, nothing, a packet, or a queue that is held. From R34, R230, R324, R325. -/
def steps : List (String × Bool) := Id.run do
  let s := mk [H, 0x4] (fun w => { w with slotA := { w.slotA with left := 0 } }) id fun y => { y with agenda := [.issue ⟨1,0⟩ .B, .tick] }
  let ev := sV id fun y => { y with agenda := [.event .preemptTimeout, .tick] }
  let due := sV id fun y => { y with agenda := [.tick], packets := [{ opened sV (pr 2) (.wait 0x30000 15 3 0 false) true with id := 4 }] }
  let good := { sQ 0x90000 ready (fun m => setMem m 0x90000 2 0x0500) with sys := { (sQ 0x90000 ready).sys with agenda := [.start 2] } }
  let y := unslotted (taken good [])
  let v := 0x0500
  let p := packetRef 2 0 v
  let held := { sQ 0x31000 partly with sys := { (sQ 0x31000 partly).sys with agenda := [.start 2] } }
  let off := sV id fun y => { y with agenda := [.start 2] }
  return [("notPick", same (step s) (unslotted (taken s [.tick]))), ("event", sameo (step ev) (exec .preemptTimeout (unslotted (taken ev [.tick])))),
    ("due", (dueWait due.phys due.sys) == some 4 && sameo (step due) (exec (.waitEvaluate 4) (unslotted due.takeEcc))),
    ("start", sameo (step good) (exec (decodePacket p v) { y with sys := { y.sys.setQueue 2 fun x => x.setField 191 160 1 with starting := some p } })),
    ("held", held.sys.mayStart 2 && same (step held) (unslotted (taken held []))), ("off", same (step off) (unslotted (taken off [])))]

/-- The checks of `steps` hold. -/
theorem test_steps : ok steps = true := by decide +kernel

/-- A leaf table or a context table in a memory that is not ready, a walk without room in the miss queue, a cached page. From R230, R237 to R239. -/
def heldWalks : List (String × Bool) := Id.run do
  let s := G9b.sT (1 + 2 + 4 + 4096 * 0x55)
  let va := 0x482345678
  let c : CoreRef := ⟨1, 3⟩
  let dark := fun (bit : Nat) => { s with sys := { s.sys with device := { s.sys.device with devReady := ready ^^^ (1#64 <<< bit) } } }
  let e : TlbEntry := { asid := 0, window := false, base := 0x482340000, size := 0x10000, pa := 0x700000, r := true, w := false }
  let hit := { s with sys := s.sys.setCore c fun k => { k with tlb := [e] } }
  let full := { s with sys := s.sys.setTower 0 fun t => { t with walks := List.replicate 1024 e } }
  return [("leaf", translate (dark 5).phys (dark 5).sys c 0 va true false == .held), ("context", translate (dark 2).phys (dark 2).sys c 0 va true false == .held),
    ("contextHeld", (dark 2).sys.contextHeld 0), ("cached", translate hit.phys hit.sys c 0 va true false == .ok 0x705678 && translate hit.phys hit.sys c 0 va false true == .notPermitted),
    ("join", let t := fillWindow s.phys s.sys ⟨0,3⟩ 0 3; (t.tower 0).walks.length == 1 && cachedWindow t ⟨0,7⟩ 0 3 == some { asid := 0, window := true, base := 3, size := 1, pa := 77 }),
    ("full", fillWindow full.phys full.sys ⟨0,3⟩ 0 3 == full.sys)]

/-- The checks of `heldWalks` hold. -/
theorem test_heldWalks : ok heldWalks = true := by decide +kernel

/-- Packets held at their start, a bad host completion, completions held, and WAITs of every outcome. From R230, R245, R322 to R327. -/
def heldPackets : List (String × Bool) := Id.run do
  let s := sQ 0x90000 partly
  let p := pr 2
  let op := fun (i : Instr) (s : State) (w : PacketWork) (b : Bool) => (resOf (exec i s)).sys.packets == [opened s p w b] && (resOf (exec i s)).phys == s.phys
  let noCtx := sQ 0x90000 (ready ^^^ (1#64 <<< 2))
  let host := 0x40000000000
  let sh := sV (fun m => setMem m 0x30008 8 (1 + 2 + 4 + 8 + host)) fun y => { y with inputs := { y.inputs with hostErrors := [(host + 5, 1)] } }
  let ch := resOf (run (.copy p (.main 0x400000005) (.main 0x31000) 1) sh)
  let w := fun (asked : Bool) (va : Nat) (now : Nat) => sQ 0x90000 partly id fun y => { y with now := now, packets := [{ opened sV p (.wait va 16 7 0 asked) true with id := 4 }] }
  let ends := fun (i : Instr) (s : State) (x : PacketWork) => ((resOf (run i s)).sys.packet 4).map (fun x => (x.work, x.fault)) == some (x, none)
  let comp := (sQ 0x90000 partly id fun y => { y with queues := y.queues.map fun q => q.setField 243 192 0x31000, packets := [{ opened sV p (.done 0 0 0 0) false with id := 4 }] })
  let t := resOf (run (.packetCompletion 4) comp)
  return [("wait", op (.wait p 0x31000 15 3) s (.wait 0x31000 15 3 0 false) true), ("signal", op (.signal p 0x31000 5 true) s (.signal 0x31000 5 true) false),
    ("map", op (.mapRun p 0 2 3 99) noCtx (.map 0 2 3 (some 99)) false), ("unmap", op (.unmapRun p 0 2 3) noCtx (.map 0 2 3 none) false),
    ("copy", op (.copy p (.main 0x31000) (.main 0x30000) 5) s (.copy (.main 0x31000) (.main 0x30000) 5 0) false),
    ("sweep", op (.sweep p 0x31000) s (.sweep 0x31000 none) false),
    ("host", ch.phys.poisoned 0x31000),
    ("evalHeld", same (run (.waitEvaluate 4) (w false 0x31000 9)) (w false 0x31000 9)), ("toHeld", ends (.waitTimeout 4) (w false 0x31000 7000000) (.done 2 0 0 0)),
    ("absent", ends (.waitEvaluate 4) (w false 0x800000000000 9) (.wait 0x800000000000 16 7 0 true)), ("decline", ends (.pageRequestResponse 4 false) (w true 0x31000 9) (.done 3 2 0 0)),
    ("answer", ends (.pageRequestResponse 4 true) (w true 0x30000 9) (.wait 0x30000 16 7 0 false)), ("asked", ends (.waitTimeout 4) (w true 0x30000 7000000) (.done 2 0 0 0)),
    ("held", t.sys.packets == comp.sys.packets && t.phys == comp.phys)]

/-- The checks of `heldPackets` hold. -/
theorem test_heldPackets : ok heldPackets = true := by decide +kernel

/-- The Command Processor does not run; in recovery, because the booted image was not whole. -/
def down (whole : Bool) : State := sV id fun y => { y with device := { y.device with devReady := 1, bootedWhole := whole } }

/-- Queue registers in recovery, and with WPTR far ahead. From R320, R329, R351. -/
def queueRegisters : List (String × Bool) := Id.run do
  let far := sV id fun y => { y with queues := y.queues.set 2 ((({ regs := Queue.reset.regs } : Queue).setField 159 128 30).setField 51 0 0x90000) }
  let t := resOf (run (.queueEnable 2) far)
  let bad := sV id fun y => { y with queues := y.queues.set 2 (({ regs := Queue.reset.regs } : Queue).setField 81 80 3) }
  return [("recovery", [Instr.queueDoorbell 2 3, .queueEnable 2, .queueDisable 2, .registerWrite 36 4 5, .partnoWrite 3, .functionReady .cp].all fun i =>
      same (run i (down false)) (down false)),
    ("halt", (t.sys.queue 2).field 106 106 == 1 && (t.sys.queue 2).field 107 107 == 1), ("bad", same (run (.queueEnable 2) bad) bad)]

/-- The checks of `queueRegisters` hold. -/
theorem test_queueRegisters : ok queueRegisters = true := by decide +kernel

/-- The Command Processor does not run and the part is not in recovery, when its image verifies, which is the model's free value. From R329. -/
theorem test_downWithoutRecovery (h : imageVerifies 0 = true) :
    (down true).sys.ready 1 = false ∧ (down true).sys.device.recovery = false ∧ (down true).sys.ready 0 = true := by
  have hr : (down true).sys.device.recovery = false := by simp [down, sV, Device.recovery, h]
  exact ⟨by decide +kernel, hr, by decide +kernel⟩

end G19

namespace G20

/-- A device with the pool of tower 0 set to 4 MiB. -/
def pool (y : Sys) : Sys := { y with device := { y.device with globals := 0x10000 ||| (4 <<< 116) } }
/-- The record of block 1, waiting for its units. -/
def rec1 : PreemptRecord := { index := 0, need := 0xF004, ack := 0x7000, reason := .hostRequest, state := 1, core := 0, coreNo := 0, block := 1, t0 := 0, at_ := 0, room := 0, size := 0x20000 }

/-- A dispatch cycle that is taken; the triggers of a pre-emption; a unit that has not stopped; a request without room. From R259, R266, R279, R307, R311. -/
def courses : List (String × Bool) := Id.run do
  let nodes := [G10.nd 0 0x3210 false 2 1, G10.nd 1 0x1234, G10.nd 2 0x0234]
  let w := { G10.sw1 [{ node := 0, stage := 0 }, { node := 1, stage := 0, state := .admitted, readyAt := some 3, res := 1 }] nodes with queue := 2 }
  let off := fun (y : Sys) => { y with towers := y.towers.map fun t => { t with clock := 3000, cores := t.cores.map fun k => { k with usable := false } } }
  let s := sV id fun y => { y with sweeps := [w] }
  let done := { s with sys := s.sys.setTower 0 fun t => { t with dispatchedAt := some 0 } }
  let b : Block := { placedBlock 1 false with sweep := 7, queue := 3, idemp := true }
  let q := fun (cls : Nat) => { Queue.reset with cls := cls, ltol := 0 }
  let high := sV id fun y => off { y with sweeps := [w], blocks := [b], queues := (y.queues.set 2 (q 0)).set 3 (q 2) }
  let at_ := fun (s : State) (f : Tower → Tower) => { s with sys := s.sys.setTower 0 f }
  let bt : Block := { b with warps := b.warps.map fun w => { w with ops := [{ id := 4, slot := .A, flag := none, path := none, body := .tighten 1 2 3 }] } }
  let stuck := sV id fun y => pool (off { y with sweeps := [w], blocks := [bt], queues := (y.queues.set 2 (q 0)).set 3 (q 2) })
  let stuck := at_ stuck fun t => { t with redispatches := [{ sweep := 7, node := 1, stage := 0 }] }
  let running : Card := { id := 7, block := 1, rank := 0, addr := 0, card := 0, shape := 0, tol := 0, rngkey := 0, fmt := 0, scope := 0, asid := 0, drain := none, state := .running, cnibs := 2, page := some 0 }
  let sc := mk [] (fun w => { w with slice := 2 }) id fun y => pool ((y.setTower 0 fun t => { t with records := [{ rec1 with need := 0xF004, ack := 0 }] }).setCore ⟨0,0⟩ fun k => { k with cards := [running] })
  let noPool := mk []
  let b1 := (noPool.sys.block 1).getD b
  return [("cycle", (resOf (run (.blockDispatch 0) done)).sys.blocks.isEmpty && !(resOf (run (.blockDispatch 0) s)).sys.blocks.isEmpty),
    ("high", highWaiting high.sys 0 high.sys.clockCode && sameo (run (.highLatencyPreempt 0) high) (run (.preemptRequest 1 .highLatency) (at_ high fun t => { t with highAt := some 3000 }))),
    ("highOnce", same (run (.highLatencyPreempt 0) (at_ high fun t => { t with highAt := some 3000 })) (at_ high fun t => { t with highAt := some 3000 })),
    ("room", sameo (run (.redispatchRoomPreempt 0) stuck) (run (.preemptRequest 1 .redispatchRoom) (at_ stuck fun t => { t with roomAt := some 3000 })) &&
      ((resOf (run (.redispatchRoomPreempt 0) stuck)).sys.tower 0).records.length == 1),
    ("roomNone", same (run (.redispatchRoomPreempt 0) s) s),
    ("notStopped", unitStopped sc.phys sc.sys ((sc.sys.block 1).getD b) .copyEngine == false && same (run (.unitStopAck 0 0 .copyEngine) sc) sc),
    ("noRoom", sameo (run (.preemptRequest 1 .acquireDeadlock) noPool) (work noPool fun _ t => (t.map fun y => y.makeRecord b1 .acquireDeadlock 0 0).abortBlock 1 .contextPool 0 0 0 0))]

/-- The checks of `courses` hold. -/
theorem test_courses : ok courses = true := by decide +kernel

/-- The bytes of a record: PERM, the bay map, the poison saved, reserved bits refused. From R17, R286, R313, R315. -/
def recordBytes : List (String × Bool) := Id.run do
  let w : Warp := { rank := 0, bays := [5, 17], perm := 0x0102030405060708 }
  let b := { placedBlock 1 false with warps := [w] }
  let c : Card := { id := 1, block := 1, rank := 0, addr := 0x140, card := 0x0201, shape := 0, tol := 0, rngkey := 0, fmt := 0, scope := 0, asid := 0, drain := none, state := .running, nextn := 9, cnibs := 6 }
  let x : SavedBlock := { block := b, cards := [c], room := 0, size := 0x20000 }
  let back := fun (at_ : Nat) (v : Byte) => (x.readBack { mem := Memory.store [] at_ v } 0).isNone
  return [("perm", b.recordByte w 0x80 == some 8 && b.recordByte w 0x87 == some 1), ("bays", b.recordByte w 0xC0 == some 0x45 && b.recordByte w 0xC1 == some 0x51 && b.recordByte w 0xC2 == some 0),
    ("progress", c.progress == 9 + 3 * 2 ^ 64 + 2 ^ 77 + 5 * 2 ^ 80), ("rs0", b.recordByte w 0x438 == some 0),
    ("reserved", back 0x1005 0x80), ("shape", back 0x1040 0x10), ("state", back 0x1089 0x60), ("tail", back 0x108F 1)]

/-- The checks of `recordBytes` hold. -/
theorem test_recordBytes : ok recordBytes = true := by decide +kernel

/-- An interval and a window that are not over; a budget overdraft. From R294, R295. -/
def intervals : List (String × Bool) := Id.run do
  let s := mk [] id id fun y => (y.setCore ⟨0,0⟩ fun k => { k with control := 0x50013, budget := 5, budgetLeft := -7, intervalAt := 1, windowAt := 4 }).setTower 0 fun t => { t with clock := 300 }
  return [("budget", same (run (.budgetInterval ⟨0,0⟩) s) s), ("window", same (run (.slewWindow ⟨0,0⟩) s) s),
    ("old", (((resOf (run (.engineControlWrite ⟨0,0⟩ 0x50003) s)).sys.core ⟨0,0⟩).control) == 0x50003), ("high", same (run (.engineControlWrite ⟨0,0⟩ (1#64 <<< 40)) s) s)]

/-- The checks of `intervals` hold. -/
theorem test_intervals : ok intervals = true := by decide +kernel

/-- Membership records that are passed on, ignored and discarded; a silent member heard again; pulses out of LOCKED. From R333, R334, R336, R338. -/
def membership : List (String × Bool) := Id.run do
  let rec0 : ReceivedRecord := { port := 1, post := { market := 9, stall := 7, code := 77, send := 101, eff := 103, epoch := 5, seq := 9 }, board := [] }
  let at_ := fun (r : ReceivedRecord) (f : Market → Market) => G13.sM f fun y => { y with inputs := { y.inputs with records := [r] } }
  let taken := fun (i : Instr) (s : State) => (resOf (exec i s)).sys.market
  let m := fun (s : State) => s.sys.market
  let other := at_ { rec0 with to_ := some 200 } id
  let joining := at_ { rec0 with post := { rec0.post with stall := 44 } } fun m => { m with board := m.board.map fun e => if e.stall == 3 then { e with state := .joining } else e }
  let snap := at_ rec0 id
  let snapNo := at_ { rec0 with post := { rec0.post with stall := 44 } } id
  let silent := at_ { rec0 with post := { rec0.post with stall := 6 } } id
  let e6 := (taken .post silent).entry 6
  let held := fun (st : TimeState) => (resOf (exec .timePulse (G13.sM id fun y => { y with time := { y.time with state := st } }))).sys.time
  let ahead := (resOf (exec .timePulse (G13.sM id fun y => { y with time := { y.time with count := 10105000 } }))).sys.time
  return [("notNamed", taken .joinReq other == { m other with sent := [passedOn other 4 ((other.sys.inputs.records.head?).getD rec0)] }),
    ("notActive", taken .joinReq joining == m joining), ("snapOn", taken .snapshot snap == { m snap with sent := [passedOn snap 5 rec0], heard := 101, board := (m snap).board.map fun e => if e.stall == 7 then { e with last := 101 } else e }),
    ("snapOff", taken .snapshot snapNo == { m snapNo with discarded := 1 }), ("leaveOff", taken .leave snapNo == { m snapNo with discarded := 1 }),
    ("empty", same (exec .post (G13.sM)) G13.sM), ("silent", e6.map (fun x => (x.last, x.activeAt)) == some (101, some 103)),
    ("holdover", let f := held .holdover; f.pulse == 10101000 && f.count == 10100000 && f.state == .holdover),
    ("missed", (resOf (exec .pulseMissed G13.sM)).sys.time.state == .holdover), ("ahead", ahead.count == 10105000 && ahead.behind == 4000)]

/-- The checks of `membership` hold. -/
theorem test_membership : ok membership = true := by decide +kernel

end G20

namespace G21

/-- A device with changes to its registers and inputs. -/
def sD (fd : Device → Device) (fi : Inputs → Inputs := id) (fs : Sys → Sys := id) : State := sV id fun y => fs { y with device := fd y.device, inputs := fi y.inputs }

/-- A core that fails at a reset, a FATAL error, a write held for a memory, and the trip of the outlet and of the sensors. From R230, R303, R329, R343, R352. -/
def resets : List (String × Bool) := Id.run do
  let s := sD id (fun i => { i with failing := [⟨0,3⟩] }) fun y => { y with fresh := 10 }
  let t := resOf (exec .reset s)
  let f := resOf (run (.fatalError .thermalTrip) s)
  let dark := sD (fun d => { d with devReady := ready ^^^ (8#64), masked := [] }) id fun y => { y with heldWrites := [(0x31000, 0xA0, true)] }
  let up := resOf (run (.functionReady (.hbm 1)) { dark with phys := { mem := setMem vMem 0x31000 1 0x0B } })
  let outlet := sD id (fun i => { i with outlet := [600], thermal := List.replicate 256 500 }) fun y => { y with now := 2000000000000, power := { y.power with outletSince := [some 5] } }
  let trip := sD id fun i => { i with thermal := List.replicate 256 1000 }
  return [("reset", t.sys.blocks.isEmpty && t.sys.device.devReady == 0 && (t.sys.core ⟨0,3⟩).usable == false && (t.sys.core ⟨0,4⟩).usable && t.sys.device.messages == 0),
    ("fatal", f.sys.device.log == [.fatal .thermalTrip] && f.sys.device.messages == 1),
    ("held", up.phys.byte 0x31000 == 0xAB && up.sys.heldWrites.isEmpty && up.sys.ready 3), ("again", same (run (.functionReady (.hbm 1)) (sV)) (sV)),
    ("outlet", sameo (exec .sensorSample outlet) (exec (.fatalError .thermalTrip) outlet)), ("trip", sameo (exec .sensorSample trip) (exec (.fatalError .thermalTrip) trip))]

/-- The checks of `resets` hold. -/
theorem test_resets : ok resets = true := by decide +kernel

/-- Retries of a port, its training, the fabric registers, the scrubber and peers. From R231, R243 to R246, R304, R349, R350. -/
def fabric : List (String × Bool) := Id.run do
  let upD := fun (d : Device) => { d with devReady := ready ||| (1#64 <<< 33) }
  let s := sD upD
  let log := fun (t : State) => t.sys.device.log
  let once := resOf (run (.flitRetry 5 true) s)
  let twice := resOf (run (.flitRetry 5 true) { once with sys := { once.sys with now := 1000000000000 } })
  let later := resOf (run (.flitRetry 5 true) { once with sys := { once.sys with now := 1000000000001 } })
  let lost := resOf (run (.flitRetry 5 false) s)
  let enabled := sD fun d => { d with fabric := 0xFFFFFF00000000 }
  let tr := resOf (run (.portTrain 5 true) enabled)
  let no := resOf (run (.portTrain 5 false) enabled)
  let scrub := fun (o : EccOutcome) => resOf (exec .patrolScrub (sD (fun d => { d with scrubAt := 0x40 }) fun i => { i with scrub := o }))
  let peer := fun (r : PeerRequest) (fd : Device → Device) => sD fd fun i => { i with peers := [(3, r)] }
  let rd := resOf (exec .peerAccess (peer (.read 0x30000 2) id))
  let bad := resOf (exec .peerAccess (peer (.write 0x30000 [1, 2] true) id))
  let off := resOf (exec .peerAccess (peer (.read 0x40000000000 2) id))
  let wait := peer (.read 0x31000 2) fun d => { d with devReady := ready ^^^ (8#64) }
  return [("once", log once == [.retried (.port 5) false]), ("twice", log twice == [.retried (.port 5) false, .retried (.port 5) true]),
    ("later", log later == [.retried (.port 5) false, .retried (.port 5) false]), ("lost", log lost == [.failed (.port 5)] && !lost.sys.ready 33 && lost.sys.device.portDown == [5]),
    ("down", same (run (.flitRetry 5 true) (sV)) (sV)), ("train", tr.sys.ready 33), ("attempt", log no == [.training 5] && same (run (.portTrain 5 false) no) no),
    ("partno", let n := sD fun d => { d with devReady := 0x0FFFFFFF }; (resOf (run (.partnoWrite 5) n)).sys.partNo == 5 && same (run (.partnoWrite 5) s) s && same (run (.partnoWrite 0x200) n) n),
    ("scrub", (scrub .clean).sys.device.scrubAt == nextScrub 0x40 && (scrub .uncorrectable).phys.poisoned 0x40),
    ("read", rd.sys.device.answers == [(3, some ([15, 0], false))] && rd.sys.inputs.peers == []), ("bad", bad.phys.poisoned 0x30001 && bad.phys.byte 0x30000 == 15),
    ("host", off.sys.device.answers == [(3, none)]), ("wait", same (exec .peerAccess wait) wait)]

/-- The checks of `fabric` hold. -/
theorem test_fabric : ok fabric = true := by decide +kernel

/-- Samples whose average bites at the next one, and the host's registers. From R337, R342, R351, R356. -/
def hostSide : List (String × Bool) := Id.run do
  let s := sD id (fun i => { i with monitors := [some 4000000] }) fun y => { y with power := { y.power with samples := List.replicate 9 4000000 } }
  let q := resOf (exec .quoteRequest (sD fun d => { d with nonce := 9, quoteDone := true }))
  let w := resOf (run (.quoteNonceWrite 8 8 0x77) q)
  return [("bites", let xs := 4000000 :: s.sys.power.samples; s.sys.inputs.monitors == [some 4000000] && xs.length == 10 && decide (10 * s.sys.power.plim * 1050 < xs.sum)), ("quote", q.sys.device.quoting && q.sys.device.quoteNonce == 9 && !q.sys.device.quoteDone),
    ("nonce", w.sys.device.quoteNonce == 9 && w.sys.device.nonce == 9 + (0x77 <<< 64)), ("idle", same (exec .quoteComplete (sV)) (sV)),
    ("size", same (run (.registerWrite 36 2 5) (sV)) (sV))]

/-- The checks of `hostSide` hold. -/
theorem test_hostSide : ok hostSide = true := by decide +kernel

/-- An update replaces the image and is measured; the image that was booted stays. From R329. -/
theorem test_firmwareUpdate : let d := (resOf (exec (.firmwareUpdate 4 true) (sV))).sys.device
    d.measurements = [.bootRom, .firmware 0, .firmware 4] ∧ d.image = 4 ∧ d.booted = 0 := by decide +kernel

/-- SHA3-512 of no bytes, the published value of FIPS 202: its first bytes are A6 9F 73 CC. -/
theorem test_sha3 : (sha3 []).extractLsb' 0 32 = 0xCC739FA6 := by decide +kernel

end G21

namespace G22

/-- Trim steps and their hold, the packets of the power manager, the timers of the market, and responses to faults. From R326, R327, R340 to R347. -/
def timers : List (String × Bool) := Id.run do
  let isl := fun (x : Island) => sV id fun y => { y with now := 1000000000007, power := { y.power with islands := [{}, x] } }
  let step := fun (x : Island) (n : Nat) => ((resOf (run (.trimStep 1 n) (isl x))).sys.power.islands[1]?).map fun y => (y.trim, y.hold, y.lock)
  let p := pr 2
  let done := fun (i : Instr) (s : State) => (resOf (run i s)).sys.packets == [opened s p (.done 0 0 0 0) false]
  let locked := isl { trim := 3, lock := true }
  let hb := G13.sM fun m => { m with lastPost := 91 }
  let hb0 := G13.sM fun m => { m with lastPost := 92 }
  let jt := fun (since : Nat) => G13.sM (fun m => { m with board := [], join := some { pkt := 4, since := since, found := false, activeAt := none } }) fun y => { y with packets := [{ opened sV p .join false with id := 4 }] }
  let card : Card := { id := 7, block := 1, rank := 0, addr := 0, card := 0, shape := 0, tol := 0, rngkey := 0, fmt := 0, scope := 0, asid := 0, drain := none, state := .suspended, faultId := some 9 }
  let fl := fun (o : FaultOwner) (w : PacketWork) => sV id fun y => ({ y with packets := [{ opened sV p w false with id := 4, fault := some 9 }], faults := [{ id := 9, owner := o, asid := 0, va := 5, write := false }] }).setCore ⟨0,0⟩ fun k => { k with cards := [card] }
  let rc := resOf (run (.faultResponseResume 9) (fl (.card ⟨0,0⟩ 7) (.done 0 0 0 0)))
  let rp := resOf (run (.faultResponseResume 9) (fl (.packet 4) (.done 0 0 0 0)))
  let dec := fun (w : PacketWork) => ((resOf (run (.faultResponseDecline 9) (fl (.packet 4) w))).sys.packet 4).map Packet.work
  return [("up", step { trim := 3 } 0 == some (4, false, false)), ("top", step { trim := 30 } 0 == some (30, false, false)), ("down", step { trim := 3 } 1 == some (1, true, false)),
    ("floor", step { trim := 1, errors := 2 } 0 == some (0, true, false)), ("window", step { trim := 3, window := [0, 1] } 0 == some (1, true, false)),
    ("heldTrim", step { trim := 3, hold := true } 0 == some (3, true, false)), ("lock", step { trim := 3, lock := true } 0 == some (0, false, true)),
    ("expiry", ((resOf (run (.trimHoldExpiry 1) (isl { hold := true, holdAt := 7 }))).sys.power.islands[1]?).map Island.hold == some false &&
      same (run (.trimHoldExpiry 1) (isl { hold := true, holdAt := 8 })) (isl { hold := true, holdAt := 8 })),
    ("packets", done (.plimit p 900) (sV) && done (.trimRearm p 1) locked && done (.sensorRearm p 0) (sV) &&
      ((resOf (run (.trimRearm p 1) locked)).sys.power.islands[1]?).map Island.lock == some false && (resOf (run (.plimit p 900) (sV))).sys.power.plim == 900),
    ("beat", (resOf (exec .heartbeatTimer hb)).sys.market.sent == [ownRecord hb 3 188 103 3 none []] && same (exec .heartbeatTimer hb0) hb0),
    ("join", ((resOf (exec .joinTimeout (jt 81))).sys.packet 4).map Packet.work == some (.done 2 0 0 0) && same (exec .joinTimeout (jt 82)) (jt 82)),
    ("resume", (rc.sys.core ⟨0,0⟩).cards.map (fun x => (x.state, x.faultId)) == [(.waiting, none)] && rc.sys.faults.isEmpty && (rp.sys.packet 4).map Packet.fault == some none),
    ("decline", dec (.copy (.main 0) (.main 0x5000) 70 9) == some (.done 3 3 0 9) && dec (.signal 0 1 false) == some (.done 3 5 0 0)),
    ("unknown", same (run (.faultResponseResume 9) (sV)) (sV))]

/-- The checks of `timers` hold. -/
theorem test_timers : ok timers = true := by decide +kernel

end G22

namespace G23

/-- Words that are no header at the targets named, and a slot that may go there. -/
def targets : List (String × Bool) := Id.run do
  let s := mk G4.ws fun w => ((wm w).setScalar 5 (4 * (G4.base.plus 6).setWidth 64)).setScalar 6 0xFFF0000000000000
  let c := ctx s
  let bad := fun (a : Nat) => raised s c { cause := .illegalTarget, resume := c.slot.mask, addr := a }
  let f := G4.fI 5
  let t := 4 * (branchTarget c f).toNat
  let table : List Word := [0,0,0,0,2,1,1,0,0]
  let sx := mk table fun w => ((wm w).setElem 3 0 1).setElem 3 2 1
  let cx := ctx sx
  let fx := G4.fI 4 (.set 1) 0 3
  let tx := branchTarget cx fx
  return [("bra", sameo (run (.bra f) s) (bad t)), ("brc", sameo (run (.brc f) s) (bad t)), ("call", sameo (run (.call f) s) (bad t)), ("cont", sameo (run (.cont f) s) (bad t)),
    ("ret", sameo (run (.ret { f with a := 5 }) s) (bad (4 * (G4.base.plus 6).toNat))), ("retHigh", sameo (run (.ret { f with a := 6 }) s) (bad 0xFFF0000000000000)),
    ("brx", sameo (run (.brx fx) sx) (raised sx cx { cause := .illegalTarget, resume := 5, addr := 4 * (tx + 1).toNat }))]

/-- The checks of `targets` hold. From R101 to R103. -/
theorem test_targets : ok targets = true := by decide +kernel

/-- An element and a mask read after a write; lanes combined, with the flags of an overflow of the tree (R91, R130); poison that no load brought (R264 (d)). -/
def registers : List (String × Bool) := Id.run do
  let w := (({ rank := 0 } : Warp).putElems 4 20 [(3, 0x1FE)]).putElems 7 22 [(5, 0x123456789)]
  let m := (w.setMask 3 77).putWords 24 [(9, 6)]
  let s := mk [] fun w => { ((w.setElem 2 0 0x7F7FFFFF).setElem 2 1 0x7F7FFFFF).setElem 2 2 0x3F800000 with slotA := { w.slotA with left := 3, mask := 7 } }
  let v := fun (i : Instr) => wof (run i s)
  let r := v (.redl (F (d := 20) (a := 2)))
  let sp := mk [] fun w => { wm w with vPoison := [elemKey 2 1], vUnloaded := [elemKey 2 1] }
  let f := { F (d := 9) (a := 2) (b := 1) (imm := true) with form := .w64 }
  return [("byte", w.elem 20 3 == 0xFFFFFFFE && w.rawElem 4 20 3 == 0xFE), ("pair", w.pair 22 5 == 0x123456789 && w.elem 23 5 == 1), ("mask", m.m.get 3 == 77 && m.elem 24 9 == 6 && m.elem 20 3 == w.elem 20 3),
    ("sum", r.elem 20 0 == 0x7F800000 && r.flags == 20), ("scan", let x := v (.scanl (F (d := 20) (a := 2) (sub := 2))); x.elem 20 1 == 0x7F7FFFFF && x.elem 20 2 == 0x7F7FFFFF),
    ("spoiled", sameo (run (.vextr f) sp) (work sp fun _ y => y.raise (ctx sp).ref (ctx sp).z { cause := .poison, resume := 0xFF } false)),
    ("least", laneOperator (F (sub := 4)) false 5 0xFFFFFFFF == (0xFFFFFFFF, 0) && laneIdentity (F (sub := 4)) == 0x7FFFFFFF)]

/-- The checks of `registers` hold. -/
theorem test_registers : ok registers = true := by decide +kernel

/-- Infinities and zeros (R79 (e), R86, R88): ∞ − ∞, ∞ · 0, a zero sum under RD, −0 · 1 + −0, a negative number to E8M0, −∞ to an integer. -/
def specials : List (String × Bool) := Id.run do
  let one := fun (i : Instr) (a b c : Nat) =>
    let w := wof (run i (mk [] fun w => { (((w.setElem 2 0 (BitVec.ofNat 32 a)).setElem 4 0 (BitVec.ofNat 32 b)).setElem 6 0 (BitVec.ofNat 32 c)) with slotA := { w.slotA with left := 3, mask := 1 } }))
    ((w.elem 20 0).toNat, w.flags)
  let f := F (d := 20) (a := 2) (b := 4) (c := 6)
  return [("minus", one (.fsub f) 0x7F800000 0x7F800000 0 == (0x7FC00000, 1)), ("times", one (.fmul f) 0xFF800000 0 0 == (0x7FC00000, 1)), ("down", one (.fadd { f with rnd := .rd }) 0x3F800000 0xBF800000 0 == (0x80000000, 0)),
    ("fused", one (.ffma f) 0x80000000 0x3F800000 0x80000000 == (0x80000000, 0)), ("e8m0", one (.fcvt { f with mod := 6 }) 0xBF800000 0 0 == (0xFF, 1)), ("fcvti", one (.fcvti f) 0xFF800000 0 0 == (0x80000000, 1)),
    ("third", SpecialFn.rcp.fixed { mode := .rz } false false 0x40400000 == (0x3EAAAAAA, 16)), ("root", SpecialFn.sqrt.fixed { mode := .rn } false false 0x40000000 == (0x3FB504F3, 16))]

/-- The checks of `specials` hold. -/
theorem test_specials : ok specials = true := by decide +kernel

/-- The example of R89: groups 2^24 and seven ones, then −2^24, give 8 with IX. -/
theorem test_groups : matrixElement false 0 (List.replicate 16 (some (fp32 0x3F800000)))
    (fp32 0x4B800000 :: List.replicate 7 (fp32 0x3F800000) ++ fp32 0xCB800000 :: List.replicate 7 (fp32 0)) = (0x41000000, 16) := by decide +kernel

/-- A restored MMA of 2 rows of A at 0 and B at 0x2000, whose operands are to be read again. -/
def again : Op := G18.op 10 (.mma { sparse := false, byp := false, tile := 2, aTile := 1, aDesc := G18.desc 0 64, bDesc := G18.desc 0x2000 256, fbAddr := 0x400, fb := 0, kd := 16, fmtA := 0, fmtB := 0, bound := 77, ftz := false, active := 5, start := 0, restored := true }) (some .mma)

/-- Accesses, stores, another MMA and BSYNC behind a restored MMA; an MMA without lanes; a store behind another one while its block stops.
From R194, R221 to R223, R227, R295, R307. -/
def restoredMma : List (String × Bool) := Id.run do
  let s := fun (a : Nat) => mk [] fun w => { (wm w).setScalar 4 (BitVec.ofNat 64 a) with ops := [again] }
  let f := { F (d := 3) (a := 4) (imm := true) with form := .w96, lit := 0, mod := 1, x := true }
  let waits := fun (i : Instr) (a : Nat) => same (run i (s a)) (waiting (s a) (ctx (s a)) .restoredMma)
  let p := { F (a := 4) (imm := true) with form := .w64 }
  let q := { F (d := 8) (a := 2) (b := 3) (g := .set 1) with sub := 0 }
  let late := fun (a : Nat) => mk [] fun w => { wm w with ops := [again, G18.op 11 (.store .bsm 4 [(0, a, 1)] [])] }
  let two := mk [] fun w => { wm w with ops := [again, { again with id := 11, body := .mma { (match again.body with | .mma k => k | _ => { sparse := false, byp := false, tile := 0, aTile := 0, aDesc := 0, bDesc := 0, fbAddr := 0, fb := 0, kd := 0, fmtA := 0, fmtB := 0, bound := 0, ftz := false, active := 0, start := 0 }) with restored := false } }] }
  let empty := G18.sm fun w => { w with m := w.m.put 2 0 }
  let order := mk [] (fun w => { wm w with ops := [G18.op 4 (.store .bsm 4 [(0, 8, 1)] []), G18.op 5 (.store .bsm 4 [(0, 16, 2)] [])] }) fun b => { b with stopping := true }
  let left := fun (s : State) (n : Nat) => (wof (run (.storeBufferEntryPerformed ⟨1,0⟩ n) s)).ops.map Op.id
  return [("stb", waits (.stb f) 0 && !waits (.stb f) 0x5000), ("ldb", waits (.ldb f) 0x2000), ("ldperm", waits (.ldperm p) 0x2000), ("atom", waits (.atom q) 0),
    ("store", left (late 0) 11 == [10, 11] && left (late 0x5000) 11 == [10]), ("mma", same (run (.mmaRowFetch ⟨1,0⟩ 11) two) two),
    ("empty", same (run (.mma { G18.fm with guard := .set 2 }) empty) { empty with sys := (empty.sys.completedOp (ctx empty) id).countMma ⟨0,0⟩ }),
    ("order", left order 5 == [4, 5] && left order 4 == [5])]

/-- The checks of `restoredMma` hold. -/
theorem test_restoredMma : ok restoredMma = true := by decide +kernel

/-- A request that is 160 µs old resets the part; a header that waits for its serial instruction spends its pick. From R34, R228, R305, R309. -/
def overdue : List (String × Bool) := Id.run do
  let s := mk [] id id fun y => { y.setTower 0 (fun t => { t with records := [G20.rec1] }) with now := 160000000 }
  let t := resOf (run .preemptTimeout s)
  let e := { s with sys := { s.sys with now := 159999999 } }
  let h := mk [H, 0, 0] (fun w => { w with slotA := { w.slotA with left := 0, serialOp := some 4 }, ops := [G18.op 4 .kick] }) id fun y => { y with agenda := [.issue ⟨1,0⟩ .A] }
  let y := taken h []
  let i := (decodeWords H 0 0).toOption.getD .bell
  return [("fatal", t.sys.device.log == [.fatal .preemptTimeout] && t.sys.device.messages == 1 && t.sys.blocks == [] && t.sys.queues == List.replicate 32 Queue.reset), ("early", same (run .preemptTimeout e) e),
    ("header", sameo (step h) (exec i (readyToIssue y ⟨1,0⟩ .A ((y.sys.block 1).getD (placedBlock 9 false)) (((y.sys.block 1).bind fun b => b.warp 0).getD { rank := 9 }) 1 true)))]

/-- The checks of `overdue` hold. -/
theorem test_overdue : ok overdue = true := by decide +kernel

end G23

namespace G24

/-- A warp of 16 lanes whose slot A is at an instruction and whose slot B waits at a BSYNC. -/
def half (w : Warp) : Warp := { wm w with slotB := { valid := true, pc := G4.base, mask := 0xF00, hold := .bsync, left := 1 } }

/-- A slot that leaves ends the generation at which the other one waits; a held target or count holds a branch. From R107, R169, R230, R231. -/
def leaving : List (String × Bool) := Id.run do
  let s := mk G4.ws half
  let gone := resOf (run (.exit (G4.fI 0)) s)
  let b := (gone.sys.block 1).getD (placedBlock 9 false)
  let dark := mk G4.ws wm id fun y => { y with device := { y.device with devReady := 0 } }
  let waits := fun (i : Instr) => same (run i dark) (waiting dark (ctx dark) .codeRead)
  return [("generation", b.generation == 1 && (wof (.next gone)).slotB.hold == .none && (wof (.next gone)).slotB.pc == G4.base + 1 && !(wof (.next gone)).slotA.valid),
    ("still", ((resOf (run (.exit (G4.fI 0 (.set 1))) s)).sys.block 1).map Block.generation == some 0),
    ("held", waits (.bra (G4.fI 4)) && waits (.brx (G4.fI 4 .all 0 3)) && waits (.call (G4.fI 4)) && waits (.prepj (G4.fI 4))),
    ("noPc", let c := mk G4.ws (fun w => (wm w).setScalar 6 3) id fun y => { y with device := { y.device with devReady := 0 } }
      sameo (run (.ret { G4.fI 5 with a := 6 }) c) (raised c (ctx c) { cause := .illegalTarget, resume := 0xFF, addr := 3 }))]

/-- The checks of `leaving` hold. -/
theorem test_leaving : ok leaving = true := by decide +kernel

/-- An instruction placed after reset issues in the next step. -/
theorem test_placed : ((wof (step (State.reset.withFetchWord 32 0x007FC003))).slotA.pc == Pc.ofAddr 0x100004) = true := by decide +kernel

/-- An `.acq` of lanes 0 and 1 of slot A that has been joined into slot B, which a split then leaves with lanes 2 and 3. From R220. -/
def acquires : List (String × Bool) := Id.run do
  let x : Op := { G18.op 4 .kick with acq := some 3 }
  let joined : Warp := { rank := 0, slotB := { valid := true, mask := 0xF }, ops := [x] }
  let split : Warp := { joined with slotA := { valid := true, mask := 3 }, slotB := { valid := true, mask := 0xC } }
  let v := split.carryAcquires joined
  let f := { F (d := 3) (a := 4) (imm := true) with form := .w96, lit := 0, mod := 1, x := true }
  let s := mk [] fun w => { wm w with ops := [{ x with slot := .B, acqSlots := [.A] }] }
  return [("split", v.ops.map Op.acq == [some 0xF] && v.ops.all (v.behindAcquire .B) && !split.ops.all (split.behindAcquire .B)),
    ("none", (x.carryAcquire joined split).slot == .A && ({ x with acq := none } : Op).carryAcquire joined split == { x with acq := none }),
    ("held", same (exec (.ldb f) s) (waiting s (ctx s) .acquire))]

/-- The checks of `acquires` hold. -/
theorem test_acquires : ok acquires = true := by decide +kernel

/-- An outstanding MMA without the flag of a restore. -/
def plain (id : Nat) : Op := { G23.again with id := id, body := match G23.again.body with | .mma k => .mma { k with restored := false, fetched := true } | x => x }

/-- Reads of a format block and certificates behind an earlier access, MMAs in order, one atomic in a cycle. From R162, R193, R221, R222. -/
def orders : List (String × Bool) := Id.run do
  let load := G18.op 4 (.load .bsm .word 3 [(0, 0x400)] [])
  let sm := G18.sm fun w => { w with ops := [load] }
  let two := mk [] fun w => { wm w with ops := [plain 10, plain 11] }
  let sB := mk [] fun w => { (wm w).setScalar 4 0x400 with ops := [load] }
  let f := { F (d := 3) (a := 4) (imm := true) with form := .w96, lit := 0, mod := 1, x := true }
  let sP := mk [] fun w => { (wm w).setScalar 4 0x2000 with ops := [plain 10] }
  let at_ := mk [] (fun w => { wm w with ops := [G18.op 4 (.atomic .add .bsm false 20 [{ lane := 0, addr := 8, b := 5, c := 0 }] []) (some .atom)] }) id fun y =>
    y.setCore ⟨0,0⟩ fun k => { k with acceptedAt := some 0 }
  return [("mma", same (run (.mma G18.fm) sm) (waiting sm (ctx sm) .earlierAccess)), ("mbyp", same (run (.mbyp { f with form := .w64 }) sB) (waiting sB (ctx sB) .earlierAccess)),
    ("order", same (run (.mmaCompletion ⟨1,0⟩ 11) two) two && (wof (run (.mmaCompletion ⟨1,0⟩ 10) two)).ops.map Op.id == [11]),
    ("operand", same (run (.ldb f) sP) (waiting sP (ctx sP) .restoredMma)), ("once", same (run (.atomicEngineAccept ⟨0,0⟩) at_) at_)]

/-- The checks of `orders` hold. -/
theorem test_orders : ok orders = true := by decide +kernel

/-- Cards whose first range, 64 bytes of memory at 0, is read or written. -/
def card (id : Nat) (behind : List Nat := []) : Card :=
  { id := id, block := 1, rank := 0, addr := 0, card := 0x13 * 2 ^ 256 + 0x13 * 2 ^ 384, shape := 0, tol := 0, rngkey := 0, fmt := 0, scope := 0, asid := 0, drain := none, behind := behind }

/-- The values of an element that a card has written, which card stands before which, and what bad bytes and bad packets leave in the log. From R184, R238, R243,
R284, R303, R304. -/
def cardsAndLog : List (String × Bool) := Id.run do
  let s := fun (z : Card) => mk [] id id fun y => (y.setCore ⟨0,0⟩ fun k => { k with cards := [z] })
  let bad := resOf (run (.badPacket (pr 2) 3) (sV))
  return [("versions", 
      let clean := fun (xs : List Byte) => xs.map fun x => (x, false)
      let w := fun (bsm : Bool) (a : Nat) (xs : List Byte) (bad : List Bool) => ({ bsm := bsm, addr := a, bytes := xs, badAt := a, bad := bad } : Noted)
      versions false 8 (clean [1, 2, 3, 4]) [w false 8 [9, 9, 9, 9] [false, true, false, false], w true 8 [7] [false], w false 6 [5, 6, 7] [false, false, false]] ==
        [clean [1, 2, 3, 4], [(9, false), (9, true), (9, false), (9, false)], [(7, false), (9, true), (9, false), (9, false)]] &&
      chooseVersion [clean [1], clean [2]] 7 == [(2, false)]),
    ("before", (card 8).waitsFor (card 7) && (s (card 7)).sys.cardsBefore ⟨0,0⟩ (card 8) == [7] && (s (card 7 [8])).sys.cardsBefore ⟨0,0⟩ (card 8) == []),
    ("log", bad.sys.device.log == [.packet 2 5 3 1 0] && (LogRecord.packet 2 5 3 1 0).wordsOf == [0x1001 + 2 ^ 17, 5, 3, 1, 0] && (LogRecord.failed (.port 3)).wordsOf.head? == some 0x302),
    ("unit", EccUnit.base (.priv ⟨1,0⟩ 7) == .priv ⟨1,0⟩ 4 && EccUnit.base (.memory 0x3F) == .memory 0x20),
    ("table", sV.sys.tableInside 0x7FFFF80000 && !sV.sys.tableInside 0x7FFFF81000)]

/-- The checks of `cardsAndLog` hold. -/
theorem test_cardsAndLog : ok cardsAndLog = true := by decide +kernel

/-- A freed drawer keeps its place; a SWEEP waits for its tower; hints of a signature. From R203, R215, R329, R351. -/
def places : List (String × Bool) := Id.run do
  let w : Sweep := { failedSweep 0 0 0 0 with shelf := 0x1000, cap := 4, drawerSize := 0x100, runs := [{ node := 3, stage := 1, place := some 2 }] }
  let asleep := sV id fun y => { y with device := { y.device with devReady := 0x3FFFFFF } }
  return [("place", w.drawerOf 1 3 == some 0x1600 && w.drawerOf 1 4 == none),
    ("sweep", sweepWaits asleep.phys asleep.sys 2 (.sweep (pr 2) 0x30000) && !sweepWaits sV.phys sV.sys 2 (.sweep (pr 2) 0x30000)),
    ("hints", unpackHints (List.replicate 83 0) == some (List.replicate 8 []) && unpackHints ([5, 4] ++ List.replicate 73 0 ++ List.replicate 8 2) == none && useHint [3] 3 1 == 1 && useHint [3] 3 0 == 15)]

/-- The checks of `places` hold. -/
theorem test_places : ok places = true := by decide +kernel

/-- Posts that come late, what an EVICTED entry keeps, a market of one, and a snapshot taken in LOST. From R333, R336, R340, R341. -/
def lateMarket : List (String × Bool) := Id.run do
  let r : ReceivedRecord := { port := 1, post := { market := 9, stall := 7, code := 77, send := 99, eff := 100, epoch := 5, seq := 9 }, board := [] }
  let at_ := fun (f : Market → Market) (g : Sys → Sys) => G13.sM f fun y => g { y with inputs := { y.inputs with records := [r] } }
  let t := fun (i : Instr) => (resOf (exec i (at_ id id))).sys.market
  let j := at_ (fun m => { m with board := [], join := some { pkt := 4, since := 99, found := false, activeAt := none } }) fun y => { y with time := { y.time with state := .lost } }
  let e : BoardEntry := { newEntry 7 .silent 50 61 none with exit := 100 }
  let alone := (G13.sM fun m => { m with isolated := true, board := m.board.map fun e => if e.stall == m.stall then e else { e with state := .evicted } }).sys
  return [("late", (t .leave).lateArrivals == 1 && (t .joinAnn).lateArrivals == 1 && (t .joinAnn).heard == 101 && (t .leave).heard == 101),
    ("evicted", (e.transition 5 100).1.map (fun x => (x.state, x.code)) == some (MemberState.evicted, 0)),
    ("lost", (resOf (exec .snapshot j)).sys.market.lostLimit), ("alone", !(alone.bellIsolation 101).market.isolated)]

/-- The checks of `lateMarket` hold. -/
theorem test_lateMarket : ok lateMarket = true := by decide +kernel

end G24

namespace G25

/-- An SR draw of 16 bits and the fraction 24,576 of 1 + 3·2^−10 in BF16. From R81. -/
def stochastic : List (String × Bool) := Id.run do
  let r := fun (d : Nat) => FloatFmt.bf16.round { mode := .sr, draw := d } false false { neg := false, m := 1027, e := -10 }
  let w : Warp := { rank := 0, rngkey := 0x0123456789ABCDEF }
  let f := { F (lit := 7) with rnd := .sr }
  return [("below", r 0x4000 == (0x3F81, 16)), ("above", r 0x7000 == (0x3F80, 16)), ("edge", (r 24576).1 == 0x3F80 && (r 24575).1 == 0x3F81),
    ("exact", FloatFmt.bf16.round { mode := .sr, draw := 0 } false false { neg := true, m := 3, e := 1 } == (0xC0C0, 0)),
    ("draw", (roundingOf f w 5).draw == ((crng 12 0 0 0x0123456789ABCDEF).x0.extractLsb' 16 16).toNat && (roundingOf f w 5).mode == .sr)]

/-- The checks of `stochastic` hold. -/
theorem test_stochastic : ok stochastic = true := by decide +kernel

/-- NaN operands: quiet, signalling, and infinity times zero beside a NaN. From R88, R89, R134 to R137. -/
def nans : List (String × Bool) := Id.run do
  let v : List Nat := [0x7FC00001, 0x7F800001, 0x3F800000, 0x7F800000, 0, 0x7E017C01, 0x3C003C00, 0x00007C00, 0x00000000, 0x0000007F, 0x0000007C, 0x00000000]
  let s := mk [] fun w =>
    let w := v.zipIdx.foldl (fun (w : Warp) x => (w.setElem x.2 0 (BitVec.ofNat 32 x.1)).setElem x.2 1 (BitVec.ofNat 32 x.1)) w
    { w with slotA := { w.slotA with left := 3, mask := 3 } }
  let r := fun (i : Instr) (x : Word) (fl : BitVec 5) => let w := wof (run i s); w.elem 20 1 == x && w.flags == fl
  return [("fscl", r (.fscl (vF 0 2 0 true)) 0x7FC00000 0 && r (.fscl (vF 1 2 0 true)) 0x7FC00000 1), ("frnd", r (.frnd (vF 1 0)) 0x7FC00000 1),
    ("ffma", r (.ffma (vF 3 4 0)) 0x7FC00000 1 && r (.ffma (vF 2 2 0)) 0x7FC00000 0),
    ("pfadd", r (.pfadd (vF 5 6 0 false 0 1)) 0x7E007E00 1), ("pffma", r (.pffma (vF 7 8 5 false 0 1)) 0x7E007E00 1),
    ("fdot4", r (.fdot4 (vF 9 11 2 false 0 32)) 0x7FC00000 0 && r (.fdot4 (vF 10 11 0 false 0 32)) 0x7FC00000 1 && r (.fdot4 (vF 11 11 1 false 0 24)) 0x7FC00000 1)]

/-- The checks of `nans` hold. -/
theorem test_nans : ok nans = true := by decide +kernel

/-- Flags cleared in a cycle count until its end; an operation that is dropped still shows its flag. From R63. -/
def clearing : List (String × Bool) := Id.run do
  let x : Op := { G18.op 4 .kick with flag := some 3 }
  let s := mk [] fun w => { wm w with clearing := [3] }
  let w := finished { rank := 0, ops := [x] } 4
  let f := F (form := .w96) (imm := true) (lit := 8)
  let t := step { s with sys := { s.sys with agenda := [.tick], cursor := none } }
  return [("wait", same (run (.waitf f) s) (waiting s (ctx s) .waitf)), ("other", same (run (.waitf { f with lit := 4 }) s) (after s (ctx s) (ctx s).w)),
    ("done", w.ops == [] && w.clearing == [3]), ("tick", (wof t).clearing == [] && (wof t).flagSeen 3 == false)]

/-- The checks of `clearing` hold. -/
theorem test_clearing : ok clearing = true := by decide +kernel

/-- A grant: two more bays, the BSM and the new elements zero, also where old poison stood. From R19, R113. -/
def granted : List (String × Bool) := Id.run do
  let s := mk [] (fun w => { ((wm w).setElem 40 3 7).setElem 70 3 9 with tileCtl := [], bays := [0,1] }) fun b =>
    { b with granted := false, regRequest := true, units := [], bsm := [(3, 9)], bsmPoison := [4], hdr := { b.hdr with proRegs := 64, fullRegs := 128, acc := 4 } }
  let t := resOf (exec (.regacqGrant 1) s)
  let b := (t.sys.block 1).getD (placedBlock 1 false)
  let v := wof (.next t)
  return [("bays", v.bays.length == 4 && v.bays.take 2 == [0,1]), ("zero", v.elem 70 3 == 0 && v.elem 40 3 == 7 && b.bsm == [] && b.bsmPoison == []),
    ("units", b.units == s.sys.freeUnits b.coreRef b.bsmUnits && b.units.length == b.bsmUnits)]

/-- The checks of `granted` hold. -/
theorem test_granted : ok granted = true := by decide +kernel

/-- The faults of MMA and MBYP at issue, and the flags that MBYP leaves. From R191, R193, R196. -/
def matrixFaults : List (String × Bool) := Id.run do
  let on := fun (i : Instr) (fw : Warp → Warp) (fb : Block → Block) (k : Cause) (a : Nat) =>
    let s := G18.sm fw fb
    sameo (run i s) (raised s (ctx s) { cause := k, resume := 5, addr := a })
  let at_ := fun (i : Instr) (fa : Nat) (k : Cause) => on i (fun w => w.setScalar 3 (BitVec.ofNat 64 fa)) id k fa
  let mbyp := { F (d := 3) (a := 3) (g := .set 1) with form := .w64 }
  let bad := fun (b : Block) => { b with bsm := G18.putw b.bsm 0x41C 1 }
  let stB := mk [] fun w => { wm w with tiles := [(4096 * 3 + 5, 0x3F800001)], tilePoison := [], tileCtl := List.replicate 8 {}, ops := [G7.op 4 (.tileBypass 3 2 .rn false 1)] }
  let v := wof (run (.tileOpCompletion ⟨1,0⟩ 4) stB)
  return [("mis", at_ (.mma G18.fm) 0x404 .misaligned && at_ (.mbyp mbyp) 0x404 .misaligned), ("range", at_ (.mma G18.fm) 0x40000 .bsmRange && at_ (.mbyp mbyp) 0x40000 .bsmRange),
    ("format", on (.mma G18.fm) id bad .mmaFormat 0x400 && on (.mbyp mbyp) id bad .mmaFormat 0x400),
    ("row", on (.mma G18.fm) (fun w => w.setScalar 1 (G18.desc 2 64)) id .misaligned 2),
    ("out", on (.mma G18.fm) (fun w => w.setScalar 2 (G18.desc 0x3FF00 0x100)) id .bsmRange 0x40000),
    ("flags", v.flags == 16 && v.tiles.get (4096 * 3 + 5) == 0x3F800000)]

/-- The checks of `matrixFaults` hold. -/
theorem test_matrixFaults : ok matrixFaults = true := by decide +kernel

/-- One element of each kind of card, from the BSM at 0x200 to the BSM at 0x300: 8 bytes copied, a row gathered, 1.5 added to 1,
1 + 2^−10 converted to BF16, tile elements stored and added, and a pattern. From R175, R178, R181. -/
def elements : List (String × Bool) := Id.run do
  let put := fun (x : Nat × Nat) (m : Sparse 8) => G18.putw m x.1 x.2
  let bs : Sparse 8 := [(0x200, 0x3FC00000), (0x204, 0x11223344), (0x240, 0x3F802000), (0x280, 1), (0x300, 0x3F800000), (0x340, 0x40000000)].foldl (fun m x => put x m) []
  let go := fun (op esz idx cfs cfd src : Nat) (fmt : Nat) =>
    let c : Card := { G24.card 7 with
      card := op + 15 * 16 + (if op ≤ 4 then 2 ^ 8 else 0) + 2 ^ 11 + cfs * 2 ^ 14 + cfd * 2 ^ 17 + src * 2 ^ 64 + 0x300 * 2 ^ 128 + 0xAB * 2 ^ 224
      shape := 1 + esz * 4 + idx * 2 ^ 32 + 2 * 2 ^ 64 + 2 * 2 ^ 80 + 0x40 * 2 ^ 192 + 0x40 * 2 ^ 288
      state := .running, fmt := fmt, drain := if op = 5 ∨ op = 6 then some ([(0, 0x3FC00000)], []) else none }
    let s := mk [] id (fun b => { b with bsm := bs }) fun y => y.setCore ⟨0,0⟩ fun k => { k with cards := [c] }
    let t := resOf (run (.cardChunk ⟨0,0⟩ 7 (.part 1)) s)
    let b := (t.sys.block 1).getD (placedBlock 9 false)
    let y := ((t.sys.core ⟨0,0⟩).cards.head?).getD (G24.card 9)
    ((List.range 8).map fun i => (b.bsm.get (0x300 + i)).toNat, (b.bsm.get 0x340).toNat, y.cflags.toNat, y.written, y.nextn)
  let out := fun (n v : Nat) (rest : Nat) => (natToBytes n v).map BitVec.toNat ++ (List.range rest).map fun i => if n + i = 2 then 0x80 else if n + i = 3 then 0x3F else 0
  return [("copy", go 1 3 0 0 0 0x200 0 == (out 8 0x112233443FC00000 0, 0, 0, false, 1)), ("gather", go 2 2 0x280 0 0 0x200 0 == (out 4 0x3F802000 4, 0, 0, false, 1)),
    ("add", (go 3 0 0x280 0 0 0x200 0).1 == out 4 0x3F800000 4 && (go 3 0 0x284 0 0 0x200 0) == (out 4 0x40200000 4, 0, 0, false, 1)),
    ("convert", go 4 0 0 0 2 0x240 2 == (out 2 0x3F80 6, 0, 16, false, 1)), ("store", go 5 0 0 0 1 0 1 == (out 2 0x3E00 6, 0, 0, false, 1)),
    ("tileAdd", go 6 0 0 0 0 0 0 == (out 4 0x40200000 4, 0, 0, false, 1)), ("fill", go 7 1 0 0 0 0 0 == (out 2 0xAB 6, 0, 0, false, 1))]

/-- The checks of `elements` hold. -/
theorem test_elements : ok elements = true := by decide +kernel

/-- TOLSET.VAL, bounds and a second TIGHTEN of one child. From R192, R210, R214. -/
def toleranceMore : List (String × Bool) := Id.run do
  let x : Op := { G18.op 4 (.tighten 9 0 5) with slot := .B }
  let s := mk [] (fun w => { ((wm w).setScalar 4 0).setScalar 5 5 with ops := [x] }) fun b => { b with sweep := 7, drawer := 0x100, nchild := 2, first := 1 }
  return [("val", valueOf 16 == 0x3F000000 && valueOf 8 == 0x3F3504F4), ("bound", mmaBound 1 3 64 == logAdd (logAdd 176 64) (384 - 48)),
    ("turn", same (run (.tighten (F (d := 10) (a := 4) (b := 5))) s) (waiting s (ctx s) .tightenTurn))]

/-- The checks of `toleranceMore` hold. -/
theorem test_toleranceMore : ok toleranceMore = true := by decide +kernel

/-- The manual's three-level upward sweep, weights, and launches whose root lies outside the memory, whose table is bad, or which write
their shares. From R208, R252, R256, R271, R272 and the example after R280. -/
def demands : List (String × Bool) := Id.run do
  let e := fun (a b : Nat) (single : Bool) => a + b * 2 ^ 8 + (if single then 2 ^ 24 else 0)
  let tb := [0, e 16 16 false, e 16 16 false, e 8 29 true].map ClassEntry.parse
  let n := fun (i c first count : Nat) (rel : Bool) => { G10.nd i 0 false count first with opClass := c, rel := rel }
  let e3 := { ClassEntry.parse (e 8 29 true) with s := 16 }
  let out := demandPass (tb.set 3 e3) 0x1030 0 [n 0 1 1 2 true, n 1 3 3 2 false, n 2 2 0 0 false, n 3 2 0 0 false, n 4 2 0 0 false]
  let s := fun (d : Nat) (f : Memory → Memory) => sV fun m => f (setMem (setMem m 0x90000 128 d) 0x80000 32 rootRec)
  let go := fun (s : State) => resOf (run (.sweep (pr 2) 0x90000) s)
  let ends := fun (t : State) (code detail : Nat) => t.sys.packets.map Packet.work == [.done 1 0 code detail] && t.sys.sweeps.map (fun w => (w.phase, w.passed)) == [(.aborted, false)]
  let host := 0x40000000000
  let away := fun (m : Memory) => setMem (setMem m 0x10000 32 (1 + host + 2^64 + 2^76 * 0x40)) host 8 (1 + 0x30000)
  let shared := go (s (descr + 0x1030 * 2 ^ 320 + 0x92000 * 2 ^ 384) id)
  return [("shares", out.map (fun x => x.share.toNat) == [0x1030, 0x50, 0x50, 0x7D, 0x7D]),
    ("weights", weightsOk 4 43 && !weightsOk 4 42 && weightsOk 16 16 && !weightsOk 16 15 && weightsOk 48 4 && weightsOk 43 4),
    ("away", (asidEntry (s descr away).phys (s descr away).sys 0).map (s descr away).sys.rootInside == some false && ends (go (s (descr 0) away)) 0x10 8 && ends (go (s descr away)) 0x11 0),
    ("written", shared.phys.num 0x92000 2 == 0x1030 && (shared.sys.sweeps.flatMap Sweep.nodes).map (fun n => n.share.toNat) == [0x1030])]

/-- The checks of `demands` hold. -/
theorem test_demands : ok demands = true := by decide +kernel

/-- Lasting errors count from a transient one; bad host bytes are logged for code, for the read of a sum, and for a COPY; an error of a
window entry outlives the suspension of its card; a VA past the space is reported masked. From R234, R238, R245, R303, R304, R327. -/
def logged : List (String × Bool) := Id.run do
  let host := 0x40000000000
  let s := G21.sD fun d => { d with devReady := ready ||| (1#64 <<< 33) }
  let retry := fun (t : State) (now : Nat) => resOf (run (.flitRetry 5 true) { t with sys := { t.sys with now := now } })
  let log := fun (t : State) => t.sys.device.log
  let code := fun (bad : List (Nat × Nat)) =>
    let z := mk [0, 0] id id fun y => { y with inputs := { y.inputs with hostErrors := bad } }
    { z with sys := z.sys.setCore ⟨0,0⟩ fun k => { k with tlb := k.tlb.map fun e => { e with pa := host } } }
  let fetched := fun (z : State) => (z.sys.noteFetch z.phys (ctx z) (.nop (F)) 1).device.log
  let p := pr 2
  let sh := sV (fun m => setMem m 0x30008 8 (1 + 2 + 4 + 8 + host)) fun y => { y with inputs := { y.inputs with hostErrors := [(host + 5, 1)] } }
  let c : Card := { G24.card 7 with card := 7 + 15 * 16 + 2 * 2 ^ 11 + 0xAB * 2 ^ 224, shape := 2 * 2 ^ 64, state := .running }
  let z := mk [] id id fun y => { y.setCore ⟨0,0⟩ fun k => { k with cards := [c] } with device := { y.device with globals := 0x10000 } }
  let m := setMem (setMem z.phys.mem 0x10000 32 (1 + 0x20000 + 2^64 + 2^76 * 0x40)) 0x40000 8 (1 + 2 * 3072)
  let t := resOf (run (.cardChunk ⟨0,0⟩ 7 .ok) { z with phys := { z.phys with mem := m } })
  return [("thrice", log (retry (retry (retry s 0) 1000000000000) 1000000000001) == [.retried (.port 5) false, .retried (.port 5) true, .retried (.port 5) false]),
    ("code", fetched (code [(host + 3, 1)]) == [.host (host + 3) 1] && fetched (code [(host + 4, 1)]) == []),
    ("packet", (sh.sys.noteRead sh.phys 0 0x400000004 4).device.log == [.host (host + 5) 1]),
    ("copy", log (resOf (run (.copy p (.main 0x400000005) (.main 0x31000) 1) sh)) == [.host (host + 5) 1]),
    ("window", (log t).take 2 == [.windowEntry 0 0 0, .suspended 0 0 0] && (t.sys.core ⟨0,0⟩).cards.map Card.waitPage == [some 0])]

/-- The checks of `logged` hold. -/
theorem test_logged : ok logged = true := by decide +kernel

/-- A launch whose sensitivity table has n good entries of class EQUAL, 16/16, and is empty behind them. -/
def sensed (n : Nat) : State := sV fun m =>
  let m := setMem (setMem m 0x90000 128 (descr + 0x84000 * 2 ^ 256)) 0x80000 32 rootRec
  m.filter (fun x => x.1 < 0x84000) ++ ((List.range n).flatMap fun i => [(0x84000 + 16 * i, 16), (0x84001 + 16 * i, 16)]) ++ m.filter (fun x => 0x84000 < x.1)

/-- The pages of these tests map addresses below 2^34 to themselves. -/
theorem sensed_walk (n va : Nat) (hn : n = 5 ∨ n = 64) (h1 : 0x84000 ≤ va) (h2 : va < 0x84400) : walkAddr (sensed n).phys (sensed n).sys 0 va true false = .ok va := by
  have h4 : levelIndex 4 va = 0 := by simp only [levelIndex, natBits]; omega
  have h3 : levelIndex 3 va = 0 := by simp only [levelIndex, natBits]; omega
  have e1 : (sensed n).phys.num 0x20000 8 = 0x30001 := by rcases hn with rfl | rfl <;> decide +kernel
  have e2 : (sensed n).phys.num 0x30000 8 = 15 := by rcases hn with rfl | rfl <;> decide +kernel
  have r1 : (sensed n).sys.memReady 0x20000 = true := by rcases hn with rfl | rfl <;> decide +kernel
  have r2 : (sensed n).sys.memReady 0x30000 = true := by rcases hn with rfl | rfl <;> decide +kernel
  have c : (sensed n).sys.contextHeld 0 = false := by rcases hn with rfl | rfl <;> decide +kernel
  have a : asidEntry (sensed n).phys (sensed n).sys 0 = some (1 + 0x20000 + 2^64 + 2^76 * 0x40) := by rcases hn with rfl | rfl <;> decide +kernel
  have o : (sensed n).sys.ownFirstTier 0x20000 = true ∧ (sensed n).sys.ownFirstTier 0x30000 = true := by rcases hn with rfl | rfl <;> decide +kernel
  have w : walkFrom (sensed n).phys (sensed n).sys va 0x20000 5 =
      (.ok va, some { asid := 0, window := false, base := 0, size := 2 ^ 34, pa := 0, r := true, w := true }) := by
    have v : va % 2 ^ 34 = va := Nat.mod_eq_of_lt (by omega)
    rw [walkFrom, walkFrom]
    simp only [h4, h3, e1, r1, natBit, natBits, Nat.mul_zero, Nat.add_zero, leafSize]
    simp [e2, r2, o.2]
    omega
  have p : (sensed n).sys.region va = .firstTier := by
    have q : va / 2 ^ 43 = 0 := by omega
    have z : (sensed n).sys.partNo = 0 := by rcases hn with rfl | rfl <;> decide +kernel
    have y : va % 2 ^ 43 = va := Nat.mod_eq_of_lt (by omega)
    have l : ¬ (2 ^ 52 ≤ va) := by omega
    simp only [Sys.region, q, y, z, offsetRegion, if_neg l, if_pos (show va < 0x8000000000 by omega)]
    rfl
  have k : natBits va 14 12 = 4 := by simp only [natBits]; omega
  have d : (sensed n).sys.ready (2 + 4) = true := by rcases hn with rfl | rfl <;> decide +kernel
  have l : ¬ (2 ^ 52 ≤ va) := by omega
  have g : walkPage (sensed n).phys (sensed n).sys 0 va = (.ok va, some { asid := 0, window := false, base := 0, size := 2 ^ 34, pa := 0, r := true, w := true }) := by
    have b : natBits (1 + 0x20000 + 2^64 + 2^76 * 0x40) 51 12 * 4096 = 0x20000 := by decide
    simp only [walkPage, c, a, b, o.1, w]
    simp
    omega
  simp only [walkAddr, walkOnly, g]
  simp [useEntry, p, Sys.routed, Sys.route, Sys.memReady, k, d]

/-- The table that a launch reads (R252): 64 good entries, or a bad one after five. -/
theorem sensed_read (n : Nat) (hn : n = 5 ∨ n = 64) :
    readVirtual (sensed n).phys (sensed n).sys 0 0x84000 1024 = .ok (numAt (sensed n).phys ((List.range 1024).map (0x84000 + ·))) := by
  exact readVirtual_flat _ _ _ _ _ (by omega) fun i hi => sensed_walk n _ hn (by omega) (by omega)

/-- The premises of the two clauses of a launch with a table hold together. -/
theorem test_sensed : ok (([(5, false), (64, true)] : List (Nat × Bool)).map fun y =>
    let tb := numAt (sensed y.1).phys ((List.range 1024).map (0x84000 + ·))
    let d := descr + 0x84000 * 2 ^ 256
    ("table", (List.range 5).all (fun c => classOk (tableEntry tb c)) && (List.range 64).all (fun c => classOk (tableEntry tb c)) == y.2 &&
      firstBad (descriptorChecks d 2 0) == none)) = true := by
  decide +kernel

/-- Every record that is sent counts as a post, a snapshot is heard, and the later sequence number of one bell shows. From R331, R332, R334,
R335, R340. -/
def posts : List (String × Bool) := Id.run do
  let lv := resOf (run (.marketLeave (pr 2) 50) G13.sM)
  let old : ReceivedRecord := { port := 1, post := { market := 9, stall := 6, code := 77, send := 101, eff := 103, epoch := 5, seq := 9 }, board := [] }
  let sn := resOf (exec .snapshot (G13.sM id fun y => { y with inputs := { y.inputs with records := [old] } }))
  let e : BoardEntry := { G13.ent 7 .active 150 99 0 [(101, 5, 140), (101, 4, 130), (102, 6, 90)] with inForce := (1, 0) }
  let bits := boardBits e
  return [("leave", lv.sys.market.lastPost == 101), ("heard", (sn.sys.market.entry 6).map (fun x => (x.last, x.activeAt)) == some (101, some 103)),
    ("code", e.pendingAt 101 == some 140 && bits / 2 ^ 16 % 256 == 140 && bits / 2 ^ 24 % 256 == 90 && bits / 2 ^ 32 % 4 == 3)]

/-- The checks of `posts` hold. -/
theorem test_posts : ok posts = true := by decide +kernel

/-- A SWEEP waits behind a stack that is not ready; an invalidation reaches the window entries of both towers; a card to be retried is in its
chunk; a trap does not wait for an arrival; only runs that hold something are listed. From R240, R288, R299, R351, R353. -/
def late : List (String × Bool) := Id.run do
  let asleep := sV id fun y => { y with device := { y.device with devReady := ready ^^^ (1#64 <<< 27) ^^^ (1#64 <<< 2) } }
  let e : TlbEntry := { asid := 0, window := true, base := 3, size := 1, pa := 77 }
  let q : Packet := { id := 4, ref := pr 2, work := .invalidate true 0 2 5 }
  let both := mk [] id id fun y => ({ y with packets := [q] }.setCore ⟨0,0⟩ fun k => { k with tlb := [e] }).setCore ⟨1,0⟩ fun k => { k with tlb := [e] }
  let t := resOf (run (.invalidationComplete 4) both)
  let i : TrapInfo := { cause := .misaligned, resume := 5, addr := 77 }
  let arrive : Op := { G18.op 4 (.arrive 3 1) with flag := none }
  let sT := mk G4.ws fun w => { wm w with tvec := G4.base.plus 4, slotA := { (wm w).slotA with trap := some i }, ops := [arrive] }
  let runs : List Run := [{ node := 1, stage := 0, state := .retired }, { node := 2, stage := 1, state := .admitted, res := 3, charged := 4, drawer := some 5 }]
  let w := G10.sw1 runs []
  return [("held", match readDescriptor asleep.phys asleep.sys 0 0x30000 with | .error (_, .held) => true | _ => false),
    ("wait", sweepWaits asleep.phys asleep.sys 2 (.sweep (pr 2) 0x30000)),
    ("towers", (t.sys.core ⟨0,0⟩).tlb == [] && (t.sys.core ⟨1,0⟩).tlb == []), ("chunk", { G24.card 7 with retry := true }.inChunk && !(G24.card 7).inChunk),
    ("trap", (wof (run (.trapEntry ⟨1,0⟩ .A) sT)).slotA.trap == none && (wof (run (.trapEntry ⟨1,0⟩ .A) sT)).rs.length == 1),
    ("runs", w.runWords == [2 + 2 ^ 24 + RunState.admitted.code * 2 ^ 27 + 2 ^ 29 + 5 * 2 ^ 32, 3 + 4 * 2 ^ 24])]

/-- The checks of `late` hold. -/
theorem test_late : ok late = true := by decide +kernel

end G25

end Sys2Proof.Tests
end

section
/-! PROOFS. Memory: stores under the rules of poison (R9, R154, R243, R244), and the canonical form along a step. -/

namespace Sys2Proof.Machine

variable {o : Phys}

/-! ## A store of consecutive bytes -/

@[simp] theorem Tx.byte_poisoned (t : Tx o) (a x : Nat) (b : Byte) : (t.byte a b).phys.poisoned x = t.phys.poisoned x := rfl

@[simp] theorem Tx.mark_phys_byte (t : Tx o) (u x : Nat) (bad : Bool) : (t.mark u bad).phys.byte x = t.phys.byte x := rfl

@[simp] theorem Tx.mark_false_poison (t : Tx o) (u : Nat) : (t.mark u false).phys.poison = NatSet.del t.phys.poison u := rfl

@[simp] theorem Tx.byte_phys_byte_same (t : Tx o) (a : Nat) (b : Byte) : (t.byte a b).phys.byte a = b :=
  byte_store_same t.phys.mem a b

theorem Tx.byte_phys_byte_other (t : Tx o) {a x : Nat} (b : Byte) (h : x ≠ a) : (t.byte a b).phys.byte x = t.phys.byte x :=
  byte_store_other t.phys.mem a x b h

/-- Does a store of `n` bytes from `pa` on cover the unit at `u` whole? -/
def coversUnit (pa n u : Nat) : Bool := decide (pa ≤ u) && decide (u + poisonUnit u ≤ pa + n)

/-- The poison of a unit lifted, if the store covers the unit whole (R244 (d)). -/
def Tx.liftUnit (pa n : Nat) (t : Tx o) (u : Nat) : Tx o :=
  if coversUnit pa n u && NatSet.has t.phys.poison u then t.mark u false else t

/-- One byte of the store: discarded in a poisoned unit (R154 (b)). -/
def Tx.putByte (pa : Nat) (bs : List Byte) (t : Tx o) (i : Nat) : Tx o :=
  if t.phys.poisoned (pa + i) then t else t.byte (pa + i) (bs.getD i 0)

/-- A store lifts the poison of the units that it covers whole, and then puts its bytes. -/
theorem Tx.store_eq (t : Tx o) (pa : Nat) (bs : List Byte) :
    t.store pa bs = (List.range bs.length).foldl (Tx.putByte pa bs)
      (((List.range bs.length).map fun i => poisonBase (pa + i)).foldl (Tx.liftUnit pa bs.length) t) := rfl

/-! ### The poison of whole units lifted -/

@[simp] theorem Tx.liftUnit_byte (pa n : Nat) (t : Tx o) (u x : Nat) : (t.liftUnit pa n u).phys.byte x = t.phys.byte x := by
  unfold Tx.liftUnit
  split <;> simp

theorem Tx.liftUnit_has (pa n : Nat) (t : Tx o) (u v : Nat) :
    NatSet.has (t.liftUnit pa n u).phys.poison v = (NatSet.has t.phys.poison v && !(coversUnit pa n v && u == v)) := by
  unfold Tx.liftUnit
  split
  · next hlift =>
    obtain ⟨hcovers, -⟩ := Bool.and_eq_true_iff.mp hlift
    by_cases h : u = v
    · subst h
      simp [hcovers]
    · simp [NatSet.has_del_other _ _ _ (Ne.symm h), h]
  · next hlift =>
    by_cases h : u = v
    · subst h
      have hpart : NatSet.has t.phys.poison u = true → coversUnit pa n u = false := fun hp => by simpa [hp] using hlift
      simpa using hpart
    · simp [h]

theorem Tx.liftUnits_byte (pa n : Nat) (us : List Nat) (t : Tx o) (x : Nat) :
    (us.foldl (Tx.liftUnit pa n) t).phys.byte x = t.phys.byte x := by
  induction us generalizing t with
  | nil => rfl
  | cons u us ih => rw [List.foldl_cons, ih, Tx.liftUnit_byte]

theorem Tx.liftUnits_has (pa n : Nat) (us : List Nat) (t : Tx o) (v : Nat) :
    NatSet.has (us.foldl (Tx.liftUnit pa n) t).phys.poison v =
      (NatSet.has t.phys.poison v && !(coversUnit pa n v && us.contains v)) := by
  induction us generalizing t with
  | nil => simp
  | cons u us ih =>
    rw [List.foldl_cons, ih, Tx.liftUnit_has, List.contains_cons, Bool.beq_comm]
    cases coversUnit pa n v <;> cases v == u <;> simp

/-! ### The bytes put -/

@[simp] theorem Tx.putByte_poisoned (pa : Nat) (bs : List Byte) (t : Tx o) (i x : Nat) :
    (t.putByte pa bs i).phys.poisoned x = t.phys.poisoned x := by
  unfold Tx.putByte
  split <;> simp

theorem Tx.putBytes_poisoned (pa : Nat) (bs : List Byte) (is : List Nat) (t : Tx o) (x : Nat) :
    (is.foldl (Tx.putByte pa bs) t).phys.poisoned x = t.phys.poisoned x := by
  induction is generalizing t with
  | nil => rfl
  | cons i is ih => rw [List.foldl_cons, ih, Tx.putByte_poisoned]

/-- A byte that no put reaches, or in a poisoned unit, stays. -/
theorem Tx.putBytes_keeps (pa : Nat) (bs : List Byte) (is : List Nat) (t : Tx o) (x : Nat)
    (h : t.phys.poisoned x = true ∨ ∀ i ∈ is, x ≠ pa + i) : (is.foldl (Tx.putByte pa bs) t).phys.byte x = t.phys.byte x := by
  induction is generalizing t with
  | nil => rfl
  | cons i is ih =>
    rw [List.foldl_cons, ih _ (by simpa using h.imp_right fun h j hj => h j (List.mem_cons_of_mem i hj))]
    unfold Tx.putByte
    split
    · rfl
    · next hp =>
      refine Tx.byte_phys_byte_other t _ ?_
      rintro rfl
      exact h.elim hp fun h => h i List.mem_cons_self rfl

/-- A byte that is put outside every poisoned unit is there. -/
theorem Tx.putBytes_puts (pa : Nat) (bs : List Byte) (is : List Nat) (t : Tx o) (i : Nat) (hi : i ∈ is)
    (h : t.phys.poisoned (pa + i) = false) : (is.foldl (Tx.putByte pa bs) t).phys.byte (pa + i) = bs.getD i 0 := by
  induction is generalizing t with
  | nil => cases hi
  | cons j is ih =>
    rw [List.foldl_cons]
    by_cases hm : i ∈ is
    · exact ih _ hm (by simpa using h)
    · obtain rfl : i = j := (List.mem_cons.mp hi).resolve_right hm
      rw [Tx.putBytes_keeps _ _ _ _ _ (.inr fun k hk hx => hm (by rwa [Nat.add_left_cancel hx]))]
      simp [Tx.putByte, h]

/-! ### The store as a whole -/

/-- After a store, the units of its bytes that it covers whole are free of poison, and every other unit is as it was. -/
theorem Tx.store_poisoned (t : Tx o) (pa : Nat) (bs : List Byte) (x : Nat) :
    (t.store pa bs).phys.poisoned x = (t.phys.poisoned x && !(coversUnit pa bs.length (poisonBase x) &&
      ((List.range bs.length).map fun i => poisonBase (pa + i)).contains (poisonBase x))) := by
  rw [Tx.store_eq, Tx.putBytes_poisoned]
  exact Tx.liftUnits_has pa bs.length _ t (poisonBase x)

/-- Of the unit of a byte in its range, a store lifts the poison exactly when it covers the unit whole. -/
theorem Tx.store_poisoned_at (t : Tx o) (pa : Nat) (bs : List Byte) {i : Nat} (hi : i < bs.length) :
    (t.store pa bs).phys.poisoned (pa + i) =
      (t.phys.poisoned (pa + i) && !coversUnit pa bs.length (poisonBase (pa + i))) := by
  have hu : ((List.range bs.length).map fun i => poisonBase (pa + i)).contains (poisonBase (pa + i)) = true :=
    List.contains_iff_mem.mpr (List.mem_map_of_mem (List.mem_range.mpr hi))
  rw [Tx.store_poisoned, hu, Bool.and_true]

theorem Tx.store_byte_outside (t : Tx o) (pa : Nat) (bs : List Byte) {a : Nat} (h : a < pa ∨ pa + bs.length ≤ a) :
    (t.store pa bs).phys.byte a = t.phys.byte a := by
  have hn : ∀ i ∈ List.range bs.length, a ≠ pa + i := fun i hi => by have := List.mem_range.mp hi; omega
  rw [Tx.store_eq, Tx.putBytes_keeps _ _ _ _ _ (.inr hn), Tx.liftUnits_byte]

/-- A byte of the store is there, unless its unit is poisoned even after the store; then the old one stays. -/
theorem Tx.store_byte_at (t : Tx o) (pa : Nat) (bs : List Byte) {i : Nat} (hi : i < bs.length) :
    (t.store pa bs).phys.byte (pa + i) =
      if (t.store pa bs).phys.poisoned (pa + i) then t.phys.byte (pa + i) else bs.getD i 0 := by
  rw [Tx.store_eq, Tx.putBytes_poisoned]
  split
  · next hp => rw [Tx.putBytes_keeps _ _ _ _ _ (.inl hp), Tx.liftUnits_byte]
  · next hp => exact Tx.putBytes_puts _ _ _ _ i (List.mem_range.mpr hi) (by simpa using hp)

/-! ### Numbers -/

@[simp] theorem natToBytes_length (n x : Nat) : (natToBytes n x).length = n := by
  induction n generalizing x with
  | zero => rfl
  | succ n ih => simp [natToBytes, ih]

/-- Where the bytes of a number stand, little-endian, the number is read (R9). -/
theorem Phys.num_of_bytes (p : Phys) (pa n x : Nat) (h : ∀ i, i < n → p.byte (pa + i) = (natToBytes n x).getD i 0) :
    p.num pa n = x % 256 ^ n := by
  induction n generalizing pa x with
  | zero => simp [Phys.num, Nat.mod_one]
  | succ n ih =>
    have low : (p.byte pa).toNat = x % 256 := by simp [show p.byte pa = BitVec.ofNat 8 x from h 0 (by omega)]
    have high : p.num (pa + 1) n = x / 256 % 256 ^ n := ih (pa + 1) (x / 256) fun i hi => by
      simpa [natToBytes, Nat.add_assoc, Nat.add_comm 1 i] using h (i + 1) (by omega)
    rw [Phys.num, low, high, Nat.pow_succ', Nat.mod_mul]

/-- A number stored outside every poisoned unit reads back, cut to its bytes. -/
theorem Tx.storeNum_num (t : Tx o) (pa n x : Nat) (h : t.phys.anyPoison pa n = false) :
    (t.storeNum pa n x).phys.num pa n = x % 256 ^ n := by
  refine Phys.num_of_bytes _ pa n x fun i hi => ?_
  have hlen : i < (natToBytes n x).length := by simpa using hi
  have hp : t.phys.poisoned (pa + i) = false := by simpa using List.any_eq_false.mp h i (List.mem_range.mpr hi)
  have hs : (t.store pa (natToBytes n x)).phys.poisoned (pa + i) = false := by rw [Tx.store_poisoned_at t pa _ hlen, hp]; rfl
  rw [Tx.storeNum, Tx.store_byte_at t pa _ hlen, hs]
  rfl

/-- Settles O39: the poison after a store decides each byte of its range, and the two folds of the store leave every other byte. -/
theorem memoryStores : Obligations.MemoryStores := by
  intro o t pa bs
  refine ⟨fun a ha => t.store_byte_outside pa bs ha, fun i b hb => ?_, fun n x h => t.storeNum_num pa n x h⟩
  obtain ⟨hi, -⟩ := List.getElem?_eq_some_iff.mp hb
  have hbyte := t.store_byte_at pa bs hi
  have hpoison := t.store_poisoned_at pa bs hi
  have hcovers : coversUnit pa bs.length (poisonBase (pa + i)) = true ↔
      pa ≤ poisonBase (pa + i) ∧ poisonBase (pa + i) + poisonUnit (poisonBase (pa + i)) ≤ pa + bs.length := by
    simp [coversUnit]
  refine ⟨fun hfree => ?_, fun hbad hpart => ?_⟩
  · have hclear : (t.store pa bs).phys.poisoned (pa + i) = false := by
      rw [hpoison]
      rcases hfree with hclean | hwhole
      · simp [hclean]
      · simp [hcovers.mpr hwhole]
    exact ⟨by simp [hbyte, hclear, hb], hclear⟩
  · have hstays : (t.store pa bs).phys.poisoned (pa + i) = true := by
      simp [hpoison, hbad, Bool.eq_false_iff.mpr (mt hcovers.mp hpart)]
    exact ⟨by simp [hbyte, hstays], hstays⟩

/-! ## The canonical form of memory along a step (R9, R230)

Memory changes only inside a `Tx`, which carries the proof that it keeps the canonical form. So a step keeps it when the state that
it makes ready has it, and when the meaning of what it executes ends in such a `Tx` or leaves memory alone. -/

/-! ### The meaning of an instruction or event -/

theorem Tx.state_canonical {s : State} (t : Tx s.phys) (hs : s.Canonical) : t.state.Canonical := t.keeps hs

theorem State.canonical_of_phys_eq {s t : State} (h : t.phys = s.phys) (hs : s.Canonical) : t.Canonical := by
  rw [State.Canonical, h]
  exact hs

theorem keepMemory_canonical {s t : State} {f : Phys → Sys → Sys} (h : keepMemory s f = .next t) (hs : s.Canonical) : t.Canonical :=
  State.canonical_of_phys_eq (keepMemory_wf h) hs

theorem execClauseHeader_canonical {hd : HeaderFields} {s t : State} (h : execClauseHeader hd s = .next t) (hs : s.Canonical) :
    t.Canonical := by
  unfold execClauseHeader at h
  split at h
  · cases h
  split at h
  · exact keepMemory_canonical h hs
  split at h
  · exact keepMemory_canonical h hs
  split at h
  · exact work_wf h hs
  split at h
  · split at h
    · exact keepMemory_canonical h hs
    · cases h
  · exact work_wf h hs
  · exact keepMemory_canonical h hs

theorem execIllegalClause_canonical {s t : State} (h : execIllegalClause s = .next t) (hs : s.Canonical) : t.Canonical := by
  unfold execIllegalClause at h
  split at h
  · cases h
  · exact work_wf h hs

theorem execIllegalInstr_canonical {s t : State} (h : execIllegalInstr s = .next t) (hs : s.Canonical) : t.Canonical := by
  unfold execIllegalInstr at h
  split at h
  · cases h
  · exact work_wf h hs

theorem mapPages_canonical {p : PacketRef} {tower first count : Nat} {phys : Option Nat} {s t : State}
    (h : mapPages p tower first count phys s = .next t) (hs : s.Canonical) : t.Canonical := by
  unfold mapPages at h
  exact work_wf h hs

/-- What is executed keeps the canonical form: an event leaves memory alone or does its work in a `Tx`, and an instruction of a slot
goes through `issue`. -/
theorem exec_canonical {i : Instr} {s t : State} (h : exec i s = .next t) (hs : s.Canonical) : t.Canonical := by
  cases i with
  | clauseHeader => exact execClauseHeader_canonical h hs
  | illegalClause => exact execIllegalClause_canonical h hs
  | illegalInstr => exact execIllegalInstr_canonical h hs
  | hotLineTransfer | cardStart | invalidationComplete | spawnPackTimeout | spawnAreaRefill | unitStopAck | queueDoorbell
  | queueEnable | queueDisable | partnoWrite | portenWrite | engineControlWrite | quoteNonceWrite | invalidatePages
  | msixDelivery | config | join | marketLeave | marketPost | sensorRearm | trimRearm | plimit | trimStep | trimHoldExpiry
  | budgetInterval | slewWindow | flitRetry | fatalError | badPacket | firmwareUpdate | preemptTimeout | quoteRequest
  | quoteComplete | nopPacket | post | notice | late | heartbeat | joinReq | snapshot | joinAnn | leave | heartbeatTimer
  | joinTimeout | bell | timePulse | timeWord | pulseMissed | holdoverTimeout | powerSample | sensorSample | reset
  | functionLevelReset | discardedPost =>
    dsimp only [exec] at h
    exact keepMemory_canonical h hs
  | trapEntry | loadStoreCompletion | storeBufferEntryPerformed | atomicEngineAccept | accSlotSumDone | sfuCompletion
  | crngCompletion | mmaCompletion | tileOpCompletion | certCompletion | regacqGrant | acquireDeadlockEviction
  | cardEnterChecker | cardChunk | cardComplete | pageWalkComplete | blockDispatch | blockRetire | highLatencyPreempt
  | redispatchRoomPreempt | preemptRequest | contextSaveDone | coreSelfCheckFail | faultResponseResume
  | faultResponseDecline | registerWrite | sweep | copy | wait | waitEvaluate | waitTimeout | pageRequestResponse | signal
  | packetCompletion | portTrain | functionReady | mmaRowFetch | patrolScrub | peerAccess =>
    dsimp only [exec] at h
    exact work_wf h hs
  | mapRun | unmapRun =>
    dsimp only [exec] at h
    exact mapPages_canonical h hs
  | _ =>
    dsimp only [exec] at h
    exact issue_wf h hs

/-! ### The move that is made ready -/

/-- The state that a move made ready carries has its memory in the canonical form. -/
def Prepared.Canonical : Prepared → Prop
  | .run _ s => s.Canonical
  | .done s => s.Canonical
  | .stop _ => True

theorem State.takeEcc_canonical {s : State} (hs : s.Canonical) : s.takeEcc.Canonical := by
  unfold State.takeEcc
  split
  · exact hs
  · exact Tx.state_canonical _ hs

theorem startPacket_canonical (q : Nat) {s : State} (hs : s.Canonical) : (startPacket q s).1.Canonical := by
  unfold startPacket
  split
  · exact hs
  · dsimp only
    split
    · exact hs
    · exact Tx.state_canonical _ hs
    · split <;> exact hs

theorem prepareIssue_canonical (r : WarpRef) (z : SlotId) {s : State} (hs : s.Canonical) : (prepareIssue r z s).Canonical := by
  unfold prepareIssue
  split
  · exact hs
  · split
    · exact hs
    · split
      · trivial
      · exact hs

theorem prepare_canonical (m : Move) {s : State} (hs : s.Canonical) : (prepare m s).Canonical := by
  have hecc : s.takeEcc.Canonical := State.takeEcc_canonical hs
  cases m with
  | event i =>
    dsimp only [prepare]
    split <;> exact hecc
  | issue r z => exact prepareIssue_canonical r z hecc
  | start q =>
    have hstart := startPacket_canonical q (s := { s.takeEcc with sys := { s.takeEcc.sys with starting := none, cursor := none } }) hecc
    dsimp only [prepare]
    split
    · next h => rwa [h] at hstart
    · next h => rwa [h] at hstart
  | tick => exact hecc

theorem nextMove_phys (s : State) : (nextMove s).2.phys = s.phys := by
  unfold nextMove
  split
  · rfl
  · split
    · rfl
    · split <;> rfl

theorem prepareNext_canonical {s : State} (hs : s.Canonical) : (prepareNext s).Canonical :=
  prepare_canonical _ (State.canonical_of_phys_eq (nextMove_phys s) hs)

/-- Settles O37: the move made ready has canonical memory, and its execution keeps it. -/
theorem stepKeepsMemoryCanonical : Obligations.StepKeepsMemoryCanonical := by
  intro s t hs h
  have hnext := prepareNext_canonical hs
  unfold step at h
  split at h
  · next i s1 hrun => exact exec_canonical h (by rwa [hrun] at hnext)
  · next s1 hdone =>
    cases h
    rwa [hdone] at hnext
  · cases h

end Sys2Proof.Machine
end

section
/-! PROOFS. The encoding table (R52 to R59, R69): no two of its rows answer to the same opcode, X and SUB, so the lookup finds the row of an
instruction; what the checks of R70 say of X and SUB; instructions and their views. -/

namespace Sys2Proof

/-- Is X legal under a row's use of it (R48)? -/
def XUse.legal (u : XUse) (x : Bool) : Bool := match u with | .zero => !x | .one => x | .free => true

/-- Does one row ask for X = 0 and the other for X = 1? -/
def XUse.opposes (u v : XUse) : Bool :=
  match u, v with
  | .zero, .one | .one, .zero => true
  | _, _ => false

/-- Does each row ask for a SUB of its own? -/
def SubUse.opposes (u v : SubUse) : Bool :=
  match u, v with
  | .exactly i, .exactly j => i != j
  | _, _ => false

theorem XUse.opposes_iff {u v : XUse} : u.opposes v = true ↔ (u = .zero ∧ v = .one) ∨ (u = .one ∧ v = .zero) := by
  cases u <;> cases v <;> decide

theorem SubUse.opposes_iff {u v : SubUse} : u.opposes v = true ↔ ∃ i j, u = .exactly i ∧ v = .exactly j ∧ i ≠ j := by
  cases u <;> cases v <;> simp [SubUse.opposes]

theorem XUse.opposes_comm (u v : XUse) : u.opposes v = v.opposes u := by cases u <;> cases v <;> rfl

theorem SubUse.opposes_comm (u v : SubUse) : u.opposes v = v.opposes u := by
  cases u <;> cases v <;> simp [SubUse.opposes, bne_comm]

/-- A SUB does not select two rows of which each asks for its own. -/
theorem SubUse.not_opposes_of_selects {u v : SubUse} {sub : BitVec 4} (hu : u.selects sub = true) (hv : v.selects sub = true) :
    ¬u.opposes v = true := by
  intro h
  obtain ⟨i, j, rfl, rfl, hij⟩ := SubUse.opposes_iff.mp h
  exact hij ((beq_iff_eq.mp hu).symm.trans (beq_iff_eq.mp hv))

theorem SubUse.selects_of_legal {u : SubUse} {f : Fields} (h : u.legal f = true) : u.selects f.sub = true := by
  cases u <;> simp_all [SubUse.selects, SubUse.legal]

/-- `Mnem.all` lists the mnemonics in the order of their constructors. -/
theorem Mnem.all_getElem?_ctorIdx (m : Mnem) : Mnem.all[m.ctorIdx]? = some m := by cases m <;> rfl

theorem Mnem.mem_all (m : Mnem) : m ∈ Mnem.all := List.mem_of_getElem? m.all_getElem?_ctorIdx

/-- Can two rows be told apart by their opcodes, or by the X or the SUB that they ask for? -/
def Mnem.apart (m n : Mnem) : Bool := m.spec.op.toNat != n.spec.op.toNat || m.spec.x.opposes n.spec.x || m.spec.sub.opposes n.spec.sub

/-- The one fact about the table as a whole, checked pair by pair. -/
theorem Mnem.all_pairwise_apart : Mnem.all.Pairwise fun m n => m.apart n = true := by decide +kernel

theorem Mnem.apart_comm (m n : Mnem) : m.apart n = n.apart m := by
  unfold Mnem.apart
  rw [bne_comm, XUse.opposes_comm, SubUse.opposes_comm]

theorem Mnem.apart_of_ne {m n : Mnem} (h : m ≠ n) : m.apart n = true :=
  have : Std.Symm fun m n : Mnem => m.apart n = true := ⟨fun m n hmn => (n.apart_comm m).trans hmn⟩
  Mnem.all_pairwise_apart.forall m.mem_all n.mem_all h

theorem Mnem.eq_or_x_opposes {m n : Mnem} {sub : BitVec 4} (hop : n.spec.op = m.spec.op) (hn : n.spec.sub.selects sub = true)
    (hm : m.spec.sub.selects sub = true) :
    n = m ∨ (n.spec.x = .zero ∧ m.spec.x = .one) ∨ (n.spec.x = .one ∧ m.spec.x = .zero) := by
  by_cases hne : n = m
  · exact .inl hne
  · have hapart := Mnem.apart_of_ne hne
    simp only [Mnem.apart, hop, bne_self_eq_false, Bool.false_or, Bool.or_eq_true] at hapart
    exact .inr (XUse.opposes_iff.mp (hapart.resolve_right (SubUse.not_opposes_of_selects hn hm)))

theorem find?_eq_some_of_unique {α : Type} {p : α → Bool} {xs : List α} {a : α} (ha : a ∈ xs) (hp : p a = true)
    (huniq : ∀ b ∈ xs, p b = true → b = a) : xs.find? p = some a := by
  obtain ⟨b, hb⟩ := Option.isSome_iff_exists.mp (List.find?_isSome.mpr ⟨a, ha, hp⟩)
  rw [hb, huniq b (List.mem_of_find?_eq_some hb) (List.find?_some hb)]

/-- The lookup finds a row under its opcode, an X that is legal for it and a SUB that selects it: of the other rows with that opcode and
SUB, at most the one that asks for the opposite X is left. -/
theorem Mnem.lookup_spec_op {m : Mnem} {x : Bool} {sub : BitVec 4} (hx : m.spec.x.legal x = true) (hs : m.spec.sub.selects sub = true) :
    Mnem.lookup m.spec.op x sub = some m := by
  unfold Mnem.lookup
  extract_lets rows
  have hmem : m ∈ rows := List.mem_filter.mpr ⟨m.mem_all, by simp [hs]⟩
  have hrows : ∀ n ∈ rows, n = m ∨ (n.spec.x = .zero ∧ m.spec.x = .one) ∨ (n.spec.x = .one ∧ m.spec.x = .zero) := by
    intro n hn
    obtain ⟨hop, hsel⟩ : n.spec.op = m.spec.op ∧ n.spec.sub.selects sub = true := by simpa using (List.mem_filter.mp hn).2
    exact Mnem.eq_or_x_opposes hop hsel hs
  by_cases hone : m.spec.x = .one
  · have hxt : x = true := by simpa [hone, XUse.legal] using hx
    have hfirst : rows.find? (fun n => n.spec.x == .one && x) = some m := by
      refine find?_eq_some_of_unique hmem (by simp [hone, hxt]) fun n hn hp => ?_
      obtain h | ⟨h, -⟩ | ⟨-, h⟩ := hrows n hn
      · exact h
      · simp [h] at hp
      · simp [h] at hone
    rw [hfirst]
  · have hfirst : rows.find? (fun n => n.spec.x == .one && x) = none := by
      refine List.find?_eq_none.mpr fun n hn hp => ?_
      obtain ⟨hn1, rfl⟩ : n.spec.x = .one ∧ x = true := by simpa using hp
      obtain rfl | ⟨-, h⟩ | ⟨-, h⟩ := hrows n hn
      · exact hone hn1
      · exact hone h
      · simp [h, XUse.legal] at hx
    rw [hfirst]
    refine find?_eq_some_of_unique hmem (by simpa using hone) fun n hn hp => ?_
    obtain h | ⟨-, h⟩ | ⟨h, -⟩ := hrows n hn
    · exact h
    · exact absurd h hone
    · simp [h] at hp

/-! ## The checks of R70 -/

theorem ite_some_eq_none_iff {α : Type} {c : Prop} [Decidable c] {a : α} {o : Option α} :
    (if c then some a else o) = none ↔ ¬c ∧ o = none := by
  by_cases h : c <;> simp [h]

theorem Mnem.x_sub_legal_of_illegal_eq_none {m : Mnem} {f : Fields} (h : m.illegal f = none) :
    m.spec.x.legal f.x = true ∧ m.spec.sub.legal f = true := by
  simp only [Mnem.illegal, ite_some_eq_none_iff, Bool.not_eq_true, Bool.not_eq_false'] at h
  obtain ⟨hx, -, -, -, hsub, -⟩ := h
  exact ⟨hx, hsub⟩

/-- A legal field record is found under its own row. -/
theorem Mnem.lookup_of_illegal_eq_none {m : Mnem} {f : Fields} (h : m.illegal f = none) : Mnem.lookup m.spec.op f.x f.sub = some m := by
  obtain ⟨hx, hsub⟩ := Mnem.x_sub_legal_of_illegal_eq_none h
  exact Mnem.lookup_spec_op hx (SubUse.selects_of_legal hsub)

/-! ## Instructions and their views -/

@[simp] theorem Instr.view_ofMnem (m : Mnem) (f : Fields) : (Instr.ofMnem m f).view = some (m, f) := by cases m <;> rfl

theorem Instr.ofMnem_of_view (i : Instr) : Laws.ViewInverse.Statement i := by
  intro m f h
  cases i <;> cases h <;> rfl

theorem Instr.wellFormed_of_view_eq_none {i : Instr} (h : i.view = none) : i.wellFormed = true := by
  simp [Instr.wellFormed, h]

theorem Instr.wellFormed_iff_of_view {i : Instr} {m : Mnem} {f : Fields} (h : i.view = some (m, f)) :
    i.wellFormed = true ↔ f.formOk = true ∧ m.illegal f = none := by
  simp [Instr.wellFormed, h]

end Sys2Proof
end

section
/-! PROOFS. The fields of the words of an instruction (R47 to R51, R54, R55, R60): each stands where it was written. -/

namespace Sys2Proof

open BitVec (extractLsb'_append_eq_of_le extractLsb'_append_eq_of_add_le extractLsb'_eq_self getLsbD_append getLsbD_ofBool)

/-! ## Word 0 (R48) -/

variable (op : BitVec 8) (f : Fields)

@[simp] theorem encodeW0_tag : (encodeW0 op f).extractLsb' 0 2 = f.form.tag := by
  simp (disch := decide) only [encodeW0, extractLsb'_append_eq_of_add_le, extractLsb'_eq_self]

@[simp] theorem opField_encodeW0 : opField (encodeW0 op f) = op := by
  simp (disch := decide) only [opField, encodeW0, extractLsb'_append_eq_of_le, extractLsb'_append_eq_of_add_le, extractLsb'_eq_self,
    Nat.reduceSub]

@[simp] theorem encodeW0_d : (encodeW0 op f).extractLsb' 10 6 = f.d.extractLsb' 0 6 := by
  simp (disch := decide) only [encodeW0, extractLsb'_append_eq_of_le, extractLsb'_append_eq_of_add_le, extractLsb'_eq_self, Nat.reduceSub]

@[simp] theorem encodeW0_a : (encodeW0 op f).extractLsb' 16 6 = f.a.extractLsb' 0 6 := by
  simp (disch := decide) only [encodeW0, extractLsb'_append_eq_of_le, extractLsb'_append_eq_of_add_le, extractLsb'_eq_self, Nat.reduceSub]

@[simp] theorem encodeW0_b : (encodeW0 op f).extractLsb' 22 6 = f.b.extractLsb' 0 6 := by
  simp (disch := decide) only [encodeW0, extractLsb'_append_eq_of_le, extractLsb'_append_eq_of_add_le, extractLsb'_eq_self, Nat.reduceSub]

@[simp] theorem encodeW0_m : (encodeW0 op f).extractLsb' 28 2 = f.guard.fieldM := by
  simp (disch := decide) only [encodeW0, extractLsb'_append_eq_of_le, extractLsb'_append_eq_of_add_le, extractLsb'_eq_self, Nat.reduceSub]

theorem encodeW0_imm : (encodeW0 op f).getLsbD 30 = f.imm := by
  simp only [encodeW0, getLsbD_append, getLsbD_ofBool, Nat.reduceLT, Nat.reduceSub, reduceIte, decide_true, Bool.true_and]

theorem encodeW0_x : (encodeW0 op f).getLsbD 31 = f.x := by
  simp only [encodeW0, getLsbD_append, getLsbD_ofBool, Nat.reduceLT, Nat.reduceSub, reduceIte, decide_true, Bool.true_and]

/-! ## Word 1 (R49) -/

@[simp] theorem encodeW1_d : (encodeW1 f).extractLsb' 0 2 = f.d.extractLsb' 6 2 := by
  simp (disch := decide) only [encodeW1, extractLsb'_append_eq_of_add_le, extractLsb'_eq_self]

@[simp] theorem encodeW1_a : (encodeW1 f).extractLsb' 2 2 = f.a.extractLsb' 6 2 := by
  simp (disch := decide) only [encodeW1, extractLsb'_append_eq_of_le, extractLsb'_append_eq_of_add_le, extractLsb'_eq_self, Nat.reduceSub]

@[simp] theorem encodeW1_b : (encodeW1 f).extractLsb' 4 2 = f.b.extractLsb' 6 2 := by
  simp (disch := decide) only [encodeW1, extractLsb'_append_eq_of_le, extractLsb'_append_eq_of_add_le, extractLsb'_eq_self, Nat.reduceSub]

@[simp] theorem encodeW1_c : (encodeW1 f).extractLsb' 6 8 = f.c := by
  simp (disch := decide) only [encodeW1, extractLsb'_append_eq_of_le, extractLsb'_append_eq_of_add_le, extractLsb'_eq_self, Nat.reduceSub]

@[simp] theorem encodeW1_mx : (encodeW1 f).extractLsb' 14 3 = f.guard.fieldMX := by
  simp (disch := decide) only [encodeW1, extractLsb'_append_eq_of_le, extractLsb'_append_eq_of_add_le, extractLsb'_eq_self, Nat.reduceSub]

theorem encodeW1_mn : (encodeW1 f).getLsbD 17 = f.guard.fieldMN := by
  simp only [encodeW1, getLsbD_append, getLsbD_ofBool, Nat.reduceLT, Nat.reduceSub, reduceIte, decide_true, Bool.true_and]

@[simp] theorem encodeW1_rnd : (encodeW1 f).extractLsb' 18 3 = f.rnd.field := by
  simp (disch := decide) only [encodeW1, extractLsb'_append_eq_of_le, extractLsb'_append_eq_of_add_le, extractLsb'_eq_self, Nat.reduceSub]

theorem encodeW1_sat : (encodeW1 f).getLsbD 21 = f.sat := by
  simp only [encodeW1, getLsbD_append, getLsbD_ofBool, Nat.reduceLT, Nat.reduceSub, reduceIte, decide_true, Bool.true_and]

@[simp] theorem encodeW1_sub : (encodeW1 f).extractLsb' 22 4 = f.sub := by
  simp (disch := decide) only [encodeW1, extractLsb'_append_eq_of_le, extractLsb'_append_eq_of_add_le, extractLsb'_eq_self, Nat.reduceSub]

@[simp] theorem encodeW1_mod : (encodeW1 f).extractLsb' 26 6 = f.mod := by
  simp (disch := decide) only [encodeW1, extractLsb'_append_eq_of_le, extractLsb'_eq_self, Nat.reduceSub]

/-! ## The word of a clause header (R60) -/

variable (h : HeaderFields)

@[simp] theorem encodeHeader_tag : (encodeHeader h).extractLsb' 0 2 = 3#2 := by
  simp (disch := decide) only [encodeHeader, extractLsb'_append_eq_of_add_le, extractLsb'_eq_self]

@[simp] theorem encodeHeader_wait : (encodeHeader h).extractLsb' 2 12 = h.wait := by
  simp (disch := decide) only [encodeHeader, extractLsb'_append_eq_of_le, extractLsb'_append_eq_of_add_le, extractLsb'_eq_self, Nat.reduceSub]

@[simp] theorem encodeHeader_setA : (encodeHeader h).extractLsb' 14 4 = h.setA := by
  simp (disch := decide) only [encodeHeader, extractLsb'_append_eq_of_le, extractLsb'_append_eq_of_add_le, extractLsb'_eq_self, Nat.reduceSub]

@[simp] theorem encodeHeader_setB : (encodeHeader h).extractLsb' 18 4 = h.setB := by
  simp (disch := decide) only [encodeHeader, extractLsb'_append_eq_of_le, extractLsb'_append_eq_of_add_le, extractLsb'_eq_self, Nat.reduceSub]

@[simp] theorem encodeHeader_len : (encodeHeader h).extractLsb' 22 6 = h.len := by
  simp (disch := decide) only [encodeHeader, extractLsb'_append_eq_of_le, extractLsb'_append_eq_of_add_le, extractLsb'_eq_self, Nat.reduceSub]

@[simp] theorem encodeHeader_reserved : (encodeHeader h).extractLsb' 28 4 = 0#4 := by
  simp (disch := decide) only [encodeHeader, extractLsb'_append_eq_of_le, extractLsb'_eq_self, Nat.reduceSub]

end Sys2Proof
end

section
/-! PROOFS. The decoder, case by case, and the agreement of decoding and encoding (R47 to R51, R54, R60, R70). -/

namespace Sys2Proof

/-! ## The fields that a form can hold (R51, R54) -/

/-- Does the mask selection name m1 to m7, or every lane (R54)? -/
def Guard.legal (g : Guard) : Bool := match g with | .all => true | .set m => m != 0 | .clear m => m != 0

/-- Can M alone hold the mask selection, as in the 32-bit form (R39, R51)? -/
def Guard.short (g : Guard) : Bool := match g with | .all => true | .set m => m.toNat < 4 | .clear _ => false

theorem Fields.formOk_w32_iff {f : Fields} (h : f.form = .w32) : f.formOk = true ↔
    f.guard.legal = true ∧ f.guard.short = true ∧ f.d.toNat < 64 ∧ f.a.toNat < 64 ∧ f.b.toNat < 64 ∧ f.c = 0 ∧ f.rnd = .rn ∧
      f.sat = false ∧ f.sub = 0 ∧ f.mod = 0 ∧ f.lit = 0 := by
  have hguard : f.formOk = (f.guard.legal && (f.d.toNat < 64 && f.a.toNat < 64 && f.b.toNat < 64 && f.c == 0 && f.rnd == .rn && !f.sat
      && f.sub == 0 && f.mod == 0 && f.lit == 0 && f.guard.short)) := by
    unfold Fields.formOk
    rw [h]
    rfl
  rw [hguard]
  simp only [Bool.and_eq_true, decide_eq_true_eq, beq_iff_eq, Bool.not_eq_true']
  tauto

theorem Fields.formOk_w64_iff {f : Fields} (h : f.form = .w64) :
    f.formOk = true ↔ f.guard.legal = true ∧ f.lit = 0 ∧ literalOk f = true := by
  have hform : f.formOk = (f.guard.legal && (f.lit == 0 && f.rnd != .sr)) := by
    unfold Fields.formOk
    rw [h]
    rfl
  simp [hform, literalOk, h]

theorem Fields.formOk_w96_iff {f : Fields} (h : f.form = .w96) :
    f.formOk = true ↔ f.guard.legal = true ∧ literalOk f = true := by
  have hform : f.formOk = (f.guard.legal && (if f.rnd == .sr then !f.imm else f.imm && f.b == 0)) := by
    unfold Fields.formOk
    rw [h]
    rfl
  simp [hform, literalOk, h]

theorem Fields.guard_legal_of_formOk {f : Fields} (h : f.formOk = true) : f.guard.legal = true := by
  cases hform : f.form with
  | w32 => exact ((formOk_w32_iff hform).mp h).1
  | w64 => exact ((formOk_w64_iff hform).mp h).1
  | w96 => exact ((formOk_w96_iff hform).mp h).1

theorem Fields.literalOk_of_formOk {f : Fields} (h : f.formOk = true) : literalOk f = true := by
  cases hform : f.form with
  | w32 => simp [literalOk, hform]
  | w64 => exact ((formOk_w64_iff hform).mp h).2.2
  | w96 => exact ((formOk_w96_iff hform).mp h).2

/-! ## The codes of the form, the rounding and the mask selection (R47, R54, R55) -/

@[simp] theorem formOf_tag (form : Form) : formOf form.tag = some form := by cases form <;> rfl

@[simp] theorem rndOf_field (r : Rnd) : rndOf r.field = some r := by cases r <;> rfl

theorem guardOf_fields {g : Guard} (h : g.legal = true) : guardOf g.fieldM g.fieldMX g.fieldMN = some g := by
  cases g with
  | all => rfl
  | set m => revert m; decide
  | clear m => revert m; decide

theorem guard_legal_of_guardOf {m : BitVec 2} {mx : BitVec 3} {mn : Bool} {g : Guard} (h : guardOf m mx mn = some g) :
    g.legal = true := by
  have hall : ∀ m mx mn, (guardOf m mx mn).all Guard.legal = true := by decide
  simpa [h] using hall m mx mn

theorem guard_short_of_guardOf {m : BitVec 2} {g : Guard} (h : guardOf m 0 false = some g) : g.short = true := by
  have hall : ∀ m, (guardOf m 0 false).all Guard.short = true := by decide
  have hm := hall m
  rwa [h] at hm

theorem Guard.fields_of_short {g : Guard} (h : g.short = true) : g.fieldMX = 0 ∧ g.fieldMN = false := by
  cases g with
  | all => exact ⟨rfl, rfl⟩
  | set m => exact ⟨if_pos (of_decide_eq_true h), rfl⟩
  | clear m => cases h

/-! ## Numbers split over two words (R48, R49) -/

theorem extractLsb'_join (n : BitVec 8) : n.extractLsb' 6 2 ++ n.extractLsb' 0 6 = n :=
  (BitVec.extractLsb'_append_extractLsb'_eq_extractLsb' (start₁ := 0) (len₁ := 6) rfl).trans BitVec.extractLsb'_eq_self

theorem extractLsb'_high_of_lt {n : BitVec 8} (h : n.toNat < 64) : n.extractLsb' 6 2 = 0 := by
  apply BitVec.eq_of_toNat_eq
  simp [Nat.shiftRight_eq_div_pow]
  omega

theorem toNat_zero_append_lt (lo : BitVec 6) : ((0#2) ++ lo).toNat < 64 := by
  rw [BitVec.toNat_append]
  simpa using lo.isLt

theorem parseFields_encode (f : Fields) (op : BitVec 8) :
    parseFields f.form (encodeW0 op f) (encodeW1 f) f.lit f.guard f.rnd = f := by
  simp only [parseFields, encodeW0_d, encodeW0_a, encodeW0_b, encodeW0_imm, encodeW0_x, encodeW1_d, encodeW1_a, encodeW1_b, encodeW1_c,
    encodeW1_sat, encodeW1_sub, encodeW1_mod, extractLsb'_join]

theorem encodeW1_eq_zero {f : Fields} (hform : f.form = .w32) (h : f.formOk = true) : encodeW1 f = 0 := by
  obtain ⟨-, hshort, hd, ha, hb, hc, hrnd, hsat, hsub, hmod, -⟩ := (Fields.formOk_w32_iff hform).mp h
  obtain ⟨hmx, hmn⟩ := Guard.fields_of_short hshort
  simp only [encodeW1, hmx, hmn, hc, hrnd, hsat, hsub, hmod, extractLsb'_high_of_lt hd, extractLsb'_high_of_lt ha,
    extractLsb'_high_of_lt hb]
  rfl

/-! ## What the decoder accepts (R47, R70) -/

theorem selectInstr_eq_ok_iff {op : BitVec 8} {f : Fields} {i : Instr} :
    selectInstr op f = .ok i ↔ ∃ m, Mnem.lookup op f.x f.sub = some m ∧ m.illegal f = none ∧ Instr.ofMnem m f = i := by
  unfold selectInstr
  split
  · next h => simp [h]
  · next m h =>
    split
    · next e he => simp [h, he]
    · next he => simp [h, he]

theorem decodeInstr_eq_ok_iff {w0 w1 w2 : Word} {i : Instr} :
    decodeInstr w0 w1 w2 = .ok i ↔ ∃ form v1 v2 r g, formOf (w0.extractLsb' 0 2) = some form ∧ formWords form w1 w2 = (v1, v2) ∧
      rndOf (v1.extractLsb' 18 3) = some r ∧ guardOf (w0.extractLsb' 28 2) (v1.extractLsb' 14 3) (v1.getLsbD 17) = some g ∧
      literalOk (parseFields form w0 v1 v2 g r) = true ∧ selectInstr (opField w0) (parseFields form w0 v1 v2 g r) = .ok i := by
  constructor
  · intro h
    unfold decodeInstr at h
    split at h
    · cases h
    · next form hform =>
      dsimp only at h
      split at h
      · cases h
      · next r hr =>
        split at h
        · cases h
        · next g hg =>
          split at h
          · next hl => exact ⟨form, _, _, r, g, hform, rfl, hr, hg, hl, h⟩
          · cases h
  · rintro ⟨form, v1, v2, r, g, hform, hw, hr, hg, hl, hsel⟩
    simp only [decodeInstr, hform, hw, hr, hg, hl, if_true]
    exact hsel

theorem decodeHeader_encodeHeader (h : HeaderFields) : decodeHeader (encodeHeader h) = .ok h := by
  simp [decodeHeader]

/-- The form and the mask of what the decoder accepts are legal (R51, R54). -/
theorem formOk_parseFields {form : Form} {w0 w1 w2 v1 v2 : Word} {r : Rnd} {g : Guard} (hw : formWords form w1 w2 = (v1, v2))
    (hr : rndOf (v1.extractLsb' 18 3) = some r)
    (hg : guardOf (w0.extractLsb' 28 2) (v1.extractLsb' 14 3) (v1.getLsbD 17) = some g)
    (hl : literalOk (parseFields form w0 v1 v2 g r) = true) : (parseFields form w0 v1 v2 g r).formOk = true := by
  have hlegal : g.legal = true := guard_legal_of_guardOf hg
  cases form with
  | w32 =>
    obtain ⟨rfl, rfl⟩ : 0#32 = v1 ∧ 0#32 = v2 := Prod.mk.inj hw
    have hrn : r = .rn := (Option.some.inj hr).symm
    exact (Fields.formOk_w32_iff rfl).mpr ⟨hlegal, guard_short_of_guardOf hg, toNat_zero_append_lt _, toNat_zero_append_lt _,
      toNat_zero_append_lt _, rfl, hrn, rfl, rfl, rfl, rfl⟩
  | w64 =>
    obtain ⟨rfl, rfl⟩ : w1 = v1 ∧ 0#32 = v2 := Prod.mk.inj hw
    exact (Fields.formOk_w64_iff rfl).mpr ⟨hlegal, rfl, hl⟩
  | w96 => exact (Fields.formOk_w96_iff rfl).mpr ⟨hlegal, hl⟩

theorem wellFormed_of_decodeInstr {w0 w1 w2 : Word} {i : Instr} (h : decodeInstr w0 w1 w2 = .ok i) : i.wellFormed = true := by
  obtain ⟨form, v1, v2, r, g, -, hw, hr, hg, hl, hsel⟩ := decodeInstr_eq_ok_iff.mp h
  obtain ⟨m, -, hm, rfl⟩ := selectInstr_eq_ok_iff.mp hsel
  exact (Instr.wellFormed_iff_of_view (Instr.view_ofMnem m _)).mpr ⟨formOk_parseFields hw hr hg hl, hm⟩

theorem wellFormed_of_decodeWords {w0 w1 w2 : Word} {i : Instr} (h : decodeWords w0 w1 w2 = .ok i) : i.wellFormed = true := by
  unfold decodeWords at h
  split at h
  · cases hd : decodeHeader w0 with
    | error e => rw [hd] at h; cases h
    | ok hdr =>
      rw [hd] at h
      cases h
      exact Instr.wellFormed_of_view_eq_none rfl
  · exact wellFormed_of_decodeInstr h

/-! ## What the encoder writes (R47, R51) -/

/-- The words that an opcode and a field record are written as: as many as the form has. -/
def Fields.words (op : BitVec 8) (f : Fields) : List Word :=
  match f.form with
  | .w32 => [encodeW0 op f]
  | .w64 => [encodeW0 op f, encodeW1 f]
  | .w96 => [encodeW0 op f, encodeW1 f, f.lit]

theorem encode_of_view {i : Instr} {m : Mnem} {f : Fields} (h : i.view = some (m, f)) : encode i = some (f.words m.spec.op) := by
  unfold encode
  split
  · cases h
  · rw [h]
    rfl

theorem encode_eq_some_cases {i : Instr} {ws : List Word} (h : encode i = some ws) :
    (∃ hdr, i = .clauseHeader hdr ∧ ws = [encodeHeader hdr]) ∨ ∃ m f, i.view = some (m, f) ∧ ws = f.words m.spec.op := by
  cases hv : i.view with
  | some v => exact .inr ⟨v.1, v.2, rfl, Option.some.inj (h.symm.trans (encode_of_view hv))⟩
  | none =>
    unfold encode at h
    split at h
    · next hdr => exact .inl ⟨hdr, rfl, (Option.some.inj h).symm⟩
    · rw [hv] at h
      cases h

theorem Fields.words_getD_zero (op : BitVec 8) (f : Fields) (more : List Word) :
    (f.words op ++ more).getD 0 0 = encodeW0 op f := by
  cases h : f.form <;> simp [words, h]

theorem Fields.words_length (op : BitVec 8) (f : Fields) : (f.words op).length = itemWords (encodeW0 op f) := by
  cases h : f.form <;> simp [words, itemWords, h, Form.tag]

/-- The words after the first are read back as they were written: what the form has no word for is zero (R51). -/
theorem Fields.formWords_words {f : Fields} (h : f.formOk = true) (op : BitVec 8) (more : List Word) :
    formWords f.form ((f.words op ++ more).getD 1 0) ((f.words op ++ more).getD 2 0) = (encodeW1 f, f.lit) := by
  cases hform : f.form with
  | w32 =>
    obtain ⟨-, -, -, -, -, -, -, -, -, -, hlit⟩ := (formOk_w32_iff hform).mp h
    simp [formWords, encodeW1_eq_zero hform h, hlit]
  | w64 =>
    obtain ⟨-, hlit, -⟩ := (formOk_w64_iff hform).mp h
    simp [formWords, words, hform, hlit]
  | w96 => simp [formWords, words, hform]

/-! ## Decoding what the encoder writes -/

theorem selectInstr_of_illegal_eq_none {m : Mnem} {f : Fields} (h : m.illegal f = none) :
    selectInstr m.spec.op f = .ok (Instr.ofMnem m f) :=
  selectInstr_eq_ok_iff.mpr ⟨m, Mnem.lookup_of_illegal_eq_none h, h, rfl⟩

theorem decodeInstr_words {m : Mnem} {f : Fields} (hform : f.formOk = true) (hlegal : m.illegal f = none) (more : List Word) :
    decodeInstr ((f.words m.spec.op ++ more).getD 0 0) ((f.words m.spec.op ++ more).getD 1 0) ((f.words m.spec.op ++ more).getD 2 0) =
      .ok (Instr.ofMnem m f) := by
  rw [Fields.words_getD_zero]
  refine decodeInstr_eq_ok_iff.mpr ⟨f.form, encodeW1 f, f.lit, f.rnd, f.guard, by simp, Fields.formWords_words hform _ more, by simp,
    ?_, ?_, ?_⟩
  · rw [encodeW0_m, encodeW1_mx, encodeW1_mn]
    exact guardOf_fields (Fields.guard_legal_of_formOk hform)
  · rw [parseFields_encode]
    exact Fields.literalOk_of_formOk hform
  · rw [parseFields_encode, opField_encodeW0]
    exact selectInstr_of_illegal_eq_none hlegal

theorem decodeWords_of_tag_ne {w0 : Word} (h : w0.extractLsb' 0 2 ≠ 3) (w1 w2 : Word) : decodeWords w0 w1 w2 = decodeInstr w0 w1 w2 := by
  unfold decodeWords
  rw [if_neg (by simpa using h)]

theorem decodeWords_encodeHeader (h : HeaderFields) (w1 w2 : Word) : decodeWords (encodeHeader h) w1 w2 = .ok (.clauseHeader h) := by
  simp [decodeWords, decodeHeader_encodeHeader, Except.map]

theorem Form.tag_ne_three (form : Form) : form.tag ≠ 3 := by cases form <;> decide

theorem decodeWords_words {i : Instr} {m : Mnem} {f : Fields} (hv : i.view = some (m, f)) (hi : i.wellFormed = true) (more : List Word) :
    decodeWords ((f.words m.spec.op ++ more).getD 0 0) ((f.words m.spec.op ++ more).getD 1 0) ((f.words m.spec.op ++ more).getD 2 0) =
      .ok i := by
  obtain ⟨hform, hlegal⟩ := (Instr.wellFormed_iff_of_view hv).mp hi
  have htag : ((f.words m.spec.op ++ more).getD 0 0).extractLsb' 0 2 ≠ 3 := by
    rw [Fields.words_getD_zero, encodeW0_tag]
    exact f.form.tag_ne_three
  rw [decodeWords_of_tag_ne htag, decodeInstr_words hform hlegal, i.ofMnem_of_view m f hv]

/-- Settles O34: a header and an instruction are each read back from the fields of their words, and the lookup finds the row again; what
decodes has passed every check. -/
theorem decodeEncode : Obligations.DecodeEncode := by
  refine ⟨fun i ws more hi henc => ?_, fun w0 w1 w2 i h => wellFormed_of_decodeWords h⟩
  obtain ⟨hdr, rfl, rfl⟩ | ⟨m, f, hv, rfl⟩ := encode_eq_some_cases henc
  · exact ⟨decodeWords_encodeHeader hdr _ _, by simp [itemWords]⟩
  · exact ⟨decodeWords_words hv hi more, by rw [Fields.words_getD_zero, Fields.words_length]⟩

/-- Settles O35, word by word. -/
theorem workedEncodings : Obligations.WorkedEncodings := by
  refine ⟨?_, ?_, ?_, ?_, ?_, ?_, ?_, ?_, ?_⟩ <;> decide +kernel

end Sys2Proof
end

section
/-! PROOFS. Number formats (R73, R74, R76): the magnitudes that the codes of a format stand for, in order, and the values
of its encodings. -/

namespace Sys2Proof.Machine

open Sys2Proof.Claims

variable (f : FloatFmt)

/-! ## The magnitudes of a format -/

/-- The magnitude of a code, which is an encoding without its sign, as a multiple of the last place of a subnormal. The codes go on past
the greatest finite one, as R80 has it for the brackets. -/
def FloatFmt.steps (c : Nat) : Nat :=
  if c < 2 ^ f.frac then c else (2 ^ f.frac + c % 2 ^ f.frac) * 2 ^ (c / 2 ^ f.frac - 1)

/-- The magnitude of a code. -/
def FloatFmt.mag (c : Nat) : ℚ := f.steps c * 2 ^ f.minExp

/-- A significand of the binade `j` counts its last places, at both ends of the binade. -/
theorem FloatFmt.steps_binade {j k : Nat} (hk : k ≤ 2 ^ (f.frac + 1)) (hn : 2 ^ f.frac ≤ k ∨ j = 0) :
    f.steps (j * 2 ^ f.frac + k) = k * 2 ^ j := by
  have hpos : 0 < 2 ^ f.frac := Nat.two_pow_pos _
  rw [Nat.pow_succ] at hk
  unfold steps
  rcases Nat.lt_or_ge k (2 ^ f.frac) with hlt | hge
  · obtain rfl : j = 0 := by omega
    simp [hlt]
  · rw [if_neg (by nlinarith [Nat.zero_le (j * 2 ^ f.frac)])]
    rcases Nat.lt_or_ge k (2 * 2 ^ f.frac) with hlt' | hge'
    · obtain ⟨i, rfl⟩ := Nat.exists_eq_add_of_le hge
      have hi : i < 2 ^ f.frac := by omega
      rw [show j * 2 ^ f.frac + (2 ^ f.frac + i) = i + 2 ^ f.frac * (j + 1) by ring, Nat.add_mul_mod_self_left,
        Nat.add_mul_div_left _ _ hpos, Nat.mod_eq_of_lt hi, Nat.div_eq_of_lt hi]
      simp
    · obtain rfl : k = 2 * 2 ^ f.frac := by omega
      rw [show j * 2 ^ f.frac + 2 * 2 ^ f.frac = 2 ^ f.frac * (j + 2) by ring, Nat.mul_mod_right, Nat.mul_div_cancel_left _ hpos]
      simp only [add_zero, Nat.add_succ_sub_one, pow_succ]
      ring

/-- Every code is a significand in a binade. -/
theorem FloatFmt.exists_binade (c : Nat) :
    ∃ j k, c = j * 2 ^ f.frac + k ∧ k < 2 ^ (f.frac + 1) ∧ (2 ^ f.frac ≤ k ∨ j = 0) := by
  have hpos : 0 < 2 ^ f.frac := Nat.two_pow_pos _
  have hmod := Nat.mod_lt c hpos
  have hdiv := Nat.div_add_mod' c (2 ^ f.frac)
  rw [Nat.pow_succ]
  rcases h : c / 2 ^ f.frac with _ | j
  · exact ⟨0, c % 2 ^ f.frac, by simpa [h] using hdiv.symm, by omega, .inr rfl⟩
  · refine ⟨j, 2 ^ f.frac + c % 2 ^ f.frac, ?_, by omega, .inl (by omega)⟩
    rw [h] at hdiv
    linarith [Nat.succ_mul j (2 ^ f.frac)]

theorem FloatFmt.steps_strictMono : StrictMono f.steps := by
  refine strictMono_nat_of_lt_succ fun c => ?_
  obtain ⟨j, k, rfl, hk, hn⟩ := f.exists_binade c
  rw [f.steps_binade hk.le hn, Nat.add_assoc, f.steps_binade hk (hn.imp_left (Nat.le_succ_of_le))]
  exact Nat.mul_lt_mul_of_pos_right k.lt_succ_self (Nat.two_pow_pos j)

@[simp] theorem FloatFmt.steps_zero : f.steps 0 = 0 := by simp [steps]

theorem FloatFmt.mag_strictMono : StrictMono f.mag := fun a b h => by
  have : (f.steps a : ℚ) < f.steps b := by exact_mod_cast f.steps_strictMono h
  unfold mag
  gcongr

@[simp] theorem FloatFmt.mag_zero : f.mag 0 = 0 := by simp [mag]

theorem FloatFmt.mag_nonneg (c : Nat) : 0 ≤ f.mag c := by unfold mag; positivity

theorem FloatFmt.mag_binade {j k : Nat} (hk : k ≤ 2 ^ (f.frac + 1)) (hn : 2 ^ f.frac ≤ k ∨ j = 0) :
    f.mag (j * 2 ^ f.frac + k) = k * 2 ^ (f.minExp + j) := by
  rw [mag, f.steps_binade hk hn, zpow_add₀ two_ne_zero, zpow_natCast]
  push_cast
  ring

/-- The subnormals and the least normal count in last places of a subnormal. -/
theorem FloatFmt.mag_of_le {c : Nat} (hc : c ≤ 2 ^ f.frac) : f.mag c = c * 2 ^ f.minExp := by
  have h := f.mag_binade (j := 0) (hc.trans (Nat.pow_le_pow_right two_pos (Nat.le_succ f.frac))) (.inr rfl)
  simpa using h

/-! ## The value of an encoding -/

variable {f}

theorem FloatFmt.signBit_of_ne (hf : f ≠ .e8m0) (neg : Bool) : f.signBit neg = if neg then 2 ^ (f.bits - 1) else 0 := by
  cases f with
  | e8m0 => exact absurd rfl hf
  | _ => rfl

theorem FloatFmt.maxCode_lt (hf : f ≠ .e8m0) : f.maxCode < 2 ^ (f.bits - 1) := by
  cases f with
  | e8m0 => exact absurd rfl hf
  | _ => decide

/-- The value that a code stands for in a binade (R73): the formats differ only in which codes they keep back. -/
def FloatFmt.codeValue (f : FloatFmt) (neg : Bool) (c : Nat) : Num :=
  if c / 2 ^ f.frac = 0 then .fin neg (c % 2 ^ f.frac) f.minExp
  else .fin neg (2 ^ f.frac + c % 2 ^ f.frac) (f.minExp + (c / 2 ^ f.frac - 1 : Nat))

theorem FloatFmt.exists_codeValue (f : FloatFmt) (neg : Bool) (c : Nat) :
    ∃ m e, f.codeValue neg c = .fin neg m e ∧ (m * 2 ^ e : ℚ) = f.mag c := by
  have hdiv : c / 2 ^ f.frac = 0 ↔ c < 2 ^ f.frac := Nat.div_eq_zero_iff_lt (Nat.two_pow_pos _)
  unfold codeValue mag steps
  simp only [hdiv]
  split <;> rename_i hc
  · exact ⟨_, _, rfl, by rw [Nat.mod_eq_of_lt hc]⟩
  · refine ⟨_, _, rfl, ?_⟩
    rw [zpow_add₀ two_ne_zero, zpow_natCast]
    push_cast
    ring

theorem FloatFmt.real_codeValue (neg : Bool) (c : Nat) : real (f.codeValue neg c) = (if neg then -1 else 1) * f.mag c := by
  obtain ⟨m, e, hval, hmag⟩ := f.exists_codeValue neg c
  rw [hval, ← hmag, real, mul_assoc]

theorem FloatFmt.finite_codeValue (neg : Bool) (c : Nat) : Claims.Finite (f.codeValue neg c) := by
  obtain ⟨m, e, hval, -⟩ := f.exists_codeValue neg c
  rw [hval]
  trivial

/-- The fields of an encoding that is put together of a sign and a code. -/
theorem FloatFmt.fields_code (hf : f ≠ .e8m0) (neg : Bool) {c : Nat} (hc : c < 2 ^ (f.bits - 1)) :
    f.signBit neg + c < 2 ^ f.bits ∧ natBit (f.signBit neg + c) (f.bits - 1) = neg ∧
      natBits (f.signBit neg + c) (f.bits - 2) f.frac = c / 2 ^ f.frac ∧ (f.signBit neg + c) % 2 ^ f.frac = c % 2 ^ f.frac := by
  rw [f.signBit_of_ne hf]
  cases f with
  | e8m0 => exact absurd rfl hf
  | _ =>
    simp only [bits, frac, expBits, natBit, natBits, Nat.shiftRight_eq_div_pow, beq_eq_decide] at hc ⊢
    cases neg <;> simp <;> omega

theorem FloatFmt.value_code (hf : f ≠ .e8m0) (neg : Bool) {c : Nat} (hc : c ≤ f.maxCode) :
    f.value (f.signBit neg + c) = f.codeValue neg c := by
  obtain ⟨hlt, hneg, hexp, hfrac⟩ := f.fields_code hf neg (hc.trans_lt (f.maxCode_lt hf))
  cases f with
  | e8m0 => exact absurd rfl hf
  | e2m1 => simp only [value, Nat.mod_eq_of_lt hlt, hneg, hexp, hfrac, codeValue, beq_iff_eq]
  | _ =>
    simp only [value, Nat.mod_eq_of_lt hlt, hneg, hexp, hfrac, codeValue, beq_iff_eq]
    simp [frac, maxCode, expBits] at hc ⊢
    omega

theorem FloatFmt.exists_sign_code (hf : f ≠ .e8m0) {k : Nat} (hk : k < 2 ^ f.bits) :
    ∃ neg c, c < 2 ^ (f.bits - 1) ∧ k = f.signBit neg + c := by
  have hbits : 2 ^ f.bits = 2 ^ (f.bits - 1) * 2 := by cases f <;> rfl
  simp only [f.signBit_of_ne hf]
  rcases Nat.lt_or_ge k (2 ^ (f.bits - 1)) with hlt | hge
  · exact ⟨false, k, hlt, by simp⟩
  · exact ⟨true, k - 2 ^ (f.bits - 1), by omega, by simp [hge]⟩

/-- Above the greatest finite code of a format with infinities, the exponent field is all ones. -/
theorem FloatFmt.top_exponent (hf : f ∈ [FloatFmt.fp32, .fp16, .bf16, .e5m2]) {c : Nat} (hc : c < 2 ^ (f.bits - 1)) (h : ¬ c ≤ f.maxCode) :
    c / 2 ^ f.frac = 2 ^ f.expBits - 1 := by
  cases f with
  | e8m0 | e4m3 | e2m1 => simp at hf
  | _ =>
    simp only [bits, expBits, frac, maxCode] at hc h ⊢
    omega

/-- The codes above the greatest finite one are those of the infinities and the NaNs. -/
theorem FloatFmt.le_maxCode_of_finite (hf : f ≠ .e8m0) {neg : Bool} {c : Nat} (hc : c < 2 ^ (f.bits - 1))
    (h : Claims.Finite (f.value (f.signBit neg + c))) : c ≤ f.maxCode := by
  obtain ⟨hlt, hneg, hexp, hfrac⟩ := f.fields_code hf neg hc
  by_contra hmax
  cases f with
  | e8m0 => exact absurd rfl hf
  | e2m1 => exact absurd (Nat.le_of_lt_succ hc) hmax
  | e4m3 =>
    have htop : c / 2 ^ e4m3.frac = 15 ∧ c % 2 ^ e4m3.frac = 7 := by
      simp only [bits, expBits, frac, maxCode] at hc hmax ⊢
      omega
    simp only [value, Nat.mod_eq_of_lt hlt, hneg, hexp, hfrac, htop] at h
    exact h
  | _ =>
    have htop := top_exponent (by decide) hc hmax
    simp only [value, Nat.mod_eq_of_lt hlt, hneg, hexp, hfrac, htop, beq_self_eq_true, if_true] at h
    split at h <;> exact h

end Sys2Proof.Machine
end

section
/-! PROOFS. The rounding of a magnitude to a grid (R80, R81): which of the two brackets each mode picks. -/

namespace Sys2Proof.Machine

open Sys2Proof.Claims

/-! ## The choice between the two brackets (R80, R81) -/

/-- Does the mode choose the greater bracket, for a magnitude that lies the fraction `φ` of the way up from the lesser one? `odd` says that
the last significand bit of the lesser one is 1. -/
def Rounding.picks (r : Rounding) (neg odd : Bool) (φ : ℚ) : Bool :=
  match r.mode with
  | .rn => decide (1 / 2 < φ) || (decide (φ = 1 / 2) && odd)
  | .rz => false
  | .ru => !neg && decide (φ ≠ 0)
  | .rd => neg && decide (φ ≠ 0)
  | .ra => decide (1 / 2 ≤ φ)
  | .sr => decide ((r.draw : ℤ) < ⌊65536 * φ⌋)

variable (r : Rounding) (neg odd : Bool)

theorem Rounding.picks_zero : r.picks neg odd 0 = false := by
  rcases r with ⟨mode, draw⟩
  cases mode <;> norm_num [picks]

/-- A greater fraction is chosen up where a smaller one is. -/
theorem Rounding.picks_of_lt {φ ψ : ℚ} (hφ : 0 ≤ φ) (h : φ < ψ) (hp : r.picks neg odd φ = true) (odd' : Bool) :
    r.picks neg odd' ψ = true := by
  rcases r with ⟨mode, draw⟩
  have hψ : ψ ≠ 0 := (hφ.trans_lt h).ne'
  cases mode with
  | rz => exact hp
  | ru | rd => simp_all [picks]
  | rn =>
    have hhalf : 1 / 2 ≤ φ := by
      simp only [picks, Bool.or_eq_true, Bool.and_eq_true, decide_eq_true_eq] at hp
      rcases hp with hp | ⟨hp, -⟩ <;> linarith
    simp only [picks, decide_eq_true (hhalf.trans_lt h), Bool.true_or]
  | ra =>
    simp only [picks, decide_eq_true_eq] at hp ⊢
    linarith
  | sr =>
    simp only [picks, decide_eq_true_eq] at hp ⊢
    exact hp.trans_le (Int.floor_le_floor (by linarith))

/-- Below the 16th bit of the fraction only the direction counts. -/
theorem Rounding.picks_of_small {φ ψ : ℚ} (hφ : 0 < φ) (hφ' : φ < 1 / 65536) (hψ : 0 < ψ) (hψ' : ψ < 1 / 65536) :
    r.picks neg odd φ = r.picks neg odd ψ := by
  rcases r with ⟨mode, draw⟩
  cases mode with
  | rz => rfl
  | ru | rd => simp [picks, hφ.ne', hψ.ne']
  | rn | ra =>
    have hφ2 : φ < 1 / 2 := by linarith
    have hψ2 : ψ < 1 / 2 := by linarith
    simp only [picks, hφ2.not_ge, hψ2.not_ge, hφ2.not_gt, hψ2.not_gt, hφ2.ne, hψ2.ne]
  | sr =>
    have floor_eq_zero : ∀ x : ℚ, 0 < x → x < 1 / 65536 → ⌊65536 * x⌋ = 0 := fun x h h' =>
      Int.floor_eq_zero_iff.mpr ⟨by linarith, by linarith⟩
    simp only [picks, floor_eq_zero φ hφ hφ', floor_eq_zero ψ hψ hψ']

/-! ## The rounding to a grid (R80) -/

section Fraction

variable {rest d : Nat}

theorem half_lt_div_iff (hd : 0 < d) : (1 / 2 : ℚ) < rest / d ↔ d < 2 * rest := by
  rw [div_lt_div_iff₀ two_pos (by exact_mod_cast hd)]
  norm_cast
  omega

theorem half_le_div_iff (hd : 0 < d) : (1 / 2 : ℚ) ≤ rest / d ↔ d ≤ 2 * rest := by
  rw [div_le_div_iff₀ two_pos (by exact_mod_cast hd)]
  norm_cast
  omega

theorem div_eq_half_iff (hd : 0 < d) : (rest / d : ℚ) = 1 / 2 ↔ 2 * rest = d := by
  rw [div_eq_div_iff (by exact_mod_cast hd.ne') two_ne_zero]
  norm_cast
  omega

theorem floor_scaled_div (rest d : Nat) : ⌊(65536 * (rest / d) : ℚ)⌋ = ((2 ^ 16 * rest / d : Nat) : ℤ) := by
  rw [mul_div_assoc', ← Int.natCast_floor_eq_floor (by positivity)]
  exact_mod_cast congrArg Nat.cast (Nat.floor_div_eq_div (K := ℚ) (65536 * rest) d)

end Fraction

/-- The magnitude of an exact value. -/
def Exact.mag (x : Exact) : ℚ := x.m * 2 ^ x.e

variable {x : Exact} {g : Int}

theorem natCast_two_pow_toNat {n : Int} (h : 0 ≤ n) : ((2 ^ n.toNat : Nat) : ℚ) = 2 ^ n := by
  rw [Nat.cast_pow, ← zpow_natCast, Int.toNat_of_nonneg h, Nat.cast_ofNat]

/-- Above the exponent of the value the grid divides the significand, with a remainder, by a power of 2 that it may cut short. -/
theorem Exact.toGrid_cut (hs : x.sticky = false) (hg : x.e < g) {q rest d : Nat} (hd : d = 2 ^ min (g - x.e).toNat (x.m.log2 + 24))
    (hq : q = x.m / d) (hr : rest = x.m % d) :
    x.toGrid r g = (if r.picks x.neg (q % 2 == 1) (rest / d) then q + 1 else q, decide (rest ≠ 0),
      r.picks x.neg (q % 2 == 1) (rest / d)) := by
  have hpos : 0 < d := hd ▸ Nat.two_pow_pos _
  simp only [toGrid, if_neg hg.not_ge, ← hd, ← hq, ← hr, hs]
  rcases Nat.eq_zero_or_pos rest with h0 | h0
  · simp [h0, Rounding.picks_zero]
  · have hφ : (rest / d : ℚ) ≠ 0 := by positivity
    rcases r with ⟨mode, draw⟩
    have hn : rest ≠ 0 := h0.ne'
    cases mode <;>
      simp only [Rounding.picks, half_lt_div_iff hpos, half_le_div_iff hpos, div_eq_half_iff hpos, floor_scaled_div, Nat.cast_lt] <;>
      simp [hn, hφ, beq_eq_decide]

/-- A quotient far below 1 is far below 1 for every divisor from some power of 2 on. -/
theorem div_two_pow_lt (m : Nat) {n : Nat} (hn : m.log2 + 24 ≤ n) : m * 65536 < 2 ^ n := calc
  m * 65536 < 2 ^ (m.log2 + 1) * 65536 := by have := m.lt_log2_self; omega
  _ ≤ 2 ^ (m.log2 + 24) := by rw [pow_add, pow_add]; omega
  _ ≤ 2 ^ n := Nat.pow_le_pow_right two_pos hn

theorem Rounding.picks_of_far_below {m d d' : Nat} (hm : 0 < m) (hd : m * 65536 < d) (hd' : m * 65536 < d') :
    r.picks neg odd (m / d) = r.picks neg odd (m / d') := by
  have small : ∀ e : Nat, m * 65536 < e → (m / e : ℚ) < 1 / 65536 := fun e he => by
    have : (0 : ℚ) < e := by exact_mod_cast (Nat.zero_le _).trans_lt he
    rw [div_lt_div_iff₀ this (by norm_num), one_mul]
    exact_mod_cast he
  have pos : ∀ e : Nat, m * 65536 < e → (0 : ℚ) < m / e := fun e he => by
    have : 0 < e := (Nat.zero_le _).trans_lt he
    positivity
  exact r.picks_of_small neg odd (pos d hd) (small d hd) (pos d' hd') (small d' hd')

/-- Above the exponent of the value the grid divides the significand, with a remainder: where it cuts its divisor short, the quotient is
0 and the fraction too small to count. -/
theorem Exact.toGrid_of_lt (hs : x.sticky = false) (hg : x.e < g) {q rest d : Nat} (hd : d = 2 ^ (g - x.e).toNat)
    (hq : q = x.m / d) (hr : rest = x.m % d) :
    x.toGrid r g = (if r.picks x.neg (q % 2 == 1) (rest / d) then q + 1 else q, decide (rest ≠ 0),
      r.picks x.neg (q % 2 == 1) (rest / d)) := by
  rcases le_or_gt (g - x.e).toNat (x.m.log2 + 24) with hn | hn
  · exact toGrid_cut r hs hg (by rw [hd, min_eq_left hn]) hq hr
  · have hfar := hd ▸ div_two_pow_lt x.m hn.le
    obtain ⟨d', hd'⟩ : ∃ d', d' = 2 ^ (x.m.log2 + 24) := ⟨_, rfl⟩
    have hfar' := hd' ▸ div_two_pow_lt x.m le_rfl
    have hlt : x.m < d := by omega
    have hlt' : x.m < d' := by omega
    rw [toGrid_cut (d := d') r hs hg (by rw [hd', min_eq_right hn.le]) rfl rfl, hq, hr, Nat.div_eq_of_lt hlt, Nat.div_eq_of_lt hlt',
      Nat.mod_eq_of_lt hlt, Nat.mod_eq_of_lt hlt']
    rcases Nat.eq_zero_or_pos x.m with hm | hm
    · simp [hm]
    · rw [r.picks_of_far_below _ _ hm hfar hfar']

/-- At or below the exponent of the value the grid holds it. -/
theorem Exact.toGrid_of_le (hs : x.sticky = false) (hg : g ≤ x.e) : x.toGrid r g = (x.m * 2 ^ (x.e - g).toNat, false, false) := by
  simp [toGrid, hg, hs]

theorem natCast_mul_zpow_of_le {m : Nat} {e : Int} (hg : g ≤ e) : (m * 2 ^ e : ℚ) = (m * 2 ^ (e - g).toNat : Nat) * 2 ^ g := by
  rw [Nat.cast_mul, natCast_two_pow_toNat (by omega), mul_assoc, ← zpow_add₀ two_ne_zero, sub_add_cancel]

theorem Exact.mag_div_of_lt (hg : x.e < g) : x.mag / 2 ^ g = x.m / (2 ^ (g - x.e).toNat : Nat) := by
  rw [natCast_two_pow_toNat (by omega), zpow_sub₀ two_ne_zero, mag, div_div_eq_mul_div]

/-- The rounding to a grid (R80): the place below the value, or the next one where the mode picks it by the fraction in between. -/
theorem Exact.toGrid_eq (hs : x.sticky = false) {q : Nat} (hq : q * 2 ^ g ≤ x.mag) (hq' : x.mag < (q + 1) * 2 ^ g) {up : Bool}
    (hup : up = r.picks x.neg (q % 2 == 1) (x.mag / 2 ^ g - q)) :
    x.toGrid r g = (if up then q + 1 else q, decide (x.mag ≠ q * 2 ^ g), up) := by
  have hpos : (0 : ℚ) < 2 ^ g := by positivity
  rcases le_or_gt g x.e with hg | hg
  · have hm : x.mag = _ := natCast_mul_zpow_of_le hg
    have hqm : q = x.m * 2 ^ (x.e - g).toNat := by
      rw [hm] at hq hq'
      have h1 := le_of_mul_le_mul_right hq hpos
      have h2 := lt_of_mul_lt_mul_right hq' hpos.le
      norm_cast at h1 h2
      omega
    have hφ : x.mag / 2 ^ g - q = 0 := by rw [hm, hqm, mul_div_cancel_right₀ _ hpos.ne', sub_self]
    rw [toGrid_of_le r hs hg, hup, hφ, r.picks_zero, hm, hqm]
    simp
  · obtain ⟨d, hd⟩ : ∃ d, d = 2 ^ (g - x.e).toNat := ⟨_, rfl⟩
    have hdiv : x.mag / 2 ^ g = x.m / (d : ℚ) := by rw [mag_div_of_lt hg, hd]
    have hd0 : 0 < d := hd ▸ Nat.two_pow_pos _
    have hd0' : (0 : ℚ) < d := by exact_mod_cast hd0
    have hqd : q = x.m / d := by
      rw [← le_div_iff₀ hpos, hdiv, le_div_iff₀ hd0'] at hq
      rw [← div_lt_iff₀ hpos, hdiv, div_lt_iff₀ hd0'] at hq'
      norm_cast at hq hq'
      exact (Nat.div_eq_of_lt_le hq hq').symm
    have hφ : x.mag / 2 ^ g - q = (x.m % d : Nat) / d := by
      have hm : (x.m : ℚ) = d * q + (x.m % d : Nat) := by
        rw [hqd]
        exact_mod_cast (Nat.div_add_mod x.m d).symm
      rw [hdiv, div_sub' hd0'.ne', hm, add_sub_cancel_left]
    have hexact : x.m % d ≠ 0 ↔ x.mag ≠ q * 2 ^ g := by
      rw [not_iff_not, ← div_eq_iff hpos.ne', ← sub_eq_zero (b := (q : ℚ)), hφ, div_eq_zero_iff, or_iff_left hd0'.ne', Nat.cast_eq_zero]
    rw [toGrid_of_lt r hs hg hd hqd rfl, ← hφ, ← hup]
    simp only [hexact]

end Sys2Proof.Machine
end

section
/-! PROOFS. The rounding of a nonzero value to a format (R79): precision, tininess and encoding come down to the choice between two
codes. -/

namespace Sys2Proof.Machine

open Sys2Proof.Claims

/-! ## Exponents and magnitudes -/

theorem le_leadExp_iff {m : Nat} (hm : m ≠ 0) {e n : Int} : n ≤ leadExp m e ↔ (2 : ℚ) ^ n ≤ m * 2 ^ e := by
  have hpow : (2 : ℚ) ^ n = 2 ^ (n - e) * 2 ^ e := by rw [← zpow_add₀ two_ne_zero, sub_add_cancel]
  rw [hpow, mul_le_mul_iff_left₀ (by positivity), leadExp]
  rcases le_or_gt n e with h | h
  · have hone : (1 : ℚ) ≤ m := by exact_mod_cast Nat.one_le_iff_ne_zero.mpr hm
    exact iff_of_true (by omega) ((zpow_le_one_of_nonpos₀ one_le_two (by omega)).trans hone)
  · rw [← natCast_two_pow_toNat (by omega), Nat.cast_le, ← Nat.le_log2 hm]
    omega

theorem leadExp_lt_iff {m : Nat} (hm : m ≠ 0) {e n : Int} : leadExp m e < n ↔ (m * 2 ^ e : ℚ) < 2 ^ n := by
  rw [← not_le, le_leadExp_iff hm, not_le]

theorem magGreater_iff {m n : Nat} (hm : m ≠ 0) (hn : n ≠ 0) {e e' : Int} :
    magGreater m e n e' = true ↔ (n * 2 ^ e' : ℚ) < m * 2 ^ e := by
  unfold magGreater
  have hlow := (le_leadExp_iff hm (e := e)).mp le_rfl
  have hlow' := (le_leadExp_iff hn (e := e')).mp le_rfl
  split_ifs with h h'
  · have hlt := (leadExp_lt_iff hm).mp h
    simpa using (hlt.trans_le hlow').le
  · have hlt := (leadExp_lt_iff hn).mp h'
    simpa using hlt.trans_le hlow
  · rw [natCast_mul_zpow_of_le (min_le_left e e'), natCast_mul_zpow_of_le (min_le_right e e'), mul_lt_mul_iff_left₀ (by positivity),
      Nat.cast_lt, decide_eq_true_eq]

theorem two_zpow_add_natCast (n : Int) (k : Nat) : (2 : ℚ) ^ (n + k) = (2 ^ k : Nat) * 2 ^ n := by
  rw [zpow_add₀ two_ne_zero, zpow_natCast, mul_comm, Nat.cast_pow, Nat.cast_ofNat]

/-- The leading bit of a magnitude that has a significand of `p + 1` bits above the last place `i`. -/
theorem leadExp_of_significand {m k p : Nat} (hm : m ≠ 0) {e i : Int} (hk : 2 ^ p ≤ k) (hk' : k < 2 ^ (p + 1))
    (h : (k * 2 ^ i : ℚ) ≤ m * 2 ^ e) (h' : (m * 2 ^ e : ℚ) < (k + 1) * 2 ^ i) : leadExp m e = i + p := by
  have hpos : (0 : ℚ) < 2 ^ i := by positivity
  have hlow : (2 : ℚ) ^ (i + p) ≤ m * 2 ^ e := by
    refine le_trans ?_ h
    rw [two_zpow_add_natCast, mul_le_mul_iff_left₀ hpos]
    exact_mod_cast hk
  have hhigh : (m * 2 ^ e : ℚ) < 2 ^ (i + (p + 1 : Nat)) := by
    refine h'.trans_le ?_
    rw [two_zpow_add_natCast, mul_le_mul_iff_left₀ hpos]
    exact_mod_cast hk'
  have := (le_leadExp_iff hm).mpr hlow
  have := (leadExp_lt_iff hm).mpr hhigh
  omega

/-! ## The encoding of a magnitude -/

variable {f : FloatFmt}

theorem FloatFmt.frac_pos (hf : f ≠ .e8m0) : 0 < f.frac := by
  cases f with
  | e8m0 => exact absurd rfl hf
  | _ => decide

theorem FloatFmt.encodeMag_subnormal (hf : f ≠ .e8m0) {m : Nat} (hm : m ≠ 0) {e : Int} (h : leadExp m e < f.minExp + f.frac) :
    f.encodeMag m e = m * 2 ^ (e - f.minExp).toNat := by
  cases f with
  | e8m0 => exact absurd rfl hf
  | _ => simp only [encodeMag, beq_iff_eq, hm, h, if_true, if_false]

theorem FloatFmt.encodeMag_normal (hf : f ≠ .e8m0) {m j : Nat} (hm : m ≠ 0) {e : Int} (h : leadExp m e = f.minExp + j + f.frac) :
    f.encodeMag m e = (j + 1) * 2 ^ f.frac +
      ((if f.minExp + j ≤ e then m * 2 ^ (e - (f.minExp + j)).toNat else m / 2 ^ (f.minExp + j - e).toNat) - 2 ^ f.frac) := by
  have hk : ¬ f.minExp + j + f.frac < f.minExp + f.frac := by omega
  have hj : (f.minExp + j + f.frac - (f.minExp + f.frac)).toNat = j := by omega
  have hg : f.minExp + j + f.frac - f.frac = f.minExp + j := by omega
  cases f with
  | e8m0 => exact absurd rfl hf
  | _ => simp only [encodeMag, beq_iff_eq, hm, h, hk, hj, hg, if_false]

/-- The encoding of a magnitude that the format holds is its code (R73). -/
theorem FloatFmt.encodeMag_eq (hf : f ≠ .e8m0) {m c : Nat} {e : Int} (hmin : f.minExp ≤ e ∨ 2 ^ f.frac ≤ c) (h : m * 2 ^ e = f.mag c) :
    f.encodeMag m e = c := by
  obtain ⟨j, k, rfl, hk, hn⟩ := f.exists_binade c
  rw [f.mag_binade hk.le hn] at h
  have hpos : (0 : ℚ) < 2 ^ (f.minExp + j) := by positivity
  rcases eq_or_ne m 0 with rfl | hm
  · obtain rfl : k = 0 := by simpa [hpos.ne'] using h.symm
    obtain rfl : j = 0 := hn.resolve_left (Nat.two_pow_pos _).not_ge
    simp [encodeMag]
  rcases lt_or_ge k (2 ^ f.frac) with hlt | hge
  · obtain rfl : j = 0 := hn.resolve_left hlt.not_ge
    simp only [Nat.cast_zero, add_zero, zero_mul, zero_add] at h hpos hmin ⊢
    have he : f.minExp ≤ e := hmin.resolve_right hlt.not_ge
    have htiny : (m * 2 ^ e : ℚ) < 2 ^ (f.minExp + f.frac) := by
      rw [h, two_zpow_add_natCast, mul_lt_mul_iff_left₀ hpos]
      exact_mod_cast hlt
    rw [encodeMag_subnormal hf hm ((leadExp_lt_iff hm).mpr htiny)]
    rw [natCast_mul_zpow_of_le he] at h
    exact_mod_cast mul_right_cancel₀ hpos.ne' h
  · have hlead : leadExp m e = f.minExp + j + f.frac :=
      leadExp_of_significand hm hge hk h.ge (by rw [h, mul_lt_mul_iff_left₀ hpos]; exact lt_add_one _)
    have hsig : (if f.minExp + j ≤ e then m * 2 ^ (e - (f.minExp + j)).toNat else m / 2 ^ (f.minExp + j - e).toNat) = k := by
      split_ifs with he
      · rw [natCast_mul_zpow_of_le he] at h
        exact_mod_cast mul_right_cancel₀ hpos.ne' h
      · rw [natCast_mul_zpow_of_le (not_le.mp he).le] at h
        have hm' : m = k * 2 ^ (f.minExp + j - e).toNat := by exact_mod_cast mul_right_cancel₀ (zpow_ne_zero e two_ne_zero) h
        rw [hm', Nat.mul_div_cancel _ (Nat.two_pow_pos _)]
    rw [encodeMag_normal hf hm hlead, hsig]
    linarith [Nat.sub_add_cancel hge, Nat.succ_mul j (2 ^ f.frac)]

variable {f : FloatFmt} {r : Rounding} {x : Exact} {g : Int}

/-! ## The rounding to a grid, without its cases -/

theorem Exact.exists_floor (x : Exact) (g : Int) : ∃ q : Nat, q * 2 ^ g ≤ x.mag ∧ x.mag < (q + 1) * 2 ^ g := by
  have hpos : (0 : ℚ) < 2 ^ g := by positivity
  refine ⟨⌊x.mag / 2 ^ g⌋₊, ?_, ?_⟩
  · rw [← le_div_iff₀ hpos]
    exact Nat.floor_le (by unfold mag; positivity)
  · rw [← div_lt_iff₀ hpos]
    exact Nat.lt_floor_add_one _

/-- What the grid of `g` rounds a value to. -/
def Exact.onGrid (r : Rounding) (x : Exact) (g : Int) : ℚ := (x.toGrid r g).1 * 2 ^ g

/-- The rounding does not cross a place of the grid from below. -/
theorem Exact.onGrid_le (hs : x.sticky = false) {n : Nat} {i : Int} (hi : g ≤ i) (h : x.mag ≤ n * 2 ^ i) : x.onGrid r g ≤ n * 2 ^ i := by
  have hpos : (0 : ℚ) < 2 ^ g := by positivity
  obtain ⟨q, hq, hq'⟩ := x.exists_floor g
  rw [natCast_mul_zpow_of_le hi] at h ⊢
  rw [onGrid, toGrid_eq r hs hq hq' rfl, mul_le_mul_iff_left₀ hpos, Nat.cast_le]
  have hle := le_of_mul_le_mul_right (hq.trans h) hpos
  rw [Nat.cast_le] at hle
  rcases hle.eq_or_lt with rfl | hlt
  · have hφ : x.mag / 2 ^ g - (n * 2 ^ (i - g).toNat : Nat) = 0 := by rw [le_antisymm h hq, mul_div_cancel_right₀ _ hpos.ne', sub_self]
    rw [hφ, Rounding.picks_zero]
    exact le_rfl
  · dsimp only
    split <;> omega

/-- The rounding does not cross a place of the grid from above. -/
theorem Exact.le_onGrid (hs : x.sticky = false) {n : Nat} {i : Int} (hi : g ≤ i) (h : n * 2 ^ i ≤ x.mag) : n * 2 ^ i ≤ x.onGrid r g := by
  have hpos : (0 : ℚ) < 2 ^ g := by positivity
  obtain ⟨q, hq, hq'⟩ := x.exists_floor g
  rw [natCast_mul_zpow_of_le hi] at h ⊢
  rw [onGrid, toGrid_eq r hs hq hq' rfl, mul_le_mul_iff_left₀ hpos, Nat.cast_le]
  have hlt := lt_of_mul_lt_mul_right (h.trans_lt hq') hpos.le
  rw [← Nat.cast_succ, Nat.cast_lt, Nat.lt_succ_iff] at hlt
  dsimp only
  split <;> omega

/-! ## The rounding to p bits (R79 (a)) -/

/-- The last place of a value that is rounded to the precision of a format. -/
def FloatFmt.lastPlace (f : FloatFmt) (x : Exact) : Int := leadExp x.m x.e - f.frac

theorem Exact.toPrecision_eq (f : FloatFmt) (r : Rounding) (hs : x.sticky = false) :
    ∃ m e, x.toPrecision r (f.frac + 1) = (m, e, (x.toGrid r (f.lastPlace x)).2) ∧ (m * 2 ^ e : ℚ) = x.onGrid r (f.lastPlace x) := by
  have hg : x.e + (x.m.log2 : Int) + 1 - (f.frac + 1 : Nat) = f.lastPlace x := by
    unfold FloatFmt.lastPlace leadExp
    push_cast
    ring
  simp only [toPrecision, hg]
  split_ifs with h
  · refine ⟨x.m, x.e, by rw [toGrid_of_le r hs h, hs], ?_⟩
    rw [onGrid, toGrid_of_le r hs h]
    exact natCast_mul_zpow_of_le h
  · exact ⟨_, _, rfl, rfl⟩

/-! ## The rounding to a format (R79) -/

/-- The least normal of a format. -/
theorem FloatFmt.mag_least_normal (f : FloatFmt) : f.mag (2 ^ f.frac) = 2 ^ (f.minExp + f.frac) := by
  rw [f.mag_of_le le_rfl, two_zpow_add_natCast]

theorem FloatFmt.mode_of_ne (hf : f ≠ .e8m0) (r : Rounding) : f.mode r = r := by
  cases f with
  | e8m0 => exact absurd rfl hf
  | _ => rfl

theorem FloatFmt.leastExp_of_ne (hf : f ≠ .e8m0) : f.leastExp = f.minExp + f.frac := by
  cases f with
  | e8m0 => exact absurd rfl hf
  | _ => rfl

theorem FloatFmt.maxCode_pos (f : FloatFmt) : 2 ^ f.frac ≤ f.maxCode := by cases f <;> decide

theorem FloatFmt.signBit_false (f : FloatFmt) : f.signBit false = 0 := by cases f <;> rfl

theorem FloatFmt.maxMag_eq (hf : f ≠ .e8m0) : f.maxMag.1 ≠ 0 ∧ (f.maxMag.1 * 2 ^ f.maxMag.2 : ℚ) = f.mag f.maxCode := by
  have hval : f.value f.maxCode = f.codeValue false f.maxCode := by simpa [f.signBit_false] using value_code hf false le_rfl
  obtain ⟨m, e, hcode, hmag⟩ := f.exists_codeValue false f.maxCode
  have hpos : 0 < f.mag f.maxCode := f.mag_zero ▸ f.mag_strictMono ((Nat.two_pow_pos _).trans_le f.maxCode_pos)
  rw [maxMag, hval, hcode]
  refine ⟨?_, hmag⟩
  rintro (rfl : m = 0)
  simp [← hmag] at hpos

theorem Exact.two_pow_leadExp_le_onGrid (hm : x.m ≠ 0) (hs : x.sticky = false) (hg : g ≤ leadExp x.m x.e) :
    (2 : ℚ) ^ leadExp x.m x.e ≤ x.onGrid r g := by
  have h := (le_leadExp_iff hm).mp (le_refl (leadExp x.m x.e))
  simpa using le_onGrid (n := 1) hs hg (by simpa [mag] using h)

theorem FloatFmt.lastPlace_le (f : FloatFmt) (x : Exact) : f.lastPlace x ≤ leadExp x.m x.e := by
  unfold lastPlace
  omega

/-- The rounding of a nonzero value (R79): by its magnitude after step (a), it overflows, is tiny, or is normal. -/
theorem FloatFmt.round_eq (hf : f ≠ .e8m0) (r : Rounding) (sat ftz : Bool) (hm : x.m ≠ 0) (hs : x.sticky = false) :
    ∃ (m : Nat) (e : Int), (m * 2 ^ e : ℚ) = x.onGrid r (f.lastPlace x) ∧ f.round r sat ftz x =
      if f.mag f.maxCode < x.onGrid r (f.lastPlace x) then f.overflow r sat x.neg (x.toGrid r (f.lastPlace x)).2.2
      else if x.onGrid r (f.lastPlace x) < f.mag (2 ^ f.frac) then
        if ftz && f.flushes then (f.signBit x.neg, flagUF ||| flagIX)
        else (f.signBit x.neg + f.encodeMag (x.toGrid r f.minExp).1 f.minExp, if (x.toGrid r f.minExp).2.1 then flagUF ||| flagIX else 0)
      else (f.signBit x.neg + f.encodeMag m e, if (x.toGrid r (f.lastPlace x)).2.1 then flagIX else 0) := by
  obtain ⟨m, e, hprec, hval⟩ := x.toPrecision_eq f r hs
  obtain ⟨htop, hmax⟩ := maxMag_eq hf
  have hm0 : m ≠ 0 := by
    rintro rfl
    have hpos := Exact.two_pow_leadExp_le_onGrid (r := r) hm hs (f.lastPlace_le x)
    rw [← hval, Nat.cast_zero, zero_mul] at hpos
    exact hpos.not_gt (by positivity)
  refine ⟨m, e, hval, ?_⟩
  simp only [mag_least_normal, ← hval, ← hmax, ← magGreater_iff hm0 htop, ← leadExp_lt_iff hm0]
  simp [round, mode_of_ne hf, leastExp_of_ne hf, hm, hprec, hf]

/-! ## The rounding to a code: the neighbour that the mode picks -/

/-- The code that a magnitude is rounded to, by the code below it. -/
def FloatFmt.pick (f : FloatFmt) (r : Rounding) (neg : Bool) (u : ℚ) (a : Nat) : Nat :=
  if r.picks neg (a % 2 == 1) ((u - f.mag a) / (f.mag (a + 1) - f.mag a)) then a + 1 else a

section Codes

variable {a j k : Nat}

/-- The rounding on the grid of a code's binade picks the code or the next one. -/
theorem FloatFmt.toGrid_code (hf : f ≠ .e8m0) (hs : x.sticky = false) (hk : k < 2 ^ (f.frac + 1)) (hn : 2 ^ f.frac ≤ k ∨ j = 0)
    (ha : a = j * 2 ^ f.frac + k) (hle : f.mag a ≤ x.mag) (hlt : x.mag < f.mag (a + 1)) :
    (x.toGrid r (f.minExp + j)).2.1 = decide (x.mag ≠ f.mag a) ∧ x.onGrid r (f.minExp + j) = f.mag (f.pick r x.neg x.mag a) := by
  have hpos : (0 : ℚ) < 2 ^ (f.minExp + j) := by positivity
  have hmag : f.mag a = k * 2 ^ (f.minExp + j) := ha ▸ f.mag_binade hk.le hn
  have hmag' : f.mag (a + 1) = (k + 1) * 2 ^ (f.minExp + j) := by
    rw [ha, add_assoc, f.mag_binade hk (hn.imp_left Nat.le_succ_of_le), Nat.cast_succ]
  have heven : k % 2 = a % 2 := by
    obtain ⟨n, hn⟩ := Nat.exists_eq_add_of_lt (frac_pos hf)
    rw [ha, hn, pow_succ, ← mul_assoc, Nat.mul_add_mod']
  have hφ : x.mag / 2 ^ (f.minExp + j) - k = (x.mag - f.mag a) / (f.mag (a + 1) - f.mag a) := by
    rw [hmag, hmag', ← sub_mul, add_sub_cancel_left, one_mul, sub_div, mul_div_cancel_right₀ _ hpos.ne']
  rw [Exact.onGrid, Exact.toGrid_eq r hs (hmag ▸ hle) (hmag' ▸ hlt) rfl, heven, hφ, pick, hmag]
  refine ⟨rfl, ?_⟩
  split
  · rw [hmag', Nat.cast_succ]
  · exact hmag.symm

theorem FloatFmt.lastPlace_code (hm : x.m ≠ 0) (hk : k < 2 ^ (f.frac + 1)) (hn : 2 ^ f.frac ≤ k) (ha : a = j * 2 ^ f.frac + k)
    (hle : f.mag a ≤ x.mag) (hlt : x.mag < f.mag (a + 1)) : f.lastPlace x = f.minExp + j := by
  rw [ha, f.mag_binade hk.le (.inl hn)] at hle
  rw [ha, add_assoc, f.mag_binade hk (.inl (Nat.le_succ_of_le hn)), Nat.cast_succ] at hlt
  rw [lastPlace, leadExp_of_significand hm hn hk hle hlt, add_sub_cancel_right]

theorem FloatFmt.le_pick (f : FloatFmt) (r : Rounding) (neg : Bool) (u : ℚ) (a : Nat) : a ≤ f.pick r neg u a := by
  unfold pick
  split <;> omega

theorem Exact.onGrid_le_two_pow (hm : x.m ≠ 0) (hs : x.sticky = false) (hg : g ≤ leadExp x.m x.e + 1) :
    x.onGrid r g ≤ 2 ^ (leadExp x.m x.e + 1) := by
  have h := (leadExp_lt_iff hm).mp (lt_add_one (leadExp x.m x.e))
  simpa using onGrid_le (n := 1) hs hg (by simpa [mag] using h.le)

/-- A tiny value that step (a) of R79 takes up to the least normal lies in the binade below it. -/
theorem FloatFmt.rounds_to_least_normal (hm : x.m ≠ 0) (hs : x.sticky = false) (hlt : x.mag < f.mag (2 ^ f.frac))
    (h : f.mag (2 ^ f.frac) ≤ x.onGrid r (f.lastPlace x)) :
    f.lastPlace x = f.minExp - 1 ∧ x.onGrid r (f.lastPlace x) = f.mag (2 ^ f.frac) := by
  rw [mag_least_normal] at h hlt ⊢
  have hlead := (leadExp_lt_iff hm).mpr hlt
  have hle := Exact.onGrid_le_two_pow (r := r) hm hs ((f.lastPlace_le x).trans (Int.le_add_one le_rfl))
  have hlead' := (zpow_le_zpow_iff_right₀ (one_lt_two (α := ℚ))).mp (h.trans hle)
  have hexp : leadExp x.m x.e + 1 = f.minExp + f.frac := by omega
  refine ⟨by unfold lastPlace; omega, le_antisymm (hexp ▸ hle) h⟩

/-- A value that step (a) of R79 takes up to the least normal is taken there on the grid of the subnormals too. -/
theorem FloatFmt.pick_of_rounds_to_normal (hm : x.m ≠ 0) (hs : x.sticky = false) (ha : a < 2 ^ f.frac)
    (hlt : x.mag < f.mag (a + 1)) (h : f.mag (2 ^ f.frac) ≤ x.onGrid r (f.lastPlace x)) :
    f.pick r x.neg x.mag a = 2 ^ f.frac ∧ x.mag ≠ f.mag a ∧ x.onGrid r (f.lastPlace x) = f.mag (2 ^ f.frac) ∧
      (x.toGrid r (f.lastPlace x)).2.1 = true := by
  have hbelow := hlt.trans_le (f.mag_strictMono.monotone ha)
  obtain ⟨hlast, honto⟩ := rounds_to_least_normal hm hs hbelow h
  obtain ⟨w, hw, hw0⟩ : ∃ w : ℚ, 2 ^ (f.minExp - 1) = w ∧ 0 < w := ⟨_, rfl, by positivity⟩
  have hmag : ∀ c ≤ 2 ^ f.frac, f.mag c = 2 * c * w := fun c hc => by
    rw [f.mag_of_le hc, ← hw, zpow_sub_one₀ two_ne_zero]
    ring
  obtain ⟨q, hq, hq'⟩ := x.exists_floor (f.minExp - 1)
  have hgrid := Exact.toGrid_eq r hs hq hq' rfl
  have hleast := honto
  rw [hlast, Exact.onGrid, hgrid, hw, hmag _ le_rfl] at hleast
  rw [hmag _ le_rfl] at hbelow
  rw [hmag a ha.le]
  rw [hmag (a + 1) ha] at hlt
  rw [hw] at hq hq' hgrid
  have hq2 : q < 2 * 2 ^ f.frac := by exact_mod_cast lt_of_mul_lt_mul_right (hq.trans_lt hbelow) hw0.le
  have hup : r.picks x.neg (q % 2 == 1) (x.mag / w - q) = true ∧ q + 1 = 2 * 2 ^ f.frac := by
    have hval := mul_right_cancel₀ hw0.ne' hleast
    norm_cast at hval
    split at hval
    · exact ⟨‹_›, hval⟩
    · exact absurd hval hq2.ne
  have hqa : q < 2 * (a + 1) := by exact_mod_cast lt_of_mul_lt_mul_right (hq.trans_lt hlt) hw0.le
  have ha1 : a + 1 = 2 ^ f.frac := by omega
  obtain rfl : q = 2 * a + 1 := by omega
  push_cast at hq hq' hup
  have hφ : 0 ≤ x.mag / w - (2 * a + 1) := by rwa [sub_nonneg, le_div_iff₀ hw0]
  have hφ' : x.mag / w - (2 * a + 1) < 1 := by rw [sub_lt_iff_lt_add', div_lt_iff₀ hw0]; linarith
  have hψ : (x.mag - 2 * a * w) / (2 * (a + 1) * w - 2 * a * w) = (x.mag / w - (2 * a + 1) + 1) / 2 := by
    field_simp
    ring
  refine ⟨?_, ?_, ?_, ?_⟩
  · rw [pick, hmag a ha.le, hmag (a + 1) ha, Nat.cast_succ, hψ,
      r.picks_of_lt _ _ hφ (by linarith) hup.1, if_pos rfl, ha1]
  · rintro heq
    linarith
  · exact honto
  · rw [hlast, hgrid]
    refine decide_eq_true fun heq => ?_
    rw [heq, mul_div_cancel_right₀ _ hw0.ne', Nat.cast_succ, Nat.cast_mul, Nat.cast_ofNat, sub_self, r.picks_zero] at hup
    exact Bool.false_ne_true hup.1

/-- The rounding of a nonzero value (R79, R80): the code below it or the next one, as the mode picks, and the flags. -/
theorem FloatFmt.round_code (hf : f ≠ .e8m0) (r : Rounding) (sat : Bool) (hm : x.m ≠ 0) (hs : x.sticky = false)
    (hle : f.mag a ≤ x.mag) (hlt : x.mag < f.mag (a + 1)) (hmax : f.pick r x.neg x.mag a ≤ f.maxCode) :
    ∃ fl, f.round r sat false x = (f.signBit x.neg + f.pick r x.neg x.mag a, fl) ∧ (x.mag = f.mag a → fl = 0) ∧
      (x.mag ≠ f.mag a → fl = flagIX ∨ fl = flagUF ||| flagIX) := by
  obtain ⟨m, e, hval, hround⟩ := round_eq hf r sat false hm hs
  obtain ⟨j, k, hjk, hk, hn⟩ := f.exists_binade a
  obtain ⟨hbad, hgrid⟩ := f.toGrid_code (r := r) hf hs hk hn hjk hle hlt
  rcases lt_or_ge k (2 ^ f.frac) with hsub | hnorm
  · obtain rfl : j = 0 := hn.resolve_left hsub.not_ge
    obtain rfl : a = k := by simpa using hjk
    simp only [Nat.cast_zero, add_zero] at hbad hgrid
    rcases lt_or_ge (x.onGrid r (f.lastPlace x)) (f.mag (2 ^ f.frac)) with htiny | hnormal
    · have hfits := htiny.le.trans (f.mag_strictMono.monotone f.maxCode_pos)
      rw [hround, if_neg hfits.not_gt, if_pos htiny, Bool.false_and, if_neg Bool.false_ne_true, encodeMag_eq hf (.inl le_rfl) hgrid, hbad]
      exact ⟨_, rfl, fun h => by simp [h], fun h => .inr (by simp [h])⟩
    · obtain ⟨hpick, hne, hleast, hinexact⟩ := pick_of_rounds_to_normal hm hs hsub hlt hnormal
      rw [hround, if_neg (hleast ▸ f.mag_strictMono.monotone f.maxCode_pos).not_gt, if_neg hnormal.not_gt, hpick,
        encodeMag_eq hf (.inr le_rfl) (hval.trans hleast), if_pos hinexact]
      exact ⟨_, rfl, fun h => absurd h hne, fun _ => .inl rfl⟩
  · have hlast := lastPlace_code hm hk hnorm hjk hle hlt
    have hleast : 2 ^ f.frac ≤ f.pick r x.neg x.mag a := (hnorm.trans (by omega)).trans (f.le_pick r x.neg x.mag a)
    have hnormal := f.mag_strictMono.monotone hleast
    have hfits := f.mag_strictMono.monotone hmax
    rw [hlast, hgrid] at hval hround
    rw [hround, if_neg hfits.not_gt, if_neg hnormal.not_gt, encodeMag_eq hf (.inr hleast) hval, hbad]
    exact ⟨_, rfl, fun h => by simp [h], fun h => .inl (by simp [h])⟩

end Codes

end Sys2Proof.Machine
end

section
/-! PROOFS. The neighbour that each mode selects among the finite values of a format (R73, R80, R81). -/

namespace Sys2Proof.Machine

open Sys2Proof.Claims

variable {f : FloatFmt} {r : Rounding} {x : Exact}

/-! ## Magnitudes between the codes -/

/-- A magnitude up to the greatest finite one lies at a code or between two. -/
theorem FloatFmt.exists_bracket (f : FloatFmt) {u : ℚ} (hu : 0 ≤ u) (hmax : u ≤ f.mag f.maxCode) :
    ∃ a ≤ f.maxCode, f.mag a ≤ u ∧ u < f.mag (a + 1) := by
  have hle : f.mag (Nat.findGreatest (fun c => f.mag c ≤ u) f.maxCode) ≤ u :=
    Nat.findGreatest_spec (P := fun c => f.mag c ≤ u) (Nat.zero_le _) (by simpa using hu)
  refine ⟨_, Nat.findGreatest_le _, hle, ?_⟩
  rcases (Nat.findGreatest_le f.maxCode : Nat.findGreatest (fun c => f.mag c ≤ u) f.maxCode ≤ _).eq_or_lt with htop | htop
  · rw [htop]
    exact hmax.trans_lt (f.mag_strictMono (Nat.lt_succ_self _))
  · exact not_le.mp (Nat.findGreatest_is_greatest (Nat.lt_succ_self _) htop)

theorem FloatFmt.mag_gap (f : FloatFmt) (a c : Nat) : f.mag c ≤ f.mag a ∨ f.mag (a + 1) ≤ f.mag c :=
  (Nat.lt_or_ge a c).symm.imp (fun h => f.mag_strictMono.monotone h) fun h => f.mag_strictMono.monotone h

/-- A magnitude that the format holds is picked under every mode. -/
theorem FloatFmt.pick_of_eq (f : FloatFmt) (r : Rounding) (neg : Bool) {u : ℚ} {a : Nat} (h : u = f.mag a) : f.pick r neg u a = a := by
  simp [pick, h, r.picks_zero]

theorem FloatFmt.pick_le_maxCode (f : FloatFmt) (r : Rounding) (neg : Bool) {u : ℚ} {a : Nat} (ha : a ≤ f.maxCode) (hle : f.mag a ≤ u)
    (hmax : u ≤ f.mag f.maxCode) : f.pick r neg u a ≤ f.maxCode := by
  rcases ha.eq_or_lt with rfl | hlt
  · exact (f.pick_of_eq r neg (le_antisymm hmax hle)).le
  · unfold pick
    split <;> omega

/-! ## The encodings of FP32 come back (R73) -/

theorem FloatFmt.round_zero (f : FloatFmt) (r : Rounding) (sat ftz neg : Bool) (e : Int) :
    f.round r sat ftz { neg := neg, m := 0, e := e } = (f.signBit neg, 0) := by simp [round]

/-- A finite encoding is delivered as it is. -/
theorem FloatFmt.deliver_codeValue (hf : f ≠ .e8m0) (r : Rounding) (sat neg : Bool) {c : Nat} (hc : c ≤ f.maxCode) :
    f.deliver r sat false (f.codeValue neg c) = (f.signBit neg + c, 0) := by
  obtain ⟨m, e, hval, hmag⟩ := f.exists_codeValue neg c
  simp only [hval, deliver]
  rcases eq_or_ne m 0 with rfl | hm
  · have hc0 : c = 0 := f.mag_strictMono.injective (by simp [← hmag])
    rw [round_zero, hc0, Nat.add_zero]
  · have hpick := f.pick_of_eq r neg hmag
    obtain ⟨fl, hround, hfl, -⟩ := round_code (x := ⟨neg, m, e, false⟩) (a := c) hf r sat hm rfl hmag.ge
      (hmag.trans_lt (f.mag_strictMono (Nat.lt_succ_self c))) (hpick.trans_le hc)
    rw [hround, hfl hmag]
    exact congrArg (fun n => (f.signBit neg + n, (0 : BitVec 5))) hpick

/-- An encoding of FP32 above the finite ones that is no NaN is that of an infinity. -/
theorem eq_infinity_of_not_isNaN {y : Word} (h : ¬ IsNaN y) {neg : Bool} {c : Nat} (hc : c < 2 ^ (FloatFmt.fp32.bits - 1))
    (hmax : ¬ c ≤ FloatFmt.fp32.maxCode) (hy : y.toNat = FloatFmt.fp32.signBit neg + c) : c = 0x7F800000 := by
  obtain ⟨-, -, hexp, hfrac⟩ := FloatFmt.fields_code (f := .fp32) (by decide) neg hc
  have htop := FloatFmt.top_exponent (by decide) hc hmax
  have hquiet : c % 2 ^ 23 = 0 := by
    by_contra hne
    refine h ⟨BitVec.eq_of_toNat_eq ?_, fun h0 => hne ?_⟩
    · rw [BitVec.extractLsb'_toNat, hy]
      exact hexp.trans htop
    · have h0' := congrArg BitVec.toNat h0
      rw [BitVec.extractLsb'_toNat, hy] at h0'
      exact hfrac.symm.trans h0'
  have htop' : c / 2 ^ 23 = 255 := htop
  omega

/-- Settles O14: a finite encoding by the rounding of the value of its code, an infinity by its case. -/
theorem floatRoundTrip : Obligations.FloatRoundTrip := by
  intro y r sat hnan
  obtain ⟨neg, c, hc, hy⟩ := FloatFmt.exists_sign_code (f := .fp32) (by decide) y.isLt
  rw [fp32, hy]
  by_cases hmax : c ≤ FloatFmt.fp32.maxCode
  · rw [FloatFmt.value_code (by decide) neg hmax, FloatFmt.deliver_codeValue (by decide) r sat neg hmax]
  · obtain rfl := eq_infinity_of_not_isNaN hnan hc hmax hy
    cases neg <;> rfl

/-! ## The neighbour that the mode picks, among the magnitudes (R80) -/

section Neighbours

variable {r : Rounding} {neg odd : Bool} {lo hi u w : ℚ}

/-- The neighbour that the mode picks for a magnitude between two. -/
def Rounding.neighbour (r : Rounding) (neg odd : Bool) (lo hi u : ℚ) : ℚ := if r.picks neg odd ((u - lo) / (hi - lo)) then hi else lo

theorem Rounding.neighbour_of_eq (r : Rounding) (neg odd : Bool) (hi u : ℚ) : r.neighbour neg odd u hi u = u := by
  simp [neighbour, r.picks_zero]

variable (hlo : lo ≤ u) (hhi : u < hi)
include hlo hhi

/-- Under RN and RA what is picked is not the farther neighbour. -/
theorem Rounding.picks_nearer (hmode : r.mode = .rn ∨ r.mode = .ra) :
    (r.picks neg odd ((u - lo) / (hi - lo)) = true → hi - u ≤ u - lo) ∧
      (r.picks neg odd ((u - lo) / (hi - lo)) = false → u - lo ≤ hi - u) := by
  have hpos : 0 < hi - lo := by linarith
  have hle : 1 / 2 ≤ (u - lo) / (hi - lo) ↔ hi - u ≤ u - lo := by
    rw [le_div_iff₀ hpos]
    constructor <;> intro <;> linarith
  have hge : (u - lo) / (hi - lo) ≤ 1 / 2 ↔ u - lo ≤ hi - u := by
    rw [div_le_iff₀ hpos]
    constructor <;> intro <;> linarith
  rw [← hle, ← hge]
  rcases hmode with hmode | hmode <;> simp only [picks, hmode]
  · simp only [Bool.or_eq_true, Bool.and_eq_true, decide_eq_true_eq, Bool.or_eq_false_iff, decide_eq_false_iff_not, not_lt]
    exact ⟨fun h => h.elim le_of_lt fun h => h.1.ge, fun h => h.1⟩
  · simp only [decide_eq_true_eq, decide_eq_false_iff_not, not_le]
    exact ⟨id, le_of_lt⟩

/-- Under RN and RA no other value is nearer, and one as near is the other neighbour of a tie. -/
theorem Rounding.neighbour_nearest (hmode : r.mode = .rn ∨ r.mode = .ra) (hw : w ≤ lo ∨ hi ≤ w) :
    |u - r.neighbour neg odd lo hi u| ≤ |u - w| ∧ (|u - w| = |u - r.neighbour neg odd lo hi u| → w ≠ r.neighbour neg odd lo hi u →
      (u - lo) / (hi - lo) = 1 / 2 ∧ (w = lo ∨ w = hi)) := by
  obtain ⟨hup, hdown⟩ := picks_nearer (neg := neg) (odd := odd) hlo hhi hmode
  rw [div_eq_div_iff (by linarith) two_ne_zero, neighbour]
  split
  case isTrue hp =>
    have hnear := hup hp
    rw [abs_of_neg (a := u - hi) (by linarith)]
    rcases hw with hw | hw
    · rw [abs_of_nonneg (by linarith)]
      exact ⟨by linarith, fun h _ => ⟨by linarith, .inl (by linarith)⟩⟩
    · rw [abs_of_neg (by linarith)]
      exact ⟨by linarith, fun h hne => absurd (by linarith) hne⟩
  case isFalse hp =>
    have hnear := hdown (Bool.eq_false_of_not_eq_true hp)
    rw [abs_of_nonneg (a := u - lo) (by linarith)]
    rcases hw with hw | hw
    · rw [abs_of_nonneg (by linarith)]
      exact ⟨by linarith, fun h hne => absurd (by linarith) hne⟩
    · rw [abs_of_neg (by linarith)]
      exact ⟨by linarith, fun h _ => ⟨by linarith, .inr (by linarith)⟩⟩

/-- The neighbour toward zero is the greatest value up to the magnitude. -/
theorem Rounding.neighbour_down (hmode : r.mode = .rz ∨ (r.mode = .ru ∧ neg = true) ∨ (r.mode = .rd ∧ neg = false)) (hw : w ≤ lo ∨ hi ≤ w) :
    r.neighbour neg odd lo hi u ≤ u ∧ (w ≤ u → w ≤ r.neighbour neg odd lo hi u) := by
  have hn : r.neighbour neg odd lo hi u = lo := by
    rcases hmode with h | ⟨h, rfl⟩ | ⟨h, rfl⟩ <;> simp [neighbour, picks, h]
  rw [hn]
  exact ⟨hlo, fun h => hw.resolve_right fun h' => (h'.trans h).not_gt hhi⟩

/-- The neighbour away from zero is the least value from the magnitude on. -/
theorem Rounding.neighbour_up (hmode : (r.mode = .ru ∧ neg = false) ∨ (r.mode = .rd ∧ neg = true)) (hw : w ≤ lo ∨ hi ≤ w) :
    u ≤ r.neighbour neg odd lo hi u ∧ (u ≤ w → r.neighbour neg odd lo hi u ≤ w) := by
  rcases hlo.eq_or_lt with rfl | hlt
  · rw [r.neighbour_of_eq]
    exact ⟨le_rfl, id⟩
  · have hφ : (u - lo) / (hi - lo) ≠ 0 := div_ne_zero (by linarith) (by linarith)
    have hn : r.neighbour neg odd lo hi u = hi := by
      rcases hmode with ⟨h, rfl⟩ | ⟨h, rfl⟩ <;> simp [neighbour, picks, h, hφ]
    rw [hn]
    exact ⟨hhi.le, fun h => hw.resolve_left fun h' => (h.trans h').not_gt hlt⟩

end Neighbours

/-! ## The finite values of a format -/

variable {f : FloatFmt} {r : Rounding} {neg : Bool} {u : ℚ} {a : Nat}

/-- The factor of a sign. -/
def signum (neg : Bool) : ℚ := if neg then -1 else 1

theorem abs_signum_mul (neg : Bool) (w : ℚ) : |signum neg * w| = |w| := by cases neg <;> simp [signum]

theorem abs_signum_mul_sub (neg : Bool) (v w : ℚ) : |signum neg * v - signum neg * w| = |v - w| := by
  rw [← mul_sub, abs_signum_mul]

theorem signum_mul_mul (neg : Bool) (v w : ℚ) : signum neg * v * (signum neg * w) = v * w := by cases neg <;> simp [signum]

theorem signum_mul_signum_mul (neg : Bool) (w : ℚ) : signum neg * (signum neg * w) = w := by cases neg <;> simp [signum]

theorem signum_mul_inj (neg : Bool) {v w : ℚ} : signum neg * v = signum neg * w ↔ v = w := by cases neg <;> simp [signum]

theorem signum_of_ne {neg neg' : Bool} (h : neg' ≠ neg) : signum neg' = -signum neg := by cases neg <;> cases neg' <;> simp_all [signum]

/-- An encoding of a finite value. -/
def FloatFmt.IsFinite (f : FloatFmt) (k : Nat) : Prop := k < 2 ^ f.bits ∧ Claims.Finite (f.value k)

/-- Two finite values on a value's side of zero that bracket it, the one toward zero first, with no finite value between them (R80). -/
structure FloatFmt.Brackets (f : FloatFmt) (v : ℚ) (i j : Nat) : Prop where
  finite_lo : f.IsFinite i
  finite_hi : f.IsFinite j
  side_lo : 0 ≤ real (f.value i) * v
  side_hi : 0 ≤ real (f.value j) * v
  lo_lt : |real (f.value i)| < |v|
  lt_hi : |v| < |real (f.value j)|
  none_between : ∀ k, f.IsFinite k → 0 ≤ real (f.value k) * v →
    |real (f.value k)| ≤ |real (f.value i)| ∨ |real (f.value j)| ≤ |real (f.value k)|

theorem FloatFmt.isFinite_code (hf : f ≠ .e8m0) (neg : Bool) {c : Nat} (hc : c ≤ f.maxCode) :
    f.IsFinite (f.signBit neg + c) ∧ real (f.value (f.signBit neg + c)) = signum neg * f.mag c := by
  obtain ⟨hlt, -⟩ := fields_code hf neg (hc.trans_lt (f.maxCode_lt hf))
  rw [IsFinite, value_code hf neg hc]
  exact ⟨⟨hlt, finite_codeValue neg c⟩, real_codeValue neg c⟩

/-- A finite value, with a sign taken out: a magnitude of the format, or the negative of one. -/
theorem FloatFmt.exists_of_isFinite (hf : f ≠ .e8m0) (neg : Bool) {k : Nat} (hk : f.IsFinite k) :
    ∃ w c, real (f.value k) = signum neg * w ∧ c ≤ f.maxCode ∧ (w = f.mag c ∨ w = -f.mag c) := by
  obtain ⟨hlt, hfin⟩ := hk
  obtain ⟨neg', c, hc, rfl⟩ := exists_sign_code hf hlt
  have hmax := le_maxCode_of_finite hf hc hfin
  rw [(isFinite_code hf neg' hmax).2]
  rcases eq_or_ne neg' neg with rfl | hne
  · exact ⟨_, c, rfl, hmax, .inl rfl⟩
  · exact ⟨_, c, by simp [signum_of_ne hne], hmax, .inr rfl⟩

/-- A finite value of the same sign as a given one is a magnitude of the format with that sign. -/
theorem FloatFmt.exists_of_same_sign (hf : f ≠ .e8m0) (hu : 0 < u) {k : Nat} (hk : f.IsFinite k)
    (h : 0 ≤ real (f.value k) * (signum neg * u)) : ∃ c ≤ f.maxCode, real (f.value k) = signum neg * f.mag c := by
  obtain ⟨w, c, hw, hc, hwc⟩ := exists_of_isFinite hf neg hk
  rw [hw, signum_mul_mul, mul_nonneg_iff_of_pos_right hu] at h
  refine ⟨c, hc, ?_⟩
  rcases hwc with rfl | rfl
  · exact hw
  · rw [hw, signum_mul_inj]
    linarith [f.mag_nonneg c]

/-- No finite value lies between neighbours. -/
theorem FloatFmt.gap_of_isFinite (hf : f ≠ .e8m0) (neg : Bool) (a : Nat) {k : Nat} (hk : f.IsFinite k) :
    ∃ w, real (f.value k) = signum neg * w ∧ (w ≤ f.mag a ∨ f.mag (a + 1) ≤ w) := by
  obtain ⟨w, c, hval, -, rfl | rfl⟩ := exists_of_isFinite hf neg hk
  · exact ⟨_, hval, f.mag_gap a c⟩
  · exact ⟨_, hval, .inl (by linarith [f.mag_nonneg a, f.mag_nonneg c])⟩

theorem FloatFmt.mag_pick_eq (f : FloatFmt) (r : Rounding) (neg : Bool) (u : ℚ) (a : Nat) :
    f.mag (f.pick r neg u a) = r.neighbour neg (a % 2 == 1) (f.mag a) (f.mag (a + 1)) u :=
  apply_ite f.mag _ _ _

theorem FloatFmt.signBit_even (hf : f ≠ .e8m0) (neg : Bool) : f.signBit neg % 2 = 0 := by
  cases f with
  | e8m0 => exact absurd rfl hf
  | _ => cases neg <;> decide

/-! ## What each mode selects (R80, R81) -/

section Modes

variable (hf : f ≠ .e8m0) (hlo : f.mag a ≤ u) (hhi : u < f.mag (a + 1))
include hf hlo hhi

theorem FloatFmt.pick_nearest (hmode : r.mode = .rn ∨ r.mode = .ra) {k : Nat} (hk : f.IsFinite k) :
    |signum neg * u - signum neg * f.mag (f.pick r neg u a)| ≤ |signum neg * u - real (f.value k)| ∧
    (|signum neg * u - real (f.value k)| = |signum neg * u - signum neg * f.mag (f.pick r neg u a)| →
      real (f.value k) ≠ signum neg * f.mag (f.pick r neg u a) →
      (u - f.mag a) / (f.mag (a + 1) - f.mag a) = 1 / 2 ∧ (|real (f.value k)| = f.mag a ∨ |real (f.value k)| = f.mag (a + 1))) := by
  obtain ⟨w, hw, hgap⟩ := gap_of_isFinite hf neg a hk
  obtain ⟨hnear, htie⟩ := Rounding.neighbour_nearest (neg := neg) (odd := a % 2 == 1) hlo hhi hmode hgap
  rw [mag_pick_eq, hw, abs_signum_mul_sub, abs_signum_mul_sub, Ne, signum_mul_inj, abs_signum_mul]
  refine ⟨hnear, fun h hne => (htie h hne).imp_right (Or.imp ?_ ?_)⟩ <;> rintro rfl
  exacts [abs_of_nonneg (f.mag_nonneg _), abs_of_nonneg (f.mag_nonneg _)]

/-- RN: the nearer, and the even one of a tie. -/
theorem FloatFmt.pick_rn (hmode : r.mode = .rn) {k : Nat} (hk : f.IsFinite k) :
    |signum neg * u - signum neg * f.mag (f.pick r neg u a)| ≤ |signum neg * u - real (f.value k)| ∧
    (|signum neg * u - real (f.value k)| = |signum neg * u - signum neg * f.mag (f.pick r neg u a)| →
      real (f.value k) ≠ signum neg * f.mag (f.pick r neg u a) → (f.signBit neg + f.pick r neg u a) % 2 = 0) := by
  obtain ⟨hnear, htie⟩ := pick_nearest (neg := neg) hf hlo hhi (.inl hmode) hk
  refine ⟨hnear, fun h hne => ?_⟩
  obtain ⟨hhalf, -⟩ := htie h hne
  have hsign : f.signBit neg % 2 = 0 := signBit_even hf neg
  rcases Nat.mod_two_eq_zero_or_one a with ha | ha <;> simp [pick, Rounding.picks, hmode, hhalf, ha] <;> omega

/-- RA: the nearer, and the one away from zero of a tie. -/
theorem FloatFmt.pick_ra (hmode : r.mode = .ra) {k : Nat} (hk : f.IsFinite k) :
    |signum neg * u - signum neg * f.mag (f.pick r neg u a)| ≤ |signum neg * u - real (f.value k)| ∧
    (|signum neg * u - real (f.value k)| = |signum neg * u - signum neg * f.mag (f.pick r neg u a)| →
      |real (f.value k)| ≤ |signum neg * f.mag (f.pick r neg u a)|) := by
  obtain ⟨hnear, htie⟩ := pick_nearest (neg := neg) hf hlo hhi (.inr hmode) hk
  refine ⟨hnear, fun h => ?_⟩
  rcases eq_or_ne (real (f.value k)) (signum neg * f.mag (f.pick r neg u a)) with heq | hne
  · rw [heq]
  · obtain ⟨hhalf, hends⟩ := htie h hne
    have hup : f.pick r neg u a = a + 1 := by simp [pick, Rounding.picks, hmode, hhalf]
    rw [hup, abs_signum_mul, abs_of_nonneg (f.mag_nonneg _)]
    exact hends.elim (fun h => h.trans_le (hlo.trans hhi.le)) le_of_eq

/-- RZ: the neighbour toward zero. -/
theorem FloatFmt.pick_rz (hmode : r.mode = .rz) : |signum neg * f.mag (f.pick r neg u a)| ≤ |signum neg * u| ∧
    ∀ k, f.IsFinite k → |real (f.value k)| ≤ |signum neg * u| → |real (f.value k)| ≤ |signum neg * f.mag (f.pick r neg u a)| := by
  have hdown := fun c => Rounding.neighbour_down (neg := neg) (odd := a % 2 == 1) hlo hhi (.inl hmode) (f.mag_gap a c)
  simp only [← mag_pick_eq (neg := neg)] at hdown
  rw [abs_signum_mul, abs_signum_mul, abs_of_nonneg (f.mag_nonneg _), abs_of_nonneg ((f.mag_nonneg a).trans hlo)]
  refine ⟨(hdown a).1, fun k hk => ?_⟩
  obtain ⟨w, c, hw, -, hc⟩ := exists_of_isFinite hf neg hk
  have habs : |w| = f.mag c := by rcases hc with rfl | rfl <;> simp [abs_of_nonneg (f.mag_nonneg c)]
  rw [hw, abs_signum_mul, habs]
  exact (hdown c).2

theorem FloatFmt.pick_toward_zero (hmode : (r.mode = .ru ∧ neg = true) ∨ (r.mode = .rd ∧ neg = false)) : f.mag (f.pick r neg u a) ≤ u ∧
    ∀ k, f.IsFinite k → signum neg * real (f.value k) ≤ u → signum neg * real (f.value k) ≤ f.mag (f.pick r neg u a) := by
  rw [mag_pick_eq]
  refine ⟨(Rounding.neighbour_down hlo hhi (.inr hmode) (.inl le_rfl)).1, fun k hk => ?_⟩
  obtain ⟨w, hw, hgap⟩ := gap_of_isFinite hf neg a hk
  rw [hw, signum_mul_signum_mul]
  exact (Rounding.neighbour_down hlo hhi (.inr hmode) hgap).2

theorem FloatFmt.pick_from_zero (hmode : (r.mode = .ru ∧ neg = false) ∨ (r.mode = .rd ∧ neg = true)) : u ≤ f.mag (f.pick r neg u a) ∧
    ∀ k, f.IsFinite k → u ≤ signum neg * real (f.value k) → f.mag (f.pick r neg u a) ≤ signum neg * real (f.value k) := by
  rw [mag_pick_eq]
  refine ⟨(Rounding.neighbour_up hlo hhi hmode (.inl le_rfl)).1, fun k hk => ?_⟩
  obtain ⟨w, hw, hgap⟩ := gap_of_isFinite hf neg a hk
  rw [hw, signum_mul_signum_mul]
  exact (Rounding.neighbour_up hlo hhi hmode hgap).2

/-- RU: away from zero for a positive value, toward zero for a negative one. -/
theorem FloatFmt.pick_ru (hmode : r.mode = .ru) : signum neg * u ≤ signum neg * f.mag (f.pick r neg u a) ∧
    ∀ k, f.IsFinite k → signum neg * u ≤ real (f.value k) → signum neg * f.mag (f.pick r neg u a) ≤ real (f.value k) := by
  cases neg with
  | false => simpa [signum] using pick_from_zero hf hlo hhi (.inl ⟨hmode, rfl⟩)
  | true => simpa [signum, neg_le] using pick_toward_zero hf hlo hhi (.inl ⟨hmode, rfl⟩)

/-- RD: toward zero for a positive value, away from zero for a negative one. -/
theorem FloatFmt.pick_rd (hmode : r.mode = .rd) : signum neg * f.mag (f.pick r neg u a) ≤ signum neg * u ∧
    ∀ k, f.IsFinite k → real (f.value k) ≤ signum neg * u → real (f.value k) ≤ signum neg * f.mag (f.pick r neg u a) := by
  cases neg with
  | false => simpa [signum] using pick_toward_zero hf hlo hhi (.inr ⟨hmode, rfl⟩)
  | true => simpa [signum, le_neg] using pick_from_zero hf hlo hhi (.inr ⟨hmode, rfl⟩)

/-- A value that the format holds is left as it is. -/
theorem FloatFmt.pick_of_isFinite_eq {k : Nat} (hk : f.IsFinite k) (h : real (f.value k) = signum neg * u) :
    signum neg * f.mag (f.pick r neg u a) = signum neg * u := by
  obtain ⟨w, hw, hgap⟩ := gap_of_isFinite hf neg a hk
  obtain rfl : w = u := (signum_mul_inj neg).mp (hw ▸ h)
  have heq : w = f.mag a := le_antisymm (hgap.resolve_right hhi.not_ge) hlo
  rw [f.pick_of_eq r neg heq, heq]

omit hf hlo hhi in
/-- What a nonzero value's brackets have on its side of zero, as the sign and codes say it. -/
theorem FloatFmt.Brackets.exists_codes (hf : f ≠ .e8m0) (hu : 0 < u) {i j : Nat} (h : f.Brackets (signum neg * u) i j) :
    ∃ c d, real (f.value i) = signum neg * f.mag c ∧ real (f.value j) = signum neg * f.mag d ∧ d ≤ f.maxCode ∧
      f.mag c < u ∧ u < f.mag d ∧ ∀ b ≤ f.maxCode, b ≤ c ∨ d ≤ b := by
  obtain ⟨c, -, hci⟩ := exists_of_same_sign hf hu h.finite_lo h.side_lo
  obtain ⟨d, hd, hdj⟩ := exists_of_same_sign hf hu h.finite_hi h.side_hi
  have hlt := h.lo_lt
  have hgt := h.lt_hi
  have hnone := h.none_between
  simp only [hci, hdj, abs_signum_mul, abs_of_nonneg (f.mag_nonneg _), abs_of_pos hu] at hlt hgt hnone
  refine ⟨c, d, hci, hdj, hd, hlt, hgt, fun b hb => ?_⟩
  obtain ⟨hfin, hval⟩ := isFinite_code hf neg hb
  have hb' := hnone _ hfin
  rw [hval, signum_mul_mul, abs_signum_mul, abs_of_nonneg (f.mag_nonneg b), f.mag_strictMono.le_iff_le, f.mag_strictMono.le_iff_le] at hb'
  exact hb' (mul_nonneg (f.mag_nonneg b) hu.le)

/-- The brackets of a value are its neighbours. -/
theorem FloatFmt.Brackets.eq_neighbours (hu : 0 < u) {i j : Nat} (h : f.Brackets (signum neg * u) i j) :
    real (f.value i) = signum neg * f.mag a ∧ real (f.value j) = signum neg * f.mag (a + 1) := by
  obtain ⟨c, d, hci, hdj, hd, hcu, hud, hnone⟩ := h.exists_codes hf hu
  have hca : c < a + 1 := f.mag_strictMono.lt_iff_lt.mp (hcu.trans hhi)
  have had : a < d := f.mag_strictMono.lt_iff_lt.mp (hlo.trans_lt hud)
  have hac : c = a := by have := hnone a (had.le.trans hd); omega
  have hda : d = a + 1 := by have := hnone (a + 1) (had.trans_le hd); omega
  exact ⟨hac ▸ hci, hda ▸ hdj⟩

/-- SR: the greater bracket where the draw is below the fraction. -/
theorem FloatFmt.pick_sr (hmode : r.mode = .sr) (hu : 0 < u) {i j : Nat} (h : f.Brackets (signum neg * u) i j) :
    signum neg * f.mag (f.pick r neg u a) =
      if (r.draw : ℤ) < ⌊65536 * ((|signum neg * u| - |real (f.value i)|) / (|real (f.value j)| - |real (f.value i)|))⌋
      then real (f.value j) else real (f.value i) := by
  obtain ⟨hi, hj⟩ := h.eq_neighbours hf hlo hhi hu
  rw [hi, hj, abs_signum_mul, abs_signum_mul, abs_signum_mul, abs_of_pos hu, abs_of_nonneg (f.mag_nonneg _), abs_of_nonneg (f.mag_nonneg _),
    mag_pick_eq, Rounding.neighbour]
  simp only [Rounding.picks, hmode, decide_eq_true_eq]
  exact apply_ite (signum neg * ·) _ _ _

end Modes

end Sys2Proof.Machine
end

section
/-! PROOFS. The rounding to a format as a whole: range, overflow, FTZ, E8M0 and the draw (R79 to R82, R86, R93). -/

namespace Sys2Proof.Machine

open Sys2Proof.Claims

variable {f : FloatFmt} {x : Exact}

/-! ## Overflow, FTZ, E8M0 (R79, R82, R86) -/

/-- From twice the maximum on the rounding of step (a) exceeds the maximum under every mode. -/
theorem FloatFmt.round_of_twice_max_le (hf : f ≠ .e8m0) (r : Rounding) (sat ftz : Bool) (hm : x.m ≠ 0) (hs : x.sticky = false)
    (h : 2 * f.mag f.maxCode ≤ x.mag) : ∃ up, f.round r sat ftz x = f.overflow r sat x.neg up := by
  obtain ⟨m, e, -, hround⟩ := round_eq hf r sat ftz hm hs
  have hlead := (leadExp_lt_iff hm).mp (lt_add_one (leadExp x.m x.e))
  rw [zpow_add_one₀ two_ne_zero] at hlead
  have hgrid := Exact.two_pow_leadExp_le_onGrid (r := r) hm hs (f.lastPlace_le x)
  have hover : f.mag f.maxCode < x.onGrid r (f.lastPlace x) := by
    unfold Exact.mag at h
    linarith
  exact ⟨_, hround.trans (if_pos hover)⟩

theorem FloatFmt.overflow_sat (f : FloatFmt) (r : Rounding) (neg up : Bool) :
    f.overflow r true neg up = (f.signBit neg + f.maxCode, 16) := by
  simp [overflow, flagIX]

/-- Without SAT an overflow is an infinity where the mode does not point toward zero. -/
theorem FloatFmt.overflow_unsat (hf : f ∈ [FloatFmt.fp32, .fp16, .bf16, .e5m2]) {r : Rounding} (hr : r.mode ≠ .sr) (neg up : Bool) :
    f.overflow r false neg up = (f.signBit neg +
      if r.mode = .rn ∨ r.mode = .ra ∨ (r.mode = .ru ∧ neg = false) ∨ (r.mode = .rd ∧ neg = true) then f.maxCode + 1
      else f.maxCode, 20) := by
  have hinf : f.infCode.getD 0 = f.maxCode + 1 ∧ f ≠ .e4m3 ∧ f ≠ .e2m1 ∧ f ≠ .e8m0 := by revert f; decide
  obtain ⟨hcode, h1, h2, h3⟩ := hinf
  have hflags : flagOF ||| flagIX = 20 := rfl
  rcases r with ⟨mode, draw⟩
  cases mode with
  | sr => exact absurd rfl hr
  | _ => cases neg <;> simp [overflow, hcode, hflags]

theorem FloatFmt.round_of_le_subnormal (hf : f ≠ .e8m0) (hflush : f.flushes = true) (r : Rounding) (sat : Bool) (hm : x.m ≠ 0)
    (hs : x.sticky = false) (h : x.mag ≤ f.mag (2 ^ f.frac - 1)) : f.round r sat true x = (f.signBit x.neg, 24) := by
  obtain ⟨m, e, -, hround⟩ := round_eq hf r sat true hm hs
  have hpred : 2 ^ f.frac - 1 < 2 ^ f.frac := Nat.sub_lt (Nat.two_pow_pos _) one_pos
  have hmag := f.mag_of_le hpred.le
  have hlt := h.trans_lt (f.mag_strictMono hpred)
  have hlast : f.lastPlace x ≤ f.minExp := by
    rw [mag_least_normal] at hlt
    have := (leadExp_lt_iff hm).mpr hlt
    unfold lastPlace
    omega
  have htiny : x.onGrid r (f.lastPlace x) < f.mag (2 ^ f.frac) :=
    (hmag ▸ Exact.onGrid_le hs hlast (hmag ▸ h)).trans_lt (f.mag_strictMono hpred)
  have hfits := htiny.le.trans (f.mag_strictMono.monotone f.maxCode_pos)
  rw [hround, if_neg hfits.not_gt, if_pos htiny, hflush]
  rfl

theorem FloatFmt.flushes_of_mem (h : f ∈ [FloatFmt.fp32, .fp16, .bf16]) : f.flushes = true := by cases f <;> simp_all [flushes]

theorem FloatFmt.not_flushes_of_mem (h : f ∈ [FloatFmt.e4m3, .e5m2, .e2m1]) : f.flushes = false := by cases f <;> simp_all [flushes]

/-- FTZ does nothing in the formats that it does not apply to. -/
theorem FloatFmt.round_ftz (h : f.flushes = false) (r : Rounding) (sat : Bool) (x : Exact) :
    f.round r sat true x = f.round r sat false x := by
  simp only [round, h, Bool.and_false]

theorem FloatFmt.round_e8m0 (r : Rounding) (sat ftz : Bool) {k : Nat} (hk : k < 255) :
    FloatFmt.e8m0.round r sat ftz { neg := false, m := 1, e := (k : Int) - 127 } = (k, 0) := by
  have hlog : Nat.log2 1 = 0 := by decide
  have hprec : ({ neg := false, m := 1, e := (k : Int) - 127 } : Exact).toPrecision (FloatFmt.e8m0.mode r) (FloatFmt.e8m0.frac + 1) =
      (1, (k : Int) - 127, false, false) := by
    simp [Exact.toPrecision, frac, hlog]
  have hlead : leadExp 1 ((k : Int) - 127) = k - 127 := by simp [leadExp, hlog]
  have hmax : FloatFmt.e8m0.maxMag = (1, 127) := by decide
  have hfits : magGreater 1 ((k : Int) - 127) 1 127 = false := by
    rw [Bool.eq_false_iff, Ne, magGreater_iff one_ne_zero one_ne_zero, not_lt]
    gcongr
    · exact one_le_two
    · omega
  simp only [round, hprec, hmax, hfits, hlead, leastExp, encodeMag, signBit]
  simp

/-! ## The draw of stochastic rounding (R81) -/

/-- The round is kept abstract: the recursion alone gives the equation, and the kernel need not look into a round. -/
theorem CrngState.rounds_zero (c : CrngState) : CrngState.rounds 0 c = c := by
  delta CrngState.rounds CrngState.rounds._f
  generalize CrngState.round = round
  rfl

theorem CrngState.rounds_succ (n : Nat) (c : CrngState) : CrngState.rounds (n + 1) c = CrngState.rounds n c.round := by
  delta CrngState.rounds CrngState.rounds._f
  generalize CrngState.round = round
  rfl

theorem CrngState.rounds_eq_iterate (n : Nat) (c : CrngState) : CrngState.rounds n c = CrngState.round^[n] c := by
  induction n generalizing c with
  | zero => rw [rounds_zero, Function.iterate_zero_apply]
  | succ n ih => rw [rounds_succ, ih, Function.iterate_succ_apply]

theorem CrngState.eq_iterate_of_rounds {c : Nat → CrngState} {n : Nat} (h : ∀ i, i < n → c (i + 1) = (c i).round) :
    c n = CrngState.round^[n] (c 0) := by
  induction n with
  | zero => rw [Function.iterate_zero_apply]
  | succ n ih => rw [h n n.lt_succ_self, ih fun i hi => h i (hi.trans n.lt_succ_self), Function.iterate_succ_apply']

theorem natBits_high_half (w : Word) : natBits w.toNat 31 16 = (w.extractLsb' 16 16).toNat := by
  rw [BitVec.extractLsb'_toNat, natBits]

theorem srDraw_eq (key : DWord) (seed : Word) (e : Nat) {c : Nat → CrngState}
    (h0 : c 0 = { x0 := BitVec.ofNat 32 (e + seed.toNat), x1 := 0, x2 := 0, x3 := 0,
                  k0 := key.extractLsb' 0 32, k1 := key.extractLsb' 32 32 })
    (h : ∀ i, i < 10 → c (i + 1) = (c i).round) : srDraw key seed e = ((c 10).x0.extractLsb' 16 16).toNat := by
  have hseed : BitVec.ofNat 32 e + seed = BitVec.ofNat 32 (e + seed.toNat) := by simp [BitVec.ofNat_add]
  have hlow : BitVec.extractLsb' 0 32 (0 : DWord) = 0 := by decide
  have hhigh : BitVec.extractLsb' 32 32 (0 : DWord) = 0 := by decide
  rw [CrngState.eq_iterate_of_rounds h, h0, ← CrngState.rounds_eq_iterate, srDraw, crng, hseed, natBits_high_half, hlow, hhigh]

theorem roundingOf_mode (f : Fields) (w : Warp) (e : Nat) : (roundingOf f w e).mode = f.rnd := by
  unfold roundingOf
  split
  · exact Eq.symm ‹_›
  · rfl

theorem roundingOf_draw (f : Fields) (w : Warp) (e : Nat) (h : f.rnd = .sr) : (roundingOf f w e).draw = srDraw w.rngkey f.lit e := by
  simp [roundingOf, h]

/-! ## The rounding as a whole -/

theorem real_fin (x : Exact) : real (.fin x.neg x.m x.e) = signum x.neg * x.mag := by
  rw [real, Exact.mag, ← mul_assoc]
  rfl

/-- Up to the maximum the rounding is the code that the mode picks, with IX where it differs, UF with IX alone, and no other flag. -/
theorem FloatFmt.round_within (hf : f ≠ .e8m0) (r : Rounding) (sat : Bool) (hm : x.m ≠ 0) (hs : x.sticky = false)
    (h : x.mag ≤ f.mag f.maxCode) :
    ∃ a fl, f.mag a ≤ x.mag ∧ x.mag < f.mag (a + 1) ∧ f.pick r x.neg x.mag a ≤ f.maxCode ∧
      f.round r sat false x = (f.signBit x.neg + f.pick r x.neg x.mag a, fl) ∧
      (fl.getLsbD 4 = true ↔ f.mag (f.pick r x.neg x.mag a) ≠ x.mag) ∧ fl.extractLsb' 0 3 = 0 ∧
      (fl.getLsbD 3 = true → fl.getLsbD 4 = true) := by
  have hu : 0 ≤ x.mag := by unfold Exact.mag; positivity
  obtain ⟨a, ha, hlo, hhi⟩ := f.exists_bracket hu h
  have hmax := f.pick_le_maxCode r x.neg ha hlo h
  obtain ⟨fl, hround, hexact, hinexact⟩ := round_code hf r sat hm hs hlo hhi hmax
  refine ⟨a, fl, hlo, hhi, hmax, hround, ?_⟩
  rcases eq_or_ne x.mag (f.mag a) with heq | hne
  · rw [hexact heq, f.pick_of_eq r x.neg heq, heq]
    exact ⟨iff_of_false (by decide) fun hne => hne rfl, by decide, by decide⟩
  · have hpick : f.mag (f.pick r x.neg x.mag a) ≠ x.mag := by
      rw [mag_pick_eq, Rounding.neighbour]
      split
      exacts [hhi.ne', hne.symm]
    rcases hinexact hne with rfl | rfl <;> exact ⟨iff_of_true rfl hpick, rfl, fun _ => rfl⟩

/-- Settles O15: each mode's choice by the theorem about the mode; past the maximum, under FTZ, in E8M0 and for the draw, the
equations above. -/
theorem floatRounding : Obligations.FloatRounding := by
  refine ⟨fun f r sat ftz x hf hm hs => ?_, fun r sat ftz k hk => FloatFmt.round_e8m0 r sat ftz hk,
    fun f w e => ⟨roundingOf_mode f w e, ?_⟩⟩
  · intro v val isFinite top sign y
    have hv : v = signum x.neg * x.mag := real_fin x
    have hmag : 0 < x.mag := by unfold Exact.mag; positivity
    have habs : |v| = x.mag := by rw [hv, abs_signum_mul, abs_of_pos hmag]
    have htop : top = f.mag f.maxCode := by
      simpa [f.signBit_false, signum] using (FloatFmt.isFinite_code hf false (le_refl f.maxCode)).2
    have hsign : sign = f.signBit x.neg := (f.signBit_of_ne hf x.neg).symm
    have hsubnormal : val (2 ^ f.frac - 1) = f.mag (2 ^ f.frac - 1) := by
      simpa [f.signBit_false, signum] using (FloatFmt.isFinite_code hf false ((Nat.sub_le _ 1).trans f.maxCode_pos)).2
    refine ⟨fun h => ?_, fun h => ⟨?_, fun hinf hr => ?_⟩, fun hmem h => ?_, fun hmem => ?_⟩
    · rw [habs, htop] at h
      obtain ⟨a, fl, hlo, hhi, hmax, hround, hix, hother, huf⟩ := FloatFmt.round_within hf r sat hm hs h
      obtain ⟨hfin, hval⟩ := FloatFmt.isFinite_code hf x.neg hmax
      have hcode : y.1 = f.signBit x.neg + f.pick r x.neg x.mag a := congrArg Prod.fst hround
      have hflags : y.2 = fl := congrArg Prod.snd hround
      have hvaly : val y.1 = signum x.neg * f.mag (f.pick r x.neg x.mag a) := (congrArg val hcode).trans hval
      rw [hflags, hvaly, hv, signum_mul_mul]
      refine ⟨hcode ▸ hfin, mul_nonneg (f.mag_nonneg _) hmag.le, hix.trans (signum_mul_inj x.neg).not.symm, hother, huf, ?_⟩
      split
      next hmode => exact fun k hk => hcode ▸ FloatFmt.pick_rn hf hlo hhi hmode hk
      next hmode => exact fun k hk => FloatFmt.pick_ra hf hlo hhi hmode hk
      next hmode => exact FloatFmt.pick_rz hf hlo hhi hmode
      next hmode => exact FloatFmt.pick_ru hf hlo hhi hmode
      next hmode => exact FloatFmt.pick_rd hf hlo hhi hmode
      next hmode =>
        exact ⟨fun k hk => FloatFmt.pick_of_isFinite_eq hf hlo hhi hk, fun i j hi hj hi0 hj0 hiv hvj hnone =>
          FloatFmt.pick_sr hf hlo hhi hmode hmag ⟨hi, hj, hi0, hj0, hiv, hvj, hnone⟩⟩
    · rw [habs, htop] at h
      obtain ⟨up, hround⟩ := FloatFmt.round_of_twice_max_le hf r true ftz hm hs h
      rw [hround, f.overflow_sat, hsign]
    · rw [habs, htop] at h
      obtain ⟨up, hround⟩ := FloatFmt.round_of_twice_max_le hf r false ftz hm hs h
      rw [hround, FloatFmt.overflow_unsat hinf hr, hsign]
    · rw [habs, hsubnormal] at h
      rw [FloatFmt.round_of_le_subnormal hf (FloatFmt.flushes_of_mem hmem) r sat hm hs h, hsign]
    · exact FloatFmt.round_ftz (FloatFmt.not_flushes_of_mem hmem) r sat x
  · intro hsr key c h0 h
    rw [roundingOf_draw f w e hsr]
    exact srDraw_eq w.rngkey f.lit e h0 h

end Sys2Proof.Machine
end

section
/-! PROOFS. Control instructions at issue (R66, R97, R231): the words of code that they read, their targets, and what a control instruction comes
to when it has a new warp, a fault, or a read that is held. -/

namespace Sys2Proof.Machine

open Sys2Proof.Claims

variable {s : State} {f : Fields} {c : Ctx} {m : Mnem}

/-! ## Words of code -/

theorem codeHeld_of_codeWord {p : Phys} {y : Sys} {b : Block} {t : Pc} {w : Word} (h : codeWord p y b t = some w) : codeHeld p y b t = false := by
  obtain ⟨pa, hpa, -⟩ := Option.map_eq_some_iff.mp h
  unfold codeAddr at hpa
  unfold codeHeld
  split at hpa
  · next hr => rw [hr]; rfl
  · cases hpa

theorem targetOk_iff {t : Pc} : targetOk s.phys s.sys c.b t = true ↔ IsHeader s c t := by
  unfold targetOk IsHeader
  cases codeWord s.phys s.sys c.b t <;> simp

theorem targetOk_eq_false {t : Pc} (h : ¬ IsHeader s c t) : targetOk s.phys s.sys c.b t = false := by
  simpa using targetOk_iff.not.mpr h

theorem codeHeld_of_isHeader {t : Pc} (h : IsHeader s c t) : codeHeld s.phys s.sys c.b t = false :=
  let ⟨_, hw, _⟩ := h
  codeHeld_of_codeWord hw

theorem Ctx.checked_of_isHeader {t : Pc} (h : IsHeader s c t) (e : LaneMask) : c.checked s.phys s.sys e t = .ok t := by
  simp [Ctx.checked, targetOk_iff.mpr h]

theorem Ctx.checked_of_not_isHeader {t : Pc} (h : ¬ IsHeader s c t) (e : LaneMask) :
    c.checked s.phys s.sys e t = .error { cause := .illegalTarget, resume := e, addr := 4 * t.toNat } := by
  rw [Ctx.checked, targetOk_eq_false h]
  rfl

/-! ## The target of a branch (R66) -/

theorem signedNat_eq_toInt (n x : Nat) : signedNat n x = (BitVec.ofNat n x).toInt := by
  simp [signedNat, BitVec.toInt_eq_toNat_cond]

theorem ofInt_toInt_eq_setWidth {n : Nat} (b : BitVec n) : BitVec.ofInt 50 b.toInt = (b.signExtend 64).setWidth 50 := by
  rw [← BitVec.signExtend]
  ext i hi
  simp [BitVec.getElem_signExtend, show i < 64 by omega]

theorem ofInt_immS (f : Fields) : BitVec.ofInt 50 f.immS = (immSigned f).setWidth 50 := by
  unfold Fields.immS immSigned
  cases f.form <;> dsimp only
  case w32 =>
    have hb : BitVec.ofNat 6 f.b.toNat = f.b.extractLsb' 0 6 := BitVec.eq_of_toNat_eq (by simp)
    rw [signedNat_eq_toInt, hb, ofInt_toInt_eq_setWidth]
  case w64 => rw [signedNat_eq_toInt, BitVec.ofNat_toNat, BitVec.setWidth_eq, ofInt_toInt_eq_setWidth]
  case w96 => rw [ofInt_toInt_eq_setWidth]

theorem Ctx.target_eq (c : Ctx) (f : Fields) : c.target f = branchTarget c f := by
  rw [Ctx.target, branchTarget, ofInt_immS]

theorem ofNat_addr (n : Pc) : BitVec.ofNat 64 n.addr = 4 * n.setWidth 64 := by
  apply BitVec.eq_of_toNat_eq
  simp [Pc.addr, BitVec.toNat_mul]

/-! ## A slot moved -/

theorem Warp.setSlot_setSlot (w : Warp) (z : SlotId) (g h : PcSlot → PcSlot) : (w.setSlot z g).setSlot z h = w.setSlot z fun y => h (g y) := by
  cases z <;> rfl

theorem Ctx.goto_eq (c : Ctx) (t : Pc) : c.goto t = atHeader c.w c.z t c.slot.mask := by
  obtain ⟨r, z, b, w⟩ := c
  cases z <;> rfl

/-! ## What a control instruction comes to -/

/-- An instruction that issues takes its own effect with its active lanes. -/
theorem issue_of_issues (h : Issues m f s c) (k : (o : Phys) → Tx o → Ctx → LaneMask → Option Nat → Tx o) :
    issue m f s k = .next (k s.phys (Tx.start s) c (c.active f.guard) (if m.variableLatency then c.slot.nextFlag else none)).state :=
  issue_go h.1 ((c.admit_go_iff m f _ _).mpr ⟨h.2.1, h.2.2, rfl, rfl⟩) k

section

variable {reads : Phys → Sys → Ctx → LaneMask → List Pc} {g : Phys → Sys → Ctx → LaneMask → Except TrapInfo Warp} {w : Warp} {i : TrapInfo}

/-- None of the words of code that the instruction reads is held. -/
def Readable (s : State) (c : Ctx) (reads : List Pc) : Prop := ∀ t ∈ reads, codeHeld s.phys s.sys c.b t = false

theorem Tx.onceReadable_of_readable {ts : List Pc} (h : Readable s c ts) (go : Tx s.phys) : (Tx.start s).onceReadable c ts go = go := by
  have : ts.any (codeHeld s.phys s.sys c.b) = false := by simpa [Readable] using h
  simp [Tx.onceReadable, this]

theorem Tx.onceReadable_of_held {ts : List Pc} {t : Pc} (ht : t ∈ ts) (h : codeHeld s.phys s.sys c.b t = true) (go : Tx s.phys) :
    ((Tx.start s).onceReadable c ts go).state = waiting s c .codeRead := by
  have : ts.any (codeHeld s.phys s.sys c.b) = true := List.any_eq_true.mpr ⟨t, ht, h⟩
  simp only [Tx.onceReadable, Tx.start_phys, Tx.start_sys, this]
  rfl

theorem controlOp_held (h : Issues m f s c) {t : Pc} (ht : t ∈ reads s.phys s.sys c (c.active f.guard))
    (hheld : codeHeld s.phys s.sys c.b t = true) : controlOp m f s reads g = .next (waiting s c .codeRead) := by
  rw [controlOp, issue_of_issues h]
  exact congrArg _ (Tx.onceReadable_of_held ht hheld _)

/-- An instruction whose words of code can all be read takes its own effect. -/
theorem issue_readable (h : Issues m f s c) (hr : Readable s c (reads s.phys s.sys c (c.active f.guard)))
    (k : (o : Phys) → Tx o → Ctx → LaneMask → Tx o) :
    (issue m f s fun o t c e _ => t.onceReadable c (reads t.phys t.sys c e) (k o t c e)) =
      .next (k s.phys (Tx.start s) c (c.active f.guard)).state := by
  rw [issue_of_issues h]
  exact congrArg (fun t => Host.Outcome.next (Tx.state t)) (Tx.onceReadable_of_readable hr _)

theorem controlOp_ok (h : Issues m f s c) (hr : Readable s c (reads s.phys s.sys c (c.active f.guard)))
    (hg : g s.phys s.sys c (c.active f.guard) = .ok w) : controlOp m f s reads g = .next (movedOn s c w) := by
  rw [controlOp, issue_readable h hr, Tx.start_phys, Tx.start_sys, hg]
  rfl

theorem controlOp_error (h : Issues m f s c) (hr : Readable s c (reads s.phys s.sys c (c.active f.guard)))
    (hg : g s.phys s.sys c (c.active f.guard) = .error i) : controlOp m f s reads g = raised s c i := by
  rw [controlOp, issue_readable h hr, Tx.start_phys, Tx.start_sys, hg]
  rfl

theorem leavingOp_ok (h : Issues m f s c) (hr : Readable s c (reads s.phys s.sys c (c.active f.guard)))
    (hg : g s.phys s.sys c (c.active f.guard) = .ok w) : leavingOp m f s reads g = .next (leftFor s c w) := by
  rw [leavingOp, issue_readable h hr, Tx.start_phys, Tx.start_sys, hg]
  rfl

theorem leavingOp_error (h : Issues m f s c) (hr : Readable s c (reads s.phys s.sys c (c.active f.guard)))
    (hg : g s.phys s.sys c (c.active f.guard) = .error i) : leavingOp m f s reads g = raised s c i := by
  rw [leavingOp, issue_readable h hr, Tx.start_phys, Tx.start_sys, hg]
  rfl

end

theorem readable_nil (s : State) (c : Ctx) : Readable s c [] := fun _ h => nomatch h

/-- A branch reads the word at its target. -/
theorem readable_branchRead (h : codeHeld s.phys s.sys c.b (branchTarget c f) = false) (e : LaneMask) :
    Readable s c (branchRead f s.phys s.sys c e) := by
  simpa [Readable, branchRead, c.target_eq f] using h

end Sys2Proof.Machine
end

section
/-! PROOFS. BRA, BRC, CALL, RET, PREPJ and PREPL (R66, R97, R101, R103, R104, R231). -/

namespace Sys2Proof.Machine

open Sys2Proof.Claims

variable {s : State} {f : Fields} {c : Ctx} {m : Mnem}

/-! ## Masks -/

theorem maskWithin_iff {a b : LaneMask} : maskWithin a b = true ↔ ∀ l, a.getLsbD l = true → b.getLsbD l = true := by
  rw [maskWithin, beq_iff_eq, BitVec.eq_of_getLsbD_eq_iff]
  constructor
  · intro h l ha
    have hl : l < 64 := BitVec.lt_of_getLsbD ha
    have hb := h l hl
    rw [BitVec.getLsbD_and, ha, BitVec.getLsbD_not] at hb
    simpa [hl] using hb
  · intro h l hl
    rw [BitVec.getLsbD_and, BitVec.getLsbD_not]
    cases ha : a.getLsbD l
    · simp
    · rw [h l ha]
      simp

theorem maskWithin_eq_false_iff {a b : LaneMask} :
    maskWithin a b = false ↔ ∃ l, l < 64 ∧ a.getLsbD l = true ∧ b.getLsbD l = false := by
  rw [← Bool.not_eq_true, maskWithin_iff]
  push Not
  exact ⟨fun ⟨l, ha, hb⟩ => ⟨l, BitVec.lt_of_getLsbD ha, ha, by simpa using hb⟩, fun ⟨l, _, ha, hb⟩ => ⟨l, ha, by simp [hb]⟩⟩

/-! ## A PEND entry inserted (R98 (c)) -/

theorem insertPendDown_append (pc : Pc) (p : LaneMask) {xs ys : List RsEntry} (h : ∀ x ∈ xs, x.isPend = true ∨ maskWithin p x.mask = false) :
    insertPendDown pc p (xs ++ ys) = xs ++ insertPendDown pc p ys := by
  induction xs with
  | nil => rfl
  | cons x xs ih =>
    have hx : (!x.isPend && maskWithin p x.mask) = false := by
      rcases h x List.mem_cons_self with hx | hx <;> simp [hx]
    rw [List.cons_append, List.cons_append, insertPendDown, hx, ih fun y hy => h y (List.mem_cons_of_mem _ hy)]
    rfl

theorem insertPendDown_head (pc : Pc) (p : LaneMask) {ys : List RsEntry} (h : ∀ y ∈ ys.head?, y.isPend = false ∧ maskWithin p y.mask = true) :
    insertPendDown pc p ys = .pend pc p :: ys := by
  cases ys with
  | nil => rfl
  | cons y ys =>
    obtain ⟨hy, hm⟩ := h y rfl
    simp [insertPendDown, hy, hm]

theorem RsEntry.isPend_iff {x : RsEntry} : x.isPend = true ↔ ∃ pc m, x = .pend pc m := by
  cases x <;> simp [RsEntry.isPend]

theorem Warp.insertPend_eq (w : Warp) (pc : Pc) (p : LaneMask) {below above : List RsEntry} (hrs : w.rs = below ++ above)
    (ha : ∀ x ∈ above, x.isPend = true ∨ maskWithin p x.mask = false)
    (hb : ∀ x ∈ below.getLast?, x.isPend = false ∧ maskWithin p x.mask = true) :
    w.insertPend pc p = w.withRs (below ++ [.pend pc p] ++ above) := by
  have hdown : insertPendDown pc p w.rs.reverse = above.reverse ++ .pend pc p :: below.reverse := by
    rw [hrs, List.reverse_append, insertPendDown_append pc p (by simpa using ha), insertPendDown_head pc p (by simpa using hb)]
  rw [Warp.insertPend, hdown]
  simp

/-! ## The split of a slot (R101) -/

/-- The lanes of a slot that are not taken. -/
theorem and_xor_allOnes (a e : LaneMask) : a &&& (e ^^^ BitVec.allOnes 64) = a &&& ~~~e := by
  rw [BitVec.xor_allOnes]

section

variable (w : Warp) (z : SlotId) (t next : Pc) {e : LaneMask}

theorem Warp.goto_eq_atHeader : (w.setSlot z fun y => y.goto t) = atHeader w z t (w.slot z).mask := by
  cases z <;> rfl

theorem splitLanes_none (he : e = 0) : splitLanes w z t next e = .ok (atHeader w z next (w.slot z).mask) := by
  rw [splitLanes, if_pos (by simpa using he), w.goto_eq_atHeader]

theorem splitLanes_all (he : e ≠ 0) (hr : (w.slot z).mask &&& ~~~e = 0) : splitLanes w z t next e = .ok (atHeader w z t (w.slot z).mask) := by
  rw [splitLanes, if_neg (by simpa using he), if_pos (by simpa using hr), w.goto_eq_atHeader]

theorem splitLanes_free (he : e ≠ 0) (hr : (w.slot z).mask &&& ~~~e ≠ 0) (hf : (w.slot (otherSlot z)).valid = false) :
    splitLanes w z t next e = .ok (atHeader (startsAt w (otherSlot z) t e) z next ((w.slot z).mask &&& ~~~e)) := by
  rw [splitLanes, if_neg (by simpa using he), if_neg (by simpa using hr), if_pos (by simp [hf])]
  rfl

theorem splitLanes_pend (he : e ≠ 0) (hr : (w.slot z).mask &&& ~~~e ≠ 0) (hf : (w.slot (otherSlot z)).valid = true) (hroom : w.rsp < 130) :
    splitLanes w z t next e = .ok (atHeader (w.insertPend t e) z next ((w.slot z).mask &&& ~~~e)) := by
  rw [splitLanes, if_neg (by simpa using he), if_neg (by simpa using hr), if_neg (by simp [hf]), if_neg (by omega)]
  rfl

end

/-! ## The value that RET reads (R103) -/

theorem natBits_toNat_eq_extractLsb' (v : DWord) (hi lo : Nat) : natBits v.toNat hi lo = (v.extractLsb' lo (hi - lo + 1)).toNat := by
  simp [natBits]

theorem noPc_iff (v : DWord) : noPc v.toNat = true ↔ v.extractLsb' 52 12 ≠ 0 ∨ v.extractLsb' 0 2 ≠ 0 := by
  rw [noPc, natBits_toNat_eq_extractLsb', natBits_toNat_eq_extractLsb']
  simp [BitVec.toNat_eq, -BitVec.extractLsb'_toNat]

theorem toNat_four_mul_setWidth (u : Pc) : (4 * u.setWidth 64 : DWord).toNat = 4 * u.toNat := by
  rw [BitVec.toNat_mul, BitVec.toNat_setWidth]
  have := u.isLt
  simp
  omega

theorem noPc_four_mul (u : Pc) : noPc (4 * u.toNat) = false := by
  have := u.isLt
  simp [noPc, natBits, Nat.shiftRight_eq_div_pow]
  omega

theorem Pc.ofAddr_four_mul (u : Pc) : Pc.ofAddr (4 * u.toNat) = u := by
  simp [Pc.ofAddr]

/-! ## A branch to its target (R66, R97) -/

theorem Ctx.checked_bind_of_isHeader (h : IsHeader s c (branchTarget c f)) (e : LaneMask) (k : Pc → Except TrapInfo Warp) :
    (c.checked s.phys s.sys e (c.target f) >>= k) = k (branchTarget c f) := by
  rw [c.target_eq, c.checked_of_isHeader h]
  rfl

theorem Ctx.checked_bind_of_not_isHeader (h : ¬ IsHeader s c (branchTarget c f)) (e : LaneMask) (k : Pc → Except TrapInfo Warp) :
    (c.checked s.phys s.sys e (c.target f) >>= k) =
      .error { cause := .illegalTarget, resume := e, addr := 4 * (branchTarget c f).toNat } := by
  rw [c.target_eq, c.checked_of_not_isHeader h]
  rfl

section

variable {k : Phys → Sys → Ctx → LaneMask → Pc → Except TrapInfo Warp} {w : Warp} {i : TrapInfo}

/-- A control instruction that reads the word at its target, once that is a header. -/
theorem branchOp_ok (hi : Issues m f s c) (h : IsHeader s c (branchTarget c f))
    (hk : k s.phys s.sys c (c.active f.guard) (branchTarget c f) = .ok w) :
    (controlOp m f s (branchRead f) fun p y c e => c.checked p y e (c.target f) >>= k p y c e) = .next (movedOn s c w) :=
  controlOp_ok hi (readable_branchRead (codeHeld_of_isHeader h) _) ((c.checked_bind_of_isHeader h _ _).trans hk)

theorem branchOp_error (hi : Issues m f s c) (h : IsHeader s c (branchTarget c f))
    (hk : k s.phys s.sys c (c.active f.guard) (branchTarget c f) = .error i) :
    (controlOp m f s (branchRead f) fun p y c e => c.checked p y e (c.target f) >>= k p y c e) = raised s c i :=
  controlOp_error hi (readable_branchRead (codeHeld_of_isHeader h) _) ((c.checked_bind_of_isHeader h _ _).trans hk)

/-- A control instruction whose target is no header traps, whatever it would do there. -/
theorem branchOp_noHeader (hi : Issues m f s c) (h : NoHeader s c (branchTarget c f)) :
    (controlOp m f s (branchRead f) fun p y c e => c.checked p y e (c.target f) >>= k p y c e) =
      raised s c { cause := .illegalTarget, resume := c.active f.guard, addr := 4 * (branchTarget c f).toNat } :=
  controlOp_error hi (readable_branchRead h.2 _) (c.checked_bind_of_not_isHeader h.1 _ _)

theorem leavingBranchOp_ok (hi : Issues m f s c) (h : IsHeader s c (branchTarget c f))
    (hk : k s.phys s.sys c (c.active f.guard) (branchTarget c f) = .ok w) :
    (leavingOp m f s (branchRead f) fun p y c e => c.checked p y e (c.target f) >>= k p y c e) = .next (leftFor s c w) :=
  leavingOp_ok hi (readable_branchRead (codeHeld_of_isHeader h) _) ((c.checked_bind_of_isHeader h _ _).trans hk)

theorem leavingBranchOp_error (hi : Issues m f s c) (h : IsHeader s c (branchTarget c f))
    (hk : k s.phys s.sys c (c.active f.guard) (branchTarget c f) = .error i) :
    (leavingOp m f s (branchRead f) fun p y c e => c.checked p y e (c.target f) >>= k p y c e) = raised s c i :=
  leavingOp_error hi (readable_branchRead (codeHeld_of_isHeader h) _) ((c.checked_bind_of_isHeader h _ _).trans hk)

theorem leavingBranchOp_noHeader (hi : Issues m f s c) (h : NoHeader s c (branchTarget c f)) :
    (leavingOp m f s (branchRead f) fun p y c e => c.checked p y e (c.target f) >>= k p y c e) =
      raised s c { cause := .illegalTarget, resume := c.active f.guard, addr := 4 * (branchTarget c f).toNat } :=
  leavingOp_error hi (readable_branchRead h.2 _) (c.checked_bind_of_not_isHeader h.1 _ _)

end

/-! ## BRA, CALL, RET, BRC, CONT, PREPJ and PREPL -/

theorem exec_bra (f : Fields) (s : State) :
    exec (.bra f) s = controlOp .bra f s (branchRead f) fun p y c e => c.checked p y e (c.target f) >>= fun t => .ok (c.goto t) := rfl

theorem exec_brc (f : Fields) (s : State) :
    exec (.brc f) s = controlOp .brc f s (branchRead f) fun p y c e =>
      c.checked p y e (c.target f) >>= fun t => splitLanes c.w c.z t (c.next y) e := rfl

theorem exec_call (f : Fields) (s : State) :
    exec (.call f) s = controlOp .call f s (branchRead f) fun p y c e =>
      c.checked p y e (c.target f) >>= fun t => .ok ((c.goto t).setScalar f.d.toNat (BitVec.ofNat 64 (c.next y).addr)) := rfl

/-- The warp after CONT at its target. -/
def Ctx.contWarp (c : Ctx) (y : Sys) (e : LaneMask) (t : Pc) : Except TrapInfo Warp :=
  match c.w.innerLoop e with
  | none => .error (controlTrap .rsMismatch e 0)
  | some (i, _) => splitLanes (c.w.mapRs (dropJoins e i)) c.z t (c.next y) e >>= fun w => .ok w.settle

theorem exec_cont (f : Fields) (s : State) :
    exec (.cont f) s = leavingOp .cont f s (branchRead f) fun p y c e => c.checked p y e (c.target f) >>= c.contWarp y e := rfl

/-- The address that RET reads. -/
def Ctx.retAddr (c : Ctx) (f : Fields) : Nat := (c.w.scalar f.a.toNat).toNat

theorem exec_ret (f : Fields) (s : State) :
    exec (.ret f) s = controlOp .ret f s (fun _ _ c _ => if noPc (c.retAddr f) then [] else [.ofAddr (c.retAddr f)]) fun p y c e =>
      if noPc (c.retAddr f) then .error (controlTrap .illegalTarget e (c.retAddr f))
      else c.checked p y e (.ofAddr (c.retAddr f)) >>= fun t => .ok (c.goto t) := rfl

theorem pushEntry_eq (m : Mnem) (f : Fields) (s : State) (k : Pc → LaneMask → RsEntry) :
    pushEntry m f s k = controlOp m f s (branchRead f) fun p y c e =>
      c.checked p y e (c.target f) >>= fun t =>
        if 130 < c.w.rsp + 1 then .error (controlTrap .rsOverflow e 0)
        else .ok ((c.w.withRs (c.w.rs ++ [k t c.slot.mask])).setSlot c.z fun z => z.step y.words) := rfl

theorem exec_bra_of_held (hi : Issues .bra f s c) (h : codeHeld s.phys s.sys c.b (branchTarget c f) = true) :
    exec (.bra f) s = .next (waiting s c .codeRead) := by
  rw [exec_bra]
  exact controlOp_held (t := c.target f) hi (List.mem_singleton_self _) (by rwa [c.target_eq])

theorem exec_call_of_isHeader (hi : Issues .call f s c) (h : IsHeader s c (branchTarget c f)) :
    exec (.call f) s =
      .next (movedOn s c ((atHeader c.w c.z (branchTarget c f) c.slot.mask).setScalar f.d.toNat (4 * (nextPc s c).setWidth 64))) := by
  rw [exec_call]
  refine branchOp_ok hi h ?_
  rw [c.goto_eq, ofNat_addr]
  rfl

theorem exec_brc_of_isHeader (hi : Issues .brc f s c) (h : IsHeader s c (branchTarget c f)) {w : Warp}
    (hw : splitLanes c.w c.z (branchTarget c f) (nextPc s c) (c.active f.guard) = .ok w) :
    exec (.brc f) s = .next (movedOn s c w) := by
  rw [exec_brc]
  exact branchOp_ok hi h hw

section

variable {u : Pc}

theorem Ctx.retAddr_eq (hu : c.w.scalar f.a.toNat = 4 * u.setWidth 64) : c.retAddr f = 4 * u.toNat := by
  rw [Ctx.retAddr, hu, toNat_four_mul_setWidth]

theorem exec_ret_of_isHeader (hi : Issues .ret f s c) (hu : c.w.scalar f.a.toNat = 4 * u.setWidth 64) (h : IsHeader s c u) :
    exec (.ret f) s = .next (movedOn s c (atHeader c.w c.z u c.slot.mask)) := by
  have hread : Readable s c [u] := by simpa [Readable] using codeHeld_of_isHeader h
  rw [exec_ret]
  refine controlOp_ok hi ?_ ?_ <;> rw [Ctx.retAddr_eq hu, noPc_four_mul, Pc.ofAddr_four_mul]
  · exact hread
  · rw [c.checked_of_isHeader h, ← c.goto_eq]
    rfl

theorem exec_ret_of_noHeader (hi : Issues .ret f s c) (hu : c.w.scalar f.a.toNat = 4 * u.setWidth 64) (h : NoHeader s c u) :
    exec (.ret f) s = raised s c { cause := .illegalTarget, resume := c.active f.guard, addr := 4 * u.toNat } := by
  have hread : Readable s c [u] := by simpa [Readable] using h.2
  rw [exec_ret]
  refine controlOp_error hi ?_ ?_ <;> rw [Ctx.retAddr_eq hu, noPc_four_mul, Pc.ofAddr_four_mul]
  · exact hread
  · rw [c.checked_of_not_isHeader h.1]
    rfl

theorem exec_ret_of_noPc (hi : Issues .ret f s c) (h : noPc (c.w.scalar f.a.toNat).toNat = true) :
    exec (.ret f) s = raised s c { cause := .illegalTarget, resume := c.active f.guard, addr := (c.w.scalar f.a.toNat).toNat } := by
  have h' : noPc (c.retAddr f) = true := h
  rw [exec_ret]
  refine controlOp_error hi ?_ ?_ <;> rw [h']
  · exact readable_nil s c
  · rfl

end

/-- The parts of R101, R103 and R231: each instruction by the cases of its target and of its split. -/
theorem branchesAndCalls : BranchesAndCalls := by
  intro s f c e rest t n free result
  have hrest : rest = c.slot.mask &&& ~~~e := and_xor_allOnes _ _
  refine ⟨fun hi ht => ?_, exec_bra_of_held, exec_call_of_isHeader, fun hi u => exec_ret_of_isHeader hi, fun hi ht he => ?_,
    fun hi ht he hr => ?_, fun hi ht he hr hfree => ?_, fun hi ht he hr hfree hroom below above hrs habove hbelow => ?_⟩
  · rw [exec_bra]
    exact branchOp_ok hi ht (congrArg _ (c.goto_eq _))
  · exact exec_brc_of_isHeader hi ht (splitLanes_none _ _ _ _ he)
  · exact exec_brc_of_isHeader hi ht (splitLanes_all _ _ _ _ he (hrest ▸ hr))
  · rw [hrest] at hr ⊢
    exact exec_brc_of_isHeader hi ht (splitLanes_free _ _ _ _ he hr hfree)
  · rw [hrest] at hr ⊢
    have hpend : c.w.insertPend t e = c.w.withRs (below ++ [.pend t e] ++ above) := by
      refine c.w.insertPend_eq t e hrs (fun x hx => ?_) (fun x hx => ?_)
      · rw [RsEntry.isPend_iff, maskWithin_eq_false_iff]
        exact habove x hx
      · obtain ⟨hnot, hwithin⟩ := hbelow x hx
        exact ⟨by simpa [← RsEntry.isPend_iff] using hnot, maskWithin_iff.mpr hwithin⟩
    rw [← hpend]
    exact exec_brc_of_isHeader hi ht (splitLanes_pend _ _ _ _ he hr ((Bool.not_eq_false _).mp hfree) hroom)

/-- The slot after PREPJ or PREPL stands at the next instruction of its clause. -/
theorem exec_push {k : Pc → LaneMask → RsEntry} {i : Instr} (hexec : exec i s = pushEntry m f s k) (hi : Issues m f s c) :
    let t := branchTarget c f
    (IsHeader s c t → c.w.rsp < 130 → exec i s = .next (movedOn s c ((c.w.withRs (c.w.rs ++ [k t c.slot.mask])).setSlot c.z fun z =>
      { z with pc := nextPc s c, left := z.left - 1, resume := none, hold := .none }))) ∧
    (IsHeader s c t → 130 ≤ c.w.rsp → exec i s = raised s c { cause := .rsOverflow, resume := c.active f.guard }) ∧
    (NoHeader s c t → exec i s = raised s c { cause := .illegalTarget, resume := c.active f.guard, addr := 4 * t.toNat }) := by
  intro t
  rw [hexec, pushEntry_eq]
  refine ⟨fun h hroom => branchOp_ok hi h ?_, fun h hroom => branchOp_error hi h ?_, fun h => branchOp_noHeader hi h⟩
  · rw [if_neg (by omega)]
    obtain ⟨r, z, b, w⟩ := c
    cases z <;> rfl
  · rw [if_pos (by omega)]
    rfl

/-- Settles O18: both instructions are a push, each of its own entry. -/
theorem prepPushes : Obligations.PrepPushes := by
  intro s f c x hx hi
  simp only [List.mem_cons, List.not_mem_nil, or_false] at hx
  obtain rfl | rfl := hx
  · exact exec_push (k := .join) rfl hi
  · exact exec_push (k := .loop) rfl hi

end Sys2Proof.Machine
end

section
/-! PROOFS. BRX (R102): the table and its entries, the groups of lanes by target, and the places that they go to. -/

namespace Sys2Proof.Machine

open Sys2Proof.Claims

variable {s : State} {f : Fields} {c : Ctx}

/-! ## The instruction as a control operation -/

/-- The table index of a lane. -/
def Ctx.tableIndex (c : Ctx) (f : Fields) (l : Nat) : Nat := (c.w.elem f.a.toNat l).toNat

/-- The fault of a bad table. -/
def Ctx.tableFault (c : Ctx) (f : Fields) (e : LaneMask) : TrapInfo := controlTrap .brxRange e (c.target f).addr

/-- The number of entries of a table, from its first word. -/
def Ctx.tableCount (c : Ctx) (f : Fields) (p : Phys) (y : Sys) (e : LaneMask) : Except TrapInfo Nat :=
  match codeWord p y c.b (c.target f) with
  | none => .error (c.tableFault f e)
  | some h =>
    if natBits h.toNat 31 16 != 0 || natBits h.toNat 15 0 == 0 || 1024 < natBits h.toNat 15 0 then .error (c.tableFault f e)
    else .ok (natBits h.toNat 15 0)

/-- A lane with its index and its target. -/
def Ctx.tableEntry (c : Ctx) (f : Fields) (p : Phys) (y : Sys) (e : LaneMask) (l : Nat) : Except TrapInfo (Nat × Nat × Pc) :=
  match codeWord p y c.b ((c.target f).plus (1 + c.tableIndex f l)) with
  | none => .error (c.tableFault f e)
  | some o => .ok (l, c.tableIndex f l, c.target f + o.signExtend 50)

/-- The warp whose lanes have gone to their groups. -/
def Ctx.placeGroups (c : Ctx) (p : Phys) (y : Sys) (e : LaneMask) (groups : List (Nat × Pc × LaneMask)) : Except TrapInfo Warp :=
  match groups.find? fun g => !targetOk p y c.b g.2.1 with
  | some g => .error (controlTrap .illegalTarget e g.2.1.addr)
  | none =>
    let free := !(c.w.slot (otherSlot c.z)).valid
    let need := groups.length - 1 - (if free then 1 else 0)
    if 0 < need && 130 < c.w.rsp + need then .error (controlTrap .rsOverflow e 0)
    else
      match groups with
      | [] => .ok (c.goto (c.next y))
      | g :: rest =>
        let w1 := c.w.setSlot c.z fun z => { z.goto g.2.1 with mask := g.2.2 }
        match rest, free with
        | h :: more, true =>
          .ok (more.foldl (fun w g => w.insertPend g.2.1 g.2.2) (w1.setSlot (otherSlot c.z) fun _ => .at h.2.1 h.2.2))
        | _, _ => .ok (rest.foldl (fun w g => w.insertPend g.2.1 g.2.2) w1)

/-- The warp after BRX: the count, the indices, the entries, then the places. -/
def Ctx.tableWarp (c : Ctx) (f : Fields) (p : Phys) (y : Sys) (e : LaneMask) : Except TrapInfo Warp :=
  c.tableCount f p y e >>= fun n =>
    if e.lanes.any fun l => decide (n ≤ c.tableIndex f l) then .error (c.tableFault f e)
    else e.lanes.mapM (c.tableEntry f p y e) >>= fun xs => c.placeGroups p y e (branchGroups xs)

theorem exec_brx (f : Fields) (s : State) :
    exec (.brx f) s = controlOp .brx f s (branchTableRead f) fun p y c e => c.tableWarp f p y e := by
  show execBrx f s = _
  unfold execBrx
  congr 1
  funext p y c e
  dsimp only [Ctx.tableWarp, Ctx.tableCount]
  cases codeWord p y c.b (c.target f) with
  | none => rfl
  | some h =>
    dsimp only
    generalize (natBits h.toNat 31 16 != 0 || natBits h.toNat 15 0 == 0 || decide (1024 < natBits h.toNat 15 0)) = bad
    cases bad <;> rfl

/-! ## The table (R102) -/

/-- The first word of a table breaks R102, or a lane's index is outside the table. -/
def Ctx.BadTable (c : Ctx) (f : Fields) (h : Word) : Prop :=
  h.extractLsb' 16 16 ≠ 0 ∨ (h.extractLsb' 0 16).toNat = 0 ∨ 1024 < (h.extractLsb' 0 16).toNat ∨
    ∃ l, Active c f l ∧ (h.extractLsb' 0 16).toNat ≤ c.tableIndex f l

theorem mem_lanes {e : LaneMask} {l : Nat} : l ∈ e.lanes ↔ l < 64 ∧ e.getLsbD l = true := by
  simp [LaneMask.lanes, allLanes]

theorem natBits_low_half (w : Word) : natBits w.toNat 15 0 = (w.extractLsb' 0 16).toNat := by
  simp [natBits]

theorem natBits_high_half_bne (w : Word) : (natBits w.toNat 31 16 != 0) = (w.extractLsb' 16 16 != 0) := by
  rw [natBits_high_half, Bool.eq_iff_iff]
  simp [BitVec.toNat_eq, -BitVec.extractLsb'_toNat]

theorem any_lanes_iff (c : Ctx) (f : Fields) (n : Nat) :
    ((c.active f.guard).lanes.any fun l => decide (n ≤ c.tableIndex f l)) = true ↔ ∃ l, Active c f l ∧ n ≤ c.tableIndex f l := by
  simp [mem_lanes, Active]

theorem mapM_eq_ok {α β : Type} {g : α → Except TrapInfo β} {k : α → β} {xs : List α} (h : ∀ x ∈ xs, g x = .ok (k x)) :
    xs.mapM g = .ok (xs.map k) := by
  induction xs with
  | nil => rfl
  | cons x xs ih =>
    rw [List.mapM_cons, h x List.mem_cons_self, ih fun y hy => h y (List.mem_cons_of_mem _ hy)]
    rfl

/-- The check of a table as the model writes it. -/
theorem Ctx.badTable_iff {h : Word} :
    (natBits h.toNat 31 16 != 0 || natBits h.toNat 15 0 == 0 || decide (1024 < natBits h.toNat 15 0) ||
      ((c.active f.guard).lanes.map fun l => (c.w.elem f.a.toNat l).toNat).any fun i => decide (natBits h.toNat 15 0 ≤ i)) = true ↔ c.BadTable f h := by
  rw [natBits_high_half_bne, natBits_low_half, List.any_map, Bool.or_eq_true]
  rw [show ((fun i => decide ((h.extractLsb' 0 16).toNat ≤ i)) ∘ fun l => (c.w.elem f.a.toNat l).toNat) =
    fun l => decide ((h.extractLsb' 0 16).toNat ≤ c.tableIndex f l) from rfl, any_lanes_iff]
  simp [Ctx.BadTable, or_assoc, -BitVec.extractLsb'_toNat]

theorem Ctx.not_badTable {h : Word} (hhead : h.extractLsb' 16 16 = 0) (hzero : (h.extractLsb' 0 16).toNat ≠ 0)
    (hmax : (h.extractLsb' 0 16).toNat ≤ 1024) (hindex : ∀ l, Active c f l → c.tableIndex f l < (h.extractLsb' 0 16).toNat) :
    ¬ c.BadTable f h := by
  rintro (hb | hb | hb | ⟨l, hl, hb⟩)
  · exact hb hhead
  · exact hzero hb
  · exact absurd hmax hb.not_ge
  · exact absurd (hindex l hl) hb.not_gt

section

variable {h : Word} (hh : codeWord s.phys s.sys c.b (c.target f) = some h)

include hh

/-- The words of code that BRX reads can all be read, when those of a good table can. -/
theorem readable_branchTableRead
    (hgood : ¬ c.BadTable f h → ∀ l ∈ (c.active f.guard).lanes, ∃ o,
      codeWord s.phys s.sys c.b ((c.target f).plus (1 + c.tableIndex f l)) = some o ∧
      codeHeld s.phys s.sys c.b (c.target f + o.signExtend 50) = false) :
    Readable s c (branchTableRead f s.phys s.sys c (c.active f.guard)) := by
  dsimp only [branchTableRead]
  rw [hh]
  dsimp only
  by_cases hbad : c.BadTable f h
  · rw [if_pos (c.badTable_iff.mpr hbad)]
    exact readable_nil s c
  · rw [if_neg (mt c.badTable_iff.mp hbad)]
    intro t ht
    simp only [List.mem_append, List.mem_map, List.mem_filterMap, Option.map_eq_some_iff] at ht
    rcases ht with ⟨-, ⟨l, hl, rfl⟩, rfl⟩ | ⟨-, ⟨-, ⟨l, hl, rfl⟩, rfl⟩, o, ho, rfl⟩
    · obtain ⟨o, ho, -⟩ := hgood hbad l hl
      exact codeHeld_of_codeWord ho
    · obtain ⟨o', ho', hheld⟩ := hgood hbad l hl
      have heq : o' = o := Option.some.inj (ho'.symm.trans ho)
      rwa [← heq]

theorem Ctx.tableCount_eq (e : LaneMask) : c.tableCount f s.phys s.sys e =
    if h.extractLsb' 16 16 ≠ 0 ∨ (h.extractLsb' 0 16).toNat = 0 ∨ 1024 < (h.extractLsb' 0 16).toNat then .error (c.tableFault f e)
    else .ok (h.extractLsb' 0 16).toNat := by
  rw [Ctx.tableCount, hh]
  dsimp only
  rw [natBits_high_half_bne, natBits_low_half]
  simp only [Bool.or_eq_true, bne_iff_ne, beq_iff_eq, decide_eq_true_eq, or_assoc]

theorem Ctx.tableWarp_of_badTable (hbad : c.BadTable f h) :
    c.tableWarp f s.phys s.sys (c.active f.guard) = .error (c.tableFault f (c.active f.guard)) := by
  rw [Ctx.tableWarp, Ctx.tableCount_eq hh]
  split
  · rfl
  · next hcount =>
    have hindex : ∃ l, Active c f l ∧ (h.extractLsb' 0 16).toNat ≤ c.tableIndex f l := by
      rcases hbad with hb | hb | hb | hb
      · exact absurd (.inl hb) hcount
      · exact absurd (.inr (.inl hb)) hcount
      · exact absurd (.inr (.inr hb)) hcount
      · exact hb
    exact if_pos ((any_lanes_iff c f _).mpr hindex)

theorem exec_brx_of_badTable (hi : Issues .brx f s c) (hbad : c.BadTable f h) :
    exec (.brx f) s = raised s c (c.tableFault f (c.active f.guard)) := by
  rw [exec_brx]
  exact controlOp_error hi (readable_branchTableRead hh fun hgood => absurd hbad hgood) (Ctx.tableWarp_of_badTable hh hbad)

/-- Entries of the table that the active lanes name, their words read. -/
theorem Ctx.tableWarp_of_goodTable (hgood : ¬ c.BadTable f h) {o : Nat → Word}
    (ho : ∀ l ∈ (c.active f.guard).lanes, codeWord s.phys s.sys c.b ((c.target f).plus (1 + c.tableIndex f l)) = some (o l)) :
    c.tableWarp f s.phys s.sys (c.active f.guard) = c.placeGroups s.phys s.sys (c.active f.guard)
      (branchGroups ((c.active f.guard).lanes.map fun l => (l, c.tableIndex f l, c.target f + (o l).signExtend 50))) := by
  obtain ⟨hhead, hzero, hcount, hindex⟩ : h.extractLsb' 16 16 = 0 ∧ (h.extractLsb' 0 16).toNat ≠ 0 ∧ (h.extractLsb' 0 16).toNat ≤ 1024 ∧
      ¬ ∃ l, Active c f l ∧ (h.extractLsb' 0 16).toNat ≤ c.tableIndex f l := by
    simpa [Ctx.BadTable, not_or, -BitVec.extractLsb'_toNat] using hgood
  have hmap : (c.active f.guard).lanes.mapM (c.tableEntry f s.phys s.sys (c.active f.guard)) =
      .ok ((c.active f.guard).lanes.map fun l => (l, c.tableIndex f l, c.target f + (o l).signExtend 50)) :=
    mapM_eq_ok fun l hl => by rw [Ctx.tableEntry, ho l hl]
  rw [Ctx.tableWarp, Ctx.tableCount_eq hh, if_neg (by rintro (hc | hc | hc); exacts [hc hhead, hzero hc, absurd hcount hc.not_ge])]
  refine (if_neg (mt (any_lanes_iff c f _).mp hindex)).trans ?_
  rw [hmap]
  rfl

/-- BRX of a good table whose words can all be read, up to the places of its groups. -/
theorem exec_brx_of_goodTable (hi : Issues .brx f s c) (hgood : ¬ c.BadTable f h) {o : Nat → Word}
    (ho : ∀ l ∈ (c.active f.guard).lanes, codeWord s.phys s.sys c.b ((c.target f).plus (1 + c.tableIndex f l)) = some (o l))
    (hheld : ∀ l ∈ (c.active f.guard).lanes, codeHeld s.phys s.sys c.b (c.target f + (o l).signExtend 50) = false)
    {r : Except TrapInfo Warp} (hr : c.placeGroups s.phys s.sys (c.active f.guard)
      (branchGroups ((c.active f.guard).lanes.map fun l => (l, c.tableIndex f l, c.target f + (o l).signExtend 50))) = r) :
    (∀ w, r = .ok w → exec (.brx f) s = .next (movedOn s c w)) ∧ ∀ i, r = .error i → exec (.brx f) s = raised s c i := by
  have hread := readable_branchTableRead hh fun _ l hl => ⟨o l, ho l hl, hheld l hl⟩
  have hwarp := (Ctx.tableWarp_of_goodTable hh hgood ho).trans hr
  rw [exec_brx]
  exact ⟨fun w hw => controlOp_ok hi hread (hwarp.trans hw), fun i hi' => controlOp_error hi hread (hwarp.trans hi')⟩

end

/-! ## The groups of lanes (R102) -/

/-- A lane put into the group of its target. -/
def addToGroups (gs : List (Nat × Pc × LaneMask)) (x : Nat × Nat × Pc) : List (Nat × Pc × LaneMask) :=
  if gs.any fun g => g.2.1 == x.2.2 then
    gs.map fun g => if g.2.1 == x.2.2 then (min g.1 x.2.1, x.2.2, g.2.2 ||| LaneMask.ofLanes [x.1]) else g
  else gs ++ [(x.2.1, x.2.2, LaneMask.ofLanes [x.1])]

theorem branchGroups_eq (xs : List (Nat × Nat × Pc)) :
    branchGroups xs = sortBy (fun a b => decide (a.1 < b.1)) (xs.foldl addToGroups []) := rfl

/-- The group of some lanes, if there are any. -/
def groupOf (i : Nat) (t : Pc) (m : LaneMask) : List (Nat × Pc × LaneMask) := if m = 0 then [] else [(i, t, m)]

theorem getLsbD_ofLanes_singleton {l : Nat} (hl : l < 64) (j : Nat) : (LaneMask.ofLanes [l]).getLsbD j = decide (j = l) := by
  simp only [LaneMask.ofLanes, List.foldl_cons, List.foldl_nil, BitVec.zero_or]
  rw [BitVec.getLsbD_shiftLeft, BitVec.getLsbD_one]
  rw [Bool.eq_iff_iff]
  simp
  omega

theorem or_ofLanes_singleton_ne_zero (m : LaneMask) {l : Nat} (hl : l < 64) : m ||| LaneMask.ofLanes [l] ≠ 0 := by
  intro h
  have hbit := congrArg (fun x : BitVec 64 => x.getLsbD l) h
  simp [getLsbD_ofLanes_singleton hl] at hbit

section

variable {i i' : Nat} {t t' : Pc}

/-- Two groups, in the order in which their first lanes came. -/
def InEitherOrder (gs a b : List (Nat × Pc × LaneMask)) : Prop := gs = a ++ b ∨ gs = b ++ a

theorem InEitherOrder.symm {gs a b : List (Nat × Pc × LaneMask)} (h : InEitherOrder gs a b) : InEitherOrder gs b a := Or.symm h

theorem groupOf_zero (i : Nat) (t : Pc) : groupOf i t 0 = [] := if_pos rfl

theorem groupOf_of_ne_zero (i : Nat) (t : Pc) {m : LaneMask} (h : m ≠ 0) : groupOf i t m = [(i, t, m)] := if_neg h

/-- A lane joins the group of its target, or begins it behind the other one. -/
theorem addToGroups_of_inEitherOrder (ht : t ≠ t') {m m' : LaneMask} {gs : List (Nat × Pc × LaneMask)} {l : Nat} (hl : l < 64)
    (h : InEitherOrder gs (groupOf i t m) (groupOf i' t' m')) :
    InEitherOrder (addToGroups gs (l, i, t)) (groupOf i t (m ||| LaneMask.ofLanes [l])) (groupOf i' t' m') := by
  rw [groupOf_of_ne_zero i t (or_ofLanes_singleton_ne_zero m hl)]
  by_cases hm' : m' = 0
  · subst hm'
    rw [groupOf_zero] at *
    have hgs : gs = groupOf i t m := by simpa [InEitherOrder] using h
    by_cases hm : m = 0
    · subst hm
      rw [groupOf_zero] at hgs
      simp [InEitherOrder, hgs, addToGroups]
    · simp [InEitherOrder, hgs, groupOf_of_ne_zero i t hm, addToGroups]
  · rw [groupOf_of_ne_zero i' t' hm'] at *
    by_cases hm : m = 0
    · subst hm
      rw [groupOf_zero] at h
      have hgs : gs = [(i', t', m')] := by simpa [InEitherOrder] using h
      simp [InEitherOrder, hgs, addToGroups, ht.symm]
    · rw [groupOf_of_ne_zero i t hm] at h
      rcases h with rfl | rfl <;> simp [InEitherOrder, addToGroups, ht.symm]

/-- The groups of lanes that go to one of two targets, by the lanes seen so far. -/
theorem foldl_addToGroups (ht : t ≠ t') (m : LaneMask) (ls : List Nat) (hls : ∀ l ∈ ls, l < 64) : ∃ q q' : LaneMask,
    InEitherOrder ((ls.map fun l => if m.getLsbD l then (l, i, t) else (l, i', t')).foldl addToGroups []) (groupOf i t q) (groupOf i' t' q') ∧
    ∀ l, l < 64 → (q.getLsbD l = true ↔ l ∈ ls ∧ m.getLsbD l = true) ∧ (q'.getLsbD l = true ↔ l ∈ ls ∧ m.getLsbD l = false) := by
  induction ls using List.reverseRecOn with
  | nil => exact ⟨0, 0, Or.inl rfl, by simp⟩
  | append_singleton ls k ih =>
    obtain ⟨q, q', hgs, hq⟩ := ih fun l hl => hls l (List.mem_append_left _ hl)
    have hk : k < 64 := hls k (by simp)
    rw [List.map_append, List.foldl_append, List.map_singleton, List.foldl_cons, List.foldl_nil]
    cases hm : m.getLsbD k
    · refine ⟨q, q' ||| LaneMask.ofLanes [k], (addToGroups_of_inEitherOrder ht.symm hk hgs.symm).symm, fun l hl => ?_⟩
      rw [(hq l hl).1, BitVec.getLsbD_or, Bool.or_eq_true, (hq l hl).2, getLsbD_ofLanes_singleton hk]
      by_cases hlk : l = k <;> simp [hlk, hm]
    · refine ⟨q ||| LaneMask.ofLanes [k], q', addToGroups_of_inEitherOrder ht hk hgs, fun l hl => ?_⟩
      rw [(hq l hl).2, BitVec.getLsbD_or, Bool.or_eq_true, (hq l hl).1, getLsbD_ofLanes_singleton hk]
      by_cases hlk : l = k <;> simp [hlk, hm]

/-- Sorting by index puts the group of the lesser index first. -/
theorem sortBy_inEitherOrder (hi : i < i') {m m' : LaneMask} {gs : List (Nat × Pc × LaneMask)}
    (h : InEitherOrder gs (groupOf i t m) (groupOf i' t' m')) :
    sortBy (fun a b => decide (a.1 < b.1)) gs = groupOf i t m ++ groupOf i' t' m' := by
  unfold InEitherOrder groupOf at h
  unfold groupOf
  split_ifs at h ⊢ <;> rcases h with rfl | rfl <;> simp [sortBy, insertBy, hi, hi.le]

/-- The groups of the lanes `e`, where those in `m` go to one target and the others to another of a greater index. -/
theorem branchGroups_two (hi : i < i') (ht : t ≠ t') {m m' e : LaneMask} (hdisj : m &&& m' = 0) (hunion : m ||| m' = e) :
    branchGroups (e.lanes.map fun l => if m.getLsbD l then (l, i, t) else (l, i', t')) = groupOf i t m ++ groupOf i' t' m' := by
  obtain ⟨q, q', hgs, hq⟩ := foldl_addToGroups (i := i) (i' := i') ht m e.lanes fun l hl => (mem_lanes.mp hl).1
  have hbits : ∀ l, l < 64 → (m.getLsbD l && m'.getLsbD l) = false ∧ e.getLsbD l = (m.getLsbD l || m'.getLsbD l) := fun l hl => by
    rw [← BitVec.getLsbD_and, hdisj, ← hunion, BitVec.getLsbD_or]
    exact ⟨BitVec.getLsbD_zero, rfl⟩
  have hqm : q = m := by
    apply BitVec.eq_of_getLsbD_eq
    intro l hl
    obtain ⟨hd, hu⟩ := hbits l hl
    rw [Bool.eq_iff_iff, (hq l hl).1, mem_lanes, hu]
    simp [hl]
    intro h
    exact .inl h
  have hqm' : q' = m' := by
    apply BitVec.eq_of_getLsbD_eq
    intro l hl
    obtain ⟨hd, hu⟩ := hbits l hl
    rw [Bool.eq_iff_iff, (hq l hl).2, mem_lanes, hu]
    cases hm : m.getLsbD l <;> simp_all
  rw [branchGroups_eq, sortBy_inEitherOrder hi hgs, hqm, hqm']

end

/-! ## The places of the groups (R102) -/

theorem Ctx.placeGroups_nil (c : Ctx) (e : LaneMask) : c.placeGroups s.phys s.sys e [] = .ok (atHeader c.w c.z (nextPc s c) c.slot.mask) := by
  rw [← c.goto_eq, Ctx.placeGroups]
  cases (c.w.slot (otherSlot c.z)).valid <;> rfl

theorem Ctx.placeGroups_of_bad_target {t : Pc} (h : ¬ IsHeader s c t) (e : LaneMask) (i : Nat) (m : LaneMask) :
    c.placeGroups s.phys s.sys e [(i, t, m)] = .error { cause := .illegalTarget, resume := e, addr := 4 * t.toNat } := by
  simp only [Ctx.placeGroups, List.find?_cons, targetOk_eq_false h]
  rfl

theorem Ctx.placeGroups_one {t : Pc} (h : IsHeader s c t) (e : LaneMask) (i : Nat) (m : LaneMask) :
    c.placeGroups s.phys s.sys e [(i, t, m)] = .ok (atHeader c.w c.z t m) := by
  simp only [Ctx.placeGroups, List.find?_cons, targetOk_iff.mpr h]
  cases (c.w.slot (otherSlot c.z)).valid <;> rfl

theorem Ctx.placeGroups_two {t t' : Pc} (h : IsHeader s c t) (h' : IsHeader s c t') (hfree : (c.w.slot (otherSlot c.z)).valid = false)
    (e : LaneMask) (i i' : Nat) (m m' : LaneMask) :
    c.placeGroups s.phys s.sys e [(i, t, m), (i', t', m')] = .ok (startsAt (atHeader c.w c.z t m) (otherSlot c.z) t' m') := by
  simp only [Ctx.placeGroups, List.find?_cons, targetOk_iff.mpr h, targetOk_iff.mpr h', hfree]
  rfl

theorem signExtend_injective {a b : Word} (h : a.signExtend 50 = b.signExtend 50) : a = b := by
  apply BitVec.eq_of_toInt_eq
  rw [← BitVec.toInt_signExtend_of_le (v := 50) (by decide), h, BitVec.toInt_signExtend_of_le (by decide)]

/-! ## The claims about BRX -/

/-- BRX of a good table in which the lanes `m` name one target and the lanes `m'` another of a greater index. -/
theorem exec_brx_of_two {h : Word} (hh : codeWord s.phys s.sys c.b (c.target f) = some h) (hi : Issues .brx f s c)
    (hgood : ¬ c.BadTable f h) {m m' : LaneMask} {i i' : Nat} {o o' : Word} (hdisj : m &&& m' = 0)
    (hunion : m ||| m' = c.active f.guard) (hlt : i < i') (hne : o ≠ o')
    (hlanes : ∀ l, l < 64 → (m.getLsbD l = true → c.tableIndex f l = i) ∧ (m'.getLsbD l = true → c.tableIndex f l = i'))
    (ho : m ≠ 0 → codeWord s.phys s.sys c.b ((c.target f).plus (1 + i)) = some o ∧ codeHeld s.phys s.sys c.b (c.target f + o.signExtend 50) = false)
    (ho' : m' ≠ 0 → codeWord s.phys s.sys c.b ((c.target f).plus (1 + i')) = some o' ∧ codeHeld s.phys s.sys c.b (c.target f + o'.signExtend 50) = false)
    {r : Except TrapInfo Warp} (hr : c.placeGroups s.phys s.sys (c.active f.guard)
      (groupOf i (c.target f + o.signExtend 50) m ++ groupOf i' (c.target f + o'.signExtend 50) m') = r) :
    (∀ w, r = .ok w → exec (.brx f) s = .next (movedOn s c w)) ∧ ∀ x, r = .error x → exec (.brx f) s = raised s c x := by
  have hentry : ∀ l ∈ (c.active f.guard).lanes,
      (m.getLsbD l = true ∧ c.tableIndex f l = i ∧ m ≠ 0) ∨ (m.getLsbD l = false ∧ c.tableIndex f l = i' ∧ m' ≠ 0) := by
    intro l hl
    obtain ⟨hl64, hle⟩ := mem_lanes.mp hl
    rw [← hunion, BitVec.getLsbD_or, Bool.or_eq_true] at hle
    cases hm : m.getLsbD l
    · have hm' : m'.getLsbD l = true := by simpa [hm] using hle
      exact .inr ⟨rfl, (hlanes l hl64).2 hm', fun h0 => by simp [h0] at hm'⟩
    · exact .inl ⟨rfl, (hlanes l hl64).1 hm, fun h0 => by simp [h0] at hm⟩
  have hgroups : branchGroups ((c.active f.guard).lanes.map fun l =>
      (l, c.tableIndex f l, c.target f + (if m.getLsbD l then o else o').signExtend 50)) =
      groupOf i (c.target f + o.signExtend 50) m ++ groupOf i' (c.target f + o'.signExtend 50) m' := by
    have htargets : c.target f + o.signExtend 50 ≠ c.target f + o'.signExtend 50 := fun h0 =>
      hne (signExtend_injective ((BitVec.add_right_inj _).mp h0))
    rw [← branchGroups_two hlt htargets hdisj hunion]
    refine congrArg branchGroups (List.map_congr_left fun l hl => ?_)
    rcases hentry l hl with ⟨hm, hx, -⟩ | ⟨hm, hx, -⟩ <;> simp [hm, hx]
  rw [← hgroups] at hr
  refine exec_brx_of_goodTable hh hi hgood (fun l hl => ?_) (fun l hl => ?_) hr <;>
    rcases hentry l hl with ⟨hm, hx, hm0⟩ | ⟨hm, hx, hm0⟩
  · simpa [hm, hx] using (ho hm0).1
  · simpa [hm, hx] using (ho' hm0).1
  · simpa [hm] using (ho hm0).2
  · simpa [hm] using (ho' hm0).2

/-- R102: a bad table traps; otherwise the lanes go to the places of their groups. -/
theorem branchTables : BranchTables := by
  intro s f c h hi e t n index hh
  rw [show t = c.target f from (c.target_eq f).symm] at *
  refine ⟨fun hbad => ?_, fun hhead hn hmax he => ?_, fun hhead hn hmax hindex m m' i i' o o' hm hdisj hunion hlt hne hlanes hto hto' ht ht' => ?_⟩
  · exact exec_brx_of_badTable hh hi hbad
  · have hgood : ¬ c.BadTable f h := c.not_badTable hhead hn hmax fun l hl => by simp [Active, show c.active f.guard = 0 from he] at hl
    have hlanes : (c.active f.guard).lanes = [] := by
      rw [show c.active f.guard = 0 from he]
      rfl
    refine (exec_brx_of_goodTable hh hi hgood (o := fun _ => 0) ?_ ?_ rfl).1 _ ?_ <;> rw [hlanes]
    · simp
    · simp
    · exact c.placeGroups_nil _
  · have hbrx := exec_brx_of_two hh hi (c.not_badTable hhead hn hmax hindex) hdisj hunion hlt hne hlanes
      (fun _ => ⟨hto, codeHeld_of_isHeader ht⟩) (fun _ => ⟨hto', codeHeld_of_isHeader ht'⟩) rfl
    rw [groupOf_of_ne_zero _ _ hm] at hbrx
    refine ⟨fun hm' => hbrx.1 _ ?_, fun hm' hfree => hbrx.1 _ ?_⟩
    · rw [hm', groupOf_zero]
      exact c.placeGroups_one ht _ _ _
    · rw [groupOf_of_ne_zero _ _ hm']
      exact c.placeGroups_two ht ht' hfree _ _ _ _ _

/-- BRX whose active lanes all name one target that is no header. -/
theorem exec_brx_of_noHeader {h o : Word} {i : Nat} (hh : codeWord s.phys s.sys c.b (c.target f) = some h) (hi : Issues .brx f s c)
    (hgood : ¬ c.BadTable f h) (he : c.active f.guard ≠ 0) (hlanes : ∀ l, Active c f l → c.tableIndex f l = i)
    (ho : codeWord s.phys s.sys c.b ((c.target f).plus (1 + i)) = some o) (ht : NoHeader s c (c.target f + o.signExtend 50)) :
    exec (.brx f) s = raised s c { cause := .illegalTarget, resume := c.active f.guard, addr := 4 * (c.target f + o.signExtend 50).toNat } := by
  refine (exec_brx_of_two (m := c.active f.guard) (m' := 0) (o' := ~~~o) hh hi hgood (BitVec.and_zero) (BitVec.or_zero) (Nat.lt_succ_self i) ?_
    (fun l hl => ⟨fun ha => hlanes l ⟨hl, ha⟩, fun h0 => ?_⟩) (fun _ => ⟨ho, ht.2⟩) (fun h0 => absurd rfl h0) rfl).2 _ ?_
  · exact fun h0 => by simpa using congrArg (fun x : Word => x.getLsbD 0) h0
  · simp at h0
  · rw [groupOf_zero, groupOf_of_ne_zero _ _ he]
    exact c.placeGroups_of_bad_target ht.1 _ _ _

/-- R66, R97, R103: the word at the target is looked at before anything else. -/
theorem branchTargets : BranchTargets := by
  intro s f c bad v t
  refine ⟨fun x hx hi ht => ?_, fun hi => ⟨fun hv => exec_ret_of_noPc hi ((noPc_iff v).mpr hv), fun u hu h => exec_ret_of_noHeader hi hu h⟩,
    fun hi h o i hh hhead hin hmax he hlanes ho ht => ?_⟩
  · simp only [List.mem_cons, List.not_mem_nil, or_false] at hx
    obtain rfl | rfl | rfl | rfl := hx
    · rw [exec_bra]
      exact branchOp_noHeader hi ht
    · rw [exec_brc]
      exact branchOp_noHeader hi ht
    · rw [exec_call]
      exact branchOp_noHeader hi ht
    · rw [exec_cont]
      exact leavingBranchOp_noHeader hi ht
  · rw [show t = c.target f from (c.target_eq f).symm] at *
    refine exec_brx_of_noHeader hh hi (c.not_badTable hhead (by omega) hmax fun l hl => ?_) he hlanes ho ht
    rwa [show c.tableIndex f l = i from hlanes l hl]

/-- Settles O17, by its three parts. -/
theorem branches : Obligations.Branches := ⟨branchesAndCalls, branchTargets, branchTables⟩

end Sys2Proof.Machine
end

section
/-! PROOFS. The reconvergence stack (R98, R99): the lanes that are held, the entries above the topmost TRAP pair, and what settling leaves. -/

namespace Sys2Proof.Machine

open Sys2Proof.Claims

variable {w : Warp}

/-! ## Lists by position -/

section

variable {α : Type} {p : α → Bool} {xs ys : List α} {y : α}

theorem find_zipIdx_eq_none_iff : (xs.zipIdx.find? fun x => p x.1) = none ↔ ∀ x ∈ xs, p x = false := by
  rw [List.find?_eq_none]
  constructor
  · intro h x hx
    obtain ⟨i, hi⟩ := List.getElem?_of_mem hx
    simpa using h (x, i) (List.mem_zipIdx_iff_getElem?.mpr hi)
  · intro h x hx
    simp [h x.1 (List.fst_mem_of_mem_zipIdx hx)]

theorem find_zipIdx_append_cons (h : ∀ x ∈ xs, p x = false) (hy : p y = true) :
    ((xs ++ y :: ys).zipIdx.find? fun x => p x.1) = some (y, xs.length) := by
  rw [List.zipIdx_append, List.find?_append, find_zipIdx_eq_none_iff.mpr h]
  simp [hy]

theorem eq_append_of_find_zipIdx {i : Nat} (h : (xs.zipIdx.find? fun x => p x.1) = some (y, i)) :
    ∃ as bs, xs = as ++ y :: bs ∧ i = as.length ∧ p y = true ∧ ∀ a ∈ as, p a = false := by
  obtain ⟨hp, as, bs, hzip, has⟩ := List.find?_eq_some_iff_append.mp h
  have hfst : xs = as.map Prod.fst ++ y :: bs.map Prod.fst := by
    rw [← List.zipIdx_map_fst 0 xs, hzip]
    simp
  have hlen : i = as.length := by
    have hi := congrArg (fun l : List (α × Nat) => l[as.length]?) hzip
    simp [List.getElem?_zipIdx] at hi
    exact hi.2.symm
  refine ⟨as.map Prod.fst, bs.map Prod.fst, hfst, by simpa using hlen, hp, fun a ha => ?_⟩
  obtain ⟨x, hx, rfl⟩ := List.mem_map.mp ha
  simpa using has x hx

end

/-! ## Masks and the lanes that are held -/

theorem and_eq_zero_iff {a b : LaneMask} : a &&& b = 0 ↔ ∀ l, a.getLsbD l = true → b.getLsbD l = false := by
  have hzero : ∀ l, (0 : LaneMask).getLsbD l = false := fun l => BitVec.getLsbD_zero
  simp only [BitVec.eq_of_getLsbD_eq_iff, BitVec.getLsbD_and, hzero, Bool.and_eq_false_imp]
  exact ⟨fun h l ha => h l (BitVec.lt_of_getLsbD ha) ha, fun h l _ => h l⟩

theorem getLsbD_foldl_pends (rs : List RsEntry) (h : LaneMask) (l : Nat) :
    (rs.foldl (fun m e => if e.isPend then m ||| e.mask else m) h).getLsbD l = true ↔
      h.getLsbD l = true ∨ ∃ pc m, RsEntry.pend pc m ∈ rs ∧ m.getLsbD l = true := by
  induction rs generalizing h with
  | nil => simp
  | cons x rs ih =>
    rw [List.foldl_cons, ih]
    cases x <;> simp [RsEntry.isPend, RsEntry.mask, or_assoc, or_and_right, exists_or]

theorem Warp.getLsbD_held {l : Nat} : w.held.getLsbD l = true ↔ Held w l := by
  rw [Warp.held, getLsbD_foldl_pends, Held, ← or_assoc]
  refine or_congr ?_ Iff.rfl
  rw [BitVec.getLsbD_or, Bool.or_eq_true]
  refine or_congr ?_ ?_ <;>
    · dsimp only
      split <;> simp_all

theorem held_iff_slot {l : Nat} : Held w l ↔ (∃ z, (w.slot z).valid = true ∧ (w.slot z).mask.getLsbD l = true) ∨
    ∃ pc m, RsEntry.pend pc m ∈ w.rs ∧ m.getLsbD l = true := by
  rw [Held, ← or_assoc]
  refine or_congr ⟨fun h => ?_, fun ⟨z, hz⟩ => ?_⟩ Iff.rfl
  · exact h.elim (fun h => ⟨.A, h⟩) fun h => ⟨.B, h⟩
  · cases z
    · exact .inl hz
    · exact .inr hz

theorem Warp.and_held_eq_zero_iff {m : LaneMask} : m &&& w.held = 0 ↔ ∀ l, m.getLsbD l = true → ¬ Held w l := by
  simp only [and_eq_zero_iff, ← Warp.getLsbD_held, Bool.not_eq_true]

/-! ## The stack replaced (R24, R244) -/

@[simp] theorem Warp.withRs_rs (w : Warp) (rs : List RsEntry) : (w.withRs rs).rs = rs := rfl
@[simp] theorem Warp.withRs_slot (w : Warp) (rs : List RsEntry) (z : SlotId) : (w.withRs rs).slot z = w.slot z := by cases z <;> rfl
@[simp] theorem Warp.mapRs_rs (w : Warp) (g : List RsEntry → List RsEntry) : (w.mapRs g).rs = (g w.rs.reverse).reverse := rfl
@[simp] theorem Warp.mapRs_slot (w : Warp) (g : List RsEntry → List RsEntry) (z : SlotId) : (w.mapRs g).slot z = w.slot z := by cases z <;> rfl

theorem Warp.mapRs_setSlot (w : Warp) (g : List RsEntry → List RsEntry) (z : SlotId) (k : PcSlot → PcSlot) :
    (w.setSlot z k).mapRs g = (w.mapRs g).setSlot z k := by
  cases z <;> rfl

/-- R24, R244 (d): a position keeps its poison exactly when it stays, with the same contents. -/
theorem stackReplaced : StackReplaced := by
  intro w rs k
  refine ⟨rfl, ?_⟩
  simp only [Warp.withRs, NatSet.has, List.any_filter, List.any_eq_true, Bool.and_eq_true, decide_eq_true_eq, beq_iff_eq]
  constructor
  · rintro ⟨j, hj, ⟨hlen, heq⟩, rfl⟩
    exact ⟨⟨j, hj, rfl⟩, hlen, heq⟩
  · rintro ⟨⟨j, hj, rfl⟩, hlen, heq⟩
    exact ⟨j, hj, ⟨hlen, heq⟩, rfl⟩

/-! ## The entries above the topmost TRAP pair -/

theorem Warp.aboveTrap_eq {below above : List RsEntry} (h : w.rs = below ++ above) (ha : ∀ x ∈ above, x.isTrap = false) :
    w.aboveTrap = above.reverse ++ below.reverse.takeWhile fun e => !e.isTrap := by
  rw [Warp.aboveTrap, h, List.reverse_append, List.takeWhile_append_of_pos (by simpa using ha)]

/-! ## A slot filled from the stack (R99) -/

/-- A slot that is filled: it is taken already, or the stack has no pending work above its topmost TRAP pair, or it starts the topmost. -/
theorem Warp.fillSlot_cases (w : Warp) (z : SlotId) :
    (w.fillSlot z = w ∧ ((w.slot z).valid = true ∨ ∀ x ∈ w.aboveTrap, x.isPend = false)) ∨
    ((w.slot z).valid = false ∧ ∃ below pc m above, w.rs = below ++ .pend pc m :: above ∧ RsEntry.pend pc m ∈ w.aboveTrap ∧
      w.fillSlot z = startsAt (w.withRs (below ++ above)) z pc m) := by
  unfold Warp.fillSlot
  by_cases hv : (w.slot z).valid = true
  · rw [if_pos hv]
    exact .inl ⟨rfl, .inl hv⟩
  rw [if_neg hv]
  cases hfind : w.aboveTrap.zipIdx.find? fun x => x.1.isPend with
  | none => exact .inl ⟨rfl, .inr (find_zipIdx_eq_none_iff.mp hfind)⟩
  | some x =>
    obtain ⟨x, i⟩ := x
    obtain ⟨as, bs, habove, rfl, hx, -⟩ := eq_append_of_find_zipIdx hfind
    obtain ⟨pc, m, rfl⟩ := RsEntry.isPend_iff.mp hx
    obtain ⟨below, hrev⟩ : ∃ below, w.rs.reverse = as ++ .pend pc m :: below := by
      have hsplit : w.aboveTrap ++ (w.rs.reverse.dropWhile fun e => !e.isTrap) = w.rs.reverse := List.takeWhile_append_dropWhile
      rw [habove, List.append_assoc] at hsplit
      exact ⟨_, hsplit.symm⟩
    refine .inr ⟨by simpa using hv, below.reverse, pc, m, as.reverse, ?_, by simp [habove], ?_⟩
    · rw [← w.rs.reverse_reverse, hrev]
      simp
    · dsimp only [Warp.mapRs]
      rw [hrev, List.eraseIdx_append_of_length_le le_rfl]
      simp [startsAt, PcSlot.at]

section

variable (w) (z : SlotId)

theorem Warp.mem_rs_of_mem_fillSlot {x : RsEntry} (hx : x ∈ (w.fillSlot z).rs) : x ∈ w.rs := by
  obtain ⟨h, -⟩ | ⟨-, below, pc, m, above, hrs, -, h⟩ := w.fillSlot_cases z <;> rw [h] at hx
  · exact hx
  · rw [hrs]
    simp only [startsAt, Warp.setSlot_rs, Warp.withRs_rs, List.mem_append, List.mem_cons] at hx ⊢
    tauto

theorem Warp.fillSlot_slot_of_valid {y : SlotId} (hy : (w.slot y).valid = true) : (w.fillSlot z).slot y = w.slot y := by
  obtain ⟨h, -⟩ | ⟨hz, below, pc, m, above, -, -, h⟩ := w.fillSlot_cases z
  · rw [h]
  · have hne : y ≠ z := fun h => by simp [← h, hy] at hz
    rw [h]
    have hother : y = otherSlot z := by cases y <;> cases z <;> simp_all [otherSlot]
    rw [hother, startsAt, Warp.slot_setSlot_other, Warp.withRs_slot]

theorem Warp.fillSlot_slot_other : (w.fillSlot z).slot (otherSlot z) = w.slot (otherSlot z) := by
  obtain ⟨h, -⟩ | ⟨-, below, pc, m, above, -, -, h⟩ := w.fillSlot_cases z
  · rw [h]
  · rw [h, startsAt, Warp.slot_setSlot_other, Warp.withRs_slot]

/-- A slot that stays free has found no pending work. -/
theorem Warp.fillSlot_of_free (hz : ((w.fillSlot z).slot z).valid = false) : w.fillSlot z = w ∧ ∀ x ∈ w.aboveTrap, x.isPend = false := by
  obtain ⟨h, hv | hnone⟩ | ⟨-, below, pc, m, above, -, -, h⟩ := w.fillSlot_cases z
  · rw [h, hv] at hz
    cases hz
  · exact ⟨h, hnone⟩
  · rw [h, startsAt, Warp.slot_setSlot_same] at hz
    cases hz

/-- Without pending work no slot is filled. -/
theorem Warp.fillSlot_eq_self (h : ∀ x ∈ w.aboveTrap, x.isPend = false) : w.fillSlot z = w := by
  obtain ⟨hfill, -⟩ | ⟨-, below, pc, m, above, -, hmem, -⟩ := w.fillSlot_cases z
  · exact hfill
  · cases h _ hmem

theorem held_fillSlot {l : Nat} (h : Held w l) : Held (w.fillSlot z) l := by
  obtain ⟨hfill, -⟩ | ⟨hz, below, pc, m, above, hrs, -, hfill⟩ := w.fillSlot_cases z
  · rwa [hfill]
  rw [held_iff_slot] at h ⊢
  obtain ⟨y, hy, hl⟩ | ⟨pc', m', hmem, hl⟩ := h
  · exact .inl ⟨y, by rw [w.fillSlot_slot_of_valid z hy]; exact ⟨hy, hl⟩⟩
  · rw [hrs, List.mem_append, List.mem_cons] at hmem
    rw [hfill]
    by_cases heq : RsEntry.pend pc' m' = .pend pc m
    · cases heq
      exact .inl ⟨z, by simp [startsAt, hl]⟩
    · refine .inr ⟨pc', m', ?_, hl⟩
      simp only [startsAt, Warp.setSlot_rs, Warp.withRs_rs, List.mem_append]
      tauto

end

/-! ## Entries whose lanes are gone (R99) -/

/-- The first entry becomes pending work when none of its lanes is held, and stays otherwise. -/
theorem resolve_cons (h : LaneMask) (y : RsEntry) (rs : List RsEntry) :
    (∃ pc m, (y = .join pc m ∨ y = .loop pc m) ∧ resolve h (y :: rs) = .pend pc m :: resolve (h ||| m) rs) ∨
    (resolve h (y :: rs) = y :: resolve h rs ∧ ∀ pc m, y = .join pc m ∨ y = .loop pc m → m &&& h ≠ 0) := by
  cases y with
  | join pc m | loop pc m =>
    rw [resolve]
    split
    · exact .inl ⟨pc, m, by simp, rfl⟩
    · next hne => exact .inr ⟨rfl, by simpa using hne⟩
  | pend | trap => exact .inr ⟨rfl, by simp⟩

theorem mem_resolve_mask {x : RsEntry} {rs : List RsEntry} (h : LaneMask) (hx : x ∈ resolve h rs) : ∃ y ∈ rs, y.mask = x.mask := by
  induction rs generalizing h with
  | nil => cases hx
  | cons y rs ih =>
    have hrest : ∀ h', x ∈ resolve h' rs → ∃ z ∈ y :: rs, z.mask = x.mask := fun h' hx' =>
      let ⟨z, hz, hm⟩ := ih h' hx'
      ⟨z, List.mem_cons_of_mem _ hz, hm⟩
    obtain ⟨pc, m, hy, hcons⟩ | ⟨hcons, -⟩ := resolve_cons h y rs <;> rw [hcons, List.mem_cons] at hx
    · rcases hx with rfl | hx
      · exact ⟨y, List.mem_cons_self, by rcases hy with rfl | rfl <;> rfl⟩
      · exact hrest _ hx
    · rcases hx with rfl | hx
      · exact ⟨x, List.mem_cons_self, rfl⟩
      · exact hrest _ hx

theorem pend_mem_resolve {pc : Pc} {m : LaneMask} {rs : List RsEntry} (h : LaneMask) (hx : RsEntry.pend pc m ∈ rs) :
    RsEntry.pend pc m ∈ resolve h rs := by
  induction rs generalizing h with
  | nil => cases hx
  | cons y rs ih =>
    obtain ⟨pc', m', hy, hcons⟩ | ⟨hcons, -⟩ := resolve_cons h y rs <;> rw [hcons, List.mem_cons]
    · rcases List.mem_cons.mp hx with rfl | hx
      · rcases hy with hy | hy <;> cases hy
      · exact .inr (ih _ hx)
    · exact (List.mem_cons.mp hx).imp id (ih h)

/-- A JOIN or LOOP that stays has a lane that was held before, or that pending work holds now. -/
theorem resolve_keeps_held {x : RsEntry} {pc : Pc} {m : LaneMask} (hx : x = .join pc m ∨ x = .loop pc m) {rs : List RsEntry} (h : LaneMask)
    (hmem : x ∈ resolve h rs) :
    ∃ l, m.getLsbD l = true ∧ (h.getLsbD l = true ∨ ∃ pc' m', RsEntry.pend pc' m' ∈ resolve h rs ∧ m'.getLsbD l = true) := by
  induction rs generalizing h with
  | nil => cases hmem
  | cons y rs ih =>
    obtain ⟨pc₁, m₁, hy, hcons⟩ | ⟨hcons, hkeep⟩ := resolve_cons h y rs <;> rw [hcons] at hmem ⊢
    · obtain ⟨l, hl, hheld⟩ := ih _ ((List.mem_cons.mp hmem).resolve_left fun heq => by rcases hx with rfl | rfl <;> cases heq)
      rw [BitVec.getLsbD_or, Bool.or_eq_true, or_assoc] at hheld
      refine ⟨l, hl, hheld.imp id ?_⟩
      rintro (hl' | ⟨pc', m', hp, hl'⟩)
      · exact ⟨pc₁, m₁, List.mem_cons_self, hl'⟩
      · exact ⟨pc', m', List.mem_cons_of_mem _ hp, hl'⟩
    · rcases List.mem_cons.mp hmem with rfl | hmem
      · have hheld : ¬ ∀ l, m.getLsbD l = true → h.getLsbD l = false := mt and_eq_zero_iff.mpr (hkeep pc m hx)
        push Not at hheld
        obtain ⟨l, hl, hh⟩ := hheld
        exact ⟨l, hl, .inl (by simpa using hh)⟩
      · obtain ⟨l, hl, hheld⟩ := ih h hmem
        exact ⟨l, hl, hheld.imp id fun ⟨pc', m', hp, hl'⟩ => ⟨pc', m', List.mem_cons_of_mem _ hp, hl'⟩⟩

/-! ## Settling (R99) -/

/-- The first step of settling: the empty entries are gone. -/
def Warp.dropEmpty (w : Warp) : Warp := w.withRs (w.rs.filter fun e => e.mask != 0)

/-- The second step: entries whose lanes are gone have become pending work. -/
def Warp.resolved (w : Warp) : Warp := w.dropEmpty.mapRs (resolve w.dropEmpty.held)

theorem Warp.settle_eq (w : Warp) : w.settle = (w.resolved.fillSlot .A).fillSlot .B := rfl

@[simp] theorem Warp.resolved_slot (w : Warp) (z : SlotId) : w.resolved.slot z = w.slot z := by
  rw [Warp.resolved, Warp.mapRs_slot, Warp.dropEmpty, Warp.withRs_slot]

theorem Warp.mem_resolved {x : RsEntry} : x ∈ w.resolved.rs ↔ x ∈ resolve w.dropEmpty.held w.dropEmpty.rs.reverse := by
  simp [Warp.resolved]

theorem held_dropEmpty {l : Nat} (h : Held w l) : Held w.dropEmpty l := by
  rw [held_iff_slot] at h ⊢
  obtain ⟨z, hz⟩ | ⟨pc, m, hmem, hl⟩ := h
  · exact .inl ⟨z, by rwa [Warp.dropEmpty, Warp.withRs_slot]⟩
  · have hm : m ≠ 0 := fun h0 => by simp [h0] at hl
    exact .inr ⟨pc, m, List.mem_filter.mpr ⟨hmem, by simpa [RsEntry.mask] using hm⟩, hl⟩

theorem held_resolved {l : Nat} (h : Held w.dropEmpty l) : Held w.resolved l := by
  rw [held_iff_slot] at h ⊢
  obtain ⟨z, hz⟩ | ⟨pc, m, hmem, hl⟩ := h
  · exact .inl ⟨z, by rwa [Warp.resolved, Warp.mapRs_slot]⟩
  · exact .inr ⟨pc, m, Warp.mem_resolved.mpr (pend_mem_resolve _ (List.mem_reverse.mpr hmem)), hl⟩

theorem held_settle {l : Nat} (h : Held w.resolved l) : Held w.settle l := held_fillSlot _ _ (held_fillSlot _ _ h)

theorem Warp.mem_resolved_of_mem_settle {x : RsEntry} (h : x ∈ w.settle.rs) : x ∈ w.resolved.rs :=
  Warp.mem_rs_of_mem_fillSlot _ _ (Warp.mem_rs_of_mem_fillSlot _ _ h)

theorem Warp.settle_mask_ne_zero {x : RsEntry} (h : x ∈ w.settle.rs) : x.mask ≠ 0 := by
  obtain ⟨y, hy, hm⟩ := mem_resolve_mask _ (Warp.mem_resolved.mp (Warp.mem_resolved_of_mem_settle h))
  rw [← hm]
  simpa using (List.mem_filter.mp (List.mem_reverse.mp hy)).2

theorem Warp.settle_keeps_held {pc : Pc} {m : LaneMask} (h : RsEntry.join pc m ∈ w.settle.rs ∨ RsEntry.loop pc m ∈ w.settle.rs) :
    ∃ l, l < 64 ∧ m.getLsbD l = true ∧ Held w.settle l := by
  obtain ⟨x, hx, hmem⟩ : ∃ x, (x = .join pc m ∨ x = .loop pc m) ∧ x ∈ w.settle.rs :=
    h.elim (fun h => ⟨_, .inl rfl, h⟩) fun h => ⟨_, .inr rfl, h⟩
  obtain ⟨l, hl, hheld⟩ := resolve_keeps_held hx _ (Warp.mem_resolved.mp (Warp.mem_resolved_of_mem_settle hmem))
  refine ⟨l, BitVec.lt_of_getLsbD hl, hl, ?_⟩
  obtain hheld | ⟨pc', m', hp, hl'⟩ := hheld
  · exact held_settle (held_resolved (Warp.getLsbD_held.mp hheld))
  · exact held_settle (held_iff_slot.mpr (.inr ⟨pc', m', Warp.mem_resolved.mpr hp, hl'⟩))

/-- A slot that is free after settling finds no pending work above the topmost TRAP pair. -/
theorem Warp.settle_aboveTrap (h : ∃ z, (w.settle.slot z).valid = false) : ∀ x ∈ w.settle.aboveTrap, x.isPend = false := by
  obtain ⟨z, hz⟩ := h
  cases z with
  | A =>
    have hA : ((w.resolved.fillSlot .A).slot .A).valid = false := by
      rwa [w.settle_eq, show SlotId.A = otherSlot .B from rfl, Warp.fillSlot_slot_other] at hz
    obtain ⟨hfill, hnone⟩ := Warp.fillSlot_of_free _ _ hA
    rwa [w.settle_eq, hfill, Warp.fillSlot_eq_self _ _ hnone]
  | B =>
    rw [w.settle_eq] at hz ⊢
    obtain ⟨hfill, hnone⟩ := Warp.fillSlot_of_free _ _ hz
    rwa [hfill]

theorem Warp.settle_slot {z : SlotId} (hz : (w.slot z).valid = true) : w.settle.slot z = w.slot z := by
  have hA : (w.resolved.fillSlot .A).slot z = w.slot z := by
    rw [Warp.fillSlot_slot_of_valid _ _ (by rwa [w.resolved_slot]), w.resolved_slot]
  rw [w.settle_eq, Warp.fillSlot_slot_of_valid _ _ (by rwa [hA]), hA]

/-- R99, by what each step of settling leaves. -/
theorem settling : Settling := by
  intro w
  refine ⟨fun x => Warp.settle_mask_ne_zero, fun pc m => Warp.settle_keeps_held, fun l hl => held_settle (held_resolved (held_dropEmpty hl)),
    fun hfree below above hrs habove x hx => ?_, Warp.settle_slot (z := .A), Warp.settle_slot (z := .B)⟩
  refine Warp.settle_aboveTrap (hfree.elim (fun h => ⟨.A, h⟩) fun h => ⟨.B, h⟩) x ?_
  rw [Warp.aboveTrap_eq hrs habove]
  exact List.mem_append_left _ (List.mem_reverse.mpr hx)

end Sys2Proof.Machine
end

section
/-! PROOFS. RECV, BRK, CONT and EXIT (R101, R105 to R107): the entries that each of them finds, and the warp that it leaves. -/

namespace Sys2Proof.Machine

open Sys2Proof.Claims

variable {s : State} {f : Fields} {c : Ctx} {w : Warp}

/-! ## The entries that a slot finds -/

/-- Is the entry a JOIN at a PC? -/
def RsEntry.isJoinAt (pc : Pc) (x : RsEntry) : Bool := match x with | .join pc' _ => pc' == pc | _ => false

/-- Is the entry a LOOP that contains some lanes? -/
def RsEntry.isLoopOf (e : LaneMask) (x : RsEntry) : Bool := (match x with | .loop .. => true | _ => false) && maskWithin e x.mask

theorem RsEntry.isJoinAt_iff {pc : Pc} {x : RsEntry} : x.isJoinAt pc = true ↔ ∃ m, x = .join pc m := by
  cases x <;> simp [RsEntry.isJoinAt]

theorem RsEntry.isLoopOf_iff {e : LaneMask} {x : RsEntry} : x.isLoopOf e = true ↔ ∃ pc m, x = .loop pc m ∧ maskWithin e m = true := by
  cases x <;> simp [RsEntry.isLoopOf, RsEntry.mask]

theorem mem_aboveTrap {x : RsEntry} (h : x ∈ w.aboveTrap) : x ∈ w.rs := List.mem_reverse.mp ((List.takeWhile_sublist _).subset h)

/-- The topmost entry of a kind, when no TRAP pair stands above it. -/
theorem Warp.find_aboveTrap {p : RsEntry → Bool} {below above : List RsEntry} {x : RsEntry} (hrs : w.rs = below ++ x :: above)
    (habove : ∀ y ∈ above, y.isTrap = false ∧ p y = false) (hx : p x = true) (htrap : x.isTrap = false) :
    (w.aboveTrap.zipIdx.find? fun y => p y.1) = some (x, above.length) := by
  have hall : ∀ y ∈ x :: above, y.isTrap = false := by
    rintro y (_ | ⟨_, hy⟩)
    exacts [htrap, (habove y hy).1]
  rw [Warp.aboveTrap_eq hrs hall, List.reverse_cons, List.append_assoc, List.singleton_append,
    find_zipIdx_append_cons (fun y hy => (habove y (List.mem_reverse.mp hy)).2) hx, List.length_reverse]

theorem Warp.aboveTrap_of_trap {below above : List RsEntry} (hrs : w.rs = below ++ above) (habove : ∀ x ∈ above, x.isTrap = false)
    (hbelow : ∀ x ∈ below.getLast?, x.isTrap = true) : w.aboveTrap = above.reverse := by
  rw [Warp.aboveTrap_eq hrs habove]
  rw [← List.head?_reverse] at hbelow
  cases hrev : below.reverse with
  | nil => simp
  | cons x xs => simp [hbelow x (by simp [hrev])]

theorem Warp.innerLoop_eq (w : Warp) (e : LaneMask) :
    w.innerLoop e = (w.aboveTrap.zipIdx.find? fun x => x.1.isLoopOf e).map fun x => (x.2, x.1) := rfl

theorem Warp.innerLoop_none (h : ∀ pc m, RsEntry.loop pc m ∉ w.rs) (e : LaneMask) : w.innerLoop e = none := by
  rw [w.innerLoop_eq, find_zipIdx_eq_none_iff.mpr, Option.map_none]
  intro x hx
  rw [← Bool.not_eq_true, RsEntry.isLoopOf_iff]
  rintro ⟨pc, m, rfl, -⟩
  exact h pc m (mem_aboveTrap hx)

section

variable {below above : List RsEntry} {pc : Pc} {m : LaneMask}

theorem Warp.innerLoop_of_inLoop (h : InLoop c f below above pc m) : c.w.innerLoop (c.active f.guard) = some (above.length, .loop pc m) := by
  obtain ⟨hrs, habove, hwithin⟩ := h
  have hloop : (RsEntry.loop pc m).isLoopOf (c.active f.guard) = true :=
    RsEntry.isLoopOf_iff.mpr ⟨pc, m, rfl, maskWithin_iff.mpr fun l hl => hwithin l ⟨BitVec.lt_of_getLsbD hl, hl⟩⟩
  have hjoins : ∀ y ∈ above, y.isTrap = false ∧ y.isLoopOf (c.active f.guard) = false := fun y hy => by
    obtain ⟨p, k, rfl⟩ := habove y hy
    exact ⟨rfl, rfl⟩
  rw [Warp.innerLoop_eq, Warp.find_aboveTrap hrs hjoins hloop rfl]
  rfl

/-! ## Lanes taken out of the inner joins -/

theorem dropJoins_append (e : LaneMask) {xs ys : List RsEntry} (h : ∀ x ∈ xs, ∃ p k, x = .join p k) :
    dropJoins e xs.length (xs ++ ys) = xs.map (fun x => x.drop e) ++ ys := by
  rw [dropJoins, List.zipIdx_append, List.map_append]
  congr 1
  · conv_rhs => rw [← List.zipIdx_map_fst 0 xs, List.map_map]
    refine List.map_congr_left fun x hx => ?_
    obtain ⟨p, k, hjoin⟩ := h x.1 (List.fst_mem_of_mem_zipIdx hx)
    have hlt : x.2 < xs.length := by simpa using List.snd_lt_of_mem_zipIdx hx
    simp [hjoin, hlt, RsEntry.drop]
  · conv_rhs => rw [← List.zipIdx_map_fst (0 + xs.length) ys]
    refine List.map_congr_left fun x hx => ?_
    have hle : xs.length ≤ x.2 := by simpa using List.le_snd_of_mem_zipIdx hx
    cases x.1 <;> simp [hle]

theorem mapRs_dropJoins (e : LaneMask) (hrs : c.w.rs = below ++ .loop pc m :: above) (habove : ∀ x ∈ above, ∃ p k, x = .join p k) :
    c.w.mapRs (dropJoins e above.length) = leftJoins c e below above pc m := by
  have hdrop : dropJoins e above.length c.w.rs.reverse = above.reverse.map (fun x => x.drop e) ++ .loop pc m :: below.reverse := by
    rw [hrs, List.reverse_append, List.reverse_cons, List.append_assoc, List.singleton_append, ← List.length_reverse (as := above)]
    exact dropJoins_append e fun x hx => habove x (List.mem_reverse.mp hx)
  rw [Warp.mapRs, hdrop, leftJoins]
  simp

@[simp] theorem leftJoins_slot (c : Ctx) (e : LaneMask) (below above : List RsEntry) (pc : Pc) (m : LaneMask) (z : SlotId) :
    (leftJoins c e below above pc m).slot z = c.w.slot z := Warp.withRs_slot _ _ _

theorem eraseIdx_reverse {xs ys : List RsEntry} {x : RsEntry} : ((ys ++ x :: xs).reverse.eraseIdx xs.length).reverse = ys ++ xs := by
  rw [List.reverse_append, List.reverse_cons, List.append_assoc, List.eraseIdx_append_of_length_le (by simp)]
  simp

end

/-! ## RECV (R105) -/

/-- The warp after RECV. -/
def Ctx.recvWarp (c : Ctx) (y : Sys) (e : LaneMask) : Except TrapInfo Warp :=
  match c.w.aboveTrap.zipIdx.find? fun x => x.1.isJoinAt c.slot.ch with
  | none => .ok (c.goto (c.next y))
  | some (j, i) =>
    if !maskWithin c.slot.mask j.mask then .error (controlTrap .rsMismatch e 0)
    else if j.mask &&& ~~~c.slot.mask &&& c.w.held == 0 then
      .ok ((c.w.mapRs fun rs => rs.eraseIdx i).setSlot c.z fun z => { z.goto (c.next y) with mask := j.mask })
    else .ok (c.w.setSlot c.z fun _ => .empty).settle

theorem exec_recv (f : Fields) (s : State) : exec (.recv f) s = leavingOp .recv f s noRead fun _ y c e => c.recvWarp y e := rfl

theorem Ctx.recvWarp_of_no_join {below above : List RsEntry} (hrs : c.w.rs = below ++ above) (habove : ∀ x ∈ above, x.isTrap = false)
    (hnone : ∀ m, RsEntry.join c.slot.ch m ∉ above) (hbelow : ∀ x ∈ below.getLast?, x.isTrap = true) (y : Sys) (e : LaneMask) :
    c.recvWarp y e = .ok (atHeader c.w c.z (c.next y) c.slot.mask) := by
  have hfind : (c.w.aboveTrap.zipIdx.find? fun x => x.1.isJoinAt c.slot.ch) = none := by
    rw [Warp.aboveTrap_of_trap hrs habove hbelow, find_zipIdx_eq_none_iff]
    intro x hx
    rw [← Bool.not_eq_true, RsEntry.isJoinAt_iff]
    rintro ⟨m, rfl⟩
    exact hnone m (List.mem_reverse.mp hx)
  rw [Ctx.recvWarp, hfind, ← c.goto_eq]

section

variable {base above : List RsEntry} {m : LaneMask} (hrs : c.w.rs = base ++ .join c.slot.ch m :: above)
  (habove : ∀ x ∈ above, x.isTrap = false) (hnone : ∀ m, RsEntry.join c.slot.ch m ∉ above) (y : Sys) (e : LaneMask)

include hrs habove hnone

theorem Ctx.find_join : (c.w.aboveTrap.zipIdx.find? fun x => x.1.isJoinAt c.slot.ch) = some (.join c.slot.ch m, above.length) := by
  refine Warp.find_aboveTrap hrs (fun y hy => ⟨habove y hy, ?_⟩) (RsEntry.isJoinAt_iff.mpr ⟨m, rfl⟩) rfl
  rw [← Bool.not_eq_true, RsEntry.isJoinAt_iff]
  rintro ⟨m, rfl⟩
  exact hnone m hy

theorem Ctx.recvWarp_mismatch (h : maskWithin c.slot.mask m = false) : c.recvWarp y e = .error { cause := .rsMismatch, resume := e } := by
  rw [Ctx.recvWarp, Ctx.find_join hrs habove hnone]
  exact if_pos (by simpa [RsEntry.mask] using h)

theorem Ctx.recvWarp_last (h : maskWithin c.slot.mask m = true) (hlast : m &&& ~~~c.slot.mask &&& c.w.held = 0) :
    c.recvWarp y e = .ok (atHeader (c.w.withRs (base ++ above)) c.z (c.next y) m) := by
  rw [Ctx.recvWarp, Ctx.find_join hrs habove hnone]
  dsimp only
  rw [if_neg (by simpa [RsEntry.mask] using h), if_pos (by simpa [RsEntry.mask] using hlast), Warp.mapRs, hrs, eraseIdx_reverse]
  rfl

theorem Ctx.recvWarp_waits (h : maskWithin c.slot.mask m = true) (hwait : m &&& ~~~c.slot.mask &&& c.w.held ≠ 0) :
    c.recvWarp y e = .ok (freed c.w c.z).settle := by
  rw [Ctx.recvWarp, Ctx.find_join hrs habove hnone]
  dsimp only
  rw [if_neg (by simpa [RsEntry.mask] using h), if_neg (by simpa [RsEntry.mask] using hwait)]
  rfl

end

theorem Warp.others_gone_iff {m mask : LaneMask} :
    m &&& ~~~mask &&& w.held = 0 ↔ ∀ l, m.getLsbD l = true → mask.getLsbD l = false → ¬ Held w l := by
  rw [Warp.and_held_eq_zero_iff]
  refine forall_congr' fun l => ⟨fun h hm hk => h ?_, fun h hl => ?_⟩
  · rw [BitVec.getLsbD_and, BitVec.getLsbD_not, hm, hk]
    simp [BitVec.lt_of_getLsbD hm]
  · rw [BitVec.getLsbD_and, BitVec.getLsbD_not] at hl
    simp only [Bool.and_eq_true, Bool.not_eq_true', decide_eq_true_eq] at hl
    exact h hl.1 hl.2.2

/-! ## BRK (R106) -/

theorem Warp.setSlot_empty (w : Warp) (z : SlotId) (g : PcSlot → PcSlot) : ((w.setSlot z g).setSlot z fun _ => .empty) = freed w z := by
  cases z <;> rfl

/-- The warp after BRK. -/
def Ctx.brkWarp (c : Ctx) (y : Sys) (e : LaneMask) : Except TrapInfo Warp :=
  match c.w.innerLoop e with
  | none => .error (controlTrap .rsMismatch e 0)
  | some (i, l) =>
    let rest := c.slot.mask &&& ~~~e
    let w := (c.w.mapRs (dropJoins e i)).setSlot c.z fun z => { z with mask := rest }
    let pc := match l with | .loop pc _ => pc | _ => 0
    let gone := w.setSlot c.z fun _ => .empty
    if rest != 0 then .ok (w.setSlot c.z fun z => z.goto (c.next y)).settle
    else if l.mask &&& gone.held == 0 then
      .ok ((w.mapRs fun rs => rs.eraseIdx i).setSlot c.z fun z => { z.goto pc with mask := l.mask }).settle
    else .ok gone.settle

theorem exec_brk (f : Fields) (s : State) : exec (.brk f) s = leavingOp .brk f s noRead fun _ y c e => c.brkWarp y e := rfl

theorem Ctx.brkWarp_of_no_loop (h : ∀ pc m, RsEntry.loop pc m ∉ c.w.rs) (y : Sys) (e : LaneMask) :
    c.brkWarp y e = .error { cause := .rsMismatch, resume := e } := by
  rw [Ctx.brkWarp, Warp.innerLoop_none h]
  rfl

section

variable {below above : List RsEntry} {pc : Pc} {m : LaneMask} (h : InLoop c f below above pc m) (y : Sys)

include h

theorem Ctx.brkWarp_some (hrest : c.slot.mask &&& ~~~c.active f.guard ≠ 0) : c.brkWarp y (c.active f.guard) =
    .ok (atHeader (leftJoins c (c.active f.guard) below above pc m) c.z (c.next y) (c.slot.mask &&& ~~~c.active f.guard)).settle := by
  rw [Ctx.brkWarp, Warp.innerLoop_of_inLoop h]
  dsimp only
  rw [if_pos (by simpa using hrest), mapRs_dropJoins _ h.1 h.2.1, Warp.setSlot_setSlot]
  rfl

theorem Ctx.brkWarp_last (hrest : c.slot.mask &&& ~~~c.active f.guard = 0)
    (hlast : m &&& (freed (leftJoins c (c.active f.guard) below above pc m) c.z).held = 0) : c.brkWarp y (c.active f.guard) =
    .ok (atHeader ((leftJoins c (c.active f.guard) below above pc m).withRs (below ++ above.map fun x => x.drop (c.active f.guard)))
      c.z pc m).settle := by
  rw [Ctx.brkWarp, Warp.innerLoop_of_inLoop h]
  dsimp only
  rw [if_neg (by simpa using hrest), mapRs_dropJoins _ h.1 h.2.1, Warp.setSlot_empty, if_pos (by simpa [RsEntry.mask] using hlast),
    Warp.mapRs_setSlot, Warp.setSlot_setSlot, Warp.mapRs, leftJoins, Warp.withRs_rs, ← List.length_map (fun x => x.drop (c.active f.guard)),
    eraseIdx_reverse]
  rfl

theorem Ctx.brkWarp_all (hrest : c.slot.mask &&& ~~~c.active f.guard = 0)
    (hheld : m &&& (freed (leftJoins c (c.active f.guard) below above pc m) c.z).held ≠ 0) : c.brkWarp y (c.active f.guard) =
    .ok (freed (leftJoins c (c.active f.guard) below above pc m) c.z).settle := by
  rw [Ctx.brkWarp, Warp.innerLoop_of_inLoop h]
  dsimp only
  rw [if_neg (by simpa using hrest), mapRs_dropJoins _ h.1 h.2.1, Warp.setSlot_empty, if_neg (by simpa [RsEntry.mask] using hheld)]

/-! ## CONT (R101) -/

theorem Ctx.contWarp_of_split (t : Pc) {w : Warp}
    (hw : splitLanes (leftJoins c (c.active f.guard) below above pc m) c.z t (c.next y) (c.active f.guard) = .ok w) :
    c.contWarp y (c.active f.guard) t = .ok w.settle := by
  rw [Ctx.contWarp, Warp.innerLoop_of_inLoop h]
  dsimp only
  rw [mapRs_dropJoins _ h.1 h.2.1, hw]
  rfl

theorem Ctx.contWarp_none (t : Pc) (he : c.active f.guard = 0) : c.contWarp y (c.active f.guard) t =
    .ok (atHeader (leftJoins c (c.active f.guard) below above pc m) c.z (c.next y) c.slot.mask).settle := by
  rw [Ctx.contWarp_of_split h y t (splitLanes_none _ _ _ _ he), leftJoins_slot]
  rfl

theorem Ctx.contWarp_all (t : Pc) (he : c.active f.guard ≠ 0) (hrest : c.slot.mask &&& ~~~c.active f.guard = 0) :
    c.contWarp y (c.active f.guard) t = .ok (atHeader (leftJoins c (c.active f.guard) below above pc m) c.z t c.slot.mask).settle := by
  rw [Ctx.contWarp_of_split h y t (splitLanes_all _ _ _ _ he (by rwa [leftJoins_slot])), leftJoins_slot]
  rfl

theorem Ctx.contWarp_free (t : Pc) (he : c.active f.guard ≠ 0) (hrest : c.slot.mask &&& ~~~c.active f.guard ≠ 0)
    (hfree : (c.w.slot (otherSlot c.z)).valid = false) : c.contWarp y (c.active f.guard) t =
    .ok (atHeader (startsAt (leftJoins c (c.active f.guard) below above pc m) (otherSlot c.z) t (c.active f.guard)) c.z (c.next y)
      (c.slot.mask &&& ~~~c.active f.guard)).settle := by
  rw [Ctx.contWarp_of_split h y t (splitLanes_free _ _ _ _ he (by rwa [leftJoins_slot]) (by rwa [leftJoins_slot])), leftJoins_slot]
  rfl

end

theorem Ctx.contWarp_of_no_loop (h : ∀ pc m, RsEntry.loop pc m ∉ c.w.rs) (y : Sys) (e : LaneMask) (t : Pc) :
    c.contWarp y e t = .error { cause := .rsMismatch, resume := e } := by
  rw [Ctx.contWarp, Warp.innerLoop_none h]
  rfl

/-! ## EXIT (R107) -/

/-- The warp after EXIT. -/
def Ctx.exitWarp (c : Ctx) (y : Sys) (e : LaneMask) : Warp :=
  let rest := c.slot.mask &&& ~~~e
  let w := c.w.withRs (c.w.rs.map fun x => x.drop e)
  (if rest == 0 then w.setSlot c.z fun _ => .empty else w.setSlot c.z fun z => { z.goto (c.next y) with mask := rest }).settle

theorem exec_exit (f : Fields) (s : State) : exec (.exit f) s = leavingOp .exit f s noRead fun _ y c e => .ok (c.exitWarp y e) := rfl

theorem Ctx.exitWarp_some (y : Sys) {e : LaneMask} (hrest : c.slot.mask &&& ~~~e ≠ 0) :
    c.exitWarp y e = (atHeader (c.w.withRs (c.w.rs.map fun x => x.drop e)) c.z (c.next y) (c.slot.mask &&& ~~~e)).settle := by
  rw [Ctx.exitWarp, if_neg (by simpa using hrest)]
  rfl

theorem Ctx.exitWarp_all (y : Sys) {e : LaneMask} (hrest : c.slot.mask &&& ~~~e = 0) :
    c.exitWarp y e = (freed (c.w.withRs (c.w.rs.map fun x => x.drop e)) c.z).settle := by
  rw [Ctx.exitWarp, if_pos (by simpa using hrest)]
  rfl

/-! ## The claims about the joins, the loops and the exits -/

theorem exec_recv_ok (hi : Issues .recv f s c) {w : Warp} (hw : c.recvWarp s.sys (c.active f.guard) = .ok w) :
    exec (.recv f) s = .next (leftFor s c w) := by
  rw [exec_recv]
  exact leavingOp_ok hi (readable_nil s c) hw

theorem exec_brk_ok (hi : Issues .brk f s c) {w : Warp} (hw : c.brkWarp s.sys (c.active f.guard) = .ok w) :
    exec (.brk f) s = .next (leftFor s c w) := by
  rw [exec_brk]
  exact leavingOp_ok hi (readable_nil s c) hw

theorem exec_cont_ok (hi : Issues .cont f s c) (ht : IsHeader s c (branchTarget c f)) {w : Warp}
    (hw : c.contWarp s.sys (c.active f.guard) (branchTarget c f) = .ok w) : exec (.cont f) s = .next (leftFor s c w) := by
  rw [exec_cont]
  exact leavingBranchOp_ok (k := fun _ y c e => c.contWarp y e) hi ht hw

theorem exec_exit_eq (hi : Issues .exit f s c) : exec (.exit f) s = .next (leftFor s c (c.exitWarp s.sys (c.active f.guard))) := by
  rw [exec_exit]
  exact leavingOp_ok hi (readable_nil s c) rfl

/-- R101, R105 to R107, each instruction by the entry that it finds and the lanes that are left. -/
theorem joinsLoopsAndExits : JoinsLoopsAndExits := by
  intro s f c e mask rest n result
  have hrest : rest = c.slot.mask &&& ~~~e := and_xor_allOnes _ _
  refine ⟨fun hi below above hrs habove hnone => ⟨fun hbelow => exec_recv_ok hi (c.recvWarp_of_no_join hrs habove hnone hbelow _ _),
    fun m base hbase => ?_⟩, fun below above pc m hloop => ?_, fun hnone => ⟨fun hi => ?_, fun hi ht => ?_⟩, fun hi => ?_⟩
  · rw [hbase, List.append_assoc, List.singleton_append] at hrs
    refine ⟨fun hout => ?_, fun hin hgone => exec_recv_ok hi ?_, fun hin hheld => exec_recv_ok hi ?_⟩
    · rw [exec_recv]
      exact leavingOp_error hi (readable_nil s c) (Ctx.recvWarp_mismatch hrs habove hnone _ _ (maskWithin_eq_false_iff.mpr hout))
    · exact Ctx.recvWarp_last hrs habove hnone _ _ (maskWithin_iff.mpr hin) (Warp.others_gone_iff.mpr hgone)
    · obtain ⟨l, hl, hnot, hh⟩ := hheld
      exact Ctx.recvWarp_waits hrs habove hnone _ _ (maskWithin_iff.mpr hin) fun h0 => Warp.others_gone_iff.mp h0 l hl hnot hh
  · intro w
    rw [hrest]
    refine ⟨fun hi hr => exec_brk_ok hi (Ctx.brkWarp_some hloop _ hr),
      fun hi hr hgone => exec_brk_ok hi (Ctx.brkWarp_last hloop _ hr (Warp.and_held_eq_zero_iff.mpr hgone)), fun hi hr hheld => ?_,
      fun hi ht he => exec_cont_ok hi ht (Ctx.contWarp_none hloop _ _ he),
      fun hi ht he hr => exec_cont_ok hi ht (Ctx.contWarp_all hloop _ _ he hr),
      fun hi ht he hr hfree => exec_cont_ok hi ht (Ctx.contWarp_free hloop _ _ he hr hfree)⟩
    obtain ⟨l, hl, hh⟩ := hheld
    exact exec_brk_ok hi (Ctx.brkWarp_all hloop _ hr fun h0 => Warp.and_held_eq_zero_iff.mp h0 l hl hh)
  · rw [exec_brk]
    exact leavingOp_error hi (readable_nil s c) (c.brkWarp_of_no_loop hnone _ _)
  · rw [exec_cont]
    exact leavingBranchOp_error (k := fun _ y c e => c.contWarp y e) hi ht (c.contWarp_of_no_loop hnone _ _ _)
  · intro w
    rw [hrest, exec_exit_eq hi]
    exact ⟨fun hr => by rw [c.exitWarp_some _ hr]; rfl, fun hr => by rw [c.exitWarp_all _ hr]⟩

/-- Settles O19, by its three parts. -/
theorem joinsExitsAndSettling : Obligations.JoinsExitsAndSettling := ⟨joinsLoopsAndExits, stackReplaced, settling⟩

end Sys2Proof.Machine
end

section
/-! PROOFS. Traps (R108 to R110, R299): a fault raised at a slot leaves the trap pending there and enters it once the slot's work is done. -/

namespace Sys2Proof.Machine

open Sys2Proof.Claims

variable {s : State} {f : Fields} {c : Ctx} {i : TrapInfo}

/-! ## A warp changed twice -/

theorem updateWhere_updateWhere {α : Type} {p : α → Bool} {g k : α → α} (hg : ∀ x, p x = true → p (g x) = true) (xs : List α) :
    updateWhere p k (updateWhere p g xs) = updateWhere p (fun x => k (g x)) xs := by
  simp only [updateWhere, List.map_map]
  refine List.map_congr_left fun x _ => ?_
  by_cases hx : p x = true
  · simp [hx, hg x hx]
  · simp [hx]

theorem Block.setWarp_setWarp (b : Block) (r : Nat) {g k : Warp → Warp} (hg : ∀ w, (g w).rank = w.rank) :
    (b.setWarp r g).setWarp r k = b.setWarp r fun w => k (g w) := by
  simp only [Block.setWarp]
  rw [updateWhere_updateWhere fun w hw => by simpa [hg w] using hw]

/-- A warp written back covers what was changed in it before. -/
theorem Sys.putWarp_setWarp (y : Sys) (r : WarpRef) {g : Warp → Warp} (hg : ∀ w, (g w).rank = w.rank) (w : Warp) :
    (y.setWarp r g).putWarp r w = y.putWarp r w := by
  simp only [Sys.putWarp, Sys.setWarp, Sys.setBlock]
  rw [updateWhere_updateWhere (p := fun b : Block => b.id == r.block) (g := fun b => b.setWarp r.rank g) fun b hb => hb]
  simp only [Block.setWarp_setWarp _ _ hg]

theorem Warp.setSlot_of_eq (w : Warp) (z : SlotId) {g : PcSlot → PcSlot} (h : g (w.slot z) = w.slot z) : w.setSlot z g = w := by
  cases z with
  | A => rw [Warp.setSlot, show g w.slotA = w.slotA from h]
  | B => rw [Warp.setSlot, show g w.slotB = w.slotB from h]

theorem Warp.setSlot_congr (w : Warp) (z : SlotId) {g k : PcSlot → PcSlot} (h : g (w.slot z) = k (w.slot z)) : w.setSlot z g = w.setSlot z k := by
  cases z with
  | A => rw [Warp.setSlot, show g w.slotA = k w.slotA from h]; rfl
  | B => rw [Warp.setSlot, show g w.slotB = k w.slotB from h]; rfl

/-! ## The context of a slot -/

theorem Sys.context_eq_some_iff {y : Sys} {r : WarpRef} {z : SlotId} :
    y.context r z = some c ↔ c.ref = r ∧ c.z = z ∧ y.block r.block = some c.b ∧ c.b.warp r.rank = some c.w := by
  constructor
  · intro h
    obtain ⟨hcur, hb, hw⟩ := Sys.issuing_some h
    cases hcur
    exact ⟨rfl, rfl, hb, hw⟩
  · rintro ⟨rfl, rfl, hb, hw⟩
    have hb' : Sys.block { y with cursor := some (c.ref, c.z) } c.ref.block = some c.b := hb
    simp [Sys.context, Sys.issuing, hb', hw]

theorem Sys.context_of_issuing {y : Sys} (h : y.issuing = some c) : y.context c.ref c.z = some c :=
  Sys.context_eq_some_iff.mpr ⟨rfl, rfl, (Sys.issuing_some h).2⟩

/-- The context of a slot that has changed. -/
def Ctx.withSlot (c : Ctx) (k : PcSlot → PcSlot) : Ctx :=
  { c with b := c.b.setWarp c.ref.rank fun w => w.setSlot c.z k, w := c.w.setSlot c.z k }

/-- The state in which a slot has changed. -/
def changedSlot (s : State) (c : Ctx) (k : PcSlot → PcSlot) : State := { s with sys := s.sys.setWarp c.ref fun w => w.setSlot c.z k }

theorem context_changedSlot (h : s.sys.context c.ref c.z = some c) (k : PcSlot → PcSlot) :
    (changedSlot s c k).sys.context c.ref c.z = some (c.withSlot k) := by
  obtain ⟨-, -, hb, hw⟩ := Sys.context_eq_some_iff.mp h
  refine Sys.context_eq_some_iff.mpr ⟨rfl, rfl, ?_, ?_⟩
  · exact (Sys.block_setBlock_same s.sys c.ref.block (fun b => b.setWarp c.ref.rank fun w => w.setSlot c.z k) fun _ => rfl).trans
      (by rw [hb]; rfl)
  · have hfind : c.b.warps.find? (fun w => w.rank == c.ref.rank) = some c.w := hw
    exact (find_updateWhere_same _ _ (fun w hw => by simpa using hw) c.b.warps).trans (by rw [hfind]; rfl)

theorem Sys.context_logError {y : Sys} {r : WarpRef} {z : SlotId} (k : LogRecord) : (y.logError k).context r z = y.context r z := by
  simp only [Sys.context, Sys.issuing, Sys.block, Sys.logError_blocks]

theorem Sys.logError_setWarp (y : Sys) (r : WarpRef) (g : Warp → Warp) (k : LogRecord) :
    (y.setWarp r g).logError k = (y.logError k).setWarp r g := by
  have hdev : (y.setWarp r g).device = y.device := rfl
  simp only [Sys.logError, hdev]
  split <;> rfl

/-! ## What the fetch of code depends on -/

theorem codeReach_logError (p : Phys) (y : Sys) (b : Block) (t : Pc) (k : LogRecord) :
    codeReach p (y.logError k) b t = codeReach p y b t := by
  unfold Sys.logError
  split <;> rfl

theorem codeWord_eq (p : Phys) (y : Sys) (b : Block) (t : Pc) :
    codeWord p y b t = match codeReach p y b t with | .ok pa => some (BitVec.ofNat 32 (p.num pa 4)) | _ => none := by
  unfold codeWord codeAddr
  cases codeReach p y b t <;> rfl

/-! ## Trap entry (R108) -/

theorem Ctx.trapReady_iff : c.trapReady = true ↔ SlotDone c := by
  rw [Ctx.trapReady, List.all_eq_true]
  refine forall₂_congr fun x _ => ?_
  rw [Bool.or_eq_true, bne_iff_ne, ← imp_iff_not_or]
  refine imp_congr_right fun _ => ?_
  cases x.body <;> simp

section

variable (hc : s.sys.context c.ref c.z = some c) (hi : c.slot.trap = some i)

include hc hi

theorem exec_trapEntry_of_not_done (h : ¬ SlotDone c) : exec (.trapEntry c.ref c.z) s = .next s := by
  have hready : c.trapReady = false := by simpa using mt Ctx.trapReady_iff.mp h
  show work s (fun _ t => t.trapEntry c.ref c.z) = _
  rw [work, Tx.trapEntry, Tx.start_sys, hc]
  dsimp only
  rw [hi]
  dsimp only
  rw [hready]
  rfl

theorem exec_trapEntry_of_full (h : SlotDone c) (hfull : 130 < c.w.rsp) : exec (.trapEntry c.ref c.z) s =
    work s fun _ t => t.abortBlock c.b.id .rsOverflow c.w.rank c.slot.pc.addr i.addr c.slot.mask := by
  show work s (fun _ t => t.trapEntry c.ref c.z) = _
  rw [work, work, Tx.trapEntry, Tx.start_sys, hc]
  dsimp only
  rw [hi]
  dsimp only
  rw [Ctx.trapReady_iff.mpr h, if_neg (by simp), if_pos (by omega)]

theorem exec_trapEntry_of_noHeader (h : SlotDone c) (hroom : c.w.rsp ≤ 130) (ht : NoHeader s c c.w.tvec) : exec (.trapEntry c.ref c.z) s =
    work s fun _ t => t.abortBlock c.b.id .illegalTarget c.w.rank c.slot.pc.addr i.addr c.slot.mask := by
  show work s (fun _ t => t.trapEntry c.ref c.z) = _
  rw [work, work, Tx.trapEntry, Tx.start_sys, hc]
  dsimp only
  rw [hi]
  dsimp only
  rw [Ctx.trapReady_iff.mpr h, if_neg (by simp), if_neg (by omega), if_neg (by simp [ht.2]), if_pos (by simp [targetOk_eq_false ht.1])]

theorem exec_trapEntry_enters (h : EntersAtOnce s c) : exec (.trapEntry c.ref c.z) s = .next (trapped s c i) := by
  obtain ⟨hdone, hroom, ht⟩ := h
  show work s (fun _ t => t.trapEntry c.ref c.z) = _
  rw [work, Tx.trapEntry, Tx.start_sys, hc]
  dsimp only
  rw [hi]
  dsimp only
  rw [Ctx.trapReady_iff.mpr hdone, if_neg (by simp), if_neg (by omega), if_neg (by simp [codeHeld_of_isHeader ht]),
    if_neg (by simp [targetOk_iff.mpr ht])]
  rfl

end

/-! ## What a change of the slot leaves alone -/

section

variable (s c) (k : PcSlot → PcSlot)

@[simp] theorem Ctx.withSlot_slot : (c.withSlot k).slot = k c.slot := Warp.slot_setSlot_same _ _ _

@[simp] theorem Ctx.withSlot_tvec : (c.withSlot k).w.tvec = c.w.tvec := Warp.setSlot_tvec _ _ _

@[simp] theorem Ctx.withSlot_rank : (c.withSlot k).w.rank = c.w.rank := Warp.setSlot_rank _ _ _

@[simp] theorem Ctx.withSlot_rsp : (c.withSlot k).w.rsp = c.w.rsp := by
  simp only [Warp.rsp, Ctx.withSlot, Warp.setSlot_rs]

theorem slotDone_withSlot : SlotDone (c.withSlot k) ↔ SlotDone c := by
  simp only [SlotDone, Ctx.withSlot, Warp.setSlot_ops]

theorem codeReach_withSlot (t : Pc) :
    codeReach (changedSlot s c k).phys (changedSlot s c k).sys (c.withSlot k).b t = codeReach s.phys s.sys c.b t := rfl

theorem isHeader_withSlot (t : Pc) : IsHeader (changedSlot s c k) (c.withSlot k) t ↔ IsHeader s c t := by
  rw [IsHeader, IsHeader, codeWord_eq, codeWord_eq, codeReach_withSlot]
  rfl

theorem noHeader_withSlot (t : Pc) : NoHeader (changedSlot s c k) (c.withSlot k) t ↔ NoHeader s c t := by
  rw [NoHeader, NoHeader, isHeader_withSlot, codeHeld, codeHeld, codeReach_withSlot]

theorem entersAtOnce_withSlot : EntersAtOnce (changedSlot s c k) (c.withSlot k) ↔ EntersAtOnce s c := by
  rw [EntersAtOnce, EntersAtOnce, slotDone_withSlot, Ctx.withSlot_rsp, Ctx.withSlot_tvec, isHeader_withSlot]

theorem trapped_withSlot (i : TrapInfo) :
    trapped (changedSlot s c k) (c.withSlot k) i = trapped s { c with w := c.w.setSlot c.z k } i := by
  simp only [trapped, moved, changedSlot, Ctx.withSlot, Sys.putWarp_setWarp _ _ fun w => w.setSlot_rank _ _]
  rfl

end

/-! ## A fault in the log (R303) -/

/-- The state with a fault in the device error log, unless the program asked for the trap. -/
def logged (s : State) (c : Ctx) (k : Cause) : State := if k = .softTrap ∨ k = .breakpoint then s else noted s c k

section

variable (s c) (k : Cause)

theorem logged_cases : logged s c k = s ∨ logged s c k = { s with sys := s.sys.logError (.trapped k c.ref) } := by
  unfold logged
  split
  · exact .inl rfl
  · exact .inr rfl

theorem context_logged (r : WarpRef) (z : SlotId) : (logged s c k).sys.context r z = s.sys.context r z := by
  obtain h | h := logged_cases s c k <;> rw [h]
  exact Sys.context_logError _

theorem codeReach_logged (t : Pc) : codeReach (logged s c k).phys (logged s c k).sys c.b t = codeReach s.phys s.sys c.b t := by
  obtain h | h := logged_cases s c k <;> rw [h]
  exact codeReach_logError _ _ _ _ _

theorem logged_phys : (logged s c k).phys = s.phys := by
  obtain h | h := logged_cases s c k <;> rw [h]

theorem isHeader_logged (t : Pc) : IsHeader (logged s c k) c t ↔ IsHeader s c t := by
  rw [IsHeader, IsHeader, codeWord_eq, codeWord_eq, codeReach_logged, logged_phys]

theorem noHeader_logged (t : Pc) : NoHeader (logged s c k) c t ↔ NoHeader s c t := by
  rw [NoHeader, NoHeader, isHeader_logged, codeHeld, codeHeld, codeReach_logged]

theorem entersAtOnce_logged : EntersAtOnce (logged s c k) c ↔ EntersAtOnce s c := by
  rw [EntersAtOnce, EntersAtOnce, isHeader_logged]

end

/-! ## A fault raised (R108) -/

/-- The trap laid down at a slot. -/
def layTrap (i : TrapInfo) (y : PcSlot) : PcSlot := { y with trap := some i, hold := .none }

/-- No cause but WINDOW_FAULT restarts a block without a poisoned register. -/
theorem Block.restartsOn_eq_false (b : Block) (h : i.cause ≠ .windowFault) : b.restartsOn i false = false := by
  unfold Block.restartsOn
  cases hk : i.cause <;> simp_all

/-- A fault that no restart serves leaves its trap pending, and the entry of the trap is tried at once. -/
theorem raised_eq (hc : s.sys.context c.ref c.z = some c) (hw : i.cause ≠ .windowFault) :
    raised s c i = exec (.trapEntry c.ref c.z) (changedSlot (logged s c i.cause) c (layTrap i)) := by
  show work s (fun _ t => t.raise c.ref c.z i false) = work _ (fun _ t => t.trapEntry c.ref c.z)
  have hnw : (i.cause == .windowFault) = false := by simpa using hw
  rw [work, work, Tx.raise, Tx.start_sys, hc]
  dsimp only
  rw [hnw, c.b.restartsOn_eq_false hw, if_neg Bool.false_ne_true, if_neg Bool.false_ne_true]
  unfold logged
  by_cases hsoft : i.cause = .softTrap ∨ i.cause = .breakpoint
  · have herr : i.cause.isError = false := by rcases hsoft with h | h <;> rw [h] <;> rfl
    rw [herr, if_neg Bool.false_ne_true, if_pos hsoft]
    rfl
  · have herr : i.cause.isError = true := by simpa [Cause.isError, not_or] using hsoft
    rw [herr, if_pos rfl, if_neg hsoft]
    rfl

/-- The trap that was pending is gone once it has been entered. -/
theorem trapped_layTrap (s : State) (c : Ctx) (i : TrapInfo) : trapped s { c with w := c.w.setSlot c.z (layTrap i) } i = trapped s c i := by
  obtain ⟨r, z, b, w⟩ := c
  cases z <;> rfl

section

variable (hc : s.sys.context c.ref c.z = some c) (hw : i.cause ≠ .windowFault)

include hc

theorem context_pending :
    (changedSlot (logged s c i.cause) c (layTrap i)).sys.context c.ref c.z = some (c.withSlot (layTrap i)) :=
  context_changedSlot ((context_logged s c _ _ _).trans hc) _

include hw

theorem raised_enters (h : EntersAtOnce s c) : raised s c i = .next (trapped (logged s c i.cause) c i) := by
  have hpend := (entersAtOnce_withSlot _ c (layTrap i)).mpr ((entersAtOnce_logged s c i.cause).mpr h)
  rw [raised_eq hc hw, ← trapped_layTrap, ← trapped_withSlot]
  exact exec_trapEntry_enters (context_pending hc) (by rw [c.withSlot_slot]; rfl) hpend

theorem raised_waits (h : ¬ SlotDone c) : raised s c i = .next (changedSlot (logged s c i.cause) c (layTrap i)) := by
  rw [raised_eq hc hw]
  exact exec_trapEntry_of_not_done (i := i) (c := c.withSlot (layTrap i)) (context_pending hc) (by rw [c.withSlot_slot]; rfl)
    (mt (slotDone_withSlot c (layTrap i)).mp h)

theorem raised_of_full (h : SlotDone c) (hfull : 130 < c.w.rsp) :
    raised s c i = work (changedSlot (logged s c i.cause) c (layTrap i)) fun _ t =>
      t.abortBlock c.b.id .rsOverflow c.w.rank c.slot.pc.addr i.addr c.slot.mask := by
  have habort := exec_trapEntry_of_full (context_pending hc) (by rw [c.withSlot_slot]; rfl) ((slotDone_withSlot c (layTrap i)).mpr h)
    (by rwa [c.withSlot_rsp])
  rw [c.withSlot_slot, c.withSlot_rank] at habort
  rw [raised_eq hc hw]
  exact habort

theorem raised_of_noHeader (h : SlotDone c) (hroom : c.w.rsp ≤ 130) (ht : NoHeader s c c.w.tvec) :
    raised s c i = work (changedSlot (logged s c i.cause) c (layTrap i)) fun _ t =>
      t.abortBlock c.b.id .illegalTarget c.w.rank c.slot.pc.addr i.addr c.slot.mask := by
  have htvec := (noHeader_withSlot _ c (layTrap i) c.w.tvec).mpr ((noHeader_logged s c i.cause _).mpr ht)
  have habort := exec_trapEntry_of_noHeader (context_pending hc) (by rw [c.withSlot_slot]; rfl) ((slotDone_withSlot c (layTrap i)).mpr h)
    (by rwa [c.withSlot_rsp]) (by rwa [c.withSlot_tvec])
  rw [c.withSlot_slot, c.withSlot_rank] at habort
  rw [raised_eq hc hw]
  exact habort

end

/-- R108, R299, R24, by what the trapping slot still has to do. -/
theorem trapTaken : TrapTaken := by
  intro s c i hissue hw s' pending
  have hc := Sys.context_of_issuing hissue
  exact ⟨fun _ => ⟨raised_enters hc hw, raised_waits hc hw, raised_of_full hc hw, raised_of_noHeader hc hw⟩,
    exec_trapEntry_enters hc, exec_trapEntry_of_not_done hc⟩

/-! ## The instructions that trap (R62, R70, R109) -/

theorem exec_trap (f : Fields) (s : State) :
    exec (.trap f) s = controlOp .trap f s noRead fun _ _ _ _ => .error { cause := .softTrap, resume := 0, addr := f.immU } := rfl

theorem exec_bkpt (f : Fields) (s : State) :
    exec (.bkpt f) s = controlOp .bkpt f s noRead fun _ _ _ _ => .error { cause := .breakpoint, resume := 0 } := rfl

theorem toNat_immUnsigned (f : Fields) : (immUnsigned f).toNat = f.immU := by
  unfold immUnsigned Fields.immU
  cases f.form <;> simp <;> omega

theorem exec_illegalInstr (hc : s.sys.issuing = some c) :
    exec .illegalInstr s = raised s c { cause := .illegalInstr, resume := c.slot.mask } := by
  show execIllegalInstr s = _
  rw [execIllegalInstr, hc]
  rfl

/-- At a header position the PC is the clause's address. -/
def atClause (y : PcSlot) : PcSlot := if y.left == 0 then { y with ch := y.pc } else y

theorem exec_illegalClause (hc : s.sys.issuing = some c) :
    exec .illegalClause s =
      raised (changedSlot s c atClause) (c.withSlot atClause) { cause := .illegalClause, resume := c.slot.mask } := by
  show execIllegalClause s = _
  rw [execIllegalClause, hc]
  rfl

theorem noted_withSlot (s : State) (c : Ctx) (k : PcSlot → PcSlot) (x : Cause) :
    noted (changedSlot s c k) (c.withSlot k) x = changedSlot (noted s c x) c k := by
  rw [noted, changedSlot, Sys.logError_setWarp]
  rfl

theorem exec_illegalClause_enters (hc : s.sys.issuing = some c) (h : EntersAtOnce s c) :
    exec .illegalClause s = .next (trapped (noted s c .illegalClause) { c with w := c.w.setSlot c.z atClause }
      { cause := .illegalClause, resume := c.slot.mask }) := by
  have hctx := context_changedSlot (Sys.context_of_issuing hc) atClause
  rw [exec_illegalClause hc]
  refine (raised_enters (c := c.withSlot atClause) hctx (by simp) ((entersAtOnce_withSlot s c _).mpr h)).trans ?_
  rw [logged, if_neg (by simp), noted_withSlot, trapped_withSlot]

theorem trapInstructions : TrapInstructions := by
  intro s f c h
  refine ⟨fun hi => ?_, fun hi => ?_, fun hc => ?_, fun hc hleft => ?_, fun hc hleft => ?_⟩
  · rw [exec_trap, toNat_immUnsigned]
    exact (controlOp_error hi (readable_nil s c) rfl).trans (raised_enters (Sys.context_of_issuing hi.1) (by simp) h)
  · rw [exec_bkpt]
    exact (controlOp_error hi (readable_nil s c) rfl).trans (raised_enters (Sys.context_of_issuing hi.1) (by simp) h)
  · rw [exec_illegalInstr hc]
    exact raised_enters (Sys.context_of_issuing hc) (by simp) h
  · have hsame : c.w.setSlot c.z atClause = c.w := c.w.setSlot_of_eq c.z (if_neg (by simpa [Ctx.slot] using hleft.ne'))
    rw [exec_illegalClause_enters hc h, hsame]
  · have hch : c.w.setSlot c.z atClause = c.w.setSlot c.z fun z => { z with ch := z.pc } :=
      c.w.setSlot_congr c.z (if_pos (by simpa [Ctx.slot] using hleft))
    rw [exec_illegalClause_enters hc h, hch]

/-! ## The return from a trap (R110) -/

/-- The mnemonic and the instruction of a return from a trap. -/
def trapReturn (f : Fields) (skip : Bool) : Mnem × Instr := if skip then (.rttSkip, .rttSkip f) else (.rtt, .rtt f)

/-- The slot that a return from a trap leaves. -/
def returnsTo (pc ch : Pc) (left : Nat) (resume : Option LaneMask) (z : PcSlot) : PcSlot :=
  { z with pc := pc, left := left, resume := resume, ch := ch, issued := 0, setA := 15, setB := 15, serial := true, hold := .none, serialOp := none }

theorem exec_trapReturn (f : Fields) (skip : Bool) (s : State) :
    exec (trapReturn f skip).2 s = controlOp (trapReturn f skip).1 f s trapRead fun p y c e => returnFromTrap p y c skip e := by
  cases skip <;> rfl

/-- The length of an instruction is in the two low bits of its first word. -/
theorem wordsAt_eq {p : Phys} {y : Sys} {b : Block} {pc : Pc} {h : Word} (hw : codeWord p y b pc = some h) :
    wordsAt p y b pc = if h.extractLsb' 0 2 = 3 then 1 else (h.extractLsb' 0 2).toNat + 1 := by
  have hbits : natBits h.toNat 1 0 = (h.extractLsb' 0 2).toNat := by simp [natBits]
  have hthree : h.extractLsb' 0 2 = 3 ↔ (h.extractLsb' 0 2).toNat = 3 := BitVec.toNat_inj.symm
  simp only [wordsAt, hw, hbits, hthree, beq_iff_eq]

section

variable {below : List RsEntry} {mask resume : LaneMask} {pc : Pc} {cause : BitVec 8} {left dist : Nat} {h : Word} {skip : Bool}

theorem trapRead_of_trap (hrs : c.w.rs = below ++ [.trap mask pc resume cause left dist]) (p : Phys) (y : Sys) (e : LaneMask) :
    trapRead p y c e = [pc] := by
  rw [trapRead, hrs, List.getLast?_concat]

theorem readable_trapRead (hrs : c.w.rs = below ++ [.trap mask pc resume cause left dist]) (hw : codeWord s.phys s.sys c.b pc = some h)
    (e : LaneMask) : Readable s c (trapRead s.phys s.sys c e) := by
  simpa [Readable, trapRead_of_trap hrs] using codeHeld_of_codeWord hw

theorem trapRead_of_no_trap (hnone : ∀ y ∈ c.w.rs.getLast?, y.isTrap = false) (p : Phys) (y : Sys) (e : LaneMask) : trapRead p y c e = [] := by
  unfold trapRead
  split
  · next hx => exact absurd (hnone _ hx) Bool.noConfusion
  · rfl

theorem returnFromTrap_of_no_trap (hnone : ∀ y ∈ c.w.rs.getLast?, y.isTrap = false) (p : Phys) (y : Sys) (e : LaneMask) :
    returnFromTrap p y c skip e = .error { cause := .rsMismatch, resume := e } := by
  unfold returnFromTrap
  split
  · next hx => exact absurd (hnone _ hx) Bool.noConfusion
  · rfl

theorem returnFromTrap_of_trap (hrs : c.w.rs = below ++ [.trap mask pc resume cause left dist]) (p : Phys) (y : Sys) (e : LaneMask) :
    returnFromTrap p y c skip e =
      if mask ≠ c.slot.mask then .error { cause := .rsMismatch, resume := e }
      else if skip = true ∨ resume = 0 then
        .ok ((c.w.withRs below).setSlot c.z (returnsTo (pc.plus (wordsAt p y c.b pc)) (pc - BitVec.ofNat 50 dist) left none))
      else .ok ((c.w.withRs below).setSlot c.z (returnsTo pc (pc - BitVec.ofNat 50 dist) (if dist = 0 then 0 else left + 1) (some resume))) := by
  have hbelow : c.w.rs.dropLast = below := by rw [hrs, List.dropLast_concat]
  rw [returnFromTrap, hbelow, hrs, List.getLast?_concat]
  simp only [bne_iff_ne, Bool.or_eq_true, beq_iff_eq]
  rfl

end

/-- R110, R67, R25, by the entry on top of the stack. -/
theorem returnsFromTrap : ReturnFromTrap := by
  rintro s f c skip _ rfl hi mismatch
  refine ⟨fun below mask pc resume cause left dist h hrs hw => ?_, fun hnone => ?_⟩
  · have hr := readable_trapRead hrs hw (c.active f.guard)
    have hret := returnFromTrap_of_trap (skip := skip) hrs s.phys s.sys (c.active f.guard)
    rw [wordsAt_eq hw] at hret
    refine ⟨fun hmask => ?_, fun hmask hskip => ?_, fun hmask hskip hresume hdist => ?_, fun hmask hskip hresume hdist => ?_⟩
    · exact (exec_trapReturn f skip s).trans (controlOp_error hi hr (hret.trans (if_pos hmask)))
    · rw [if_neg (not_not_intro hmask), if_pos hskip] at hret
      exact (exec_trapReturn f skip s).trans (controlOp_ok hi hr hret)
    · rw [if_neg (not_not_intro hmask), if_neg (not_or.mpr ⟨Bool.eq_false_iff.mp hskip, hresume⟩), if_neg hdist] at hret
      exact (exec_trapReturn f skip s).trans (controlOp_ok hi hr hret)
    · rw [if_neg (not_not_intro hmask), if_neg (not_or.mpr ⟨Bool.eq_false_iff.mp hskip, hresume⟩), if_pos hdist] at hret
      exact (exec_trapReturn f skip s).trans (controlOp_ok hi hr hret)
  · refine (exec_trapReturn f skip s).trans (controlOp_error hi ?_ (returnFromTrap_of_no_trap hnone _ _ _))
    rw [trapRead_of_no_trap hnone]
    exact readable_nil s c

/-- Settles O20: a pending trap is entered as soon as the slot's work is done, and a return reads the pair that the entry pushed. -/
theorem trapsAndReturns : Obligations.TrapsAndReturns := ⟨trapTaken, trapInstructions, returnsFromTrap⟩

end Sys2Proof.Machine
end

section
/-! PROOFS. The start of a clause (R60): the header changes its slot in the warp that is there, and `moved` puts a whole warp back. The two differ in
a block in which two warps have one rank, which no step builds and which the statement does not exclude. -/

namespace Sys2Proof.Machine

open Sys2Proof.Claims

/-- A block with two warps of rank 0, on two slices. -/
def twinBlock : Block := { id := 0, tower := 0, core := 0, warps := [{ rank := 0 }, { rank := 0, slice := 1 }] }

/-- The first of the two is about to issue a header at PC 0; its code is memory of zeros, behind a cached page. -/
def twinState : State :=
  { phys := {}
    sys :=
      { cursor := some (⟨0, 0⟩, .A)
        blocks := [twinBlock]
        towers := [{ cores := [{ tlb := [{ asid := 0, window := false, base := 0, size := 0x1000, pa := 0, r := true, w := true }] }] }]
        device := { devReady := BitVec.allOnes 64 } } }

/-- The context of the warp that issues. -/
def twinContext : Ctx := { ref := ⟨0, 0⟩, z := .A, b := twinBlock, w := { rank := 0 } }

/-- The header of a clause of one instruction, with no waits and no completion flags. -/
def twinHeader : HeaderFields := { wait := 0, setA := 15, setB := 15, len := 1 }

/-- The slices of the warps of the first block. -/
def slices (o : Host.Outcome State Fault Refusal) : List Nat :=
  match o with
  | .next t => t.sys.blocks.flatMap fun b => b.warps.map Warp.slice
  | _ => []

theorem twinState_issuing : twinState.sys.issuing = some twinContext := rfl

theorem slices_clauseHeader : slices (exec (.clauseHeader twinHeader) twinState) = [0, 1] := by decide

theorem slices_moved (g : PcSlot → PcSlot) : slices (.next (moved twinState twinContext (twinContext.w.setSlot .A g))) = [0, 0] := rfl

/-- The word behind the header is a NOP of one word. -/
theorem twinState_laid : Laid twinState twinContext 1 [0] := ⟨by decide, trivial⟩

theorem not_clauseStart : ¬ ClauseStart := by
  intro h
  obtain ⟨-, hstarts, -⟩ := h twinState twinContext twinHeader [0] twinState_issuing rfl rfl twinState_laid
  have hnowait : ¬ ∃ n, n < 12 ∧ twinHeader.wait.getLsbD n = true ∧ FlagSeen twinContext.w n := by simp [twinHeader]
  have hbody : (∀ w ∈ [(0 : Word)], w.extractLsb' 0 2 ≠ 3) ∧ (∀ w ∈ [(0 : Word)].dropLast, wordEndsClause w = false) ∧
      ([(0 : Word)].filter wordIsVariable).length ≤ 2 :=
    ⟨by simp, by simp, (List.length_filter_le _ _).trans (by simp)⟩
  have hslices := congrArg slices (hstarts hnowait (by decide) hbody)
  rw [slices_clauseHeader] at hslices
  exact absurd (hslices.trans (slices_moved _)) (by decide)

/-- Refutes O21: with two warps of one rank in the block, the start of a clause keeps the second warp, and `ClauseStart` says that it becomes a
copy of the first. -/
theorem not_clausesAndWaitsAtIssue : ¬ Obligations.ClausesAndWaitsAtIssue := by
  rintro ⟨-, -, hclause, -⟩
  exact not_clauseStart hclause

end Sys2Proof.Machine
end

section
/-! PROOFS. Data instructions at issue: what the shared shapes of R53, R117 and R118 come to, with their operands and values as the statements
write them. -/

namespace Sys2Proof.Machine

open Sys2Proof.Claims

variable {s : State} {f : Fields} {c : Ctx} {m : Mnem}

/-! ## The shapes of an instruction that issues -/

/-- An instruction of fixed latency that issues writes its warp and goes on. -/
theorem fixedOp_of_issues (h : Issues m f s c) (g : Ctx → LaneMask → Warp) :
    fixedOp m f s g = .next (after s c (g c (c.active f.guard))) :=
  issue_of_issues h _

theorem scalarOp_of_issues (h : Issues m f s c) (g : Ctx → DWord) : scalarOp m f s g = .next (after s c (c.w.setScalar f.d.toNat (g c))) :=
  fixedOp_of_issues h _

theorem vectorOp_of_issues (h : Issues m f s c) (t : Nat) (g : Warp → Nat → Nat) : vectorOp m f s t g = .next (vector s c f t (g c.w)) :=
  fixedOp_of_issues h _

theorem maskOp_of_issues (h : Issues m f s c) (g : Ctx → LaneMask) : maskOp m f s g = .next (after s c (c.w.setMask f.d.toNat (g c))) :=
  fixedOp_of_issues h _

/-! ## Immediates (R53, R118) -/

theorem signedNat_toNat {n : Nat} (b : BitVec n) : signedNat n b.toNat = b.toInt := by
  rw [signedNat_eq_toInt, BitVec.ofNat_toNat, BitVec.setWidth_eq]

theorem toInt_immSigned (f : Fields) : (immSigned f).toInt = f.immS := by
  unfold Fields.immS immSigned
  cases f.form <;> dsimp only
  case w32 =>
    have hb : signedNat 6 f.b.toNat = signedNat 6 (f.b.extractLsb' 0 6).toNat := by simp [signedNat]
    rw [hb, signedNat_toNat, BitVec.toInt_signExtend_of_le (by omega)]
  case w64 => rw [signedNat_toNat, BitVec.toInt_signExtend_of_le (by omega)]
  case w96 => rw [BitVec.toInt_signExtend_of_le (by omega)]

theorem intBits_le (t : Nat) : intBits t ≤ 64 := by unfold intBits; split <;> omega

theorem intBits_pos (t : Nat) : 0 < intBits t := by unfold intBits; split <;> omega

/-- The low bits of a 64-bit number are those of its signed value. -/
theorem wrapBits_toInt {n : Nat} (hn : n ≤ 64) (x : DWord) : wrapBits n x.toInt = x.toNat % 2 ^ n := by
  obtain ⟨k, hk⟩ : (2 : Int) ^ n ∣ 2 ^ 64 := pow_dvd_pow 2 hn
  have hmod : x.toInt % 2 ^ n = (x.toNat : Int) % 2 ^ n := by
    rw [BitVec.toInt_eq_toNat_bmod, ← Int.emod_emod_of_dvd (Int.bmod _ _) (pow_dvd_pow 2 hn), show (2 : Int) ^ 64 = (2 ^ 64 : Nat) from rfl,
      Int.bmod_emod, Int.emod_emod_of_dvd _ (by exact_mod_cast pow_dvd_pow 2 hn)]
  rw [wrapBits, hmod]
  exact_mod_cast Int.toNat_natCast (x.toNat % 2 ^ n)

theorem widened_sign (f : Fields) {n : Nat} (hn : n ≤ 64) : widened f .sign n = (immSigned f).toNat % 2 ^ n := by
  rw [widened, ← toInt_immSigned, wrapBits_toInt hn]

theorem widened_zero (f : Fields) (n : Nat) : widened f .zero n = (immUnsigned f).toNat % 2 ^ n := by
  rw [widened, toNat_immUnsigned]

/-- The immediate widened as an operand position has it. -/
def immediateOf (f : Fields) (u : Widen) : DWord := match u with | .sign => immSigned f | .zero => immUnsigned f

theorem widened_eq (f : Fields) (u : Widen) {n : Nat} (hn : n ≤ 64) : widened f u n = (immediateOf f u).toNat % 2 ^ n := by
  cases u with
  | sign => exact widened_sign f hn
  | zero => exact widened_zero f n

/-- Operand B of a scalar instruction. -/
theorem bScalar_eq (w : Warp) (f : Fields) (u : Widen) : bScalar w f u = scalarB w f (immediateOf f u) := by
  have himm : BitVec.ofNat 64 (widened f u 64) = immediateOf f u := by
    rw [widened_eq f u le_rfl, Nat.mod_eq_of_lt (immediateOf f u).isLt, BitVec.ofNat_toNat, BitVec.setWidth_eq]
  rw [bScalar, scalarB, himm]

/-- Operand B of a vector instruction. -/
theorem bElem_eq (w : Warp) (f : Fields) (u : Widen) (t l : Nat) : bElem w f u t l = vectorB w f (immediateOf f u) t l := by
  rw [bElem, vectorB, widened_eq f u (intBits_le t)]

theorem immediateOf_compareWiden (f : Fields) (b : Bool) : immediateOf f (compareWiden b) = if b then immSigned f else immUnsigned f := by
  cases b <;> rfl

/-! ## Elements and their values (R71, R72, R117) -/

theorem rawElem_lt (w : Warp) (t n l : Nat) : w.rawElem t n l < 2 ^ intBits t := by
  unfold Warp.rawElem
  split
  · next h =>
    have hbits : intBits t = 64 := by unfold intBits; split <;> omega
    rw [hbits]
    exact (w.pair n l).isLt
  · exact Nat.mod_lt _ (Nat.two_pow_pos _)

theorem vectorB_lt (w : Warp) (f : Fields) (imm : DWord) (t l : Nat) : vectorB w f imm t l < 2 ^ intBits t := by
  unfold vectorB
  split
  · exact Nat.mod_lt _ (Nat.two_pow_pos _)
  · exact rawElem_lt w t _ l

theorem intSigned_iff (t : Nat) : intSigned t = true ↔ t % 2 = 0 := beq_iff_eq

theorem two_pow_intBits (t : Nat) : 2 ^ intBits t = 2 * 2 ^ (intBits t - 1) := by
  rw [← Nat.pow_succ', Nat.succ_eq_add_one, Nat.sub_add_cancel (intBits_pos t)]

theorem intValue_eq {t x : Nat} (hx : x < 2 ^ intBits t) : intValue t x = typedValue t x := by
  have hpow := two_pow_intBits t
  unfold intValue typedValue signedNat
  rw [Nat.mod_eq_of_lt hx]
  simp only [intSigned_iff]
  by_cases h : t % 2 = 0
  · simp only [h, true_and, if_true]
    split_ifs <;> omega
  · simp [h]

theorem intMin_eq (t : Nat) : intMin t = low t := by simp only [intMin, low, intSigned_iff]

theorem intMax_eq (t : Nat) : intMax t = high t := by simp only [intMax, high, intSigned_iff]

theorem low_le_high (t : Nat) : low t ≤ high t := by
  have h : (0 : Int) < 2 ^ (intBits t - 1) := by positivity
  have h' : (0 : Int) < 2 ^ intBits t := by positivity
  unfold low high
  split <;> omega

theorem intClamp_eq (t : Nat) (x : Int) : intClamp t x = clamped t x := by
  have := low_le_high t
  rw [intClamp, clamped, intMin_eq, intMax_eq]
  split_ifs <;> omega

theorem intResult_eq (t : Nat) (sat : Bool) (x : Int) : intResult t sat x = bitsOf t (if sat then clamped t x else x) := by
  rw [intResult, intClamp_eq]
  rfl

theorem bitsOf_lt (t : Nat) (x : Int) : bitsOf t x < 2 ^ intBits t := by
  have hpos : (0 : Int) < 2 ^ intBits t := by positivity
  have h := Int.emod_lt_of_pos x hpos
  have h0 := Int.emod_nonneg x hpos.ne'
  zify [bitsOf]
  rwa [Int.toNat_of_nonneg h0]

/-- Integers that agree modulo 2^n have the same bits. -/
theorem bitsOf_congr {t : Nat} {x y : Int} (h : x ≡ y [ZMOD 2 ^ intBits t]) : bitsOf t x = bitsOf t y := by rw [bitsOf, bitsOf, h]

theorem bitsOf_natCast (t x : Nat) : bitsOf t x = x % 2 ^ intBits t := by
  unfold bitsOf
  exact_mod_cast Int.toNat_natCast (x % 2 ^ intBits t)

/-- The value of bits in a type agrees with the bits modulo 2^n. -/
theorem typedValue_modEq (t x : Nat) : typedValue t x ≡ x [ZMOD 2 ^ intBits t] := by
  unfold typedValue
  split
  · exact Int.modEq_iff_dvd.mpr ⟨1, by ring⟩
  · rfl

/-- The bits of the value of bits are those bits. -/
theorem bitsOf_typedValue {t x : Nat} (hx : x < 2 ^ intBits t) : bitsOf t (typedValue t x) = x := by
  rw [bitsOf_congr (typedValue_modEq t x), bitsOf_natCast, Nat.mod_eq_of_lt hx]

end Sys2Proof.Machine
end

section
/-! PROOFS. Scalar integer instructions (R72, R118, R120): sums, differences, products, bitwise results, moves, immediates and saturation. -/

namespace Sys2Proof.Machine

open Sys2Proof.Claims

variable {s : State} {f : Fields} {c : Ctx} {m : Mnem}

/-! ## The value of a scalar operand -/

/-- The type code of the range that `.u` names: N64, else I64. -/
def wideCode (u : Bool) : Nat := if u then 7 else 6

theorem ofInt_toNat (x : DWord) : BitVec.ofInt 64 (x.toNat : Int) = x := by
  rw [BitVec.ofInt_natCast, BitVec.ofNat_toNat, BitVec.setWidth_eq]

@[simp] theorem ofInt_scalarInt (u : Bool) (x : DWord) : BitVec.ofInt 64 (scalarInt u x) = x := by
  cases u
  · exact BitVec.ofInt_toInt
  · exact ofInt_toNat x

theorem scalarInt_eq_typedValue (u : Bool) (x : DWord) : scalarInt u x = typedValue (wideCode u) x.toNat := by
  have hx := x.isLt
  cases u
  · rw [scalarInt, if_neg Bool.false_ne_true, BitVec.toInt_eq_toNat_cond, typedValue, wideCode, if_neg Bool.false_ne_true]
    norm_num [intBits]
    split_ifs <;> omega
  · simp [scalarInt, typedValue, wideCode]

/-! ## Arithmetic -/

theorem scalarArith_of_issues (h : Issues m f s c) (g : Int → Int → Int → Int) :
    scalarArith m f s g = .next (after s c (c.w.setScalar f.d.toNat (scalarResult f
      (g (scalarInt (unsignedBit f) (c.w.scalar f.a.toNat)) (scalarInt (unsignedBit f) (scalarB c.w f (immSigned f)))
        (scalarInt (unsignedBit f) (c.w.scalar f.c.toNat)))))) := by
  rw [scalarArith, scalarOp_of_issues h, bScalar_eq]
  rfl

theorem scalarBits_of_issues (h : Issues m f s c) (g : DWord → DWord → DWord) :
    scalarBits m f s g = .next (after s c (c.w.setScalar f.d.toNat (g (c.w.scalar f.a.toNat) (scalarB c.w f (immSigned f))))) := by
  rw [scalarBits, scalarOp_of_issues h, bScalar_eq]
  rfl

theorem scalarResult_wraps (hsat : f.sat = false) (x : Int) : scalarResult f x = BitVec.ofInt 64 x := by
  simp [scalarResult, hsat]

theorem ofInt_sub (i j : Int) : BitVec.ofInt 64 (i - j) = BitVec.ofInt 64 i - BitVec.ofInt 64 j := by
  rw [sub_eq_add_neg, BitVec.ofInt_add, BitVec.ofInt_neg, BitVec.sub_eq_add_neg]

theorem scalarArithmetic : ScalarArithmetic := by
  intro s f c hsat a b x result
  have arith : ∀ {m} (g : Int → Int → Int → Int) (v : DWord → DWord → DWord → DWord),
      (∀ i j k, BitVec.ofInt 64 (g i j k) = v (BitVec.ofInt 64 i) (BitVec.ofInt 64 j) (BitVec.ofInt 64 k)) →
      Issues m f s c → scalarArith m f s g = result (v a b x) := fun g v hg h => by
    rw [scalarArith_of_issues h, scalarResult_wraps hsat, hg, ofInt_scalarInt, ofInt_scalarInt, ofInt_scalarInt]
  refine ⟨arith (fun a b _ => a + b) (fun a b _ => a + b) fun i j _ => BitVec.ofInt_add i j,
    arith (fun a b _ => a - b) (fun a b _ => a - b) fun i j _ => ofInt_sub i j,
    arith (fun a b _ => a * b) (fun a b _ => a * b) fun i j _ => BitVec.ofInt_mul i j,
    arith (fun a b x => a * b + x) (fun a b x => a * b + x) fun i j k => by rw [BitVec.ofInt_add, BitVec.ofInt_mul],
    fun h => scalarBits_of_issues h _, fun h => scalarBits_of_issues h _, fun h => scalarBits_of_issues h _, fun h => ?_,
    fun h => scalarOp_of_issues h _, fun h => ?_⟩
  · rw [BitVec.xor_allOnes]
    exact scalarBits_of_issues h fun a _ => ~~~a
  · exact (scalarOp_of_issues h _).trans (by rw [bScalar_eq]; rfl)

/-! ## High halves and selection -/

theorem high_half_ofInt (x : Int) : (BitVec.ofInt 128 x).extractLsb' 64 64 = BitVec.ofInt 64 (x / 2 ^ 64) := by
  apply BitVec.eq_of_toNat_eq
  zify
  rw [BitVec.extractLsb'_toNat, BitVec.toNat_ofInt, BitVec.toNat_ofInt, Nat.shiftRight_eq_div_pow]
  push_cast
  omega

theorem high_half_signed (a b : DWord) :
    (a.signExtend 128 * b.signExtend 128).extractLsb' 64 64 = BitVec.ofInt 64 (a.toInt * b.toInt / 2 ^ 64) := by
  rw [BitVec.signExtend, BitVec.signExtend, ← BitVec.ofInt_mul, high_half_ofInt]

theorem high_half_unsigned (a b : DWord) :
    (a.setWidth 128 * b.setWidth 128).extractLsb' 64 64 = BitVec.ofInt 64 ((a.toNat : Int) * b.toNat / 2 ^ 64) := by
  rw [← BitVec.ofNat_toNat, ← BitVec.ofNat_toNat, ← BitVec.ofInt_natCast, ← BitVec.ofInt_natCast, ← BitVec.ofInt_mul, high_half_ofInt]

theorem execSmulh_of_issues (h : Issues .smulh f s c) : exec (.smulh f) s = .next (after s c (c.w.setScalar f.d.toNat
    (BitVec.ofInt 64 (scalarInt (unsignedBit f) (c.w.scalar f.a.toNat) *
      scalarInt (unsignedBit f) (scalarB c.w f (if !unsignedBit f then immSigned f else immUnsigned f)) / 2 ^ 64)))) :=
  (scalarOp_of_issues h _).trans (by rw [bScalar_eq, immediateOf_compareWiden])

theorem scalarHighHalves : ScalarHighHalves := by
  intro s f c a result
  refine ⟨fun h hu => ?_, fun h hu => ?_, fun h => ?_, fun h => ?_⟩
  · rw [execSmulh_of_issues h, unsignedBit, hu]
    exact congrArg result (high_half_signed _ _).symm
  · rw [execSmulh_of_issues h, unsignedBit, hu]
    exact congrArg result (high_half_unsigned _ _).symm
  · refine (scalarOp_of_issues h _).trans (congrArg (fun v => result (v ++ _)) ?_)
    rw [widened_sign f (by omega)]
    exact BitVec.eq_of_toNat_eq (by simp)
  · refine (scalarOp_of_issues h _).trans (congrArg result ?_)
    rw [bScalar_eq]
    by_cases hc : c.w.scalar f.c.toNat = 0 <;> simp [hc, a] <;> rfl

/-! ## Saturation -/

theorem scalarSaturation : ScalarSaturation := by
  intro s f c hsat t v a b x result
  have arith : ∀ {m} (g : Int → Int → Int → Int), Issues m f s c → scalarArith m f s g = result (g a b x) := fun g h => by
    rw [scalarArith_of_issues h, scalarResult, hsat, if_pos rfl, intClamp_eq, scalarInt_eq_typedValue, scalarInt_eq_typedValue,
      scalarInt_eq_typedValue]
    rfl
  exact ⟨arith fun a b _ => a + b, arith fun a b _ => a - b, arith fun a b _ => a * b, arith fun a b x => a * b + x⟩

/-- Settles O1. -/
theorem scalarResults : Obligations.ScalarResults := ⟨scalarArithmetic, scalarHighHalves, scalarSaturation⟩

end Sys2Proof.Machine
end

section
/-! PROOFS. Scalar shifts, comparisons and bit counts (R120, R128), with the counts of set bits and zeros of a number. -/

namespace Sys2Proof.Machine

open Sys2Proof.Claims

variable {s : State} {f : Fields} {c : Ctx} {m : Mnem}

/-! ## Bits of a number -/

theorem natBit_eq_testBit (x i : Nat) : natBit x i = x.testBit i := by
  rw [natBit, Nat.testBit_eq_decide_div_mod_eq, Nat.shiftRight_eq_div_pow, beq_eq_decide]

theorem popCount_eq (n x : Nat) : popCount n x = (List.range n).countP fun i => x.testBit i := by
  simp only [popCount, natBit_eq_testBit, List.countP_eq_length_filter]

theorem trailingZeros_spec (n x : Nat) : trailingZeros n x ≤ n ∧ (∀ i, i < trailingZeros n x → x.testBit i = false) ∧
    (trailingZeros n x < n → x.testBit (trailingZeros n x) = true) := by
  simp only [trailingZeros, natBit_eq_testBit]
  cases h : (List.range n).find? fun i => x.testBit i with
  | none => exact ⟨le_rfl, fun i hi => by simpa using List.find?_eq_none.mp h i (List.mem_range.mpr hi), fun hlt => absurd hlt (lt_irrefl n)⟩
  | some k =>
    obtain ⟨hk, hlt, hbefore⟩ := List.find?_range_eq_some.mp h
    exact ⟨(List.mem_range.mp hlt).le, fun i hi => by simpa using hbefore i hi, fun _ => hk⟩

theorem leadingZeros_spec {n x : Nat} (hx : x < 2 ^ n) : leadingZeros n x ≤ n ∧
    (∀ i, i < n → n - leadingZeros n x ≤ i → x.testBit i = false) ∧
    (leadingZeros n x < n → x.testBit (n - 1 - leadingZeros n x) = true) := by
  unfold leadingZeros
  rw [Nat.mod_eq_of_lt hx]
  rcases eq_or_ne x 0 with rfl | h0
  · simp
  · have hlog : x.log2 < n := (Nat.log2_lt h0).mpr hx
    simp only [beq_iff_eq, h0, if_false]
    refine ⟨by omega, fun i _ hi => Nat.testBit_lt_two_pow ?_, fun _ => ?_⟩
    · exact Nat.lt_log2_self.trans_le (Nat.pow_le_pow_right two_pos (by omega))
    · rw [show n - 1 - (n - 1 - x.log2) = x.log2 by omega]
      exact Nat.testBit_log2 h0

/-! ## Shifts -/

theorem scalarShift_of_issues (h : Issues m f s c) (g : DWord → Nat → DWord) : scalarShift m f s g =
    .next (after s c (c.w.setScalar f.d.toNat (g (c.w.scalar f.a.toNat) (scalarB c.w f (immUnsigned f)).toNat))) := by
  rw [scalarShift, scalarOp_of_issues h, bScalar_eq]
  rfl

theorem getLsbD_shiftLeft_whole (a : DWord) (n : Nat) {k : Nat} (hk : k < 64) :
    BitVec.getLsbD (if 64 ≤ n then 0 else a <<< n) k = (decide (n ≤ k) && a.getLsbD (k - n)) := by
  have hzero : (if 64 ≤ n then 0 else a <<< n) = a <<< n := ite_eq_right_iff.mpr fun hn => (BitVec.shiftLeft_eq_zero hn).symm
  rw [hzero, BitVec.getLsbD_shiftLeft, decide_eq_true hk, Bool.true_and, ← decide_not]
  simp only [not_lt]

theorem getLsbD_ushiftRight_whole (a : DWord) (n k : Nat) : BitVec.getLsbD (if 64 ≤ n then 0 else a >>> n) k = a.getLsbD (k + n) := by
  have hzero : (if 64 ≤ n then 0 else a >>> n) = a >>> n := ite_eq_right_iff.mpr fun hn => (BitVec.ushiftRight_eq_zero hn).symm
  rw [hzero, BitVec.getLsbD_ushiftRight, add_comm]

theorem getLsbD_sshiftRight_whole (a : DWord) (n : Nat) {k : Nat} (hk : k < 64) :
    (a.sshiftRight (min n 63)).getLsbD k = a.getLsbD (min (k + n) 63) := by
  rw [BitVec.getLsbD_sshiftRight, decide_eq_false (by omega), BitVec.msb_eq_getLsbD_last, Bool.not_false, Bool.true_and]
  split
  · congr 1
    omega
  · congr 1
    omega

theorem scalarShifts : ScalarShifts := by
  intro s f c a n written
  exact ⟨fun h => ⟨_, scalarShift_of_issues h fun a b => if 64 ≤ b then 0 else a <<< b, fun k hk => getLsbD_shiftLeft_whole a n hk⟩,
    fun h => ⟨_, scalarShift_of_issues h fun a b => if 64 ≤ b then 0 else a >>> b, fun k _ => getLsbD_ushiftRight_whole a n k⟩,
    fun h => ⟨_, scalarShift_of_issues h fun a b => a.sshiftRight (min b 63), fun k hk => getLsbD_sshiftRight_whole a n hk⟩⟩

/-! ## Comparisons -/

theorem scalarCompare_of_issues (h : Issues m f s c) (g : DWord → DWord → (Cmp → Bool) → DWord) :
    let u := unsignedBit f
    let a := c.w.scalar f.a.toNat
    let b := scalarB c.w f (if u then immUnsigned f else immSigned f)
    scalarCompare m f s g = .next (after s c (c.w.setScalar f.d.toNat (g a b fun k => k.holds (scalarInt u a) (scalarInt u b)))) := by
  intro u a b
  have himm : (if !u then immSigned f else immUnsigned f) = if u then immUnsigned f else immSigned f := by cases u <;> rfl
  rw [scalarCompare, scalarOp_of_issues h, bScalar_eq, immediateOf_compareWiden, himm]

/-- The order of two operands, by `.u`. -/
def scalarLess (u : Bool) (x y : DWord) : Bool := if u then x.ult y else x.slt y

theorem scalarLess_iff (u : Bool) (x y : DWord) : scalarLess u x y = true ↔ scalarInt u x < scalarInt u y := by
  cases u
  · exact BitVec.slt_iff_toInt_lt
  · simp [scalarLess, scalarInt, BitVec.ult]

theorem scalarInt_inj {u : Bool} {x y : DWord} : scalarInt u x = scalarInt u y ↔ x = y :=
  ⟨fun h => by rw [← ofInt_scalarInt u x, h, ofInt_scalarInt], congrArg _⟩

/-- What each comparison code tests of two operands (R120). -/
theorem holds_scalarInt (u : Bool) (x y : DWord) : ∀ k : Cmp, k.holds (scalarInt u x) (scalarInt u y) = match k with
    | .eq => decide (x = y)
    | .ne => decide (x ≠ y)
    | .lt => scalarLess u x y
    | .le => !scalarLess u y x
    | .gt => scalarLess u y x
    | .ge => !scalarLess u x y
    | .ord => true
    | .uno => false := by
  have hless : ∀ a b : DWord, scalarLess u a b = decide (scalarInt u a < scalarInt u b) := fun a b =>
    Bool.eq_iff_iff.mpr (by rw [scalarLess_iff, decide_eq_true_eq])
  intro k
  cases k <;> exact Bool.eq_iff_iff.mpr (by simp [Cmp.holds, hless, scalarInt_inj])

theorem scalarComparisons : ScalarComparisons := by
  intro s f c u a b less result
  have holds := fun k => holds_scalarInt u a b k
  refine ⟨fun h => (scalarCompare_of_issues h fun a b cmp => if cmp .le then a else b).trans (congrArg result ?_),
    fun h => (scalarCompare_of_issues h fun a b cmp => if cmp .ge then a else b).trans (congrArg result ?_),
    fun h t ht => (scalarCompare_of_issues h fun _ _ cmp => if cmp (Cmp.ofSub f.sub) then 1 else 0).trans (congrArg result ?_)⟩
  · change (if Cmp.holds .le (scalarInt u a) (scalarInt u b) then a else b) = if scalarLess u b a then b else a
    rw [holds]
    cases scalarLess u b a <;> rfl
  · change (if Cmp.holds .ge (scalarInt u a) (scalarInt u b) then a else b) = if scalarLess u a b then b else a
    rw [holds]
    cases scalarLess u a b <;> rfl
  · change (if Cmp.holds (Cmp.ofSub f.sub) (scalarInt u a) (scalarInt u b) then 1 else 0) = if t then 1 else 0
    rw [holds]
    rcases ht with ⟨hsub, rfl⟩ | ⟨hsub, rfl⟩ | ⟨hsub, rfl⟩ | ⟨hsub, rfl⟩ | ⟨hsub, rfl⟩ | ⟨hsub, rfl⟩ <;> rw [hsub] <;> rfl

/-! ## Counts -/

theorem scalarCounts : ScalarCounts := by
  intro s f c a k counted least leading
  exact ⟨fun h => ⟨_, popCount_eq 64 _, scalarOp_of_issues h _⟩, fun h => ⟨_, leadingZeros_spec a.isLt, scalarOp_of_issues h _⟩,
    fun h => ⟨_, trailingZeros_spec 64 _, scalarOp_of_issues h _⟩, fun h => ⟨_, popCount_eq 64 _, scalarOp_of_issues h _⟩,
    fun h => ⟨_, trailingZeros_spec 64 _, scalarOp_of_issues h _⟩⟩

/-- Settles O2. -/
theorem scalarBitsAndComparisons : Obligations.ScalarBitsAndComparisons := ⟨scalarShifts, scalarComparisons, scalarCounts⟩

end Sys2Proof.Machine
end

section
/-! PROOFS. What an instruction that writes its own warp leaves unchanged (R14, R120, R128), and the scalar register file. -/

namespace Sys2Proof.Machine

open Sys2Proof.Claims

variable {s t : State} {f : Fields} {c : Ctx} {m : Mnem} {w v u : Warp}

/-! ## The rest of the machine -/

/-- A block but for its warps. -/
def Block.shell (b : Block) : Block := { b with warps := [] }

theorem Sys.shell_putWarp (y : Sys) (r : WarpRef) (w : Warp) (i : Nat) : ((y.putWarp r w).block i).map Block.shell = (y.block i).map Block.shell := by
  unfold Sys.putWarp Sys.setWarp
  rcases eq_or_ne i r.block with rfl | hi
  · rw [Sys.block_setBlock_same y r.block (fun b => b.setWarp r.rank fun _ => w) fun _ => rfl, Option.map_map]
    rfl
  · rw [Sys.block_setBlock_other y r.block i (fun b => b.setWarp r.rank fun _ => w) (fun _ => rfl) hi]

/-- An instruction that writes its own warp leaves the rest of the machine. -/
theorem elsewhereSame_after (hc : s.sys.issuing = some c) (hr : w.rank = c.w.rank) : ElsewhereSame s (after s c w) c.ref :=
  ⟨fun _ => rfl, fun _ => rfl, s.sys.shell_putWarp c.ref _, fun q hq => Sys.warp_putWarp_other _ _ _ _ (by simp [hr, Ctx.rank_eq hc]) hq⟩

theorem warp_after (hc : s.sys.issuing = some c) (hr : w.rank = c.w.rank) :
    (after s c w).sys.warp c.ref = some (w.setSlot c.z fun z => z.step s.sys.words) := by
  obtain ⟨-, hb, hw⟩ := Sys.issuing_some hc
  exact Sys.warp_putWarp_same _ _ _ _ _ hb hw (by simp [hr, Ctx.rank_eq hc])

/-! ## The state that no data instruction writes -/

theorem controlSame_trans (h : ControlSame w v) (h' : ControlSame v u) : ControlSame w u := by
  unfold ControlSame at *
  simp_all

theorem controlSame_setSlot (w : Warp) (z : SlotId) (g : PcSlot → PcSlot) : ControlSame w (w.setSlot z g) := by simp [ControlSame]

theorem controlSame_setScalar (w : Warp) (n : Nat) (x : DWord) : ControlSame w (w.setScalar n x) := by simp [ControlSame]

@[simp] theorem Warp.scalar_setSlot (w : Warp) (z : SlotId) (g : PcSlot → PcSlot) (n : Nat) : (w.setSlot z g).scalar n = w.scalar n := by
  simp [Warp.scalar]

@[simp] theorem Warp.elem_setSlot (w : Warp) (z : SlotId) (g : PcSlot → PcSlot) (n l : Nat) : (w.setSlot z g).elem n l = w.elem n l := by
  simp [Warp.elem]

@[simp] theorem Warp.elemPoisoned_setSlot (w : Warp) (z : SlotId) (g : PcSlot → PcSlot) (n l : Nat) :
    (w.setSlot z g).elemPoisoned n l = w.elemPoisoned n l := by simp [Warp.elemPoisoned]

@[simp] theorem Warp.elem_setScalar (w : Warp) (k : Nat) (x : DWord) (n l : Nat) : (w.setScalar k x).elem n l = w.elem n l := by
  simp [Warp.elem]

@[simp] theorem Warp.elemPoisoned_setScalar (w : Warp) (k : Nat) (x : DWord) (n l : Nat) :
    (w.setScalar k x).elemPoisoned n l = w.elemPoisoned n l := by simp [Warp.elemPoisoned]

/-! ## The scalar instructions -/

theorem scalarFrame_after (hc : s.sys.issuing = some c) (d : Nat) (x : DWord) : ScalarFrame s (after s c (c.w.setScalar d x)) c d := by
  have hr : (c.w.setScalar d x).rank = c.w.rank := by simp
  refine ⟨elsewhereSame_after hc hr, _, warp_after hc hr, controlSame_trans (controlSame_setScalar _ _ _) (controlSame_setSlot _ _ _), by simp, fun n hn => ?_,
    fun n => by simp, fun n l => by simp⟩
  rw [Warp.scalar_setSlot, Warp.scalar_setScalar_other _ _ _ _ hn]

/-- SRD writes one scalar register too. -/
theorem exec_srd_of_issues (h : Issues .srd f s c) :
    exec (.srd f) s = .next (after s c (c.w.setScalar f.d.toNat (BitVec.ofNat 64 (statusRegister s.sys c f.statusNumber)))) :=
  issue_of_issues h _

/-- Every scalar and every mask-reading instruction writes `s[D]` alone. -/
theorem scalarFrames : ScalarFrames := by
  intro s t f c x hx h hexec
  have written : ∃ v, exec x.2 s = .next (after s c (c.w.setScalar f.d.toNat v)) := by
    by_cases hsrd : x = (.srd, .srd f)
    · subst hsrd
      exact ⟨_, exec_srd_of_issues h⟩
    have shape : ∃ g, exec x.2 s = scalarOp x.1 f s g := by
      simp only [List.mem_cons, List.not_mem_nil, or_false, hsrd, false_or] at hx
      rcases hx with rfl | rfl | rfl | rfl | rfl | rfl | rfl | rfl | rfl | rfl | rfl | rfl | rfl | rfl | rfl | rfl | rfl | rfl | rfl | rfl |
        rfl | rfl | rfl | rfl | rfl | rfl | rfl | rfl | rfl | rfl | rfl | rfl | rfl | rfl | rfl <;> exact ⟨_, rfl⟩
    obtain ⟨g, hg⟩ := shape
    exact ⟨_, hg.trans (scalarOp_of_issues h g)⟩
  obtain ⟨v, hv⟩ := written
  cases hexec.symm.trans hv
  exact scalarFrame_after h.1 _ v

/-! ## The scalar register file (R14) -/

theorem Warp.setScalar_63 (w : Warp) (x : DWord) : w.setScalar 63 x = w := rfl

theorem scalarRegisterFile : ScalarRegisterFile := by
  intro w n k x
  refine ⟨rfl, rfl, w.setScalar_63 x, fun hn => ⟨w.scalar_setScalar_same n x hn, ?_⟩, fun hk => ⟨w.scalar_setScalar_other n k x hk, ?_⟩⟩
  · simp [Warp.setScalar, hn]
  · unfold Warp.setScalar
    split
    · rfl
    · exact NatSet.has_del_other _ _ _ hk

/-- Settles O3. -/
theorem scalarRegistersAndFrames : Obligations.ScalarRegistersAndFrames := ⟨scalarFrames, scalarRegisterFile⟩

end Sys2Proof.Machine
end

section
/-! PROOFS. The vector and mask registers after a write (R14, R15, R117 (c)). -/

namespace Sys2Proof.Machine

open Sys2Proof.Claims

variable {w v u : Warp} {t n k l : Nat}

/-! ## One element -/

/-- An element of a register, and its poison, are the same in two warps. -/
def SameElem (w v : Warp) (k l : Nat) : Prop := v.elem k l = w.elem k l ∧ v.elemPoisoned k l = w.elemPoisoned k l

theorem SameElem.trans (h : SameElem w v k l) (h' : SameElem v u k l) : SameElem w u k l := ⟨h'.1.trans h.1, h'.2.trans h.2⟩

@[simp] theorem Warp.elemPoisoned_setElem_same (w : Warp) (n l : Nat) (x : Word) : (w.setElem n l x).elemPoisoned n l = false := by
  simp [Warp.setElem, Warp.elemPoisoned]

theorem sameElem_setElem (x : Word) (h : elemKey k l ≠ elemKey n t) : SameElem w (w.setElem n t x) k l :=
  ⟨w.elem_setElem_other n t k l x h, NatSet.has_del_other _ _ _ h⟩

/-! ## A typed element -/

/-- The registers of a typed element: one, or an even-aligned pair (R15). -/
def InElem (t n k : Nat) : Prop := k = n ∨ (6 ≤ t ∧ k = n + 1)

/-- A typed element reads as written, with its poison lifted. -/
def ElemWritten (t n : Nat) (v : Warp) (x : Nat × Nat) : Prop :=
  v.rawElem t n x.1 = x.2 % 2 ^ intBits t ∧ v.elemPoisoned n x.1 = false ∧
    (t < 6 → v.elem n x.1 = BitVec.ofInt 32 (typedValue t (x.2 % 2 ^ intBits t))) ∧
    (6 ≤ t → v.pair n x.1 = BitVec.ofNat 64 x.2 ∧ v.elemPoisoned (n + 1) x.1 = false)

theorem intBits_of_wide (h : 6 ≤ t) : intBits t = 64 := by unfold intBits; split <;> omega

theorem intBits_of_narrow (h : t < 6) : intBits t ≤ 32 := by interval_cases t <;> decide

theorem intValue_mod (t x : Nat) : intValue t (x % 2 ^ intBits t) = intValue t x := by simp [intValue, signedNat]

theorem extendResult_eq (t x : Nat) : extendResult t x = BitVec.ofInt 32 (typedValue t (x % 2 ^ intBits t)) := by
  rw [extendResult, ← intValue_eq (Nat.mod_lt _ (Nat.two_pow_pos _)), intValue_mod]

/-- A narrow result in its register element keeps its bits. -/
theorem extendResult_toNat_mod (h : t < 6) (x : Nat) : (extendResult t x).toNat % 2 ^ intBits t = x % 2 ^ intBits t := by
  have hdvd : (2 : Int) ^ intBits t ∣ 4294967296 := (pow_dvd_pow 2 (intBits_of_narrow h)).trans (by norm_num)
  rw [extendResult_eq, BitVec.toNat_ofInt]
  zify
  rw [Int.toNat_of_nonneg (Int.emod_nonneg _ (by positivity))]
  push_cast
  rw [Int.emod_emod_of_dvd _ hdvd, typedValue_modEq t]
  push_cast
  rw [Int.emod_emod]

theorem pair_setPair (w : Warp) (n l : Nat) (x : DWord) : (w.setPair n l x).pair n l = x := by
  have hkey : elemKey n l ≠ elemKey (n + 1) l := by unfold elemKey; omega
  rw [Warp.pair, Warp.setPair, Warp.elem_setElem_same, Warp.elem_setElem_other _ _ _ _ _ _ hkey, Warp.elem_setElem_same]
  ext i hi
  simp only [BitVec.getElem_append, BitVec.getElem_setWidth, BitVec.getElem_extractLsb']
  split
  · exact BitVec.getLsbD_eq_getElem hi
  · rw [BitVec.getLsbD_eq_getElem (by omega)]
    congr 1
    omega

theorem elemWritten_putElem (t n : Nat) (w : Warp) (x : Nat × Nat) : ElemWritten t n (w.putElem t n x.1 x.2) x := by
  obtain ⟨l, raw⟩ := x
  by_cases h : 6 ≤ t
  · have hkey : elemKey n l ≠ elemKey (n + 1) l := by unfold elemKey; omega
    simp only [ElemWritten, Warp.rawElem, Warp.putElem, h, if_true, pair_setPair, intBits_of_wide h]
    refine ⟨BitVec.toNat_ofNat _ _, ?_, fun h' => absurd h h'.not_ge, fun _ => ⟨trivial, by simp [Warp.setPair]⟩⟩
    rw [Warp.setPair, (sameElem_setElem _ hkey).2, Warp.elemPoisoned_setElem_same]
  · simp only [ElemWritten, Warp.rawElem, Warp.putElem, h, if_false, Warp.elem_setElem_same, Warp.elemPoisoned_setElem_same]
    exact ⟨extendResult_toNat_mod (not_le.mp h) raw, trivial, fun _ => extendResult_eq t raw, fun h' => h'.elim⟩

theorem ElemWritten.of_same {x : Nat × Nat} (h : ElemWritten t n w x) (hsame : ∀ k, InElem t n k → SameElem w v k x.1) :
    ElemWritten t n v x := by
  obtain ⟨hraw, hpoison, hnarrow, hwide⟩ := h
  obtain ⟨helem, hclean⟩ := hsame n (.inl rfl)
  by_cases ht : 6 ≤ t
  · obtain ⟨helem', hclean'⟩ := hsame (n + 1) (.inr ⟨ht, rfl⟩)
    have hpair : v.pair n x.1 = w.pair n x.1 := by rw [Warp.pair, Warp.pair, helem, helem']
    refine ⟨?_, hclean.trans hpoison, fun h' => absurd ht h'.not_ge, fun h' => ⟨hpair.trans (hwide h').1, hclean'.trans (hwide h').2⟩⟩
    simpa only [Warp.rawElem, hpair, helem] using hraw
  · refine ⟨?_, hclean.trans hpoison, fun h' => helem.trans (hnarrow h'), fun h' => absurd h' ht⟩
    simpa only [Warp.rawElem, ht, if_false, helem] using hraw

theorem sameElem_putElem {raw : Nat} (hl : l < 64) {j : Nat} (hj : j < 64) (h : ¬ (InElem t n k ∧ l = j)) :
    SameElem w (w.putElem t n j raw) k l := by
  have hkey : ∀ i, InElem t n i → elemKey k l ≠ elemKey i j := fun i hi heq => by
    obtain ⟨rfl, rfl⟩ := (elemKey_inj hl hj).mp heq
    exact h ⟨hi, rfl⟩
  unfold Warp.putElem
  split
  · next ht => exact (sameElem_setElem _ (hkey n (.inl rfl))).trans (sameElem_setElem _ (hkey (n + 1) (.inr ⟨ht, rfl⟩)))
  · exact sameElem_setElem _ (hkey n (.inl rfl))

theorem sameElem_setElem_lane {x : Word} (hl : l < 64) {j : Nat} (hj : j < 64) (h : ¬ (k = n ∧ l = j)) : SameElem w (w.setElem n j x) k l :=
  sameElem_setElem x fun heq => h ((elemKey_inj hl hj).mp heq)

/-! ## Elements written lane by lane -/

section Lanes

variable {α : Type} {step : Warp → Nat × α → Warp} {foot : Nat → Prop}
  (hstep : ∀ w x k l, l < 64 → x.1 < 64 → ¬ (foot k ∧ l = x.1) → SameElem w (step w x) k l)

include hstep

/-- Writes lane by lane leave every element outside their registers and lanes. -/
theorem sameElem_foldl (w : Warp) (vals : List (Nat × α)) (hlanes : ∀ x ∈ vals, x.1 < 64) (hl : l < 64)
    (h : ¬ (foot k ∧ l ∈ vals.map Prod.fst)) : SameElem w (vals.foldl step w) k l := by
  induction vals generalizing w with
  | nil => exact ⟨rfl, rfl⟩
  | cons x xs ih =>
    obtain ⟨hx, hxs⟩ := List.forall_mem_cons.mp hlanes
    rw [List.map_cons, List.mem_cons] at h
    exact (hstep w x k l hl hx fun h' => h ⟨h'.1, .inl h'.2⟩).trans (ih _ hxs fun h' => h ⟨h'.1, .inr h'.2⟩)

/-- What one write leaves in its own lane stands after writes in other lanes. -/
theorem written_foldl {Q : Warp → Nat × α → Prop} (hQ : ∀ w x, Q (step w x) x)
    (hkeep : ∀ w v x, (∀ k, foot k → SameElem w v k x.1) → Q w x → Q v x) (w : Warp) (vals : List (Nat × α))
    (hnodup : (vals.map Prod.fst).Nodup) (hlanes : ∀ x ∈ vals, x.1 < 64) : ∀ x ∈ vals, Q (vals.foldl step w) x := by
  induction vals generalizing w with
  | nil => exact fun x hx => nomatch hx
  | cons y ys ih =>
    obtain ⟨hy, hys⟩ := List.forall_mem_cons.mp hlanes
    obtain ⟨hfresh, hnodup'⟩ := List.nodup_cons.mp hnodup
    refine List.forall_mem_cons.mpr ⟨?_, ih _ hnodup' hys⟩
    exact hkeep _ _ y (fun k _ => sameElem_foldl hstep _ ys hys hy fun h => hfresh h.2) (hQ w y)

end Lanes

theorem sameElem_putElems (vals : List (Nat × Nat)) (hlanes : ∀ x ∈ vals, x.1 < 64) (hl : l < 64)
    (h : ¬ (InElem t n k ∧ l ∈ vals.map Prod.fst)) : SameElem w (w.putElems t n vals) k l :=
  sameElem_foldl (fun _ _ _ _ hl hx h => sameElem_putElem hl hx h) w vals hlanes hl h

theorem sameElem_putWords (vals : List (Nat × Word)) (hlanes : ∀ x ∈ vals, x.1 < 64) (hl : l < 64)
    (h : ¬ (k = n ∧ l ∈ vals.map Prod.fst)) : SameElem w (w.putWords n vals) k l :=
  sameElem_foldl (foot := fun k => k = n) (fun _ _ _ _ hl hx h => sameElem_setElem_lane hl hx h) w vals hlanes hl h

/-! ## What writes of elements leave of the rest of the warp -/

/-- Nothing but vector elements differs between two warps. -/
structure VectorOnly (w v : Warp) : Prop where
  s : v.s = w.s
  m : v.m = w.m
  flags : v.flags = w.flags
  rank : v.rank = w.rank
  control : ControlSame w v

theorem VectorOnly.refl (w : Warp) : VectorOnly w w := ⟨rfl, rfl, rfl, rfl, by simp [ControlSame]⟩

theorem VectorOnly.trans (h : VectorOnly w v) (h' : VectorOnly v u) : VectorOnly w u :=
  ⟨h'.s.trans h.s, h'.m.trans h.m, h'.flags.trans h.flags, h'.rank.trans h.rank, controlSame_trans h.control h'.control⟩

theorem vectorOnly_setElem (w : Warp) (n l : Nat) (x : Word) : VectorOnly w (w.setElem n l x) := ⟨rfl, rfl, rfl, rfl, by simp [ControlSame]⟩

theorem vectorOnly_putElem (w : Warp) (t n l raw : Nat) : VectorOnly w (w.putElem t n l raw) := by
  unfold Warp.putElem
  split
  · exact (vectorOnly_setElem _ _ _ _).trans (vectorOnly_setElem _ _ _ _)
  · exact vectorOnly_setElem _ _ _ _

theorem vectorOnly_putElems (w : Warp) (t n : Nat) (vals : List (Nat × Nat)) : VectorOnly w (w.putElems t n vals) :=
  List.foldlRecOn vals _ (VectorOnly.refl w) fun _ hv x _ => hv.trans (vectorOnly_putElem _ t n x.1 x.2)

/-! ## The register files (R14, R15) -/

theorem vectorRegisterFile : VectorRegisterFile := by
  refine ⟨fun w t n vals hnodup hlanes => ?_, fun w n vals hnodup hlanes => ⟨?_, fun k l hl h => sameElem_putWords vals hlanes hl h⟩,
    fun w n k x => ⟨Sparse.get_put_same _ _ _, fun hk => Sparse.get_put_other _ _ _ _ hk, rfl, rfl⟩⟩
  · have hrest := vectorOnly_putElems w t n vals
    exact ⟨written_foldl (fun _ _ _ _ hl hx h => sameElem_putElem hl hx h) (elemWritten_putElem t n) (fun _ _ _ hsame h => h.of_same hsame) w vals
      hnodup hlanes, fun k l hl h => sameElem_putElems vals hlanes hl h, hrest.s, hrest.m, hrest.flags⟩
  · refine written_foldl (foot := fun k => k = n) (Q := fun v x => v.elem n x.1 = x.2 ∧ v.elemPoisoned n x.1 = false)
      (fun _ _ _ _ hl hx h => sameElem_setElem_lane hl hx h) (fun _ _ => by simp) (fun w v x hsame h => ?_) w vals hnodup hlanes
    obtain ⟨helem, hpoison⟩ := hsame n rfl
    exact ⟨helem.trans h.1, hpoison.trans h.2⟩

end Sys2Proof.Machine
end

section
/-! PROOFS. Bits of numbers (R9): a number put together of powers of 2, and the bits of the results of shifts, rotations and reversals (R121). -/

namespace Sys2Proof.Machine

open Sys2Proof.Claims

/-! ## Powers of 2 added -/

/-- A power of 2 added where its bit is clear sets that bit alone. -/
theorem testBit_add_two_pow {x k : Nat} (h : x.testBit k = false) (i : Nat) : (x + 2 ^ k).testBit i = (x.testBit i || k == i) := by
  have hlow := Nat.mod_lt x (Nat.two_pow_pos k)
  have heven : x / 2 ^ k % 2 = 0 := by
    rw [Nat.testBit_eq_decide_div_mod_eq, decide_eq_false_iff_not] at h
    omega
  obtain ⟨q, hq⟩ : ∃ q, x / 2 ^ k = 2 * q := ⟨x / 2 ^ k / 2, by omega⟩
  have hx : x = 2 ^ k * (2 * q) + x % 2 ^ k := by rw [← hq, Nat.div_add_mod]
  have hsum : x + 2 ^ k = 2 ^ k * (2 * q + 1) + x % 2 ^ k := by rw [mul_add, mul_one]; omega
  rw [hsum, Nat.testBit_two_pow_mul_add _ hlow]
  conv_rhs => rw [hx, Nat.testBit_two_pow_mul_add _ hlow]
  rcases Nat.lt_trichotomy i k with hi | rfl | hi
  · simp [hi, hi.ne']
  · simp
  · obtain ⟨j, hj⟩ := Nat.exists_eq_add_of_lt hi
    have hsub : i - k = j + 1 := by omega
    simp [hi.not_gt, hi.ne, hsub, Nat.testBit_succ, show (2 * q + 1) / 2 = q by omega]

/-- A number put together of different powers of 2 has the bits that were added. -/
theorem testBit_foldl_add {α : Type} (p : α → Bool) (pos : α → Nat) (xs : List α) (acc i : Nat) (hnodup : (xs.map pos).Nodup)
    (hfree : ∀ x ∈ xs, acc.testBit (pos x) = false) :
    (xs.foldl (fun acc x => if p x then acc + 2 ^ pos x else acc) acc).testBit i = (acc.testBit i || xs.any fun x => p x && pos x == i) := by
  induction xs generalizing acc with
  | nil => simp
  | cons x xs ih =>
    obtain ⟨hx, hxs⟩ := List.nodup_cons.mp hnodup
    obtain ⟨hfx, hfxs⟩ := List.forall_mem_cons.mp hfree
    have hbit : ∀ j, (if p x then acc + 2 ^ pos x else acc).testBit j = (acc.testBit j || (p x && pos x == j)) := fun j => by
      cases p x <;> simp [testBit_add_two_pow hfx]
    have hne : ∀ y ∈ xs, pos x ≠ pos y := fun y hy h => hx (h ▸ List.mem_map_of_mem hy)
    rw [List.foldl_cons, ih _ hxs fun y hy => by simp [hbit, hfxs y hy, hne y hy], hbit, List.any_cons, Bool.or_assoc]

/-- A number put together of powers of 2 over a range, each of its own place. -/
theorem testBit_foldl_range (p : Nat → Bool) (pos : Nat → Nat) {n j : Nat} (hinj : ∀ x y, x < n → y < n → pos x = pos y → x = y) (hj : j < n) :
    ((List.range n).foldl (fun acc x => if p x then acc + 2 ^ pos x else acc) 0).testBit (pos j) = p j := by
  have hnodup : ((List.range n).map pos).Nodup := (List.nodup_range).map_on fun x hx y hy h =>
    hinj x y (List.mem_range.mp hx) (List.mem_range.mp hy) h
  rw [testBit_foldl_add p pos _ _ _ hnodup fun x _ => Nat.zero_testBit _, Nat.zero_testBit, Bool.false_or, Bool.eq_iff_iff, List.any_eq_true]
  constructor
  · rintro ⟨x, hx, h⟩
    obtain ⟨hpx, hpos⟩ := Bool.and_eq_true_iff.mp h
    rwa [← hinj x j (List.mem_range.mp hx) hj (beq_iff_eq.mp hpos)]
  · exact fun h => ⟨j, List.mem_range.mpr hj, by simp [h]⟩

/-- Bits beyond the places of a range stay clear. -/
theorem foldl_range_lt (p : Nat → Bool) (n k : Nat) (hk : k ≤ n) :
    (List.range k).foldl (fun acc x => if p x then acc + 2 ^ x else acc) 0 < 2 ^ n := by
  refine Nat.lt_pow_two_of_testBit _ fun i hi => ?_
  have hbit := testBit_foldl_add p id (List.range k) 0 i (by simpa using List.nodup_range) fun x _ => Nat.zero_testBit _
  refine hbit.trans ?_
  rw [Nat.zero_testBit, Bool.false_or, List.any_eq_false]
  intro x hx
  have := List.mem_range.mp hx
  simp [show x ≠ i by omega]

/-! ## Shifts, rotations and reversals of `n` bits -/

variable {n a b i : Nat}

theorem testBit_complement (ha : a < 2 ^ n) (hi : i < n) : (2 ^ n - 1 - a).testBit i = !a.testBit i := by
  rw [show 2 ^ n - 1 - a = 2 ^ n - (a + 1) by omega, Nat.testBit_two_pow_sub_succ ha, decide_eq_true hi, Bool.true_and]

theorem testBit_shiftLeft_whole (hi : i < n) : (if n ≤ b then 0 else a * 2 ^ b).testBit i = (decide (b ≤ i) && a.testBit (i - b)) := by
  split
  · simp [show ¬ b ≤ i by omega]
  · rw [Nat.testBit_mul_two_pow]

theorem testBit_of_lt (ha : a < 2 ^ n) (hi : n ≤ i) : a.testBit i = false := Nat.testBit_lt_two_pow (ha.trans_le (Nat.pow_le_pow_right two_pos hi))

theorem testBit_shiftRight_whole (ha : a < 2 ^ n) : (if n ≤ b then 0 else a / 2 ^ b).testBit i = a.testBit (i + b) := by
  split
  · rw [testBit_of_lt ha (by omega), Nat.zero_testBit]
  · rw [Nat.testBit_div_two_pow]

theorem wrapBits_eq_toNat (n : Nat) (x : Int) : wrapBits n x = (BitVec.ofInt n x).toNat := by
  rw [wrapBits, BitVec.toNat_ofInt]
  push_cast
  rfl

theorem testBit_sar (ha : a < 2 ^ n) (hi : i < n) :
    (wrapBits n (signedNat n a / (2 ^ min b n : Int))).testBit i = a.testBit (min (i + b) (n - 1)) := by
  have hshift : BitVec.ofInt n (signedNat n a / (2 ^ min b n : Int)) = (BitVec.ofNat n a).sshiftRight (min b n) := by
    rw [signedNat_eq_toInt, BitVec.sshiftRight, Int.shiftRight_eq_div_pow]
    push_cast
    rfl
  have htop : ∀ k, (BitVec.ofNat n a).getLsbD k = a.testBit k := fun k => by
    rw [BitVec.getLsbD, BitVec.toNat_ofNat, Nat.mod_eq_of_lt ha]
  rw [wrapBits_eq_toNat, hshift, ← BitVec.getLsbD, BitVec.getLsbD_sshiftRight, decide_eq_false hi.not_ge, BitVec.msb_eq_getLsbD_last, htop, htop,
    Bool.not_false, Bool.true_and]
  split
  · congr 1
    omega
  · congr 1
    omega

theorem testBit_rotateLeft (ha : a < 2 ^ n) (hi : i < n) :
    (a * 2 ^ (b % n) ||| a / 2 ^ (n - b % n)).testBit i = a.testBit ((i + n - b % n) % n) := by
  obtain ⟨k, hk, hkn⟩ : ∃ k, b % n = k ∧ k < n := ⟨_, rfl, Nat.mod_lt _ (by omega)⟩
  rw [hk, Nat.testBit_or, Nat.testBit_mul_two_pow, Nat.testBit_div_two_pow]
  rcases Nat.lt_or_ge i k with h | h
  · rw [decide_eq_false h.not_ge, Bool.false_and, Bool.false_or, Nat.mod_eq_of_lt (by omega), Nat.add_sub_assoc hkn.le]
  · rw [decide_eq_true h, Bool.true_and, testBit_of_lt ha (i := i + (n - k)) (by omega), Bool.or_false, show i + n - k = i - k + n by omega,
      Nat.add_mod_right, Nat.mod_eq_of_lt (by omega)]

theorem testBit_reverseBits (a : Nat) (hi : i < n) : (reverseBits n a).testBit i = a.testBit (n - 1 - i) := by
  have h := testBit_foldl_range (fun i => natBit a i) (fun i => n - 1 - i) (n := n) (j := n - 1 - i) (fun x y hx hy hxy => by omega) (by omega)
  rw [natBit_eq_testBit, show n - 1 - (n - 1 - i) = i by omega] at h
  exact h

end Sys2Proof.Machine
end

section
/-! PROOFS. Vector integer results (R72, R85, R117, R118, R121): arithmetic, saturation, moves, conversions and bits. -/

namespace Sys2Proof.Machine

open Sys2Proof.Claims

variable {s : State} {f : Fields} {c : Ctx} {m : Mnem}

/-! ## The shapes of a vector instruction that issues -/

/-- The same elements written leave the same state. -/
theorem vector_congr {t : Nat} {g g' : Nat → Nat} (h : ∀ l, g l = g' l) : Host.Outcome.next (vector s c f t g) =
    (.next (vector s c f t g') : Host.Outcome State Fault Refusal) := by rw [funext h]

theorem vectorArith_of_issues (h : Issues m f s c) (u : Widen) (g : Int → Int → Int → Int) :
    let t := f.typeCode
    let y := fun l => g (typedValue t (c.w.rawElem t f.a.toNat l)) (typedValue t (vectorB c.w f (immediateOf f u) t l))
      (typedValue t (c.w.rawElem t f.c.toNat l))
    vectorArith m f s u g = .next (vector s c f t fun l => bitsOf t (if f.sat then clamped t (y l) else y l)) := by
  intro t y
  rw [vectorArith, vectorOp_of_issues h]
  refine vector_congr fun l => ?_
  rw [intResult_eq, bElem_eq, intValue_eq (rawElem_lt _ _ _ _), intValue_eq (vectorB_lt _ _ _ _ _), intValue_eq (rawElem_lt _ _ _ _)]

theorem vectorBits_of_issues (h : Issues m f s c) (u : Widen) (g : Nat → Nat → Nat → Nat) :
    let t := f.typeCode
    vectorBits m f s u g = .next (vector s c f t fun l =>
      g (intBits t) (c.w.rawElem t f.a.toNat l) (vectorB c.w f (immediateOf f u) t l) % 2 ^ intBits t) := by
  intro t
  rw [vectorBits, vectorOp_of_issues h]
  exact vector_congr fun l => by rw [bElem_eq]

/-! ## Arithmetic modulo 2^n -/

theorem bitsOf_add (t a b : Nat) : bitsOf t (typedValue t a + typedValue t b) = (a + b) % 2 ^ intBits t := by
  rw [bitsOf_congr ((typedValue_modEq t a).add (typedValue_modEq t b)), ← Nat.cast_add, bitsOf_natCast]

theorem bitsOf_mul (t a b : Nat) : bitsOf t (typedValue t a * typedValue t b) = a * b % 2 ^ intBits t := by
  rw [bitsOf_congr ((typedValue_modEq t a).mul (typedValue_modEq t b)), ← Nat.cast_mul, bitsOf_natCast]

theorem bitsOf_mul_add (t a b x : Nat) :
    bitsOf t (typedValue t a * typedValue t b + typedValue t x) = (a * b + x) % 2 ^ intBits t := by
  rw [bitsOf_congr (((typedValue_modEq t a).mul (typedValue_modEq t b)).add (typedValue_modEq t x)), ← Nat.cast_mul, ← Nat.cast_add,
    bitsOf_natCast]

/-- A difference is a sum with the complement. -/
theorem sub_modEq_natCast {n : Nat} (a : Nat) {b : Nat} (hb : b ≤ n) : (a - b : Int) ≡ (a + (n - b) : Nat) [ZMOD n] :=
  Int.modEq_iff_dvd.mpr ⟨1, by push_cast [hb]; ring⟩

theorem bitsOf_sub (t a : Nat) {b : Nat} (hb : b < 2 ^ intBits t) :
    bitsOf t (typedValue t a - typedValue t b) = (a + (2 ^ intBits t - b)) % 2 ^ intBits t := by
  have hsub := sub_modEq_natCast a hb.le
  push_cast [hb.le] at hsub
  rw [bitsOf_congr ((typedValue_modEq t a).sub (typedValue_modEq t b)), ← bitsOf_natCast]
  push_cast [hb.le]
  exact bitsOf_congr hsub

theorem bitsOf_neg (t : Nat) {a : Nat} (ha : a < 2 ^ intBits t) : bitsOf t (-typedValue t a) = (2 ^ intBits t - a) % 2 ^ intBits t := by
  have h := bitsOf_sub t 0 ha
  have h0 : typedValue t 0 = 0 := by simp [typedValue]
  rwa [h0, zero_sub, zero_add] at h

theorem typedValue_neg_iff {t a : Nat} (ha : a < 2 ^ intBits t) : typedValue t a < 0 ↔ t % 2 = 0 ∧ 2 ^ (intBits t - 1) ≤ a := by
  have : (a : Int) < 2 ^ intBits t := by exact_mod_cast ha
  unfold typedValue
  split
  · exact iff_of_true (by omega) ‹_›
  · exact iff_of_false (by omega) ‹_›

theorem bitsOf_abs (t : Nat) {a : Nat} (ha : a < 2 ^ intBits t) : bitsOf t |typedValue t a| =
    (if t % 2 = 0 ∧ 2 ^ (intBits t - 1) ≤ a then 2 ^ intBits t - a else a) % 2 ^ intBits t := by
  simp only [← typedValue_neg_iff ha]
  split
  · next h => rw [abs_of_neg h, bitsOf_neg t ha]
  · next h => rw [abs_of_nonneg (not_lt.mp h), bitsOf_typedValue ha, Nat.mod_eq_of_lt ha]

theorem vectorArithmetic : VectorArithmetic := by
  intro s f c hsat t n a b x result
  have arith : ∀ {m} (g : Int → Int → Int → Int) (y : Nat → Nat),
      (∀ l, bitsOf t (g (typedValue t (a l)) (typedValue t (b l)) (typedValue t (x l))) = y l % 2 ^ n) →
      Issues m f s c → vectorArith m f s .sign g = result y := fun g y hy h =>
    (vectorArith_of_issues h .sign g).trans (vector_congr fun l => by rw [hsat]; exact hy l)
  exact ⟨arith (fun a b _ => a + b) (fun l => a l + b l) fun l => bitsOf_add t _ _,
    arith (fun a b _ => a - b) (fun l => a l + (2 ^ n - b l)) fun l => bitsOf_sub t _ (vectorB_lt _ _ _ _ _),
    arith (fun a b _ => a * b) (fun l => a l * b l) fun l => bitsOf_mul t _ _,
    arith (fun a b x => a * b + x) (fun l => a l * b l + x l) fun l => bitsOf_mul_add t _ _ _,
    arith (fun a _ _ => -a) (fun l => 2 ^ n - a l) fun l => bitsOf_neg t (rawElem_lt _ _ _ _),
    arith (fun a _ _ => (a.natAbs : Int)) _ fun l => by rw [Int.natCast_natAbs]; exact bitsOf_abs t (rawElem_lt _ _ _ _)⟩

/-! ## Saturation -/

theorem vectorSaturation : VectorSaturation := by
  intro s f c hsat t a b x result
  have arith : ∀ {m} (g : Int → Int → Int → Int), Issues m f s c → vectorArith m f s .sign g = result fun l => g (a l) (b l) (x l) :=
    fun g h => (vectorArith_of_issues h .sign g).trans (vector_congr fun l => by rw [hsat]; rfl)
  refine ⟨arith fun a b _ => a + b, arith fun a b _ => a - b, arith fun a b _ => a * b, arith fun a b x => a * b + x, ?_, arith fun a _ _ => -a⟩
  simp only [Int.abs_eq_natAbs]
  exact arith fun a _ _ => (a.natAbs : Int)

/-! ## Moves -/

theorem immediateOf_signed (f : Fields) (t : Nat) :
    immediateOf f (compareWiden (intSigned t)) = if t % 2 = 0 then immSigned f else immUnsigned f := by
  rw [immediateOf_compareWiden]
  simp only [intSigned_iff]

/-- The bits of the one of two values that is chosen are its bits. -/
theorem bitsOf_min {t a b : Nat} (ha : a < 2 ^ intBits t) (hb : b < 2 ^ intBits t) :
    bitsOf t (min (typedValue t a) (typedValue t b)) = if typedValue t b < typedValue t a then b else a := by
  rw [min_comm, min_def_lt, apply_ite (bitsOf t), bitsOf_typedValue ha, bitsOf_typedValue hb]

theorem bitsOf_max {t a b : Nat} (ha : a < 2 ^ intBits t) (hb : b < 2 ^ intBits t) :
    bitsOf t (max (typedValue t a) (typedValue t b)) = if typedValue t a < typedValue t b then b else a := by
  rw [max_def_lt, apply_ite (bitsOf t), bitsOf_typedValue ha, bitsOf_typedValue hb]

theorem execIcvt_of_issues (h : Issues .icvt f s c) : exec (.icvt f) s = .next (vector s c f f.typeCode fun l =>
    bitsOf f.typeCode (if f.sat then clamped f.typeCode (typedValue f.srcCode (c.w.rawElem f.srcCode f.a.toNat l))
      else typedValue f.srcCode (c.w.rawElem f.srcCode f.a.toNat l))) := by
  change execIcvt f s = _
  rw [execIcvt, vectorOp_of_issues h]
  exact vector_congr fun l => by rw [intResult_eq, intValue_eq (rawElem_lt _ _ _ _)]

theorem vectorMoves : VectorMoves := by
  intro s f c t n a b cmp result
  have arith : ∀ {m} (u : Widen) (g : Int → Int → Int → Int) (y : Nat → Nat), f.sat = false → Issues m f s c →
      (∀ l, bitsOf t (g (typedValue t (a l)) (typedValue t (vectorB c.w f (immediateOf f u) t l)) (typedValue t (c.w.rawElem t f.c.toNat l))) = y l) →
      vectorArith m f s u g = result y := fun u g y hsat h hy =>
    (vectorArith_of_issues h u g).trans (vector_congr fun l => by rw [hsat]; exact hy l)
  have hcmp : ∀ l, vectorB c.w f (immediateOf f (compareWiden (intSigned t))) t l = cmp l := fun l => by rw [immediateOf_signed]
  refine ⟨fun h hsat => arith .sign (fun a b _ => a * b / 2 ^ n) _ hsat h fun l => rfl,
    fun h hsat => arith (compareWiden (intSigned t)) (fun a b _ => min a b) _ hsat h fun l => ?_,
    fun h hsat => arith (compareWiden (intSigned t)) (fun a b _ => max a b) _ hsat h fun l => ?_,
    fun h => ?_, fun h => ?_, fun h => ?_, fun h => ?_, fun h hsat => ?_, fun h hsat => ?_⟩
  · rw [hcmp, bitsOf_min (rawElem_lt _ _ _ _) (vectorB_lt _ _ _ _ _)]
  · rw [hcmp, bitsOf_max (rawElem_lt _ _ _ _) (vectorB_lt _ _ _ _ _)]
  · change execVmov f s = _
    rw [execVmov, vectorBits_of_issues h]
    exact vector_congr fun l => Nat.mod_eq_of_lt (rawElem_lt _ _ _ _)
  · change execVli f s = _
    rw [execVli, vectorBits_of_issues h]
    exact vector_congr fun l => Nat.mod_eq_of_lt (vectorB_lt _ _ _ _ _)
  · exact vectorOp_of_issues h t fun w _ => (w.scalar f.a.toNat).toNat % 2 ^ n
  · change execVsel f s = _
    rw [execVsel, fixedOp_of_issues h]
    exact vector_congr fun l => by rw [bElem_eq]; rfl
  · rw [execIcvt_of_issues h, hsat]
    rfl
  · rw [execIcvt_of_issues h, hsat]
    rfl

/-! ## Bits -/

/-- A vector instruction on bits writes the low n bits of its results. -/
theorem exists_vectorBits (h : Issues m f s c) (u : Widen) (g : Nat → Nat → Nat → Nat) {bit : Nat → Nat → Bool}
    (hbit : ∀ l i, i < intBits f.typeCode → (g (intBits f.typeCode) (c.w.rawElem f.typeCode f.a.toNat l)
      (vectorB c.w f (immediateOf f u) f.typeCode l)).testBit i = bit l i) :
    ∃ y : Nat → Nat, vectorBits m f s u g = .next (vector s c f f.typeCode y) ∧
      ∀ l, Active c f l → y l < 2 ^ intBits f.typeCode ∧ ∀ i, i < intBits f.typeCode → (y l).testBit i = bit l i :=
  ⟨_, vectorBits_of_issues h u g, fun l _ => ⟨Nat.mod_lt _ (Nat.two_pow_pos _), fun i hi => by
    rw [Nat.testBit_mod_two_pow, decide_eq_true hi, Bool.true_and, hbit l i hi]⟩⟩

theorem vectorBitwise : VectorBits := by
  intro s f c t n a b k written
  have ha : ∀ l, c.w.rawElem t f.a.toNat l < 2 ^ n := fun l => rawElem_lt _ _ _ _
  exact ⟨fun h => exists_vectorBits h .sign (fun _ a b => a &&& b) fun l i _ => Nat.testBit_and _ _ _,
    fun h => exists_vectorBits h .sign (fun _ a b => a ||| b) fun l i _ => Nat.testBit_or _ _ _,
    fun h => exists_vectorBits h .sign (fun _ a b => a ^^^ b) fun l i _ => Nat.testBit_xor _ _ _,
    fun h => exists_vectorBits h .sign (fun n a _ => 2 ^ n - 1 - a) fun l i hi => testBit_complement (ha l) hi,
    fun h => exists_vectorBits h .zero (fun n a b => if n ≤ b then 0 else a * 2 ^ b) fun l i hi => testBit_shiftLeft_whole hi,
    fun h => exists_vectorBits h .zero (fun n a b => if n ≤ b then 0 else a / 2 ^ b) fun l i _ => testBit_shiftRight_whole (ha l),
    fun h => exists_vectorBits h .zero (fun n a b => wrapBits n (signedNat n a / (2 ^ min b n : Int))) fun l i hi => testBit_sar (ha l) hi,
    fun h => exists_vectorBits h .zero (fun n a b => a * 2 ^ (b % n) ||| a / 2 ^ (n - b % n)) fun l i hi => testBit_rotateLeft (ha l) hi,
    fun h => exists_vectorBits h .zero (fun n a _ => reverseBits n a) fun l i hi => testBit_reverseBits _ hi⟩

/-- Settles O4. -/
theorem vectorResults : Obligations.VectorResults :=
  ⟨vectorArithmetic, vectorSaturation, vectorMoves, vectorBitwise, vectorRegisterFile⟩

end Sys2Proof.Machine
end

section
/-! PROOFS. Vector bit counts, VCMP and VEXTR (R119, R121, R123), with the lanes of a mask. -/

namespace Sys2Proof.Machine

open Sys2Proof.Claims

variable {s : State} {f : Fields} {c : Ctx} {m : Mnem}

/-! ## Counts -/

/-- A vector instruction that counts writes its counts, which fit every type. -/
theorem vectorCount_of_issues (h : Issues m f s c) {g : Nat → Nat → Nat} (hle : ∀ n x, g n x ≤ n) : vectorBits m f s .zero (fun n a _ => g n a) =
    .next (vector s c f f.typeCode fun l => g (intBits f.typeCode) (c.w.rawElem f.typeCode f.a.toNat l)) := by
  rw [vectorBits_of_issues h]
  exact vector_congr fun l => Nat.mod_eq_of_lt ((hle _ _).trans_lt Nat.lt_two_pow_self)

theorem popCount_le (n x : Nat) : popCount n x ≤ n := by
  simpa [popCount] using List.length_filter_le (fun i => natBit x i) (List.range n)

theorem leadingZeros_le (n x : Nat) : leadingZeros n x ≤ n := by
  unfold leadingZeros
  split <;> omega

theorem vectorCounts : VectorCounts := by
  intro s f c t n a counted
  exact ⟨fun h => ⟨_, vectorCount_of_issues h popCount_le, fun l _ => ⟨popCount_le n _, popCount_eq n _⟩⟩,
    fun h => ⟨_, vectorCount_of_issues h leadingZeros_le, fun l _ => leadingZeros_spec (rawElem_lt _ _ _ _)⟩,
    fun h => ⟨_, vectorCount_of_issues h fun n x => (trailingZeros_spec n x).1, fun l _ => trailingZeros_spec n _⟩⟩

/-! ## The lanes of a mask -/

theorem LaneMask.mem_lanes_iff {e : LaneMask} {l : Nat} : l ∈ LaneMask.lanes e ↔ l < 64 ∧ e.getLsbD l = true := by
  simp [LaneMask.lanes, allLanes]

theorem mem_lanes_active {l : Nat} : l ∈ (c.active f.guard).lanes ↔ Active c f l := LaneMask.mem_lanes_iff

theorem LaneMask.getLsbD_foldl_or (ls : List Nat) (k : LaneMask) {l : Nat} (hl : l < 64) :
    (ls.foldl (fun m l => m ||| (1#64 <<< l)) k).getLsbD l = (k.getLsbD l || decide (l ∈ ls)) := by
  induction ls generalizing k with
  | nil => simp
  | cons x xs ih =>
    have hbit : (1#64 <<< x).getLsbD l = decide (l = x) := by
      rw [BitVec.getLsbD_shiftLeft, decide_eq_true hl, BitVec.getLsbD_one, Bool.true_and, ← decide_not, ← Bool.decide_and, ← Bool.decide_and]
      exact decide_eq_decide.mpr (by omega)
    simp only [List.foldl_cons, ih, BitVec.getLsbD_or, hbit, List.mem_cons, Bool.decide_or, Bool.or_assoc]

theorem LaneMask.getLsbD_ofLanes (ls : List Nat) {l : Nat} (hl : l < 64) : (LaneMask.ofLanes ls).getLsbD l = decide (l ∈ ls) := by
  rw [LaneMask.ofLanes, LaneMask.getLsbD_foldl_or ls _ hl, BitVec.getLsbD_zero, Bool.false_or]

/-! ## VCMP -/

/-- A comparison writes the bits of the active lanes of m[D], and ORs the flags of its lanes into FLAGS. -/
theorem compareOp_of_issues (h : Issues m f s c) (g : Warp → Nat → Bool × BitVec 5) : ∃ k : LaneMask,
    compareOp m f s g = .next (after s c ((c.w.setMask f.d.toNat k).orFlags
      (((c.active f.guard).lanes.map fun l => (l, g c.w l)).foldl (fun a x => a ||| x.2.2) 0))) ∧
    ∀ l, l < 64 → k.getLsbD l = if (c.active f.guard).getLsbD l then (g c.w l).1 else (c.w.m.get f.d.toNat).getLsbD l := by
  refine ⟨_, fixedOp_of_issues h _, fun l hl => ?_⟩
  have hmem : l ∈ (((c.active f.guard).lanes.map fun l => (l, g c.w l)).filter fun x => x.2.1).map Prod.fst ↔
      (c.active f.guard).getLsbD l = true ∧ (g c.w l).1 = true := by
    simp [LaneMask.mem_lanes_iff, hl]
  rw [BitVec.getLsbD_or, LaneMask.getLsbD_ofLanes _ hl, BitVec.getLsbD_and, BitVec.getLsbD_not, decide_eq_true hl, Bool.true_and]
  simp only [hmem]
  by_cases he : (c.active f.guard).getLsbD l = true <;> simp [he]

/-- Lanes that set no flag set none together. -/
theorem foldl_flags_zero {α : Type} (ls : List Nat) (g : Nat → α × BitVec 5) (h : ∀ l, (g l).2 = 0) :
    (ls.map fun l => (l, g l)).foldl (fun a x => a ||| x.2.2) 0 = 0 := by
  induction ls with
  | nil => rfl
  | cons l ls ih => simpa [h l] using ih

@[simp] theorem Warp.orFlags_zero (w : Warp) : w.orFlags 0 = w := by simp [Warp.orFlags]

/-- What the codes of a comparison test (R120, R123). -/
theorem holds_ofSub {sub : BitVec 4} (h : sub.toNat ≤ 5) (x y : Int) : (Cmp.ofSub sub).holds x y = decide ((sub = 0 ∧ x = y) ∨ (sub = 1 ∧ x ≠ y) ∨
    (sub = 2 ∧ x < y) ∨ (sub = 3 ∧ x ≤ y) ∨ (sub = 4 ∧ y < x) ∨ (sub = 5 ∧ y ≤ x)) := by
  have hsub : sub = 0 ∨ sub = 1 ∨ sub = 2 ∨ sub = 3 ∨ sub = 4 ∨ sub = 5 := by revert sub; decide
  rcases hsub with rfl | rfl | rfl | rfl | rfl | rfl <;> exact Bool.eq_iff_iff.mpr (by simp [Cmp.ofSub, Cmp.holds])

theorem execVcmp_of_issues (h : Issues .vcmp f s c) : ∃ k : LaneMask, exec (.vcmp f) s = .next (after s c (c.w.setMask f.d.toNat k)) ∧
    ∀ l, l < 64 → k.getLsbD l = if (c.active f.guard).getLsbD l then (Cmp.ofSub f.sub).holds (typedValue f.typeCode (c.w.rawElem f.typeCode f.a.toNat l))
      (typedValue f.typeCode (vectorB c.w f (if f.typeCode % 2 = 0 then immSigned f else immUnsigned f) f.typeCode l))
      else (c.w.m.get f.d.toNat).getLsbD l := by
  obtain ⟨k, hexec, hk⟩ := compareOp_of_issues h fun w l => ((Cmp.ofSub f.sub).holds (intValue f.typeCode (w.rawElem f.typeCode f.a.toNat l))
      (intValue f.typeCode (bElem w f (compareWiden (intSigned f.typeCode)) f.typeCode l)), 0)
  rw [foldl_flags_zero _ _ fun _ => rfl, Warp.orFlags_zero] at hexec
  refine ⟨k, hexec, fun l hl => ?_⟩
  rw [hk l hl, bElem_eq, immediateOf_signed, intValue_eq (rawElem_lt _ _ _ _), intValue_eq (vectorB_lt _ _ _ _ _)]

theorem vectorCompare : VectorCompare := by
  intro s f c holds h hholds hsub t imm
  obtain ⟨k, hexec, hk⟩ := execVcmp_of_issues h
  exact ⟨k, hexec, fun l hl => by rw [hk l hl, holds_ofSub hsub, ← hholds]⟩

/-! ## VEXTR -/

section LaneReads

variable {reads : Ctx → LaneMask → List (Nat × Nat)} (g : Ctx → LaneMask → Warp)

theorem laneReadOp_clean (h : Issues m f s c) (hclean : ((reads c (c.active f.guard)).any fun x => c.w.elemPoisoned x.1 x.2) = false) :
    laneReadOp m f s reads g = .next (after s c (g c (c.active f.guard))) :=
  laneReadOp_go reads g h.1 ((c.admit_go_iff m f _ _).mpr ⟨h.2.1, h.2.2, rfl, rfl⟩) (by simpa using hclean)

theorem laneReadOp_poisoned (h : Issues m f s c) (hbad : ((reads c (c.active f.guard)).any fun x => c.w.elemPoisoned x.1 x.2) = true) :
    laneReadOp m f s reads g = work s fun _ t => t.raise c.ref c.z { cause := .poison, resume := c.active f.guard }
      ((reads c (c.active f.guard)).any fun x => c.w.elemLoaded x.1 x.2) := by
  rw [laneReadOp, issue_of_issues h]
  dsimp only
  rw [hbad]
  rfl

end LaneReads

theorem any_elemReads (t n l : Nat) (p : Nat × Nat → Bool) : (elemReads t n l).any p = (p (n, l) || (decide (6 ≤ t) && p (n + 1, l))) := by
  unfold elemReads
  split <;> simp [*]

theorem vectorExtract : VectorExtract := by
  intro s f c h t l bad
  have hlane : (bScalar c.w f .zero).toNat % 64 = l := by rw [bScalar_eq]; rfl
  have hbad : ((elemReads t f.a.toNat ((bScalar c.w f .zero).toNat % 64)).any fun x => c.w.elemPoisoned x.1 x.2) = bad := by
    rw [hlane, any_elemReads]
  change (bad = false → execVextr f s = _) ∧ (bad = true → execVextr f s = _)
  refine ⟨fun hb => ?_, fun hb => ?_⟩
  · rw [execVextr, laneReadOp_clean _ h (hbad.trans hb)]
    dsimp only
    rw [hlane, intValue_eq (rawElem_lt _ _ _ _)]
  · rw [execVextr, laneReadOp_poisoned _ h (hbad.trans hb)]
    dsimp only
    rw [hlane, any_elemReads]

/-- Settles O5. -/
theorem vectorCountsAndCompares : Obligations.VectorCountsAndCompares := ⟨vectorCounts, vectorCompare, vectorExtract⟩

end Sys2Proof.Machine
end

section
/-! PROOFS. BMM8 (R124): the product of two 8 × 8 bit matrices over GF(2), and the checks of an encoding one by one (R70). -/

namespace Sys2Proof

/-- What the checks of a legal encoding say of its operands, SUB and MOD. -/
structure Mnem.Checked (m : Mnem) (f : Fields) : Prop where
  d : m.spec.d.legal f f.d = true
  imm : f.imm = true → m.spec.b.immLegal true = true
  form : m.spec.c.needsC = true → f.form ≠ .w32
  rnd : m.spec.rnd.legal f = true
  sub : m.spec.sub.legal f = true
  mod : m.spec.mod.legal f = true

theorem Mnem.checked_of_illegal_eq_none {m : Mnem} {f : Fields} (h : m.illegal f = none) : m.Checked f := by
  simp only [Mnem.illegal, ite_some_eq_none_iff, Bool.not_eq_true, Bool.not_eq_false', Bool.and_eq_true] at h
  obtain ⟨-, ⟨⟨⟨⟨hd, -⟩, hb⟩, -⟩, hform⟩, -, ⟨hrnd, -⟩, hsub, hmod, -⟩ := h
  refine ⟨hd, fun himm => by simpa [himm] using hb, fun hc hw => ?_, hrnd, hsub, hmod⟩
  simp [hc, hw] at hform

end Sys2Proof

namespace Sys2Proof.Machine

open Sys2Proof.Claims

variable {s : State} {f : Fields} {c : Ctx} {m : Mnem}

/-! ## The product of bit matrices -/

/-- The parity of a row and a column. -/
theorem foldl_bne (q : Nat → Bool) (ks : List Nat) (b : Bool) : ks.foldl (fun x k => x != q k) b = (b != (ks.countP q % 2 == 1)) := by
  induction ks generalizing b with
  | nil => simp
  | cons k ks ih =>
    rw [List.foldl_cons, ih, List.countP_cons]
    rcases Nat.mod_two_eq_zero_or_one (ks.countP q) with h | h <;> cases b <;> cases hq : q k <;> simp [h, Nat.add_mod]

theorem testBit_bitMatrixProduct (a b : Nat) {n : Nat} (hn : n < 64) : (bitMatrixProduct a b).testBit n =
    ((List.range 8).countP (fun k => a.testBit (8 * (n / 8) + k) && b.testBit (8 * k + n % 8)) % 2 == 1) := by
  refine (testBit_foldl_range _ id (fun _ _ _ _ h => h) hn).trans ?_
  simp only [foldl_bne, natBit_eq_testBit, Bool.false_bne]

theorem bitMatrixProduct_lt (a b : Nat) : bitMatrixProduct a b < 2 ^ 64 := foldl_range_lt _ 64 64 le_rfl

/-- The rows of the identity. -/
theorem testBit_identity : ∀ k < 8, ∀ j < 8, (0x8040201008040201 : Nat).testBit (8 * k + j) = decide (k = j) := by decide

theorem countP_range_eq {n j : Nat} (hj : j < n) (p : Nat → Bool) : (List.range n).countP (fun k => p k && decide (k = j)) = if p j then 1 else 0 := by
  induction n with
  | zero => exact absurd hj (Nat.not_lt_zero j)
  | succ n ih =>
    rw [List.range_succ, List.countP_append, List.countP_singleton]
    rcases Nat.lt_succ_iff_lt_or_eq.mp hj with h | rfl
    · rw [ih h, decide_eq_false h.ne', Bool.and_false, if_neg Bool.false_ne_true, Nat.add_zero]
    · have hnone : (List.range j).countP (fun k => p k && decide (k = j)) = 0 := List.countP_eq_zero.mpr fun k hk => by
        simp [(List.mem_range.mp hk).ne]
      rw [hnone, decide_eq_true rfl, Bool.and_true, Nat.zero_add]

theorem bitMatrixProduct_identity {a : Nat} (ha : a < 2 ^ 64) : bitMatrixProduct a 0x8040201008040201 = a := by
  refine Nat.eq_of_testBit_eq fun n => ?_
  rcases Nat.lt_or_ge n 64 with hn | hn
  · have hcount : (List.range 8).countP (fun k => a.testBit (8 * (n / 8) + k) && (0x8040201008040201 : Nat).testBit (8 * k + n % 8)) =
        (List.range 8).countP (fun k => a.testBit (8 * (n / 8) + k) && decide (k = n % 8)) :=
      List.countP_congr fun k hk => by rw [testBit_identity k (List.mem_range.mp hk) (n % 8) (by omega)]
    rw [testBit_bitMatrixProduct _ _ hn, hcount, countP_range_eq (by omega), Nat.div_add_mod]
    cases a.testBit n <;> rfl
  · rw [testBit_of_lt (bitMatrixProduct_lt _ _) hn, testBit_of_lt ha hn]

/-! ## BMM8 -/

theorem execBmm8_of_issues (h : Issues .bmm8 f s c) (ht : 6 ≤ f.typeCode) (himm : f.imm = false) : exec (.bmm8 f) s =
    .next (vector s c f f.typeCode fun l => bitMatrixProduct (c.w.pair f.a.toNat l).toNat (c.w.pair f.b.toNat l).toNat) := by
  change execBmm8 f s = _
  rw [execBmm8, vectorBits_of_issues h]
  refine vector_congr fun l => ?_
  rw [vectorB, if_neg (by simp [himm]), Warp.rawElem, Warp.rawElem, if_pos ht, if_pos ht, intBits_of_wide ht,
    Nat.mod_eq_of_lt (bitMatrixProduct_lt _ _)]

/-- Settles O6. -/
theorem bitMatrixMultiply : Obligations.BitMatrixMultiply := by
  refine ⟨fun s f c h ht himm => ⟨_, execBmm8_of_issues h ht himm, fun l _ => ⟨bitMatrixProduct_lt _ _, fun i j hi hj => ?_, fun hb => ?_⟩⟩,
    fun f h => ?_, rfl⟩
  · rw [testBit_bitMatrixProduct _ _ (by omega), show (8 * i + j) / 8 = i by omega, show (8 * i + j) % 8 = j by omega]
    rfl
  · rw [hb]
    exact bitMatrixProduct_identity (c.w.pair f.a.toNat l).isLt
  · have hchecks := Mnem.checked_of_illegal_eq_none h
    have htype : ∀ t < 8, codeIn 0xC0 t = true → t = 6 ∨ t = 7 := by decide
    obtain ⟨-, hcode⟩ := Bool.and_eq_true_iff.mp hchecks.mod
    exact ⟨htype _ (Nat.mod_lt _ (by omega)) hcode, Bool.eq_false_iff.mpr fun himm => Bool.false_ne_true (hchecks.imm himm)⟩

end Sys2Proof.Machine
end

section
/-! PROOFS. Funnel shift, bit deposit and extract, bit fields, BPERM and the mask instructions (R122, R125 to R128). -/

namespace Sys2Proof.Machine

open Sys2Proof.Claims

variable {s : State} {f : Fields} {c : Ctx} {m : Mnem}

/-! ## The funnel shift (R122) -/

theorem append_toNat (a b : BitVec 32) : (a ++ b : BitVec 64).toNat = a.toNat * 2 ^ 32 + b.toNat := by
  rw [BitVec.toNat_append, Nat.shiftLeft_eq, ← Nat.shiftLeft_eq, Nat.shiftLeft_add_eq_or_of_lt b.isLt]

theorem funnelRight_eq (x : BitVec 64) (k : Nat) : x.toNat / 2 ^ k % 2 ^ 32 = ((x >>> k).extractLsb' 0 32).toNat := by
  rw [BitVec.extractLsb'_toNat, BitVec.toNat_ushiftRight, Nat.shiftRight_zero, Nat.shiftRight_eq_div_pow]

theorem funnelLeft_eq (x : BitVec 64) (k : Nat) : natBits (x.toNat * 2 ^ k) 63 32 = ((x <<< k).extractLsb' 32 32).toNat := by
  rw [BitVec.extractLsb'_toNat, BitVec.toNat_shiftLeft, natBits, Nat.shiftLeft_eq, Nat.shiftRight_eq_div_pow, Nat.shiftRight_eq_div_pow]
  omega

theorem funnelShift : FunnelShift := by
  intro s f c both k
  refine ⟨fun h hsub => ?_, fun h hsub => ?_, fun hbad hlegal => ?_⟩
  · change execVfun f s = _
    rw [execVfun, vectorOp_of_issues h]
    refine vector_congr fun l => ?_
    rw [if_pos (by simp [hsub]), ← append_toNat, funnelRight_eq]
  · change execVfun f s = _
    rw [execVfun, vectorOp_of_issues h]
    refine vector_congr fun l => ?_
    rw [if_neg (by simp [hsub]), ← append_toNat, funnelLeft_eq]
  · have hchecks := Mnem.checked_of_illegal_eq_none hlegal
    have hsub : f.sub.toNat ≤ 1 := of_decide_eq_true hchecks.sub
    rcases hbad with h | h | h
    · omega
    · exact Bool.false_ne_true (hchecks.imm h)
    · exact hchecks.form rfl h

/-! ## Bit deposit and extract (R125) -/

/-- How many positions below `p` are set in `b`. -/
def setBelow (b p : Nat) : Nat := (List.range p).countP b.testBit

theorem setBelow_succ (b p : Nat) : setBelow b (p + 1) = setBelow b p + if b.testBit p then 1 else 0 := by
  rw [setBelow, List.range_succ, List.countP_append, List.countP_singleton, setBelow]

theorem setBelow_mono (b : Nat) : Monotone (setBelow b) :=
  monotone_nat_of_le_succ fun p => by rw [setBelow_succ]; exact Nat.le_add_right _ _

theorem setBelow_le (b p : Nat) : setBelow b p ≤ p := by
  simpa [setBelow] using List.countP_le_length (p := b.testBit) (l := List.range p)

theorem setBelow_lt {b p q : Nat} (hp : b.testBit p = true) (hpq : p < q) : setBelow b p < setBelow b q := by
  have hsucc := setBelow_succ b p
  rw [if_pos hp] at hsucc
  have := setBelow_mono b (Nat.succ_le_of_lt hpq)
  rw [Nat.succ_eq_add_one] at this
  omega

/-- The places of set positions differ. -/
theorem setBelow_inj {b p q : Nat} (hp : b.testBit p = true) (hq : b.testBit q = true) (h : setBelow b p = setBelow b q) : p = q := by
  rcases Nat.lt_trichotomy p q with hlt | heq | hlt
  · exact absurd h (setBelow_lt hp hlt).ne
  · exact heq
  · exact absurd h.symm (setBelow_lt hq hlt).ne

/-- The deposited bits, each at its own position. -/
theorem depositBits_eq (a b p m acc : Nat) : depositBits a b (List.range' p m) (setBelow b p) acc =
    (List.range' p m).foldl (fun acc q => if b.testBit q && a.testBit (setBelow b q) then acc + 2 ^ q else acc) acc := by
  induction m generalizing p acc with
  | zero => rfl
  | succ m ih =>
    have hsucc := setBelow_succ b p
    rw [List.range'_succ, List.foldl_cons, depositBits, natBit_eq_testBit, natBit_eq_testBit, ← ih (p + 1)]
    cases hb : b.testBit p <;> rw [hb] at hsucc <;> simp [hsucc]

/-- The extracted bits, each at the place of its position among the set ones. -/
theorem extractBits_eq (a b p m acc : Nat) : extractBits a b (List.range' p m) (setBelow b p) acc =
    ((List.range' p m).filter b.testBit).foldl (fun acc q => if a.testBit q then acc + 2 ^ setBelow b q else acc) acc := by
  induction m generalizing p acc with
  | zero => rfl
  | succ m ih =>
    have hsucc := setBelow_succ b p
    rw [List.range'_succ, List.filter_cons, extractBits, natBit_eq_testBit, natBit_eq_testBit]
    cases hb : b.testBit p <;> rw [hb] at hsucc <;> simp [hsucc, ← ih (p + 1)]

theorem setBelow_zero (b : Nat) : setBelow b 0 = 0 := rfl

theorem testBit_depositBits (a b : Nat) {n p : Nat} (hp : p < n) :
    (depositBits a b (List.range n) 0 0).testBit p = (b.testBit p && a.testBit (setBelow b p)) := by
  have h := depositBits_eq a b 0 n 0
  rw [setBelow_zero, ← List.range_eq_range'] at h
  rw [h]
  exact testBit_foldl_range (fun q => b.testBit q && a.testBit (setBelow b q)) id (fun _ _ _ _ h => h) hp

theorem testBit_extractBits (a b n i : Nat) : (extractBits a b (List.range n) 0 0).testBit i =
    ((List.range n).filter b.testBit).any fun q => a.testBit q && setBelow b q == i := by
  have h := extractBits_eq a b 0 n 0
  rw [setBelow_zero, ← List.range_eq_range'] at h
  have hnodup : (((List.range n).filter b.testBit).map (setBelow b)).Nodup :=
    (List.nodup_range.filter _).map_on fun p hp q hq => setBelow_inj (List.mem_filter.mp hp).2 (List.mem_filter.mp hq).2
  rw [h, testBit_foldl_add a.testBit (setBelow b) _ _ _ hnodup fun _ _ => Nat.zero_testBit _, Nat.zero_testBit, Bool.false_or]

theorem testBit_extractBits_setBelow (a : Nat) {b n p : Nat} (hp : p < n) (hb : b.testBit p = true) :
    (extractBits a b (List.range n) 0 0).testBit (setBelow b p) = a.testBit p := by
  rw [testBit_extractBits, Bool.eq_iff_iff, List.any_eq_true]
  constructor
  · rintro ⟨q, hq, h⟩
    obtain ⟨haq, hpos⟩ := Bool.and_eq_true_iff.mp h
    rwa [← setBelow_inj (List.mem_filter.mp hq).2 hb (beq_iff_eq.mp hpos)]
  · exact fun h => ⟨p, List.mem_filter.mpr ⟨List.mem_range.mpr hp, hb⟩, by simp [h]⟩

theorem testBit_extractBits_above (a : Nat) {b n i : Nat} (hi : setBelow b n ≤ i) : (extractBits a b (List.range n) 0 0).testBit i = false := by
  rw [testBit_extractBits, List.any_eq_false]
  intro q hq
  obtain ⟨hqn, hbq⟩ := List.mem_filter.mp hq
  simp [((setBelow_lt hbq (List.mem_range.mp hqn)).trans_le hi).ne]

theorem bitDepositExtract : BitDepositExtract := by
  intro s f c t n a b rank
  refine ⟨fun h => exists_vectorBits h .sign (fun n a b => depositBits a b (List.range n) 0 0) fun l p hp => testBit_depositBits _ _ hp,
    fun h => ⟨_, vectorBits_of_issues h .sign (fun n a b => extractBits a b (List.range n) 0 0), fun l _ =>
      ⟨Nat.mod_lt _ (Nat.two_pow_pos _), fun p hp hb => ?_, fun i hi => ?_⟩⟩⟩
  · have hplace : rank l p < n := (setBelow_lt hb hp).trans_le (setBelow_le _ n)
    rw [Nat.testBit_mod_two_pow, decide_eq_true hplace, Bool.true_and]
    exact testBit_extractBits_setBelow _ hp hb
  · rw [Nat.testBit_mod_two_pow]
    exact Bool.and_eq_false_imp.mpr fun _ => testBit_extractBits_above _ hi

/-! ## BPERM and bit fields (R126, R127) -/

theorem fieldPosition_eq (n ctl : Nat) : fieldPosition n ctl = (ctl % 64, min (ctl / 64 % 128) (n - ctl % 64)) := by
  rw [fieldPosition, natBits, Nat.shiftRight_eq_div_pow]
  rfl

/-- A field as a number of its own. -/
theorem testBit_field (a pos len i : Nat) : (a / 2 ^ pos % 2 ^ len).testBit i = (decide (i < len) && a.testBit (pos + i)) := by
  rw [Nat.testBit_mod_two_pow, Nat.testBit_div_two_pow, Nat.add_comm i pos]

/-- A field extended from its top bit. -/
theorem testBit_field_signed {n i : Nat} (a pos len : Nat) (hi : i < n) : (wrapBits n (signedNat len (a / 2 ^ pos % 2 ^ len))).testBit i =
    if i < len then a.testBit (pos + i) else len != 0 && a.testBit (pos + len - 1) := by
  have hbit : ∀ k, (BitVec.ofNat len (a / 2 ^ pos % 2 ^ len)).getLsbD k = (decide (k < len) && a.testBit (pos + k)) := fun k => by
    rw [BitVec.getLsbD, BitVec.toNat_ofNat, Nat.mod_mod, testBit_field]
  rw [wrapBits_eq_toNat, signedNat_eq_toInt, ← BitVec.signExtend, ← BitVec.getLsbD, BitVec.getLsbD_signExtend, decide_eq_true hi, Bool.true_and,
    BitVec.msb_eq_getLsbD_last, hbit, hbit]
  split
  · next h => rw [decide_eq_true h, Bool.true_and]
  · rcases Nat.eq_zero_or_pos len with h | h
    · simp [h]
    · rw [decide_eq_true (by omega), Bool.true_and, bne_iff_ne.mpr h.ne', Bool.true_and, Nat.add_sub_assoc h]

/-- A field put in the place of another. -/
theorem testBit_putField (x a pos len i : Nat) : (x - x / 2 ^ pos % 2 ^ len * 2 ^ pos + a % 2 ^ len * 2 ^ pos).testBit i =
    if pos ≤ i ∧ i < pos + len then a.testBit (i - pos) else x.testBit i := by
  have hlow := Nat.mod_lt x (Nat.two_pow_pos pos)
  have hfield := Nat.mod_lt (x / 2 ^ pos) (Nat.two_pow_pos len)
  have hx : x = 2 ^ pos * (2 ^ len * (x / 2 ^ pos / 2 ^ len) + x / 2 ^ pos % 2 ^ len) + x % 2 ^ pos := by rw [Nat.div_add_mod, Nat.div_add_mod]
  have hput : x - x / 2 ^ pos % 2 ^ len * 2 ^ pos + a % 2 ^ len * 2 ^ pos =
      2 ^ pos * (2 ^ len * (x / 2 ^ pos / 2 ^ len) + a % 2 ^ len) + x % 2 ^ pos := by
    have hsum := hx
    rw [Nat.mul_add] at hsum
    rw [Nat.mul_add, Nat.mul_comm (_ % _) (2 ^ pos), Nat.mul_comm (_ % _) (2 ^ pos)]
    omega
  rw [hput, Nat.testBit_two_pow_mul_add _ hlow]
  conv_rhs => rw [hx, Nat.testBit_two_pow_mul_add _ hlow, Nat.testBit_two_pow_mul_add _ hfield]
  rw [Nat.testBit_two_pow_mul_add _ (Nat.mod_lt a (Nat.two_pow_pos len)), Nat.testBit_mod_two_pow]
  rcases Nat.lt_or_ge i pos with h | h
  · simp [h, h.not_ge]
  · by_cases hi : i - pos < len
    · simp [h, h.not_gt, hi, show i < pos + len by omega]
    · simp [h, h.not_gt, hi, show ¬ i < pos + len by omega]

/-- BPERM's result. -/
theorem execBperm_of_issues (h : Issues .bperm f s c) : exec (.bperm f) s = .next (vector s c f f.typeCode fun l =>
    (List.range 64).foldl (fun acc j =>
      if (c.w.rawElem f.typeCode f.a.toNat l).testBit (c.w.perm.extractLsb' (6 * j) 6).toNat then acc + 2 ^ j else acc) 0) := by
  change execBperm f s = _
  rw [execBperm, vectorOp_of_issues h]
  refine vector_congr fun l => ?_
  simp only [natBit_eq_testBit, natBits, BitVec.extractLsb'_toNat, Nat.add_sub_cancel_left, Nat.reduceAdd]

/-- The bits of BFX's result. -/
theorem testBit_extractField {t n i : Nat} (a pos len : Nat) (hi : i < n) :
    (if intSigned t && len != 0 then wrapBits n (signedNat len (a / 2 ^ pos % 2 ^ len)) else a / 2 ^ pos % 2 ^ len).testBit i =
      if i < len then a.testBit (pos + i) else t % 2 == 0 && len != 0 && a.testBit (pos + len - 1) := by
  rw [show (t % 2 == 0) = intSigned t from rfl]
  split
  · next h =>
    obtain ⟨hsigned, -⟩ := Bool.and_eq_true_iff.mp h
    rw [testBit_field_signed a pos len hi, hsigned, Bool.true_and]
  · next h => rw [testBit_field, Bool.not_eq_true _ |>.mp h, Bool.false_and]; split <;> simp [*]

theorem execBfx_eq (f : Fields) (s : State) : exec (.bfx f) s = vectorBits .bfx f s .zero fun n a b =>
    if intSigned f.typeCode && (fieldPosition n b).2 != 0 then
      wrapBits n (signedNat (fieldPosition n b).2 (a / 2 ^ (fieldPosition n b).1 % 2 ^ (fieldPosition n b).2))
    else a / 2 ^ (fieldPosition n b).1 % 2 ^ (fieldPosition n b).2 := rfl

/-- BFI's result. -/
theorem execBfi_of_issues (h : Issues .bfi f s c) : exec (.bfi f) s = .next (vector s c f f.typeCode fun l =>
    let p := fieldPosition (intBits f.typeCode) (vectorB c.w f (immUnsigned f) f.typeCode l)
    let x := c.w.rawElem f.typeCode f.c.toNat l
    x - x / 2 ^ p.1 % 2 ^ p.2 * 2 ^ p.1 + c.w.rawElem f.typeCode f.a.toNat l % 2 ^ p.2 * 2 ^ p.1) := by
  change execBfi f s = _
  rw [execBfi, vectorOp_of_issues h]
  exact vector_congr fun l => by rw [bElem_eq]; rfl

theorem bitFields : BitFields := by
  intro s f c t n a x ctl pos len written
  refine ⟨fun ht h => ⟨_, execBperm_of_issues h, fun l _ => ?_⟩, fun h => ?_, fun h => ⟨_, execBfi_of_issues h, fun l _ => ?_⟩⟩
  · rw [show n = 64 from intBits_of_wide ht]
    exact ⟨foldl_range_lt _ 64 64 le_rfl, fun i hi =>
      testBit_foldl_range (fun j => a l (c.w.perm.extractLsb' (6 * j) 6).toNat) id (fun _ _ _ _ h => h) hi⟩
  · rw [execBfx_eq]
    refine exists_vectorBits h .zero _ fun l i hi => ?_
    rw [fieldPosition_eq]
    exact testBit_extractField (c.w.rawElem t f.a.toNat l) (pos l) (len l) hi
  · have hbit : ∀ i, _ = if pos l ≤ i ∧ i < pos l + len l then a l (i - pos l) else x l i := fun i =>
      testBit_putField (c.w.rawElem t f.c.toNat l) (c.w.rawElem t f.a.toNat l) (pos l) (len l) i
    simp only [fieldPosition_eq]
    refine ⟨Nat.lt_pow_two_of_testBit _ fun i hi => ?_, fun i _ => hbit i⟩
    have hlen : len l ≤ intBits t - pos l := min_le_right _ _
    have hi' : intBits t ≤ i := hi
    rw [hbit, if_neg (by omega)]
    exact testBit_of_lt (rawElem_lt _ _ _ _) hi

/-! ## Masks (R128, R14) -/

theorem Ctx.maskReg_toNat (c : Ctx) (n : BitVec 8) : c.maskReg n.toNat = if n = 0 then c.slot.mask else c.w.m.get n.toNat := by
  have hzero : n.toNat = 0 ↔ n = 0 := by rw [← BitVec.toNat_inj]; rfl
  rw [Ctx.maskReg]
  simp only [beq_iff_eq, hzero]

theorem maskInstructions : MaskInstructions := by
  intro s f c reg result
  simp only [reg, ← Ctx.maskReg_toNat]
  refine ⟨fun h => maskOp_of_issues h fun c => c.maskReg f.a.toNat &&& c.maskReg f.b.toNat,
    fun h => maskOp_of_issues h fun c => c.maskReg f.a.toNat ||| c.maskReg f.b.toNat,
    fun h => maskOp_of_issues h fun c => c.maskReg f.a.toNat ^^^ c.maskReg f.b.toNat, fun h => ?_,
    fun h => maskOp_of_issues h fun c => c.maskReg f.a.toNat, fun h => maskOp_of_issues h fun c => c.w.scalar f.a.toNat,
    fun h => scalarOp_of_issues h fun c => c.maskReg f.a.toNat, fun hd m hm hlegal => ?_⟩
  · rw [BitVec.xor_allOnes]
    exact maskOp_of_issues h fun c => ~~~(c.maskReg f.a.toNat)
  · have hdest : ∀ m ∈ [Mnem.mand, .mor, .mxor, .mnot, .mmov, .stom], m.spec.d = .maskDest := by decide
    have hchecks := (Mnem.checked_of_illegal_eq_none hlegal).d
    rw [hdest m hm, hd] at hchecks
    exact Bool.false_ne_true hchecks

/-- Settles O7. -/
theorem bitFieldsAndMasks : Obligations.BitFieldsAndMasks := ⟨funnelShift, bitDepositExtract, bitFields, maskInstructions⟩

end Sys2Proof.Machine
end

section
/-! PROOFS. Shuffles (R129), and REDL and SCANL by steps (R91, R130), with the sums of integers. -/

namespace Sys2Proof.Machine

open Sys2Proof.Claims

variable {s : State} {f : Fields} {c : Ctx} {m : Mnem}

/-! ## Shuffles -/

/-- Some element read from the source lanes of the active lanes satisfies a test. -/
theorem any_sourceReads (src : Nat → Nat) (p : Nat × Nat → Bool) :
    (((c.active f.guard).lanes.flatMap fun l => elemReads f.typeCode f.a.toNat (src l)).any p = true) ↔
      ∃ l, Active c f l ∧ (p (f.a.toNat, src l) = true ∨ (6 ≤ f.typeCode ∧ p (f.a.toNat + 1, src l) = true)) := by
  simp only [List.any_flatMap, any_elemReads, List.any_eq_true, mem_lanes_active, Bool.or_eq_true, Bool.and_eq_true, decide_eq_true_eq]

/-- The shuffles, with their mnemonics. -/
def shuffles (f : Fields) : List (Mnem × Instr) :=
  [(.shflIdx, .shflIdx f), (.shflXor, .shflXor f), (.shflUp, .shflUp f), (.shflDn, .shflDn f)]

theorem exec_shuffle {x : Mnem × Instr} (hx : x ∈ shuffles f) : exec x.2 s = shuffle x.1 f s (sourceLane x.1 f) := by
  simp only [shuffles, List.mem_cons, List.not_mem_nil, or_false] at hx
  rcases hx with rfl | rfl | rfl | rfl
  · rfl
  · change execShflXor f s = _
    rw [execShflXor, Nat.shiftRight_eq_div_pow]
    rfl
  · change execShflUp f s = _
    rw [execShflUp, Nat.shiftRight_eq_div_pow]
    congr 1
    funext w l
    dsimp only [sourceLane]
    split <;> split <;> omega
  · change execShflDn f s = _
    rw [execShflDn, Nat.shiftRight_eq_div_pow]
    congr 1
    funext w l
    dsimp only [sourceLane]
    split <;> split <;> omega

/-- The sources are clean exactly where no element read is poisoned. -/
theorem cleanSources_iff {x : Mnem × Instr} (hx : x ∈ shuffles f) : CleanSources x.1 f c ↔
    (((c.active f.guard).lanes.flatMap fun l => elemReads f.typeCode f.a.toNat (sourceLane x.1 f c.w l)).any fun y => c.w.elemPoisoned y.1 y.2) = false := by
  have hm : x.1 ∈ [Mnem.shflIdx, .shflXor, .shflUp, .shflDn] := List.mem_map_of_mem (f := Prod.fst) hx
  rw [← Bool.not_eq_true, any_sourceReads]
  push Not
  simp only [CleanSources, hm, forall_const, ne_eq, Bool.not_eq_true]

theorem shuffle_clean {x : Mnem × Instr} (hx : x ∈ shuffles f) (h : Issues x.1 f s c) (hclean : CleanSources x.1 f c) :
    exec x.2 s = .next (vector s c f f.typeCode fun l => c.w.rawElem f.typeCode f.a.toNat (sourceLane x.1 f c.w l)) :=
  (exec_shuffle hx).trans (laneReadOp_clean _ h ((cleanSources_iff hx).mp hclean))

theorem shuffleSources : Shuffles := by
  intro s f c x hx h
  refine ⟨shuffle_clean hx h, fun hbad loaded hloaded => ?_⟩
  have hany : (((c.active f.guard).lanes.flatMap fun l => elemReads f.typeCode f.a.toNat (sourceLane x.1 f c.w l)).any
      fun y => c.w.elemLoaded y.1 y.2) = loaded := Bool.eq_iff_iff.mpr ((any_sourceReads _ _).trans hloaded.symm)
  rw [exec_shuffle hx, shuffle, laneReadOp_poisoned _ h (by simpa using mt (cleanSources_iff hx).mpr hbad),
    hany]

/-! ## The steps of REDL and SCANL (R91) -/

section Steps

variable (f : Fields) (ftz : Bool)

theorem getD_allLanes (v : Nat → Nat) {l : Nat} (hl : l < 64) : (allLanes.map v).getD l 0 = v l := by
  simp [allLanes, List.getD_eq_getElem?_getD, hl]

/-- The operation of one lane pair at step `k` of REDL. -/
def lanePair (v : Nat → Nat) (k l : Nat) : Nat × BitVec 5 :=
  laneOperator f ftz (v (min l (l ^^^ (32 / 2 ^ k)))) (v (max l (l ^^^ (32 / 2 ^ k))))

/-- What one lane holds after a step of SCANL. -/
def laneScan (u : Nat → Nat) (k l : Nat) : Nat := if l < 2 ^ k then u l else (laneOperator f ftz (u (l - 2 ^ k)) (u l)).1

/-- Flags of a list after flags so far. -/
theorem foldl_or_init (xs : List (BitVec 5)) (a : BitVec 5) : xs.foldl (fun x y => x ||| y) a = a ||| xs.foldl (fun x y => x ||| y) 0 := by
  have h := List.foldl_assoc (op := fun x y : BitVec 5 => x ||| y) (l := xs) (a₁ := a) (a₂ := 0)
  rwa [show a ||| 0 = a from BitVec.or_zero] at h

theorem xor_distance_lt (k : Nat) {l : Nat} (hl : l < 64) : l ^^^ (32 / 2 ^ k) < 64 :=
  Nat.xor_lt_two_pow (n := 6) hl ((Nat.div_le_self _ _).trans_lt (by omega))

theorem reduceStep_allLanes (v : Nat → Nat) (k : Nat) : reduceStep f ftz (32 / 2 ^ k) (allLanes.map v) =
    (allLanes.map fun l => (lanePair f ftz v k l).1, ((List.range 64).map fun l => (lanePair f ftz v k l).2).foldl (fun x y => x ||| y) 0) := by
  have hpair : (allLanes.map fun l => laneOperator f ftz ((allLanes.map v).getD (min l (l ^^^ (32 / 2 ^ k))) 0)
      ((allLanes.map v).getD (max l (l ^^^ (32 / 2 ^ k))) 0)) = allLanes.map fun l => lanePair f ftz v k l :=
    List.map_congr_left fun l hl => by
      have hl64 : l < 64 := List.mem_range.mp hl
      rw [getD_allLanes v ((min_le_left _ _).trans_lt hl64), getD_allLanes v (max_lt hl64 (xor_distance_lt k hl64))]
      rfl
  rw [reduceStep, hpair, List.map_map, List.foldl_map, List.foldl_map]
  rfl

theorem scanStep_allLanes (u : Nat → Nat) (k : Nat) : scanStep f ftz (allLanes.map u) (2 ^ k) = allLanes.map fun l => laneScan f ftz u k l := by
  refine List.map_congr_left fun l hl => ?_
  have hl64 : l < 64 := List.mem_range.mp hl
  rw [getD_allLanes u hl64, getD_allLanes u ((Nat.sub_le _ _).trans_lt hl64)]
  rfl

variable {f ftz} {v u : Nat → Nat → Nat}

/-- The reduction tree's values and flags after `n` steps. -/
theorem foldl_reduceStep (hv : ∀ k l, k < 6 → l < 64 → v (k + 1) l = (lanePair f ftz (v k) k l).1) {n : Nat} (hn : n ≤ 6) :
    ((List.range n).map fun k => 32 / 2 ^ k).foldl (fun acc d => let r := reduceStep f ftz d acc.1; (r.1, acc.2 ||| r.2)) (allLanes.map (v 0), 0) =
      (allLanes.map (v n), ((List.range n).flatMap fun k => (List.range 64).map fun l => (lanePair f ftz (v k) k l).2).foldl (fun x y => x ||| y) 0) := by
  induction n with
  | zero => rfl
  | succ n ih =>
    rw [List.range_succ, List.map_append, List.foldl_append, ih (by omega), List.flatMap_append, List.foldl_append]
    simp only [List.map_cons, List.map_nil, List.foldl_cons, List.foldl_nil, List.flatMap_cons, List.flatMap_nil, List.append_nil]
    rw [reduceStep_allLanes f ftz (v n) n, ← foldl_or_init]
    exact Prod.ext (List.map_congr_left fun l hl => (hv n l (by omega) (List.mem_range.mp hl)).symm) rfl

theorem reductionTree_allLanes (hv : ∀ k l, k < 6 → l < 64 → v (k + 1) l = (lanePair f ftz (v k) k l).1) :
    reductionTree f ftz (allLanes.map (v 0)) =
      (allLanes.map (v 6), ((List.range 6).flatMap fun k => (List.range 64).map fun l => (lanePair f ftz (v k) k l).2).foldl (fun x y => x ||| y) 0) :=
  foldl_reduceStep hv le_rfl

/-- What the lanes hold after `n` steps. -/
theorem foldl_scanStep (hu : ∀ k l, k < 6 → l < 64 → u (k + 1) l = laneScan f ftz (u k) k l) {n : Nat} (hn : n ≤ 6) :
    ((List.range n).map fun k => 2 ^ k).foldl (scanStep f ftz) (allLanes.map (u 0)) = allLanes.map (u n) := by
  induction n with
  | zero => rfl
  | succ n ih =>
    rw [List.range_succ, List.map_append, List.foldl_append, ih (by omega), List.map_singleton, List.foldl_cons, List.foldl_nil, scanStep_allLanes]
    exact List.map_congr_left fun l hl => (hu n l (by omega) (List.mem_range.mp hl)).symm

theorem scanPrefixes_allLanes (hu : ∀ k l, k < 6 → l < 64 → u (k + 1) l = laneScan f ftz (u k) k l) :
    scanPrefixes f ftz (allLanes.map (u 0)) = allLanes.map (u 6) := foldl_scanStep hu le_rfl

end Steps

/-- What a lane enters with: the active lanes their elements, the others the identity. -/
def laneStart (f : Fields) (c : Ctx) (l : Nat) : Nat :=
  if (c.active f.guard).getLsbD l then c.w.rawElem f.typeCode f.a.toNat l else laneIdentity f

/-- The state in which REDL or SCANL has written its results and ORed its flags into FLAGS. -/
def reduced (s : State) (c : Ctx) (f : Fields) (g : Nat → Nat) (fl : BitVec 5) : State :=
  after s c ((c.w.putElems f.typeCode f.d.toNat ((c.active f.guard).lanes.map fun l => (l, g l))).orFlags fl)

/-- The flags of the operations of the reduction tree. -/
def treeFlags (f : Fields) (ftz : Bool) (v : Nat → Nat → Nat) : BitVec 5 :=
  ((List.range 6).flatMap fun k => (List.range 64).map fun l => (lanePair f ftz (v k) k l).2).foldl (fun x y => x ||| y) 0

theorem laneInputs_eq {v : Nat → Nat} (hv : ∀ l, l < 64 → v l = laneStart f c l) : laneInputs f c.w (c.active f.guard) = allLanes.map v :=
  List.map_congr_left fun l hl => (hv l (List.mem_range.mp hl)).symm

theorem map_lanes_congr {g g' : Nat → Nat} (h : ∀ l, l < 64 → g l = g' l) :
    (c.active f.guard).lanes.map (fun l => (l, g l)) = (c.active f.guard).lanes.map fun l => (l, g' l) :=
  List.map_congr_left fun l hl => by rw [h l (LaneMask.mem_lanes_iff.mp hl).1]

section Reductions

variable {v u : Nat → Nat → Nat} (hv0 : ∀ l, l < 64 → v 0 l = laneStart f c l)
  (hv : ∀ k l, k < 6 → l < 64 → v (k + 1) l = (lanePair f c.w.ftz (v k) k l).1)
  (hu0 : ∀ l, l < 64 → u 0 l = laneStart f c l) (hu : ∀ k l, k < 6 → l < 64 → u (k + 1) l = laneScan f c.w.ftz (u k) k l)

include hv0 hv

theorem execRedl_of_issues (h : Issues .redl f s c) : exec (.redl f) s = .next (reduced s c f (v 6) (treeFlags f c.w.ftz v)) := by
  change execRedl f s = _
  rw [execRedl, fixedOp_of_issues h]
  dsimp only
  rw [laneInputs_eq hv0, reductionTree_allLanes hv, map_lanes_congr fun l hl => getD_allLanes (v 6) hl, reduced, treeFlags]

include hu0 hu

theorem execScanl_of_issues (h : Issues .scanl f s c) : exec (.scanl f) s =
    .next (reduced s c f (fun l => if f.x then (if l = 0 then laneIdentity f else u 6 (l - 1)) else u 6 l) (treeFlags f c.w.ftz v)) := by
  have hout : ∀ l, l < 64 → (if f.x then laneIdentity f :: allLanes.map (u 6) else allLanes.map (u 6)).getD l 0 =
      if f.x then (if l = 0 then laneIdentity f else u 6 (l - 1)) else u 6 l := fun l hl => by
    cases f.x
    · exact getD_allLanes (u 6) hl
    · cases l with
      | zero => rfl
      | succ l => exact getD_allLanes (u 6) (by omega)
  change execScanl f s = _
  rw [execScanl, fixedOp_of_issues h]
  dsimp only
  conv_lhs => rw [laneInputs_eq hv0, reductionTree_allLanes hv, ← laneInputs_eq hv0, laneInputs_eq hu0, scanPrefixes_allLanes hu, map_lanes_congr hout]
  rw [reduced, treeFlags]

end Reductions

theorem reductionSteps : ReductionSteps := by
  intro s f c v u op start pair hstart hv hu fl result
  exact ⟨execRedl_of_issues (fun l hl => (hstart l hl).1) hv,
    execScanl_of_issues (fun l hl => (hstart l hl).1) hv (fun l hl => (hstart l hl).2) hu⟩

/-! ## The values of the steps -/

/-- What the lanes hold after `k` steps of REDL. -/
def reducedLanes (f : Fields) (ftz : Bool) (start : Nat → Nat) : Nat → Nat → Nat
  | 0, l => start l
  | k + 1, l => (lanePair f ftz (reducedLanes f ftz start k) k l).1

/-- What the lanes hold after `k` steps of SCANL. -/
def scannedLanes (f : Fields) (ftz : Bool) (start : Nat → Nat) : Nat → Nat → Nat
  | 0, l => start l
  | k + 1, l => laneScan f ftz (scannedLanes f ftz start k) k l

theorem execRedl_reducedLanes (h : Issues .redl f s c) : exec (.redl f) s =
    .next (reduced s c f (reducedLanes f c.w.ftz (laneStart f c) 6) (treeFlags f c.w.ftz (reducedLanes f c.w.ftz (laneStart f c)))) :=
  execRedl_of_issues (fun _ _ => rfl) (fun _ _ _ _ => rfl) h

theorem execScanl_scannedLanes (h : Issues .scanl f s c) : exec (.scanl f) s = .next (reduced s c f
    (fun l => let u := scannedLanes f c.w.ftz (laneStart f c) 6; if f.x then (if l = 0 then laneIdentity f else u (l - 1)) else u l)
    (treeFlags f c.w.ftz (reducedLanes f c.w.ftz (laneStart f c)))) :=
  execScanl_of_issues (v := reducedLanes f c.w.ftz (laneStart f c)) (u := scannedLanes f c.w.ftz (laneStart f c))
    (fun _ _ => rfl) (fun _ _ _ _ => rfl) (fun _ _ => rfl) (fun _ _ _ _ => rfl) h

end Sys2Proof.Machine
end

section
/-! PROOFS. The operators of REDL and SCANL (R130): integer sums, the completion of every operator, and the values on two elements (R72, R79, R88,
R137). -/

namespace Sys2Proof.Machine

open Sys2Proof.Claims

variable {s : State} {f : Fields} {c : Ctx} {m : Mnem}

/-! ## Flags -/

/-- The integer operators set no flag. -/
theorem laneOperator_flags (h : 3 ≤ f.sub.toNat) (ftz : Bool) (a b : Nat) : (laneOperator f ftz a b).2 = 0 := by
  unfold laneOperator
  split
  case h_1 | h_2 | h_3 => omega
  all_goals rfl

theorem foldl_or_zero {xs : List (BitVec 5)} (h : ∀ x ∈ xs, x = 0) : xs.foldl (fun x y => x ||| y) 0 = 0 := by
  induction xs with
  | nil => rfl
  | cons x xs ih =>
    obtain ⟨rfl, hxs⟩ := List.forall_mem_cons.mp h
    exact ih hxs

theorem treeFlags_zero (h : 3 ≤ f.sub.toNat) (ftz : Bool) (v : Nat → Nat → Nat) : treeFlags f ftz v = 0 := by
  refine foldl_or_zero fun x hx => ?_
  obtain ⟨k, -, hx⟩ := List.mem_flatMap.mp hx
  obtain ⟨l, -, rfl⟩ := List.mem_map.mp hx
  exact laneOperator_flags h ftz _ _

theorem reductionsComplete : ReductionsComplete := by
  intro s f c x hx h
  simp only [List.mem_cons, List.not_mem_nil, or_false] at hx
  rcases hx with rfl | rfl
  · exact ⟨_, _, fun hsub => treeFlags_zero hsub _ _, execRedl_reducedLanes h⟩
  · exact ⟨_, _, fun hsub => treeFlags_zero hsub _ _, execScanl_scannedLanes h⟩

/-! ## Sums of integers -/

section IntegerSums

variable {ftz : Bool} {a : Nat → Nat}

theorem laneOperator_add (hsub : f.sub = 3) {x y : Nat} (hx : x < 2 ^ intBits f.typeCode) (hy : y < 2 ^ intBits f.typeCode) :
    laneOperator f ftz x y = (bitsOf f.typeCode (if f.sat then clamped f.typeCode (typedValue f.typeCode x + typedValue f.typeCode y)
      else typedValue f.typeCode x + typedValue f.typeCode y), 0) := by
  rw [← intResult_eq, ← intValue_eq hx, ← intValue_eq hy, laneOperator, hsub]
  rfl

theorem laneOperator_add_mod (hsub : f.sub = 3) (hsat : f.sat = false) {x y : Nat} (hx : x < 2 ^ intBits f.typeCode) (hy : y < 2 ^ intBits f.typeCode) :
    (laneOperator f ftz x y).1 = (x + y) % 2 ^ intBits f.typeCode := by
  rw [laneOperator_add hsub hx hy, hsat]
  exact bitsOf_add _ _ _

/-- The lanes whose numbers agree modulo 2^m are those that agree modulo 2^(m+1) with one or the other lane of a pair at distance 2^m. -/
theorem mod_pair (j l m : Nat) (x : Nat) : (if j % 2 ^ m = l % 2 ^ m then x else 0) =
    (if j % 2 ^ (m + 1) = l % 2 ^ (m + 1) then x else 0) + if j % 2 ^ (m + 1) = (l ^^^ 2 ^ m) % 2 ^ (m + 1) then x else 0 := by
  have hj := Nat.mod_lt j (Nat.two_pow_pos m)
  have hl := Nat.mod_lt l (Nat.two_pow_pos m)
  have hxor : (l ^^^ 2 ^ m) % 2 ^ m = l % 2 ^ m := by rw [Nat.xor_mod_two_pow, Nat.mod_self, Nat.xor_zero]
  have hbit : (l ^^^ 2 ^ m).testBit m = !l.testBit m := by rw [Nat.testBit_xor, Nat.testBit_two_pow_self, Bool.xor_true]
  simp only [Nat.mod_pow_succ, ← Nat.toNat_testBit, hxor, hbit]
  cases j.testBit m <;> cases l.testBit m <;> simp <;> omega

/-- The sum of the lanes whose numbers agree with a lane's modulo 2^m. -/
def classSum (a : Nat → Nat) (m l : Nat) : Nat := ((List.range 64).map fun j => if j % 2 ^ m = l % 2 ^ m then a j else 0).sum

theorem classSum_succ (a : Nat → Nat) (m l : Nat) : classSum a m l = classSum a (m + 1) l + classSum a (m + 1) (l ^^^ 2 ^ m) := by
  rw [classSum, classSum, classSum, ← List.sum_map_add]
  exact congrArg List.sum (List.map_congr_left fun j _ => mod_pair j l m (a j))

theorem classSum_six (a : Nat → Nat) {l : Nat} (hl : l < 64) : classSum a 6 l = a l := by
  rw [classSum, List.sum_map_eq_nsmul_single l, List.count_eq_one_of_mem List.nodup_range (List.mem_range.mpr hl), one_smul, if_pos rfl]
  intro j hne hj
  have := List.mem_range.mp hj
  exact if_neg (by omega)

theorem classSum_zero (a : Nat → Nat) (l : Nat) : classSum a 0 l = ((List.range 64).map a).sum := by
  rw [classSum]
  exact congrArg List.sum (List.map_congr_left fun j _ => if_pos (by omega))

/-- A pair's sum does not depend on which of its lanes is the lower. -/
theorem min_add_max_eq (v : Nat → Nat) (i j : Nat) : v (min i j) + v (max i j) = v i + v j := by
  rcases le_total i j with h | h
  · rw [min_eq_left h, max_eq_right h]
  · rw [min_eq_right h, max_eq_left h, Nat.add_comm]

/-- The sum of the first lanes. -/
theorem sum_range_succ_map (a : Nat → Nat) (l : Nat) : ((List.range (l + 1)).map a).sum = ((List.range l).map a).sum + a l := by
  rw [List.range_succ, List.map_append, List.sum_append, List.map_singleton, List.sum_singleton]

variable (hsub : f.sub = 3) (hsat : f.sat = false) (ha : ∀ l, l < 64 → a l < 2 ^ intBits f.typeCode)

include hsub hsat ha

theorem reducedLanes_add {k : Nat} (hk : k ≤ 6) {l : Nat} (hl : l < 64) :
    reducedLanes f ftz a k l = classSum a (6 - k) l % 2 ^ intBits f.typeCode := by
  induction k generalizing l with
  | zero => rw [classSum_six a hl, Nat.mod_eq_of_lt (ha l hl)]; rfl
  | succ k ih =>
    have hdist : 32 / 2 ^ k = 2 ^ (6 - (k + 1)) := 
      Nat.div_eq_of_eq_mul_left (Nat.two_pow_pos k) (by rw [← pow_add, show 6 - (k + 1) + k = 5 by omega]; rfl)
    have hxor := xor_distance_lt k hl
    have hlt : ∀ i, i < 64 → reducedLanes f ftz a k i < 2 ^ intBits f.typeCode := fun i hi => by
      rw [ih (by omega) hi]
      exact Nat.mod_lt _ (Nat.two_pow_pos _)
    rw [reducedLanes, lanePair, laneOperator_add_mod hsub hsat (hlt _ ((min_le_left _ _).trans_lt hl)) (hlt _ (max_lt hl hxor)), min_add_max_eq,
      ih (by omega) hl, ih (by omega) hxor, ← Nat.add_mod, hdist, classSum_succ a (6 - (k + 1)), show 6 - (k + 1) + 1 = 6 - k by omega]

/-- A lane's partial result after `k` steps covers the 2^k lanes up to it: with the sum of the lanes before those it is the sum of the lanes up to it. -/
theorem scannedLanes_add {k : Nat} {l : Nat} (hl : l < 64) : scannedLanes f ftz a k l < 2 ^ intBits f.typeCode ∧
    scannedLanes f ftz a k l + ((List.range (l + 1 - 2 ^ k)).map a).sum ≡ ((List.range (l + 1)).map a).sum [MOD 2 ^ intBits f.typeCode] := by
  induction k generalizing l with
  | zero => exact ⟨ha l hl, by rw [sum_range_succ_map, Nat.add_comm]; rfl⟩
  | succ k ih =>
    obtain ⟨hlt, hmod⟩ := ih hl
    rw [scannedLanes, laneScan, pow_succ]
    split
    · next h => exact ⟨hlt, by rwa [show l + 1 - 2 ^ k * 2 = l + 1 - 2 ^ k by omega]⟩
    · next h =>
      obtain ⟨hlt', hmod'⟩ := ih ((Nat.sub_le l (2 ^ k)).trans_lt hl)
      rw [laneOperator_add_mod hsub hsat hlt' hlt]
      refine ⟨Nat.mod_lt _ (Nat.two_pow_pos _), ((Nat.mod_modEq _ _).add_right _).trans ?_⟩
      rw [show l - 2 ^ k + 1 - 2 ^ k = l + 1 - 2 ^ k * 2 by omega, show l - 2 ^ k + 1 = l + 1 - 2 ^ k by omega] at hmod'
      rw [Nat.add_right_comm]
      refine (hmod'.add_right _).trans ?_
      rwa [Nat.add_comm]

theorem scannedLanes_six {l : Nat} (hl : l < 64) : scannedLanes f ftz a 6 l = ((List.range (l + 1)).map a).sum % 2 ^ intBits f.typeCode := by
  obtain ⟨hlt, hmod⟩ := scannedLanes_add (ftz := ftz) (k := 6) hsub hsat ha hl
  rw [show l + 1 - 2 ^ 6 = 0 by omega] at hmod
  rw [← show _ = _ from hmod, List.range_zero, List.map_nil, List.sum_nil, Nat.add_zero, Nat.mod_eq_of_lt hlt]

end IntegerSums

/-- With no flags to OR and the same results in the active lanes, a reduction is a vector instruction. -/
theorem reduced_eq_vector {g g' : Nat → Nat} (h : ∀ l, l < 64 → g l = g' l) : reduced s c f g 0 = vector s c f f.typeCode g' := by
  rw [reduced, Warp.orFlags_zero, map_lanes_congr h, vector]

theorem integerReductions : IntegerReductions := by
  intro s f c hsub hsat t a total
  have hflags : 3 ≤ f.sub.toNat := by rw [hsub]; decide
  have hidentity : laneIdentity f = 0 := by rw [laneIdentity, hsub]; rfl
  have hstart : laneStart f c = a := funext fun l => by rw [laneStart, hidentity]
  have ha : ∀ l, l < 64 → a l < 2 ^ intBits f.typeCode := fun l _ => by
    dsimp only [a]
    split
    exacts [rawElem_lt _ _ _ _, Nat.two_pow_pos _]
  refine ⟨fun h => ?_, fun h => ?_⟩
  · rw [execRedl_reducedLanes h, treeFlags_zero hflags, hstart]
    refine congrArg _ (reduced_eq_vector fun l hl => ?_)
    rw [reducedLanes_add hsub hsat ha le_rfl hl, Nat.sub_self, classSum_zero]
  · rw [execScanl_scannedLanes h, treeFlags_zero hflags, hstart, hidentity]
    refine congrArg _ (reduced_eq_vector fun l hl => ?_)
    dsimp only [total]
    split
    · cases l with
      | zero => exact (Nat.zero_mod _).symm
      | succ l => exact scannedLanes_six hsub hsat ha (by omega)
    · exact scannedLanes_six hsub hsat ha hl

end Sys2Proof.Machine
end

section
/-! PROOFS. What the operators of REDL and SCANL give on two elements (R72, R79, R88, R130, R137), with the fields of an FP32 encoding (R73, R74). -/

namespace Sys2Proof.Machine

open Sys2Proof.Claims

variable {s : State} {f : Fields} {c : Ctx} {m : Mnem}

/-! ## FP32 encodings -/

/-- The number that an FP32 encoding stands for, by its fields. -/
theorem fp32_eq (x : Word) : fp32 x =
    if x.extractLsb' 23 8 = 255 then if x.extractLsb' 0 23 = 0 then .inf (x.getLsbD 31) else .nan (!x.getLsbD 22)
    else if x.extractLsb' 23 8 = 0 then .fin (x.getLsbD 31) (x.extractLsb' 0 23).toNat (-149)
    else .fin (x.getLsbD 31) (2 ^ 23 + (x.extractLsb' 0 23).toNat) ((x.extractLsb' 23 8).toNat - 150) := by
  have hexp : natBits x.toNat 30 23 = (x.extractLsb' 23 8).toNat := by rw [natBits, BitVec.extractLsb'_toNat]
  have hfrac : x.toNat % 8388608 = (x.extractLsb' 0 23).toNat := by rw [BitVec.extractLsb'_toNat, Nat.shiftRight_zero]
  have hquiet : natBit (x.extractLsb' 0 23).toNat 22 = x.getLsbD 22 := by
    rw [natBit_eq_testBit, ← BitVec.getLsbD, BitVec.getLsbD_extractLsb', Nat.zero_add]
    rfl
  have hsign : natBit x.toNat 31 = x.getLsbD 31 := natBit_eq_testBit _ _
  have htop : x.extractLsb' 23 8 = 255 ↔ (x.extractLsb' 23 8).toNat = 255 := BitVec.toNat_inj.symm
  have hleast : x.extractLsb' 23 8 = 0 ↔ (x.extractLsb' 23 8).toNat = 0 := BitVec.toNat_inj.symm
  have hzero : x.extractLsb' 0 23 = 0 ↔ (x.extractLsb' 0 23).toNat = 0 := BitVec.toNat_inj.symm
  simp only [htop, hleast, hzero]
  simp only [fp32, FloatFmt.value, FloatFmt.bits, FloatFmt.expBits, FloatFmt.frac, FloatFmt.minExp, FloatFmt.bias, Nat.reduceAdd, Nat.reduceSub,
    Nat.mod_eq_of_lt x.isLt, Nat.reducePow, hexp, hquiet, hfrac, hsign, beq_iff_eq]
  split
  · rfl
  · split
    · rfl
    · congr 1
      omega

theorem isNaN_fp32 (x : Word) : (fp32 x).isNaN = decide (IsNaN x) := by
  rw [fp32_eq, Bool.eq_iff_iff, decide_eq_true_eq]
  split
  · next htop =>
    split
    · next hzero => exact iff_of_false Bool.false_ne_true fun h => h.2 hzero
    · next hzero => exact iff_of_true rfl ⟨htop, hzero⟩
  · next htop => exact iff_of_false (by split <;> exact Bool.false_ne_true) fun h => htop h.1

theorem isSig_fp32 (x : Word) : (fp32 x).isSig = decide (IsSignalling x) := by
  rw [fp32_eq, Bool.eq_iff_iff, decide_eq_true_eq]
  split
  · next htop =>
    split
    · next hzero => exact iff_of_false Bool.false_ne_true fun h => h.1.2 hzero
    · next hzero => exact (Bool.not_eq_true' _).to_iff.trans ⟨fun h => ⟨⟨htop, hzero⟩, h⟩, fun h => h.2⟩
  · next htop => exact iff_of_false (by split <;> exact Bool.false_ne_true) fun h => htop h.1.1

/-! ## The order of FP32 encodings (R137) -/

theorem fp32Below_iff (a b : Word) : fp32Below a b = true ↔ order a < order b := by
  have hmag : ∀ x : Word, ((x.setWidth 31).toNat : Int) = (x.toNat % 2 ^ 31 : Nat) := fun x => by rw [BitVec.toNat_setWidth]
  simp only [fp32Below, fp32Key, order, natBit_eq_testBit, hmag, BitVec.getLsbD]
  cases a.toNat.testBit 31 <;> cases b.toNat.testBit 31 <;> simp <;> omega

/-- The lesser or the greater of two FP32 encodings: a NaN gives way to a number. -/
theorem fp32MinMax_eq (less : Bool) (a b : Word) : fp32MinMax less a b =
    (if IsNaN a ∧ IsNaN b then 0x7FC00000 else if IsNaN a then b else if IsNaN b then a
      else if (if less then order b < order a else order a < order b) then b else a, if IsSignalling a ∨ IsSignalling b then 1 else 0) := by
  have hiv : ivIf ((fp32 a).isSig || (fp32 b).isSig) = if IsSignalling a ∨ IsSignalling b then 1 else 0 := by
    simp only [ivIf, isSig_fp32, Bool.or_eq_true, decide_eq_true_eq]
    rfl
  unfold fp32MinMax
  simp only [hiv, isNaN_fp32, fp32Below_iff]
  generalize (if IsSignalling a ∨ IsSignalling b then 1 else 0 : BitVec 5) = iv
  by_cases ha : IsNaN a
  · by_cases hb : IsNaN b
    · rw [decide_eq_true ha, decide_eq_true hb]
      exact Prod.ext (if_pos ⟨ha, hb⟩).symm rfl
    · rw [decide_eq_true ha, decide_eq_false hb]
      exact Prod.ext (((if_neg fun h => hb h.2).trans (if_pos ha)).symm) rfl
  · rw [if_neg fun h : IsNaN a ∧ IsNaN b => ha h.1, if_neg ha, decide_eq_false ha]
    by_cases hb : IsNaN b
    · rw [decide_eq_true hb, if_pos hb]
    · rw [decide_eq_false hb, if_neg hb]
      cases less <;> rfl

/-! ## The sum of two numbers (R79 (e), R88) -/

section Sums

variable {down : Bool} {p q : Num}

theorem scaled_mul (g : Int) (neg : Bool) {m : Nat} {e : Int} (h : m ≠ 0 → g ≤ e) : (Num.scaled g (.fin neg m e) : ℚ) * 2 ^ g = real (.fin neg m e) := by
  rcases eq_or_ne m 0 with rfl | hm
  · cases neg <;> simp [Num.scaled, real]
  · have hpow := natCast_mul_zpow_of_le (m := m) (h hm)
    push_cast at hpow
    cases neg <;> simp [Num.scaled, real, hpow]

theorem real_natAbs (z g : Int) : real (.fin (decide (z < 0)) z.natAbs g) = z * 2 ^ g := by
  rcases lt_or_ge z 0 with h | h
  · simp [real, h, Nat.cast_natAbs, abs_of_neg h]
  · simp [real, h.not_gt, Nat.cast_natAbs, abs_of_nonneg h]

theorem leastExp_le {s t : Bool} {m n : Nat} {d e : Int} : (m ≠ 0 → leastExp [.fin s m d, .fin t n e] ≤ d) ∧
    (n ≠ 0 → leastExp [.fin s m d, .fin t n e] ≤ e) := by
  by_cases hm : m = 0 <;> by_cases hn : n = 0 <;> simp [leastExp, hm, hn]

/-- The sum of two finite numbers is exact; an exact zero has their common sign, or the one that the mode gives. -/
theorem sumNums_finite (hp : Finite p) (hq : Finite q) : ∃ neg m e, sumNums down [p, q] = (.fin neg m e, 0) ∧
    real (.fin neg m e) = real p + real q ∧
    (real p + real q = 0 → m = 0 ∧ neg = if negative p = negative q then negative p else down) := by
  cases p with
  | nan | inf => exact hp.elim
  | fin s m d =>
    cases q with
    | nan | inf => exact hq.elim
    | fin t n e =>
      obtain ⟨g, hg⟩ : ∃ g, leastExp [.fin s m d, .fin t n e] = g := ⟨_, rfl⟩
      have hle := leastExp_le (s := s) (t := t) (m := m) (n := n) (d := d) (e := e)
      rw [hg] at hle
      obtain ⟨z, hz⟩ : ∃ z, Num.scaled g (.fin s m d) + Num.scaled g (.fin t n e) = z := ⟨_, rfl⟩
      have hreal : (z : ℚ) * 2 ^ g = real (.fin s m d) + real (.fin t n e) := by
        rw [← hz, ← scaled_mul g s hle.1, ← scaled_mul g t hle.2]
        push_cast
        ring
      have hsum : sumNums down [.fin s m d, .fin t n e] = if z == 0 then
          (if s && t then (.fin true 0 0, 0) else if (s || t) && down then (.fin true 0 0, 0) else (.fin false 0 0, 0))
          else (.fin (decide (z < 0)) z.natAbs g, 0) := by
        simp [sumNums, hg, hz, Num.isNaN, Num.neg]
      rw [hsum, ← hreal]
      rcases eq_or_ne z 0 with rfl | hne
      · cases s <;> cases t <;> cases down <;> exact ⟨_, _, _, rfl, by simp [real], fun _ => ⟨rfl, by simp [negative]⟩⟩
      · refine ⟨_, _, _, if_neg (by simpa using hne), real_natAbs z g, fun h0 => absurd h0 ?_⟩
        exact mul_ne_zero (by exact_mod_cast hne) (zpow_ne_zero _ two_ne_zero)

/-- The result and the flags of a floating-point sum of two numbers. -/
def sumDelivered (r : Rounding) (ftz down : Bool) (p q : Num) : Nat × BitVec 5 :=
  let x := sumNums down [p, q]
  let y := FloatFmt.fp32.deliver r false ftz x.1
  (y.1, x.2 ||| y.2)

variable {r : Rounding} {ftz : Bool}

/-- A NaN among two addends: two infinities are not there as well. -/
theorem sumDelivered_nan (h : (p.isNaN || q.isNaN) = true) : sumDelivered r ftz down p q = (0x7FC00000, ivIf (p.isSig || q.isSig)) := by
  have hsum : sumNums down [p, q] = (.nan false, ivIf (p.isSig || q.isSig)) := by
    cases p with
    | nan s => cases q with
      | inf t => cases t <;> simp [sumNums, Num.isNaN, Num.isSig, beq_eq_decide]
      | nan t | fin t n e => simp [sumNums, Num.isNaN, Num.isSig, beq_eq_decide]
    | inf s => cases q with
      | nan t => cases s <;> simp [sumNums, Num.isNaN, Num.isSig, beq_eq_decide]
      | inf t | fin t n e => exact absurd h Bool.false_ne_true
    | fin s m d => cases q with
      | nan t => simp [sumNums, Num.isNaN, Num.isSig, beq_eq_decide]
      | inf t | fin t n e => exact absurd h Bool.false_ne_true
  rw [sumDelivered, hsum]
  exact Prod.ext rfl BitVec.or_zero

theorem sumDelivered_finite (hp : Finite p) (hq : Finite q) : ∃ neg m e, sumDelivered r ftz down p q =
    FloatFmt.fp32.round r false ftz { neg := neg, m := m, e := e } ∧ real (.fin neg m e) = real p + real q ∧
    (real p + real q = 0 → m = 0 ∧ neg = if negative p = negative q then negative p else down) := by
  obtain ⟨neg, m, e, hsum, hreal⟩ := sumNums_finite (down := down) hp hq
  refine ⟨neg, m, e, ?_, hreal⟩
  rw [sumDelivered, hsum]
  exact Prod.ext rfl BitVec.zero_or

theorem sumDelivered_inf {s : Bool} (h : sumNums down [p, q] = (.inf s, 0)) :
    sumDelivered r ftz down p q = ((if s then 2 ^ (FloatFmt.fp32.bits - 1) else 0) + FloatFmt.fp32.maxCode + 1, 0) := by
  rw [sumDelivered, h]
  exact Prod.ext (by cases s <;> rfl) BitVec.zero_or

theorem sumDelivered_special (r : Rounding) (ftz down : Bool) (p q : Num) : SumSpecial .fp32 down p q (sumDelivered r ftz down p q) := by
  refine ⟨fun s h => ?_, fun s hp hq => ?_, fun hp hq h0 => ?_⟩
  · rcases h with ⟨rfl, rfl | hq⟩ | ⟨rfl, hp⟩
    · exact sumDelivered_inf (by cases s <;> simp [sumNums, Num.isNaN, beq_eq_decide])
    · cases q with
      | nan | inf => exact hq.elim
      | fin t n e => exact sumDelivered_inf (by cases s <;> simp [sumNums, Num.isNaN, beq_eq_decide])
    · cases p with
      | nan | inf => exact hp.elim
      | fin t n e => exact sumDelivered_inf (by cases s <;> simp [sumNums, Num.isNaN, beq_eq_decide])
  · have hsum : sumNums down [p, q] = (.nan false, 1) := by cases s <;> simp [sumNums, hp, hq, Num.isNaN, beq_eq_decide, flagIV]
    rw [sumDelivered, hsum]
    exact Prod.ext rfl BitVec.or_zero
  · obtain ⟨neg, m, e, hround, -, hzero⟩ := sumDelivered_finite (r := r) (ftz := ftz) (down := down) hp hq
    obtain ⟨rfl, hneg⟩ := hzero h0
    rw [hround, FloatFmt.round_zero, hneg]
    rfl

end Sums

/-! ## The operators -/

theorem laneOperator_fadd (h : f.sub = 0) (ftz : Bool) (a b : Word) : laneOperator f ftz a.toNat b.toNat =
    sumDelivered { mode := f.rnd } ftz (decide (f.rnd = .rd)) (fp32 a) (fp32 b) := by
  rw [laneOperator, h, BitVec.ofNat_toNat, BitVec.ofNat_toNat, BitVec.setWidth_eq, BitVec.setWidth_eq]
  rfl

theorem laneOperator_minMax (less : Bool) (h : f.sub = if less then 1 else 2) (ftz : Bool) (a b : Word) :
    laneOperator f ftz a.toNat b.toNat = ((fp32MinMax less a b).1.toNat, (fp32MinMax less a b).2) := by
  rw [laneOperator, h, BitVec.ofNat_toNat, BitVec.ofNat_toNat, BitVec.setWidth_eq, BitVec.setWidth_eq]
  cases less <;> rfl

theorem integerOperators (ftz : Bool) {a b : Nat} (ha : a < 2 ^ intBits f.typeCode) (hb : b < 2 ^ intBits f.typeCode) :
    let t := f.typeCode
    let y := laneOperator f ftz a b
    (f.sub = 4 → f.sat = false → y = (if typedValue t b < typedValue t a then b else a, 0)) ∧
    (f.sub = 5 → f.sat = false → y = (if typedValue t a < typedValue t b then b else a, 0)) ∧
    (f.sub = 6 → y = (a &&& b, 0)) ∧ (f.sub = 7 → y = (a ||| b, 0)) ∧ (f.sub = 8 → y = (a ^^^ b, 0)) := by
  intro t y
  refine ⟨fun h hsat => ?_, fun h hsat => ?_, fun h => ?_, fun h => ?_, fun h => ?_⟩
  · rw [← bitsOf_min ha hb, ← intValue_eq ha, ← intValue_eq hb]
    dsimp only [y]
    rw [laneOperator, h, hsat]
    exact congrArg (·, _) (intResult_eq _ _ _)
  · rw [← bitsOf_max ha hb, ← intValue_eq ha, ← intValue_eq hb]
    dsimp only [y]
    rw [laneOperator, h, hsat]
    exact congrArg (·, _) (intResult_eq _ _ _)
  all_goals
    dsimp only [y]
    rw [laneOperator, h]
    rfl

/-- The identities, by operator. -/
theorem laneIdentity_values (f : Fields) :
    let t := f.typeCode
    (f.sub = 0 → laneIdentity f = 0x80000000) ∧ (f.sub = 1 → laneIdentity f = 0x7F800000) ∧ (f.sub = 2 → laneIdentity f = 0xFF800000) ∧
    (f.sub = 3 ∨ f.sub = 7 ∨ f.sub = 8 → laneIdentity f = 0) ∧ (f.sub = 4 → laneIdentity f = bitsOf t (high t)) ∧
    (f.sub = 5 → laneIdentity f = bitsOf t (low t)) ∧ (f.sub = 6 → laneIdentity f = 2 ^ intBits t - 1) := by
  intro t
  have hhigh : wrapBits (intBits t) (intMax t) = bitsOf t (high t) := by rw [intMax_eq]; rfl
  have hlow : wrapBits (intBits t) (intMin t) = bitsOf t (low t) := by rw [intMin_eq]; rfl
  refine ⟨fun h => ?_, fun h => ?_, fun h => ?_, fun h => ?_, fun h => ?_, fun h => ?_, fun h => ?_⟩
  case refine_4 => rcases h with h | h | h <;> rw [laneIdentity, h] <;> rfl
  case refine_5 => rw [← hhigh, laneIdentity, h]; rfl
  case refine_6 => rw [← hlow, laneIdentity, h]; rfl
  all_goals
    rw [laneIdentity, h]
    rfl

/-- Floating-point addition of two elements. -/
theorem laneOperator_sum (h : f.sub = 0) (ftz : Bool) (a b : Word) :
    let y := laneOperator f ftz a.toNat b.toNat
    (IsNaN a ∨ IsNaN b → y = (0x7FC00000, if IsSignalling a ∨ IsSignalling b then 1 else 0)) ∧
    SumSpecial .fp32 (decide (f.rnd = .rd)) (fp32 a) (fp32 b) y ∧
    (Finite (fp32 a) → Finite (fp32 b) → Rounded .fp32 { mode := f.rnd } false ftz (real (fp32 a) + real (fp32 b)) y) := by
  rw [laneOperator_fadd h]
  refine ⟨fun hnan => ?_, sumDelivered_special _ _ _ _ _, fun ha hb => ?_⟩
  · rw [sumDelivered_nan (by rwa [isNaN_fp32, isNaN_fp32, Bool.or_eq_true, decide_eq_true_eq, decide_eq_true_eq])]
    simp only [ivIf, isSig_fp32, Bool.or_eq_true, decide_eq_true_eq]
    rfl
  · obtain ⟨neg, m, e, hround, hreal, -⟩ := sumDelivered_finite (r := { mode := f.rnd }) (ftz := ftz) (down := decide (f.rnd = .rd)) ha hb
    exact ⟨neg, m, e, hreal, hround⟩

theorem laneOperators : LaneOperators := by
  refine ⟨?_, ?_, laneIdentity_values⟩
  · intro f ftz a b t v y ha hb
    exact ⟨fun h => laneOperator_add h ha hb, integerOperators ftz ha hb⟩
  · intro f ftz a b y iv least
    have hminMax : ∀ less : Bool, f.sub = (if less then 1 else 2) → y = (least less, iv) := fun less h => by
      have hy : y = _ := laneOperator_minMax less h ftz a b
      rw [hy, fp32MinMax_eq]
      simp only [apply_ite BitVec.toNat]
      rfl
    exact ⟨fun h => laneOperator_sum h ftz a b, hminMax true, hminMax false⟩

/-- Settles O8. -/
theorem shufflesAndReductions : Obligations.ShufflesAndReductions :=
  ⟨shuffleSources, integerReductions, reductionsComplete, reductionSteps, laneOperators⟩

end Sys2Proof.Machine
end

section
/-! PROOFS. VOTE and LANEID (R131). -/

namespace Sys2Proof.Machine

open Sys2Proof.Claims

variable {s : State} {f : Fields} {c : Ctx} {m : Mnem}

/-- The least lane of a nonempty mask is one of its lanes. -/
theorem LaneMask.exists_least {e : LaneMask} (he : e ≠ 0) : ∃ l, LaneMask.least e = some l ∧ l ∈ LaneMask.lanes e := by
  cases hl : LaneMask.least e with
  | some l => exact ⟨l, rfl, mem_lanes_iff.mpr ⟨List.mem_range.mp (List.mem_of_find?_eq_some hl), List.find?_some hl⟩⟩
  | none =>
    refine absurd (BitVec.eq_of_getLsbD_eq fun i hi => ?_) he
    simpa using List.find?_eq_none.mp hl i (List.mem_range.mpr hi)

/-- A value equals that of the least lane in every lane exactly where every two lanes agree. -/
theorem all_eq_least_iff {α : Type} [BEq α] [LawfulBEq α] {e : LaneMask} (he : e ≠ 0) (v : Nat → α) :
    (LaneMask.lanes e).all (fun l => v l == v ((LaneMask.least e).getD 0)) = true ↔ ∀ l k, l ∈ LaneMask.lanes e → k ∈ LaneMask.lanes e → v l = v k := by
  obtain ⟨i, hi, hmem⟩ := LaneMask.exists_least he
  simp only [List.all_eq_true, beq_iff_eq, hi, Option.getD_some]
  exact ⟨fun h l k hl hk => (h l hl).trans (h k hk).symm, fun h l hl => h l i hl hmem⟩

theorem execVote_empty (h : Issues .vote f s c) (he : c.active f.guard = 0) : exec (.vote f) s = .next (after s c c.w) := by
  change execVote f s = _
  rw [execVote, fixedOp_of_issues h]
  dsimp only
  rw [if_pos (by simpa using he)]

/-- The scalar that VOTE writes for a nonempty active set. -/
def voteResult (f : Fields) (c : Ctx) : DWord :=
  let e := c.active f.guard
  let v := fun l => c.w.elem f.a.toNat l
  if f.sub = 0 then LaneMask.ofLanes (e.lanes.filter fun l => v l != 0)
  else if (if f.sub = 1 then e.lanes.any fun l => v l != 0 else if f.sub = 2 then e.lanes.all fun l => v l != 0
    else e.lanes.all fun l => v l == v (e.least.getD 0)) then 1 else 0

theorem execVote_nonempty (h : Issues .vote f s c) (he : c.active f.guard ≠ 0) (hsub : f.sub.toNat ≤ 3) :
    exec (.vote f) s = .next (after s c (c.w.setScalar f.d.toNat (voteResult f c))) := by
  have hcases : f.sub = 0 ∨ f.sub = 1 ∨ f.sub = 2 ∨ f.sub = 3 := by
    generalize f.sub = k at hsub
    revert k
    decide
  change execVote f s = _
  rw [execVote, fixedOp_of_issues h]
  dsimp only
  rw [if_neg (by simpa using he), voteResult]
  rcases hcases with hk | hk | hk | hk <;> rw [hk] <;> rfl

/-- Settles O9. -/
theorem voteAndLaneNumbers : Obligations.VoteAndLaneNumbers := by
  refine ⟨fun s f c => ?_, fun f hbad => ⟨fun h => ?_, fun hsub h => ?_⟩, rfl, rfl⟩
  · intro e v result
    have hresult : ∀ x : DWord, voteResult f c = x → Issues .vote f s c → e ≠ 0 → f.sub.toNat ≤ 3 → exec (.vote f) s = result x :=
      fun x hx h he hsub => by rw [execVote_nonempty h he hsub, hx]
    refine ⟨execVote_empty, fun h he hsub => ?_, fun h he hsub b hb => ?_, fun h he hsub b hb => ?_, fun h he hsub b hb => ?_,
      fun h => vectorOp_of_issues h 0 fun _ l => l⟩
    · refine ⟨_, hresult _ (if_pos hsub) h he (by rw [hsub]; decide), fun l hl => ?_⟩
      rw [LaneMask.getLsbD_ofLanes _ hl, Bool.eq_iff_iff, decide_eq_true_eq, List.mem_filter, LaneMask.mem_lanes_iff, Bool.and_eq_true]
      exact and_congr_left' (and_iff_right hl)
    · refine hresult _ ?_ h he (by rw [hsub]; decide)
      have hany : (e.lanes.any fun l => v l != 0) = b := by
        rw [Bool.eq_iff_iff, hb, List.any_eq_true]
        simp only [e, mem_lanes_active, bne_iff_ne]
      rw [voteResult, hsub, ← hany]
      rfl
    · refine hresult _ ?_ h he (by rw [hsub]; decide)
      have hall : (e.lanes.all fun l => v l != 0) = b := by
        rw [Bool.eq_iff_iff, hb, List.all_eq_true]
        simp only [e, mem_lanes_active, bne_iff_ne]
      rw [voteResult, hsub, ← hall]
      rfl
    · refine hresult _ ?_ h he (by rw [hsub]; decide)
      have huniform : (e.lanes.all fun l => v l == v (e.least.getD 0)) = b := by
        rw [Bool.eq_iff_iff, hb, all_eq_least_iff he]
        simp only [e, mem_lanes_active]
      rw [voteResult, hsub, ← huniform]
      rfl
  · have hchecks := Mnem.checked_of_illegal_eq_none h
    have hsub : f.sub.toNat ≤ 3 := of_decide_eq_true hchecks.sub
    have hmod : f.mod = 0 := BitVec.eq_of_toNat_eq (beq_iff_eq.mp hchecks.mod)
    rcases hbad with hbad | hbad | himm
    · omega
    · exact hbad hmod
    · exact Bool.false_ne_true (hchecks.imm himm)
  · have hchecks := Mnem.checked_of_illegal_eq_none h
    have hmod : f.mod = 0 := BitVec.eq_of_toNat_eq (beq_iff_eq.mp hchecks.mod)
    rcases hbad with hbad | hbad | himm
    · rw [hsub] at hbad
      exact absurd hbad (by decide)
    · exact hbad hmod
    · exact Bool.false_ne_true (hchecks.imm himm)

end Sys2Proof.Machine
end

section
/-! PROOFS. What vector and mask-writing instructions leave unchanged (R14, R15, R117 (c), R121 to R131). -/

namespace Sys2Proof.Machine

open Sys2Proof.Claims

variable {s t : State} {f : Fields} {c : Ctx} {m : Mnem} {w : Warp}

/-! ## Flags and masks beside the rest of the warp -/

@[simp] theorem Warp.scalar_orFlags (w : Warp) (fl : BitVec 5) (n : Nat) : (w.orFlags fl).scalar n = w.scalar n := rfl

@[simp] theorem Warp.elem_orFlags (w : Warp) (fl : BitVec 5) (n l : Nat) : (w.orFlags fl).elem n l = w.elem n l := rfl

@[simp] theorem Warp.elemPoisoned_orFlags (w : Warp) (fl : BitVec 5) (n l : Nat) : (w.orFlags fl).elemPoisoned n l = w.elemPoisoned n l := rfl

@[simp] theorem Warp.scalar_setMask (w : Warp) (k : Nat) (x : LaneMask) (n : Nat) : (w.setMask k x).scalar n = w.scalar n := rfl

@[simp] theorem Warp.elem_setMask (w : Warp) (k : Nat) (x : LaneMask) (n l : Nat) : (w.setMask k x).elem n l = w.elem n l := rfl

@[simp] theorem Warp.elemPoisoned_setMask (w : Warp) (k : Nat) (x : LaneMask) (n l : Nat) :
    (w.setMask k x).elemPoisoned n l = w.elemPoisoned n l := rfl

theorem controlSame_orFlags (w : Warp) (fl : BitVec 5) : ControlSame w (w.orFlags fl) := by simp [ControlSame]

theorem controlSame_setMask (w : Warp) (n : Nat) (x : LaneMask) : ControlSame w (w.setMask n x) := by simp [ControlSame]

/-- Flags are only set. -/
theorem or_and_self_flags (x y : BitVec 5) : (x ||| y) &&& x = x := by
  ext i hi
  cases hx : x[i] <;> simp [hx]

/-! ## Vector instructions -/

/-- The warp after typed elements are written in the active lanes and flags ORed into FLAGS. -/
def elemsWritten (c : Ctx) (f : Fields) (t : Nat) (g : Nat → Nat) (fl : BitVec 5) : Warp :=
  (c.w.putElems t f.d.toNat ((c.active f.guard).lanes.map fun l => (l, g l))).orFlags fl

theorem elemsWritten_flags (c : Ctx) (f : Fields) (t : Nat) (g : Nat → Nat) (fl : BitVec 5) : (elemsWritten c f t g fl).flags = c.w.flags ||| fl := by
  rw [elemsWritten, Warp.orFlags, (vectorOnly_putElems _ _ _ _).flags]

/-- Outside the register or the pair of the type, and outside the active lanes, elements stay. -/
theorem sameElem_elemsWritten {τ n l : Nat} (g : Nat → Nat) (fl : BitVec 5) (hl : l < 64)
    (h : ¬ (InElem τ f.d.toNat n ∧ (c.active f.guard).getLsbD l = true)) : SameElem c.w (elemsWritten c f τ g fl) n l := by
  have hlanes : ∀ x ∈ (c.active f.guard).lanes.map fun l => (l, g l), x.1 < 64 := by
    simp only [List.mem_map, forall_exists_index, and_imp]
    rintro x k hk rfl
    exact (LaneMask.mem_lanes_iff.mp hk).1
  refine sameElem_putElems _ hlanes hl fun hin => h ⟨hin.1, ?_⟩
  obtain ⟨x, hx, rfl⟩ := List.mem_map.mp hin.2
  obtain ⟨k, hk, rfl⟩ := List.mem_map.mp hx
  exact (LaneMask.mem_lanes_iff.mp hk).2

theorem vectorFrame_after (hc : s.sys.issuing = some c) {τ : Nat} (hτ : 6 ≤ τ → 6 ≤ f.typeCode) (g : Nat → Nat) (fl : BitVec 5) :
    VectorFrame s (after s c (elemsWritten c f τ g fl)) c f (decide (6 ≤ f.typeCode)) ∧
      ∃ v, (after s c (elemsWritten c f τ g fl)).sys.warp c.ref = some v ∧ v.flags = c.w.flags ||| fl := by
  have hvec := vectorOnly_putElems c.w τ f.d.toNat ((c.active f.guard).lanes.map fun l => (l, g l))
  have hr : (elemsWritten c f τ g fl).rank = c.w.rank := by rw [elemsWritten, Warp.orFlags_rank, hvec.rank]
  have hcontrol : ControlSame c.w (elemsWritten c f τ g fl) := controlSame_trans hvec.control (controlSame_orFlags _ _)
  refine ⟨⟨elsewhereSame_after hc hr, _, warp_after hc hr, controlSame_trans hcontrol (controlSame_setSlot _ _ _), fun n => ?_, fun n => ?_,
    fun n l hl h => ?_⟩, _, warp_after hc hr, ?_⟩
  · rw [Warp.scalar_setSlot, elemsWritten, Warp.scalar_orFlags, Warp.scalar, hvec.s, Warp.scalar]
  · rw [Warp.setSlot_m, elemsWritten, Warp.orFlags_m, hvec.m]
  · rw [Warp.elem_setSlot, Warp.elemPoisoned_setSlot]
    refine sameElem_elemsWritten g fl hl fun hin => h ⟨hin.1.imp_right fun hpair => ⟨decide_eq_true (hτ hpair.1), hpair.2⟩, hin.2⟩
  · rw [Warp.setSlot_flags, elemsWritten_flags]

/-- Every vector instruction of fixed latency, every shuffle that reads no poisoned element, REDL and SCANL write typed elements in the active lanes;
the flags are those of REDL and SCANL. -/
theorem exec_vector_shape {x : Mnem × Instr}
    (hx : x ∈ [(.vadd, .vadd f), (.vsub, .vsub f), (.vmul, .vmul f), (.vmulh, .vmulh f), (.vmad, .vmad f), (.vmin, .vmin f), (.vmax, .vmax f),
         (.vabs, .vabs f), (.vneg, .vneg f), (.vand, .vand f), (.vor, .vor f), (.vxor, .vxor f), (.vnot, .vnot f), (.vshl, .vshl f),
         (.vshr, .vshr f), (.vsar, .vsar f), (.vrot, .vrot f), (.vfun, .vfun f), (.vpopc, .vpopc f), (.vclz, .vclz f), (.vctz, .vctz f),
         (.vbrev, .vbrev f), (.vsel, .vsel f), (.vmov, .vmov f), (.vli, .vli f), (.vbcst, .vbcst f), (.icvt, .icvt f),
         (.bmm8, .bmm8 f), (.pdep, .pdep f), (.pext, .pext f), (.bperm, .bperm f), (.bfx, .bfx f), (.bfi, .bfi f),
         (.shflIdx, .shflIdx f), (.shflXor, .shflXor f), (.shflUp, .shflUp f), (.shflDn, .shflDn f), (.laneid, .laneid f),
         (.redl, .redl f), (.scanl, .scanl f)])
    (h : Issues x.1 f s c) (hclean : CleanSources x.1 f c) :
    ∃ τ g fl, (6 ≤ τ → 6 ≤ f.typeCode) ∧ (x.1 ≠ .redl → x.1 ≠ .scanl → fl = 0) ∧ exec x.2 s = .next (after s c (elemsWritten c f τ g fl)) := by
  by_cases hredl : x = (.redl, .redl f)
  · subst hredl
    exact ⟨_, _, _, id, fun h => absurd rfl h, execRedl_reducedLanes h⟩
  by_cases hscanl : x = (.scanl, .scanl f)
  · subst hscanl
    exact ⟨_, _, _, id, fun _ h => absurd rfl h, execScanl_scannedLanes h⟩
  by_cases hshuffle : x ∈ shuffles f
  · exact ⟨_, _, 0, id, fun _ _ => rfl, (shuffle_clean hshuffle h hclean).trans (by rw [elemsWritten, Warp.orFlags_zero, vector])⟩
  have shape : ∃ τ, (6 ≤ τ → 6 ≤ f.typeCode) ∧ ∃ g : Ctx → Nat → Nat,
      exec x.2 s = fixedOp x.1 f s fun c e => c.w.putElems τ f.d.toNat (e.lanes.map fun l => (l, g c l)) := by
    by_cases hnarrow : x = (.vfun, .vfun f) ∨ x = (.laneid, .laneid f)
    · refine ⟨0, fun h => absurd h (by decide), ?_⟩
      rcases hnarrow with rfl | rfl <;> exact ⟨_, rfl⟩
    · refine ⟨f.typeCode, id, ?_⟩
      obtain ⟨hvfun, hlaneid⟩ := not_or.mp hnarrow
      simp only [shuffles, List.mem_cons, List.not_mem_nil, or_false, not_or] at hshuffle
      obtain ⟨hidx, hxor, hup, hdn⟩ := hshuffle
      simp only [List.mem_cons, List.not_mem_nil, or_false, hredl, hscanl, hidx, hxor, hup, hdn, hvfun, hlaneid, false_or] at hx
      rcases hx with rfl | rfl | rfl | rfl | rfl | rfl | rfl | rfl | rfl | rfl | rfl | rfl | rfl | rfl | rfl | rfl | rfl | rfl | rfl | rfl | rfl |
        rfl | rfl | rfl | rfl | rfl | rfl | rfl | rfl | rfl | rfl | rfl <;> exact ⟨_, rfl⟩
  obtain ⟨τ, hτ, g, hexec⟩ := shape
  exact ⟨τ, g c, 0, hτ, fun _ _ => rfl, hexec.trans ((fixedOp_of_issues h _).trans (by rw [elemsWritten, Warp.orFlags_zero]))⟩

theorem vectorFrames : VectorFrames := by
  intro s t f c x hx h hclean hexec
  obtain ⟨τ, g, fl, hτ, hfl, hshape⟩ := exec_vector_shape hx h hclean
  cases hexec.symm.trans hshape
  obtain ⟨hframe, v, hv, hflags⟩ := vectorFrame_after h.1 hτ g fl
  refine ⟨hframe, v, hv, by rw [hflags, or_and_self_flags], fun hredl hscanl => ?_⟩
  rw [hflags, hfl hredl hscanl]
  exact BitVec.or_zero

/-! ## Mask-writing instructions -/

theorem maskFrame_after (hc : s.sys.issuing = some c) (d : Nat) (k : LaneMask) (fl : BitVec 5) :
    MaskFrame s (after s c ((c.w.setMask d k).orFlags fl)) c d ∧
      ∃ v, (after s c ((c.w.setMask d k).orFlags fl)).sys.warp c.ref = some v ∧ v.flags = c.w.flags ||| fl := by
  have hr : ((c.w.setMask d k).orFlags fl).rank = c.w.rank := rfl
  refine ⟨⟨elsewhereSame_after hc hr, _, warp_after hc hr, ?_, fun n => by simp, fun n hn => ?_, fun n l => by simp⟩, _, warp_after hc hr, ?_⟩
  · exact controlSame_trans (controlSame_trans (controlSame_setMask _ _ _) (controlSame_orFlags _ _)) (controlSame_setSlot _ _ _)
  · rw [Warp.setSlot_m, Warp.orFlags_m]
    exact Sparse.get_put_other _ _ _ _ hn
  · rw [Warp.setSlot_flags]
    rfl

/-- Every instruction that writes a mask register writes it, and FCMP may set flags. -/
theorem exec_mask_shape {x : Mnem × Instr} (hx : x ∈ [(.mand, .mand f), (.mor, .mor f), (.mxor, .mxor f), (.mnot, .mnot f), (.mmov, .mmov f),
      (.stom, .stom f), (.vcmp, .vcmp f), (.fcmp, .fcmp f)]) (h : Issues x.1 f s c) :
    ∃ k fl, (x.1 ≠ .fcmp → fl = 0) ∧ exec x.2 s = .next (after s c ((c.w.setMask f.d.toNat k).orFlags fl)) := by
  by_cases hfcmp : x = (.fcmp, .fcmp f)
  · subst hfcmp
    obtain ⟨k, hexec, -⟩ := compareOp_of_issues h fun w l =>
      ((Cmp.ofSub f.sub).holdsFloat (w.elem f.a.toNat l) (bFloat w f l), compareFlags (w.elem f.a.toNat l) (bFloat w f l))
    exact ⟨k, _, fun h => absurd rfl h, hexec⟩
  by_cases hvcmp : x = (.vcmp, .vcmp f)
  · subst hvcmp
    obtain ⟨k, hexec, -⟩ := execVcmp_of_issues h
    exact ⟨k, 0, fun _ => rfl, by rw [Warp.orFlags_zero]; exact hexec⟩
  have shape : ∃ g, exec x.2 s = maskOp x.1 f s g := by
    simp only [List.mem_cons, List.not_mem_nil, or_false, hfcmp, hvcmp] at hx
    rcases hx with rfl | rfl | rfl | rfl | rfl | rfl <;> exact ⟨_, rfl⟩
  obtain ⟨g, hg⟩ := shape
  exact ⟨g c, 0, fun _ => rfl, by rw [Warp.orFlags_zero, hg, maskOp_of_issues h]⟩

theorem maskFrames : MaskFrames := by
  intro s t f c x hx h hexec
  obtain ⟨k, fl, hfl, hshape⟩ := exec_mask_shape hx h
  cases hexec.symm.trans hshape
  obtain ⟨hframe, v, hv, hflags⟩ := maskFrame_after h.1 f.d.toNat k fl
  refine ⟨hframe, v, hv, fun hne => ?_, by rw [hflags, or_and_self_flags]⟩
  rw [hflags, hfl hne]
  exact BitVec.or_zero

/-- Settles O10. -/
theorem vectorAndMaskFrames : Obligations.VectorAndMaskFrames := ⟨vectorFrames, maskFrames⟩

end Sys2Proof.Machine
end

section
/-! PROOFS. CRNG and the special functions at issue (R54, R132, R144 to R147), and the special operands (R145). -/

namespace Sys2Proof.Machine

open Sys2Proof.Claims

variable {s : State} {f : Fields} {c : Ctx} {m : Mnem}

/-! ## Operations that start (R54) -/

/-- An operation that starts with a body, or completes at once for an empty active set. -/
def startedOp (m : Mnem) (f : Fields) (s : State) (body : Ctx → LaneMask → OpBody) : Host.Outcome State Fault Refusal :=
  issue m f s fun _ t c e flag => if e == 0 then t.map fun y => y.completedOp c id else t.map fun y => y.startOp c m flag (body c e)

theorem startedOp_empty (h : Issues m f s c) (body : Ctx → LaneMask → OpBody) (he : c.active f.guard = 0) :
    startedOp m f s body = .next { s with sys := s.sys.completedOp c id } := by
  rw [startedOp, issue_of_issues h]
  rw [if_pos (beq_iff_eq.mpr he)]
  rfl

theorem startedOp_nonempty (h : Issues m f s c) (body : Ctx → LaneMask → OpBody) (he : c.active f.guard ≠ 0) :
    startedOp m f s body = .next { s with sys := s.sys.startOp c m (flagOf m c) (body c (c.active f.guard)) } := by
  rw [startedOp, issue_of_issues h]
  rw [if_neg (by rwa [beq_iff_eq])]
  rfl

/-! ## CRNG (R132) -/

/-- The multiplications of a round give the high and the low half of a 64-bit product. -/
theorem mul_high_half (x k : Word) : (x.setWidth 64 * k.setWidth 64 : DWord).extractLsb' 32 32 = BitVec.ofNat 32 (x.toNat * k.toNat / 2 ^ 32) := by
  have hx := x.isLt
  have hk := k.isLt
  have hlt : x.toNat * k.toNat < 2 ^ 64 := (Nat.mul_lt_mul'' hx hk).trans_eq (by norm_num)
  refine BitVec.eq_of_toNat_eq ?_
  rw [BitVec.extractLsb'_toNat, BitVec.toNat_mul, BitVec.toNat_setWidth, BitVec.toNat_setWidth, BitVec.toNat_ofNat, Nat.mod_eq_of_lt (hx.trans (by norm_num)),
    Nat.mod_eq_of_lt (hk.trans (by norm_num)), Nat.mod_eq_of_lt hlt, Nat.shiftRight_eq_div_pow]

theorem mul_low_half (x k : Word) : (x.setWidth 64 * k.setWidth 64 : DWord).extractLsb' 0 32 = x * k := by
  have hx := x.isLt
  have hk := k.isLt
  refine BitVec.eq_of_toNat_eq ?_
  rw [BitVec.extractLsb'_toNat, BitVec.toNat_mul, BitVec.toNat_setWidth, BitVec.toNat_setWidth, BitVec.toNat_mul, Nat.mod_eq_of_lt (hx.trans (by norm_num)),
    Nat.mod_eq_of_lt (hk.trans (by norm_num)), Nat.shiftRight_zero, Nat.mod_mod_of_dvd _ (by norm_num)]

theorem crngRound_eq (z : CrngState) :
    let y0 := BitVec.ofNat 32 (z.x2.toNat * 0xC83E6A2D / 2 ^ 32) ^^^ z.x1 ^^^ z.k0
    let y2 := BitVec.ofNat 32 (z.x0.toNat * 0xD2A81B57 / 2 ^ 32) ^^^ z.x3 ^^^ z.k1
    z.round = { x0 := y0, x1 := (z.x2 * 0xC83E6A2D).rotateLeft 13 + y0, x2 := y2, x3 := (z.x0 * 0xD2A81B57).rotateLeft 7 + y2,
                k0 := z.k0 + 0x9E3779B9, k1 := z.k1 + 0xB7E15163 } := by
  intro y0 y2
  have hhigh0 := mul_high_half z.x0 0xD2A81B57
  have hhigh2 := mul_high_half z.x2 0xC83E6A2D
  have hlow0 := mul_low_half z.x0 0xD2A81B57
  have hlow2 := mul_low_half z.x2 0xC83E6A2D
  have hk0 : (0xD2A81B57 : Word).setWidth 64 = 0xD2A81B57#64 := by decide
  have hk2 : (0xC83E6A2D : Word).setWidth 64 = 0xC83E6A2D#64 := by decide
  rw [hk0] at hhigh0 hlow0
  rw [hk2] at hhigh2 hlow2
  simp only [CrngState.round, hhigh0, hhigh2, hlow0, hlow2]
  rfl

theorem crng_eq (x0 x1 : Word) (stream key : DWord) : crng x0 x1 stream key =
    CrngState.round^[10] { x0 := x0, x1 := x1, x2 := stream.setWidth 32, x3 := (stream >>> 32).setWidth 32,
                           k0 := key.setWidth 32, k1 := (key >>> 32).setWidth 32 } := by
  have hlow : ∀ x : DWord, x.extractLsb' 0 32 = x.setWidth 32 := fun x => BitVec.eq_of_toNat_eq (by simp)
  have hhigh : ∀ x : DWord, x.extractLsb' 32 32 = (x >>> 32).setWidth 32 := fun x => BitVec.eq_of_toNat_eq (by simp)
  rw [crng, CrngState.rounds_eq_iterate, hlow, hlow, hhigh, hhigh]

/-- The words of CRNG in the lanes of a mask. -/
def crngBody (f : Fields) (hi : Bool) (c : Ctx) (e : LaneMask) : OpBody :=
  let key := if f.mod.getLsbD 0 then c.w.scalar f.c.toNat else c.w.rngkey
  let v := fun l => crng (c.w.elem f.a.toNat l) (c.w.elem (f.a.toNat + 1) l) (scalarB c.w f (immUnsigned f)) key
  .crng f.d.toNat (e.lanes.map fun l => if hi then (l, (v l).x2, (v l).x3) else (l, (v l).x0, (v l).x1))

theorem crngOp_eq (m : Mnem) (f : Fields) (s : State) (hi : Bool) : crngOp m f s hi = startedOp m f s (crngBody f hi) := by
  have hstream : ∀ w : Warp, bScalar w f .zero = scalarB w f (immUnsigned f) := fun w => bScalar_eq w f .zero
  simp only [crngOp, startedOp, crngBody, hstream]

theorem randomNumbers : RandomNumbers := by
  refine ⟨?_, crngRound_eq, crng_eq⟩
  intro s f c hi x hx h e key v
  have hexec : exec x.2 s = startedOp x.1 f s (crngBody f hi) := by
    subst hx
    cases hi <;> exact crngOp_eq _ f s _
  rw [hexec]
  exact ⟨startedOp_empty h _, startedOp_nonempty h _⟩

/-! ## Special functions at issue (R144 to R147) -/

/-- The results of a special function in the lanes of a mask. -/
def sfuBody (one : Ctx → Nat → Nat × BitVec 5) (f : Fields) (c : Ctx) (e : LaneMask) : OpBody :=
  .sfu f.d.toNat (e.lanes.map fun l => (l, BitVec.ofNat 32 (one c l).1)) ((e.lanes.map fun l => (one c l).2).foldl (fun a x => a ||| x) 0)

theorem sfuBody_eq (one : Ctx → Nat → Nat × BitVec 5) (f : Fields) (c : Ctx) (e : LaneMask) :
    (let rs := e.lanes.map fun l => (l, one c l)
     OpBody.sfu f.d.toNat (rs.map fun x => (x.1, BitVec.ofNat 32 x.2.1)) (rs.foldl (fun a x => a ||| x.2.2) 0)) = sfuBody one f c e := by
  simp only [sfuBody, List.map_map, List.foldl_map]
  rfl

theorem specialFixed_eq (m : Mnem) (fn : SpecialFn) (f : Fields) (s : State) : specialFixed m fn f s =
    startedOp m f s (sfuBody (fun c l => fn.fixed { mode := f.rnd } f.sat c.w.ftz (c.w.elem f.a.toNat l)) f) := by
  simp only [specialFixed, startedOp, ← sfuBody_eq]

theorem specialTolerant_eq (m : Mnem) (fn : SpecialFn) (f : Fields) (s : State) : specialTolerant m fn f s =
    startedOp m f s (sfuBody (fun c l => fn.tolerant (tolerantBits c.b c.w.tol.toNat) f.sat c.w.ftz (c.w.elem f.a.toNat l)) f) := by
  simp only [specialTolerant, startedOp, ← sfuBody_eq]

theorem specialFunctionsStart : SpecialFunctionsStart := by
  intro s f c x hx h e one body
  have hexec : exec x.2.2.1 s = startedOp x.2.1 f s (sfuBody (fun c l =>
      if x.2.2.2 then x.1.tolerant (tolerantBits c.b c.w.tol.toNat) f.sat c.w.ftz (c.w.elem f.a.toNat l)
      else x.1.fixed { mode := f.rnd } f.sat c.w.ftz (c.w.elem f.a.toNat l)) f) := by
    have hform : exec x.2.2.1 s = if x.2.2.2 then specialTolerant x.2.1 x.1 f s else specialFixed x.2.1 x.1 f s := by
      simp only [List.mem_cons, List.not_mem_nil, or_false] at hx
      rcases hx with rfl | rfl | rfl | rfl | rfl | rfl | rfl | rfl | rfl | rfl | rfl | rfl | rfl | rfl <;> rfl
    rw [hform, specialTolerant_eq, specialFixed_eq]
    split <;> rfl
  rw [hexec]
  exact ⟨startedOp_empty h _, startedOp_nonempty h _⟩

/-! ## Special operands (R145) -/

/-- A function whose value at an operand is special gives it under every rounding. -/
theorem fixed_of_special {fn : SpecialFn} {x : Word} {b : Nat} {fl : BitVec 5} (h : fn.at x = .special b fl) (r : Rounding) (sat ftz : Bool) :
    fn.fixed r sat ftz x = (b, fl) := by
  rw [SpecialFn.fixed, h]

/-- The special operands: those that R145 lists, and 1 for LOG2, which is an exact zero. -/
theorem specialOperands : SpecialOperands := by
  intro r sat ftz x hx
  have hat : x.1.at x.2.1 = .special x.2.2.1 x.2.2.2 ∨ x.1.at x.2.1 = .value { neg := false, m := 0, e := 0 } ∧ x.2.2 = (0, 0) := by
    revert x
    decide +kernel
  rcases hat with hspecial | ⟨hzero, hx0⟩
  · exact fixed_of_special hspecial r sat ftz
  · rw [SpecialFn.fixed, hzero, hx0]
    exact FloatFmt.round_zero _ _ _ _ _ _

end Sys2Proof.Machine
end

section
/-! PROOFS. The precision of a .T form and the value that it gives (R146). -/

namespace Sys2Proof.Machine

open Sys2Proof.Claims

/-! ## The precision -/

theorem tolerantBits_fixed {b : Block} {w : Nat} (h : b.spawn = true ∨ w.testBit 13 = true ∨ b.entry.kind ≠ 2) : tolerantBits b w = 24 := by
  rw [tolerantBits, if_pos]
  simpa [tolForce, natBit_eq_testBit, or_assoc] using h

/-- The class entry reaches what the warp asks for in `n` iterations. -/
def Enough (e : ClassEntry) (w n : Nat) : Prop := min 1023 (w % 1024 + e.uOwn) ≤ 16 * (e.init + n * e.gain - 2) ∧ 2 ≤ e.init + n * e.gain

theorem enough_iff {e : ClassEntry} {w n : Nat} : (ownBound w e + 15) / 16 + 2 ≤ e.init + n * e.gain ↔ Enough e w n := by
  rw [Enough, ownBound, show tolT w = w % 1024 from rfl]
  generalize min 1023 (w % 1024 + e.uOwn) = own
  generalize e.init + n * e.gain = k
  omega

section

variable {b : Block} {w : Nat} (hspawn : b.spawn = false) (hforce : w.testBit 13 = false) (hkind : b.entry.kind = 2)

include hspawn hforce hkind

theorem tolerantBits_iter : tolerantBits b w =
    ((List.range 16).find? fun n => decide ((ownBound w b.entry + 15) / 16 + 2 ≤ b.entry.init + n * b.entry.gain)).elim 24
      fun n => max 1 (min 24 (b.entry.init + n * b.entry.gain - 2)) := by
  rw [tolerantBits, if_neg (by simp [tolForce, natBit_eq_testBit, hspawn, hforce, hkind])]
  dsimp only
  generalize List.find? _ (List.range 16) = found
  cases found with
  | none => rfl
  | some n => rfl

theorem tolerantBits_none (h : ∀ n, n < 16 → ¬ Enough b.entry w n) : tolerantBits b w = 24 := by
  have hfind : ((List.range 16).find? fun n => decide ((ownBound w b.entry + 15) / 16 + 2 ≤ b.entry.init + n * b.entry.gain)) = none :=
    List.find?_eq_none.mpr fun n hn => by simpa [enough_iff] using h n (List.mem_range.mp hn)
  rw [tolerantBits_iter hspawn hforce hkind, hfind, Option.elim_none]

theorem tolerantBits_some {n : Nat} (hn : n < 16) (h : Enough b.entry w n) (hleast : ∀ k, k < n → ¬ Enough b.entry w k) :
    tolerantBits b w = max 1 (min 24 (b.entry.init + n * b.entry.gain - 2)) := by
  have hfind : ((List.range 16).find? fun n => decide ((ownBound w b.entry + 15) / 16 + 2 ≤ b.entry.init + n * b.entry.gain)) = some n :=
    List.find?_range_eq_some.mpr ⟨decide_eq_true (enough_iff.mpr h), List.mem_range.mpr hn, fun k hk => by simpa [enough_iff] using hleast k hk⟩
  rw [tolerantBits_iter hspawn hforce hkind, hfind, Option.elim_some]

end

/-! ## The value -/

section

variable {fn : SpecialFn} {q : Nat} {sat ftz : Bool} {x : Word}

theorem tolerant_full (fn : SpecialFn) (sat ftz : Bool) (x : Word) : fn.tolerant 24 sat ftz x = fn.fixed nearest sat ftz x := by
  unfold SpecialFn.tolerant SpecialFn.fixed
  split <;> rfl

theorem tolerant_of_special {b : Nat} {fl : BitVec 5} (h : fn.at x = .special b fl) : fn.tolerant q sat ftz x = (b, fl) := by
  rw [SpecialFn.tolerant, h]

/-- A NaN, an infinity and a zero are special operands of every function. -/
theorem at_special (fn : SpecialFn) (h : x.extractLsb' 23 8 = 255 ∨ x.setWidth 31 = 0) : ∃ b fl, fn.at x = .special b fl := by
  rw [SpecialFn.at, fp32_eq]
  by_cases htop : x.extractLsb' 23 8 = 255
  · rw [if_pos htop]
    by_cases hzero : x.extractLsb' 0 23 = 0
    · rw [if_pos hzero]
      cases fn <;> cases x.getLsbD 31 <;> exact ⟨_, _, rfl⟩
    · rw [if_neg hzero]
      exact ⟨_, _, rfl⟩
  · have hzero := h.resolve_left htop
    have hnat : x.toNat % 2 ^ 31 = 0 := by rw [← BitVec.toNat_setWidth, hzero]; rfl
    have hexp : x.extractLsb' 23 8 = 0 := BitVec.eq_of_toNat_eq (by rw [BitVec.extractLsb'_toNat, Nat.shiftRight_eq_div_pow]; simp; omega)
    have hfrac : (x.extractLsb' 0 23).toNat = 0 := by rw [BitVec.extractLsb'_toNat, Nat.shiftRight_zero]; omega
    rw [if_neg htop, if_pos hexp, hfrac]
    cases fn <;> exact ⟨_, _, rfl⟩

/-- Rounding to the nearest is within half a place. -/
theorem Exact.toGrid_nearest_error {x : Exact} {g : Int} {k : Nat} (hk : g = x.e + k) (hk0 : 0 < k) (hshort : k ≤ x.m.log2 + 24) :
    (x.toGrid nearest g).1 ≤ x.m / 2 ^ k + 1 ∧ 2 * |((x.toGrid nearest g).1 * 2 ^ k - x.m : Int)| ≤ 2 ^ k := by
  have hmod := Nat.mod_lt x.m (Nat.two_pow_pos k)
  have hdiv := Nat.div_add_mod' x.m (2 ^ k)
  have hsh : min (g - x.e).toNat (x.m.log2 + 24) = k := by omega
  have hcast : ((2 ^ k : Nat) : Int) = 2 ^ k := by push_cast; rfl
  unfold Exact.toGrid
  rw [if_neg (by omega)]
  dsimp only
  rw [hsh]
  generalize x.m / 2 ^ k = Q at *
  generalize x.m % 2 ^ k = rest at *
  have hup : ∀ up : Bool, (up = true → 2 ^ k ≤ 2 * rest) → (up = false → 2 * rest ≤ 2 ^ k) →
      (if up then Q + 1 else Q) ≤ Q + 1 ∧ 2 * |((if up then Q + 1 else Q : Nat) * 2 ^ k - x.m : Int)| ≤ 2 ^ k := fun up h h' => by
    cases up
    · have := h' rfl
      refine ⟨Nat.le_succ Q, ?_⟩
      rw [if_neg Bool.false_ne_true, ← hdiv, ← hcast]
      push_cast
      rw [show (Q * 2 ^ k - (Q * 2 ^ k + rest) : Int) = -rest by ring, abs_neg, Nat.abs_cast]
      exact_mod_cast this
    · have := h rfl
      refine ⟨le_rfl, ?_⟩
      rw [if_pos rfl, ← hdiv, ← hcast]
      push_cast
      rw [show ((Q + 1) * 2 ^ k - (Q * 2 ^ k + rest) : Int) = 2 ^ k - rest by ring, abs_of_nonneg (by rw [← hcast]; omega), ← hcast]
      omega
  split
  · next h =>
    have h0 : rest = 0 := by simp at h; exact h.1
    exact hup false (fun h => absurd h Bool.false_ne_true) fun _ => by omega
  · refine hup _ (fun h => ?_) fun h => ?_
    · simp [nearest] at h
      omega
    · simp [nearest] at h
      omega

/-- Rounding to `q` bits to the nearest has a relative error of at most 2^−q. -/
theorem Exact.toPrecision_nearest_error {x : Exact} (hm : 0 < x.m) (hq : 0 < q) {m : Nat} {e : Int}
    (h : ((x.toPrecision nearest q).1, (x.toPrecision nearest q).2.1) = (m, e)) :
    m ≤ 2 ^ q ∧ |(m * 2 ^ e - x.m * 2 ^ x.e : ℚ)| * 2 ^ q ≤ x.m * 2 ^ x.e := by
  have hlog := Nat.lt_log2_self (n := x.m)
  have hlow := Nat.log2_self_le hm.ne'
  unfold Exact.toPrecision at h
  dsimp only at h
  split at h
  · obtain ⟨rfl, rfl⟩ := Prod.mk.inj h
    refine ⟨hlog.le.trans (Nat.pow_le_pow_right two_pos (by omega)), ?_⟩
    rw [sub_self, abs_zero, zero_mul]
    positivity
  · obtain ⟨k, hk⟩ : ∃ k : Nat, x.m.log2 + 1 = q + k := ⟨x.m.log2 + 1 - q, by omega⟩
    have hg : x.e + (x.m.log2 : Int) + 1 - q = x.e + k := by omega
    rw [hg] at h
    obtain ⟨hle, herr⟩ := Exact.toGrid_nearest_error (x := x) (g := x.e + k) rfl (by omega) (by omega)
    obtain ⟨rfl, rfl⟩ := Prod.mk.inj h
    generalize (x.toGrid nearest (x.e + k)).1 = n at *
    have hquot : x.m / 2 ^ k < 2 ^ q := by
      rw [Nat.div_lt_iff_lt_mul (Nat.two_pow_pos k), ← pow_add, ← hk]
      exact hlog
    refine ⟨hle.trans hquot, ?_⟩
    have hpos : (0 : ℚ) < 2 ^ x.e := by positivity
    have herr' : 2 * |(n * 2 ^ k - x.m : ℚ)| ≤ 2 ^ k := by exact_mod_cast herr
    have hlow' : (2 : ℚ) ^ q * 2 ^ k ≤ 2 * x.m := by
      rw [← pow_add, ← hk, pow_succ]
      have : (2 : ℚ) ^ x.m.log2 ≤ x.m := by exact_mod_cast hlow
      linarith
    rw [zpow_add₀ two_ne_zero, zpow_natCast, show (n * (2 ^ x.e * 2 ^ k) - x.m * 2 ^ x.e : ℚ) = (n * 2 ^ k - x.m) * 2 ^ x.e by ring, abs_mul,
      abs_of_pos hpos, mul_right_comm, mul_le_mul_iff_left₀ hpos]
    have hq2 : (0 : ℚ) < 2 ^ q := by positivity
    nlinarith

theorem tolerant_value (hq : 0 < q) (hq24 : q < 24) {y : Exact} (hat : fn.at x = .value y) (hm : 0 < y.m) : ∃ (m : Nat) (e : Int), m ≤ 2 ^ q ∧
    |real (.fin false m e) - real (.fin false y.m y.e)| * 2 ^ q ≤ real (.fin false y.m y.e) ∧
    (fn.tolerant q sat ftz x).1 = (FloatFmt.fp32.round nearest sat ftz { neg := y.neg, m := m, e := e }).1 := by
  obtain ⟨hle, herr⟩ := Exact.toPrecision_nearest_error hm hq rfl
  refine ⟨_, _, hle, by simpa only [real, Bool.false_eq_true, if_false, one_mul] using herr, ?_⟩
  rw [SpecialFn.tolerant, hat]
  dsimp only
  rw [if_neg (by simp [hq24.ne, hm.ne'])]

end

theorem precisionForms : PrecisionForms := by
  refine ⟨?_, fun fn q sat ftz x => ⟨tolerant_full fn sat ftz x, fun h => ?_, fun y hat hm hq hq24 => tolerant_value hq hq24 hat hm⟩⟩
  · intro b w e own enough
    exact ⟨tolerantBits_fixed, tolerantBits_none, fun hspawn hforce hkind n hn h hleast => tolerantBits_some hspawn hforce hkind hn h hleast⟩
  · obtain ⟨b, fl, hat⟩ := at_special fn h
    rw [tolerant_of_special hat, fixed_of_special hat]

end Sys2Proof.Machine
end

section
/-! PROOFS. The completion of special functions and of CRNG (R132, R147): in a calm block nothing else goes on. -/

namespace Sys2Proof.Machine

open Sys2Proof.Claims

variable {s : State} {r : WarpRef} {b : Block} {w v u : Warp} {x : Op}

/-! ## What the results leave of the warp -/

/-- The slots, the outstanding instructions and the arrival of a warp are the same in two warps. -/
structure SameSlots (w v : Warp) : Prop where
  rank : v.rank = w.rank
  slotA : v.slotA = w.slotA
  slotB : v.slotB = w.slotB
  arrived : v.arrived = w.arrived
  ops : v.ops = w.ops

theorem SameSlots.refl (w : Warp) : SameSlots w w := ⟨rfl, rfl, rfl, rfl, rfl⟩

theorem SameSlots.trans (h : SameSlots w v) (h' : SameSlots v u) : SameSlots w u :=
  ⟨h'.rank.trans h.rank, h'.slotA.trans h.slotA, h'.slotB.trans h.slotB, h'.arrived.trans h.arrived, h'.ops.trans h.ops⟩

theorem sameSlots_setElem (w : Warp) (n l : Nat) (y : Word) : SameSlots w (w.setElem n l y) := ⟨rfl, rfl, rfl, rfl, rfl⟩

theorem sameSlots_orFlags (w : Warp) (fl : BitVec 5) : SameSlots w (w.orFlags fl) := ⟨rfl, rfl, rfl, rfl, rfl⟩

theorem sameSlots_foldl {α : Type} {g : Warp → α → Warp} (hg : ∀ w y, SameSlots w (g w y)) (w : Warp) (ys : List α) :
    SameSlots w (ys.foldl g w) := List.foldlRecOn ys _ (.refl w) fun _ hv y _ => hv.trans (hg _ y)

theorem sameSlots_sfu (w : Warp) (dst : Nat) (vals : List (Nat × Word)) (fl : BitVec 5) : SameSlots w ((w.putWords dst vals).orFlags fl) :=
  (sameSlots_foldl (fun _ _ => sameSlots_setElem _ _ _ _) w vals).trans (sameSlots_orFlags _ fl)

theorem sameSlots_crng (w : Warp) (dst : Nat) (vals : List (Nat × Word × Word)) :
    SameSlots w (vals.foldl (fun w v => (w.setElem dst v.1 v.2.1).setElem (dst + 1) v.1 v.2.2) w) :=
  sameSlots_foldl (fun _ _ => (sameSlots_setElem _ _ _ _).trans (sameSlots_setElem _ _ _ _)) w vals

/-! ## Calm warps -/

/-- No trap is pending, no slot is at BSYNC, and no arrival waits. -/
structure CalmWarp (w : Warp) : Prop where
  trapA : w.slotA.trap = none
  trapB : w.slotB.trap = none
  arrived : w.arrived = false
  holdA : w.slotA.hold ≠ .bsync
  holdB : w.slotB.hold ≠ .bsync
  noArrival : ∀ y ∈ w.ops, ∀ k n, y.body ≠ .arrive k n

theorem calm_iff : Calm b ↔ ∀ w ∈ b.warps, CalmWarp w := by
  refine ⟨fun h w hw => ?_, fun h => ⟨fun w hw => ?_, fun w hw => (h w hw).noArrival⟩⟩
  · obtain ⟨hA, hB, harrived, hholdA, hholdB⟩ := h.1 w hw
    exact ⟨hA, hB, harrived, hholdA, hholdB, h.2 w hw⟩
  · obtain ⟨hA, hB, harrived, hholdA, hholdB, -⟩ := h w hw
    exact ⟨hA, hB, harrived, hholdA, hholdB⟩

/-- An instruction that completes keeps its warp calm. -/
theorem CalmWarp.dropOp (h : CalmWarp w) (hs : SameSlots w v) (id : Nat) : CalmWarp (v.dropOp id) where
  trapA := by rw [Warp.dropOp_slotA, hs.slotA, h.trapA]
  trapB := by rw [Warp.dropOp_slotB, hs.slotB, h.trapB]
  arrived := by rw [Warp.dropOp_arrived, hs.arrived, h.arrived]
  holdA := by rw [Warp.dropOp_slotA, hs.slotA]; exact h.holdA
  holdB := by rw [Warp.dropOp_slotB, hs.slotB]; exact h.holdB
  noArrival := fun y hy => h.noArrival y (hs.ops ▸ (List.mem_filter.mp hy).1)

theorem calm_setWarp (h : Calm b) (n : Nat) {g : Warp → Warp} (hg : ∀ w, CalmWarp w → CalmWarp (g w)) : Calm (b.setWarp n g) := by
  rw [calm_iff] at h ⊢
  intro w hw
  obtain ⟨y, hy, rfl⟩ := List.mem_map.mp hw
  dsimp only
  split
  exacts [hg y (h y hy), h y hy]

theorem atSync_of_calmWarp (h : CalmWarp w) : w.atSync = false := by
  have hA := h.holdA
  have hB := h.holdB
  cases hvA : w.slotA.valid <;> cases hvB : w.slotB.valid <;> simp [Warp.atSync, hvA, hvB, hA, hB]

theorem readyArrivals_eq_nil {xs : List Op} (h : ∀ y ∈ xs, ∀ k n, y.body ≠ .arrive k n) : readyArrivals xs = [] := by
  induction xs with
  | nil => rfl
  | cons y ys ih =>
    obtain ⟨hy, hys⟩ := List.forall_mem_cons.mp h
    rw [readyArrivals]
    split
    · next k n heq => exact absurd heq (hy k n)
    · rw [ih hys, ite_self]

/-! ## What may go on after a completion -/

/-- A calm block passes no BSYNC. -/
theorem block_syncBlock {p : Phys} {y : Sys} {i : Nat} (hb : y.block i = some b) (h : Calm b) : (syncBlock p y i).block i = some b := by
  have hwarp := calm_iff.mp h
  have hsame : b.warps.map (fun w => { w with arrived := w.arrived || w.atSync }) = b.warps := by
    conv_rhs => rw [← List.map_id b.warps]
    refine List.map_congr_left fun w hw => ?_
    rw [atSync_of_calmWarp (hwarp w hw), (hwarp w hw).arrived]
    exact congrArg (fun a => { w with arrived := a }) (hwarp w hw).arrived.symm
  have hnone : (b.warps.any fun w => w.arrived) = false := List.any_eq_false.mpr fun w hw => by simp [(hwarp w hw).arrived]
  unfold syncBlock
  rw [hb]
  dsimp only
  rw [hsame, hnone, Bool.false_and, Bool.and_false, if_neg Bool.false_ne_true]
  refine (Sys.block_setBlock_same y i (fun k => { k with warps := b.warps, generation := if false then k.generation + 1 else k.generation })
    fun _ => rfl).trans ?_
  rw [hb]
  rfl

theorem trapEntry_of_noTrap {o : Phys} {t : Tx o} {z : SlotId} (hw : t.sys.warp r = some w) (h : (w.slot z).trap = none) : t.trapEntry r z = t := by
  unfold Tx.trapEntry
  split
  · rfl
  · next c hc =>
    obtain ⟨-, hz, hb, hcw⟩ := Sys.context_eq_some_iff.mp hc
    have hwarp : c.w = w := by
      rw [Sys.warp, hb] at hw
      exact Option.some_inj.mp (hcw.symm.trans hw)
    have htrap : c.slot.trap = none := by rw [Ctx.slot, hwarp, hz, h]
    rw [htrap]

theorem after_of_calm {o : Phys} {t : Tx o} (hb : t.sys.block r.block = some b) (hw : b.warp r.rank = some w) (h : Calm b) :
    (t.after r).phys = t.phys ∧ (t.after r).sys.warp r = some w := by
  have hcalm : CalmWarp w := calm_iff.mp h w (List.mem_of_find?_eq_some hw)
  have hflush : t.sys.flushArrivals r = t.sys := by
    rw [Sys.flushArrivals, Sys.warp, hb, Option.bind_some, hw]
    dsimp only
    rw [readyArrivals_eq_nil hcalm.noArrival]
    rfl
  obtain ⟨t1, ht1⟩ : ∃ t1, t1 = t.upd fun p s => syncBlock p (s.flushArrivals r) r.block := ⟨_, rfl⟩
  have hphys : t1.phys = t.phys := ht1 ▸ rfl
  have hwarp : t1.sys.warp r = some w := by
    have hsys : t1.sys = syncBlock t.phys (t.sys.flushArrivals r) r.block := ht1 ▸ rfl
    rw [hsys, hflush, Sys.warp, block_syncBlock hb h]
    exact hw
  rw [Tx.after, ← ht1, trapEntry_of_noTrap (z := .A) hwarp hcalm.trapA, trapEntry_of_noTrap (z := .B) hwarp hcalm.trapB]
  exact ⟨hphys, hwarp⟩

/-- A completion in a calm block writes its effect on the warp and frees the instruction. -/
theorem finish_of_resident (h : Resident s r b w) (id : Nat) {g : Warp → Warp} (hg : ∀ w, SameSlots w (g w)) :
    ((Tx.start s).finish r id g).phys = s.phys ∧ ((Tx.start s).finish r id g).sys.warp r = some (finished (g w) id) := by
  obtain ⟨hb, hw, hcalm⟩ := h
  have hb' : (s.sys.setWarp r fun w => (g w).dropOp id).block r.block = some (b.setWarp r.rank fun w => (g w).dropOp id) :=
    (Sys.block_setBlock_same s.sys r.block (fun b => b.setWarp r.rank fun w => (g w).dropOp id) fun _ => rfl).trans (by rw [hb]; rfl)
  have hw' : (b.setWarp r.rank fun w => (g w).dropOp id).warp r.rank = some ((g w).dropOp id) :=
    (find_updateWhere_same (fun w : Warp => w.rank == r.rank) (fun w => (g w).dropOp id)
      (fun w hw => by rwa [Warp.dropOp_rank, (hg w).rank]) b.warps).trans (by rw [show b.warps.find? _ = _ from hw]; rfl)
  exact after_of_calm (t := (Tx.start s).map fun y => y.setWarp r fun w => (g w).dropOp id) hb' hw'
    (calm_setWarp hcalm r.rank fun w hw => hw.dropOp (hg w) id)

theorem warp_op_of_resident (h : Resident s r b w) (hx : w.op x.id = some x) : ((s.sys.warp r).bind fun w => w.op x.id) = some x := by
  obtain ⟨hb, hw, -⟩ := h
  rw [Sys.warp, hb, Option.bind_some, hw, Option.bind_some, hx]

theorem functionsComplete : FunctionsComplete := by
  intro s r b w x h hx done
  refine ⟨fun dst vals flags hbody => ?_, fun dst vals hbody => ?_⟩
  · have hexec : exec (.sfuCompletion r x.id) s = .next ((Tx.start s).finish r x.id fun w => (w.putWords dst vals).orFlags flags).state := by
      change execSfuCompletion r x.id s = _
      rw [execSfuCompletion, work, Tx.start_sys, warp_op_of_resident h hx]
      dsimp only
      rw [hbody]
    exact ⟨_, hexec, finish_of_resident h x.id fun w => sameSlots_sfu w dst vals flags⟩
  · have hexec : exec (.crngCompletion r x.id) s = .next ((Tx.start s).finish r x.id fun w =>
        vals.foldl (fun w v => (w.setElem dst v.1 v.2.1).setElem (dst + 1) v.1 v.2.2) w).state := by
      change execCrngCompletion r x.id s = _
      rw [execCrngCompletion, work, Tx.start_sys, warp_op_of_resident h hx]
      dsimp only
      rw [hbody]
    exact ⟨_, hexec, finish_of_resident h x.id fun w => sameSlots_crng w dst vals⟩

end Sys2Proof.Machine
end

section
/-! PROOFS. The rounding of a magnitude that lies strictly between two (R80, R144): it is that of every exact value in between. -/

namespace Sys2Proof.Machine

open Sys2Proof.Claims

variable {r : Rounding} {x u : Exact} {g : Int}

/-- An exact value with the sign of a sticky one, strictly between its two ends. -/
structure Exact.Inside (x u : Exact) : Prop where
  sticky : u.sticky = false
  neg : u.neg = x.neg
  low : x.m * 2 ^ x.e < u.mag
  high : u.mag < (x.m + 1) * 2 ^ x.e

theorem Exact.Inside.mag_pos (h : x.Inside u) : 0 < u.mag := lt_of_le_of_lt (by positivity) h.low

theorem Exact.Inside.ne_zero (h : x.Inside u) : u.m ≠ 0 := by
  intro h0
  have := h.mag_pos
  simp [mag, h0] at this

/-- The values in between have the leading bit of the lower end. -/
theorem Exact.Inside.leadExp_eq (h : x.Inside u) (hm : x.m ≠ 0) : leadExp u.m u.e = leadExp x.m x.e :=
  leadExp_of_significand h.ne_zero (Nat.log2_self_le hm) Nat.lt_log2_self h.low.le h.high

/-- A place of a coarser grid and the next one bracket the values in between. -/
theorem Exact.Inside.bracket (h : x.Inside u) {k : Nat} :
    ((x.m / 2 ^ k : Nat) : ℚ) * 2 ^ (x.e + k) < u.mag ∧ u.mag < ((x.m / 2 ^ k : Nat) + 1) * 2 ^ (x.e + k) ∧
      ((x.m % 2 ^ k : Nat) : ℚ) / 2 ^ k < u.mag / 2 ^ (x.e + k) - (x.m / 2 ^ k : Nat) ∧
      u.mag / 2 ^ (x.e + k) - (x.m / 2 ^ k : Nat) < ((x.m % 2 ^ k : Nat) + 1) / 2 ^ k := by
  have hdiv : (x.m : ℚ) = (x.m / 2 ^ k : Nat) * 2 ^ k + (x.m % 2 ^ k : Nat) := by exact_mod_cast (Nat.div_add_mod' x.m (2 ^ k)).symm
  have hrest : ((x.m % 2 ^ k : Nat) : ℚ) + 1 ≤ 2 ^ k := by exact_mod_cast Nat.mod_lt x.m (Nat.two_pow_pos k)
  have hrest0 : (0 : ℚ) ≤ (x.m % 2 ^ k : Nat) := Nat.cast_nonneg _
  have hlow := h.low
  have hhigh := h.high
  generalize ((x.m / 2 ^ k : Nat) : ℚ) = q at *
  generalize ((x.m % 2 ^ k : Nat) : ℚ) = rest at *
  have he : (0 : ℚ) < 2 ^ x.e := by positivity
  have hk : (0 : ℚ) < 2 ^ k := by positivity
  rw [zpow_add₀ two_ne_zero, zpow_natCast]
  have hquot : u.mag / (2 ^ x.e * 2 ^ k) = u.mag / 2 ^ x.e / 2 ^ k := (div_div _ _ _).symm
  rw [hdiv, ← lt_div_iff₀ he] at hlow
  rw [hdiv, ← div_lt_iff₀ he] at hhigh
  refine ⟨?_, ?_, ?_, ?_⟩
  · rw [← lt_div_iff₀ (by positivity), hquot, lt_div_iff₀ hk]
    linarith
  · rw [← div_lt_iff₀ (by positivity), hquot, div_lt_iff₀ hk]
    linarith
  · rw [hquot, lt_sub_iff_add_lt, lt_div_iff₀ hk, add_mul, div_mul_cancel₀ _ hk.ne']
    linarith
  · rw [hquot, sub_lt_iff_lt_add, div_lt_iff₀ hk, add_mul, div_mul_cancel₀ _ hk.ne']
    linarith

/-- On a coarser grid a sticky value is rounded as every value in between. -/
theorem Exact.Inside.toGrid_eq (h : x.Inside u) (hs : x.sticky = true) (hr : r.mode ≠ .sr) {k : Nat} (hg : g = x.e + k) (hk : 0 < k)
    (hshort : k ≤ x.m.log2 + 24) : x.toGrid r g = u.toGrid r g := by
  obtain ⟨hq, hq', hφ, hφ'⟩ := h.bracket (k := k)
  rw [hg, Exact.toGrid_eq r h.sticky hq.le hq' rfl, h.neg, decide_eq_true hq.ne']
  have hsh : min (x.e + k - x.e).toNat (x.m.log2 + 24) = k := by omega
  obtain ⟨j, rfl⟩ : ∃ j, k = j + 1 := ⟨k - 1, by omega⟩
  have hhalf : (1 / 2 : ℚ) = (2 ^ j : Nat) / 2 ^ (j + 1) := by
    rw [pow_succ]
    field_simp
    push_cast
    rfl
  simp only [Exact.toGrid, if_neg (show ¬ x.e + (j + 1 : Nat) ≤ x.e by omega), hsh, hs, Bool.not_true, Bool.and_false, Bool.false_eq_true, if_false]
  generalize u.mag / 2 ^ (x.e + (j + 1 : Nat)) - (x.m / 2 ^ (j + 1) : Nat) = φ at *
  generalize x.m % 2 ^ (j + 1) = rest at *
  generalize x.m / 2 ^ (j + 1) = q
  have hφ0 : φ ≠ 0 := ((by positivity : (0 : ℚ) ≤ rest / 2 ^ (j + 1)).trans_lt hφ).ne'
  have hlevel : (2 ^ j ≤ rest ∧ 1 / 2 < φ) ∨ (rest < 2 ^ j ∧ φ < 1 / 2) := by
    rcases Nat.lt_or_ge rest (2 ^ j) with hlt | hge
    · refine .inr ⟨hlt, hφ'.trans_le ?_⟩
      rw [hhalf]
      gcongr
      exact_mod_cast hlt
    · refine .inl ⟨hge, lt_of_le_of_lt ?_ hφ⟩
      rw [hhalf]
      gcongr
  have hnear : (decide (2 ^ (j + 1) < 2 * rest) || (2 * rest == 2 ^ (j + 1) && (true || q % 2 == 1))) =
      (decide (1 / 2 < φ) || (decide (φ = 1 / 2) && q % 2 == 1)) := by
    rw [pow_succ]
    rcases hlevel with ⟨h, h'⟩ | ⟨h, h'⟩
    · rw [decide_eq_true h', Bool.true_or, Bool.true_or, Bool.and_true, Bool.or_eq_true, decide_eq_true_eq, beq_iff_eq]
      omega
    · rw [decide_eq_false h'.not_gt, decide_eq_false h'.ne, decide_eq_false (by omega), beq_eq_false_iff_ne.mpr (by omega)]
      rfl
  have haway : decide (2 ^ (j + 1) ≤ 2 * rest) = decide (1 / 2 ≤ φ) := by
    rw [pow_succ]
    rcases hlevel with ⟨h, h'⟩ | ⟨h, h'⟩
    · rw [decide_eq_true h'.le, decide_eq_true (by omega)]
    · rw [decide_eq_false h'.not_ge, decide_eq_false (by omega)]
  have hup : ∀ {a b : Bool}, a = b → (if a then q + 1 else q, true, a) = (if b then q + 1 else q, true, b) := fun h => by rw [h]
  rcases r with ⟨mode, draw⟩
  cases mode with
  | sr => exact absurd rfl hr
  | rz => rfl
  | ru | rd => simp [Rounding.picks, hφ0]
  | rn => exact hup hnear
  | ra => exact hup haway

/-- A value strictly between two places of a grid is not on the grid. -/
theorem Exact.Inside.lt_grid (h : x.Inside u) {k : Nat} : u.e < x.e + k := by
  obtain ⟨hq, hq', -, -⟩ := h.bracket (k := k)
  by_contra hle
  have hpos : (0 : ℚ) < 2 ^ (x.e + k) := by positivity
  rw [Exact.mag, natCast_mul_zpow_of_le (not_lt.mp hle)] at hq hq'
  have h1 := lt_of_mul_lt_mul_right hq hpos.le
  have h2 := lt_of_mul_lt_mul_right hq' hpos.le
  norm_cast at h1 h2
  omega

/-- Rounding to a precision that the lower end exceeds. -/
theorem Exact.Inside.toPrecision_eq (h : x.Inside u) (hs : x.sticky = true) (hr : r.mode ≠ .sr) (hm : x.m ≠ 0) {p : Nat} (hp : p ≤ x.m.log2) :
    x.toPrecision r p = u.toPrecision r p ∧ (u.toPrecision r p).1 * 2 ^ (u.toPrecision r p).2.1 = u.onGrid r (leadExp x.m x.e + 1 - p) := by
  obtain ⟨k, hk⟩ : ∃ k, x.m.log2 + 1 = p + (k + 1) := ⟨x.m.log2 - p, by omega⟩
  have hg : x.e + (x.m.log2 : Int) + 1 - p = x.e + (k + 1 : Nat) := by omega
  have hgu : u.e + (u.m.log2 : Int) + 1 - p = x.e + (k + 1 : Nat) := by
    have := h.leadExp_eq hm
    unfold leadExp at this
    omega
  have hgl : leadExp x.m x.e + 1 - p = x.e + (k + 1 : Nat) := hg
  have hgrid := h.toGrid_eq (g := x.e + (k + 1 : Nat)) hs hr rfl (Nat.succ_pos k) (by omega)
  simp only [Exact.toPrecision, hg, hgu, hgl, hgrid, if_neg (show ¬ x.e + ((k + 1 : Nat) : Int) ≤ x.e by omega), if_neg (h.lt_grid (k := k + 1)).not_ge]
  exact ⟨trivial, rfl⟩

/-- A sticky value with more bits than FP32 holds, and not far below its subnormals, is rounded to FP32 as every value in between. -/
theorem Exact.Inside.round_eq (h : x.Inside u) (hs : x.sticky = true) (hr : r.mode ≠ .sr) (hm : 2 ^ 24 ≤ x.m) (hl : -150 ≤ leadExp x.m x.e)
    (sat ftz : Bool) : FloatFmt.fp32.round r sat ftz x = FloatFmt.fp32.round r sat ftz u := by
  have hm0 : x.m ≠ 0 := by omega
  have hlog : 24 ≤ x.m.log2 := (Nat.le_log2 hm0).mpr hm
  obtain ⟨hprec, hvalue⟩ := h.toPrecision_eq (r := r) hs hr hm0 hlog
  have hlead : leadExp x.m x.e ≤ leadExp (u.toPrecision r 24).1 (u.toPrecision r 24).2.1 := by
    have hlow := Exact.two_pow_leadExp_le_onGrid (r := r) (g := leadExp x.m x.e + 1 - (24 : Nat)) h.ne_zero h.sticky
      (by rw [h.leadExp_eq hm0]; omega)
    rw [h.leadExp_eq hm0, ← hvalue] at hlow
    refine (le_leadExp_iff fun h0 => ?_).mpr hlow
    rw [h0, Nat.cast_zero, zero_mul] at hlow
    exact absurd hlow (not_le.mpr (by positivity))
  have hgrid : leadExp x.m x.e < -126 → x.toGrid r (-149) = u.toGrid r (-149) := fun hlt => by
    unfold leadExp at hlt hl
    exact h.toGrid_eq (k := (-149 - x.e).toNat) hs hr (by omega) (by omega) (by omega)
  have hx0 : (x.m == 0 && !x.sticky) = false := by simp [hs]
  have hu0 : (u.m == 0 && !u.sticky) = false := by simp [h.ne_zero]
  have hprec' : x.toPrecision r (FloatFmt.fp32.frac + 1) = u.toPrecision r (FloatFmt.fp32.frac + 1) := hprec
  unfold FloatFmt.round
  rw [FloatFmt.mode_of_ne (by decide), hx0, hu0, if_neg Bool.false_ne_true, if_neg Bool.false_ne_true, hprec', h.neg]
  rcases hval : u.toPrecision r (FloatFmt.fp32.frac + 1) with ⟨m, e, bad, up⟩
  have hlead' : leadExp x.m x.e ≤ leadExp m e := by
    rw [show 24 = FloatFmt.fp32.frac + 1 from rfl, hval] at hlead
    exact hlead
  dsimp only
  by_cases htiny : leadExp m e < FloatFmt.fp32.leastExp
  · rw [show FloatFmt.fp32.minExp = -149 from rfl, hgrid (hlead'.trans_lt htiny)]
  · rw [if_neg htiny, if_neg htiny]

end Sys2Proof.Machine
end

section
/-! PROOFS. An FP32 result as a real value rounded once (R79, R80): from the exact values around a real number to the number itself. -/

namespace Sys2Proof.Machine

open Sys2Proof.Claims

/-- A real number with finitely many binary digits. -/
def Dyadic (u : ℝ) : Prop := ∃ (n : ℤ) (k : ℤ), u = n * 2 ^ k

theorem exists_dyadic_between {a b : ℝ} (h : a < b) : ∃ u, Dyadic u ∧ a < u ∧ u < b := by
  obtain ⟨k, hk⟩ := exists_pow_lt_of_lt_one (sub_pos.mpr h) (by norm_num : (1 / 2 : ℝ) < 1)
  have hpos : (0 : ℝ) < 2 ^ k := by positivity
  have hk' : 1 / 2 ^ k < b - a := by rwa [one_div_pow] at hk
  have hfloor := Int.floor_le (a * 2 ^ k)
  have hfloor' := Int.lt_floor_add_one (a * 2 ^ k)
  refine ⟨(⌊a * 2 ^ k⌋ + 1 : ℤ) * 2 ^ (-k : ℤ), ⟨_, _, rfl⟩, ?_, ?_⟩
  · rw [zpow_neg, zpow_natCast, ← div_eq_mul_inv, lt_div_iff₀ hpos]
    push_cast
    exact hfloor'
  · rw [zpow_neg, zpow_natCast, ← div_eq_mul_inv, div_lt_iff₀ hpos]
    rw [div_lt_iff₀ hpos] at hk'
    push_cast
    linarith

theorem dyadic_real (x : Num) : Dyadic ((real x : ℚ) : ℝ) := by
  cases x with
  | nan | inf => exact ⟨0, 0, by simp [real]⟩
  | fin s m e => exact ⟨(if s then -1 else 1) * m, e, by cases s <;> simp [real]⟩

/-! ## What holds of the exact values around a number holds of it -/

section Around

variable {lo hi v a k : ℝ}

/-- An exact value in an open interval. -/
def DyadicIn (lo hi u : ℝ) : Prop := Dyadic u ∧ lo < u ∧ u < hi

theorem exists_dyadicIn {b c : ℝ} (hb : lo ≤ b) (hbc : b < c) (hc : c ≤ hi) : ∃ u, DyadicIn lo hi u ∧ b < u ∧ u < c := by
  obtain ⟨u, hu, hbu, huc⟩ := exists_dyadic_between hbc
  exact ⟨u, ⟨hu, hb.trans_lt hbu, huc.trans_le hc⟩, hbu, huc⟩

variable (hlo : lo < v) (hhi : v < hi)

include hlo hhi

theorem exists_below {b : ℝ} (hb : b < v) : ∃ u, DyadicIn lo hi u ∧ b < u ∧ u < v := by
  obtain ⟨u, hu, hbu, huv⟩ := exists_dyadicIn (hi := hi) (le_max_left lo b) (max_lt hlo hb) hhi.le
  exact ⟨u, hu, (le_max_right lo b).trans_lt hbu, huv⟩

theorem exists_above {c : ℝ} (hc : v < c) : ∃ u, DyadicIn lo hi u ∧ v < u ∧ u < c := by
  obtain ⟨u, hu, hvu, huc⟩ := exists_dyadicIn hlo.le (lt_min hhi hc) (min_le_left hi c)
  exact ⟨u, hu, hvu, huc.trans_le (min_le_right hi c)⟩

theorem le_of_around (h : ∀ u, DyadicIn lo hi u → u ≤ a) : v ≤ a := by
  by_contra hlt
  obtain ⟨u, hu, hau, -⟩ := exists_below hlo hhi (not_le.mp hlt)
  exact (h u hu).not_gt hau

theorem ge_of_around (h : ∀ u, DyadicIn lo hi u → a ≤ u) : a ≤ v := by
  by_contra hlt
  obtain ⟨u, hu, -, hua⟩ := exists_above hlo hhi (not_le.mp hlt)
  exact (h u hu).not_gt hua

theorem abs_ge_of_around (h : ∀ u, DyadicIn lo hi u → |a| ≤ |u|) : |a| ≤ |v| := by
  by_contra hlt
  obtain ⟨u, hu, hvu, hua⟩ := exists_above hlo hhi (show v < v + (|a| - |v|) by linarith [not_le.mp hlt])
  have htri : |u| ≤ |v| + |u - v| := by simpa using abs_add_le v (u - v)
  rw [abs_of_pos (sub_pos.mpr hvu)] at htri
  linarith [h u hu]

/-- The nearest value of all around is the nearest, and no other is as near. -/
theorem nearest_of_around (h : ∀ u, DyadicIn lo hi u → |u - a| ≤ |u - k|) : |v - a| ≤ |v - k| ∧ (|v - k| = |v - a| → k = a) := by
  refine ⟨?_, fun heq => ?_⟩
  · by_contra hlt
    obtain ⟨u, hu, hvu, huc⟩ := exists_above hlo hhi (show v < v + (|v - a| - |v - k|) / 2 by linarith [not_le.mp hlt])
    have hka : |v - a| ≤ |u - v| + |u - a| := by simpa [abs_sub_comm u v] using abs_sub_le v u a
    have hkk : |u - k| ≤ |u - v| + |v - k| := abs_sub_le u v k
    rw [abs_of_pos (sub_pos.mpr hvu)] at hka hkk
    linarith [h u hu]
  · by_contra hne
    have hmid : v - k = -(v - a) := (abs_eq_abs.mp heq).resolve_left fun h => hne (by linarith)
    rcases lt_or_gt_of_ne hne with hlt | hgt
    · obtain ⟨u, hu, hku, huv⟩ := exists_below hlo hhi (show k < v by linarith)
      have hle := h u hu
      rw [abs_of_neg (show u - a < 0 by linarith), abs_of_pos (sub_pos.mpr hku)] at hle
      linarith
    · obtain ⟨u, hu, hvu, huk⟩ := exists_above hlo hhi (show v < k by linarith)
      have hle := h u hu
      rw [abs_of_pos (show 0 < u - a by linarith), abs_of_neg (sub_neg.mpr huk)] at hle
      linarith

variable {mode : Rnd} {y : Nat × BitVec 5}

/-- A result of the exact values of an interval is that of every number in it. -/
theorem roundedReal_of_around (h : ∀ u, DyadicIn lo hi u → RoundedReal mode u y) : RoundedReal mode v y := by
  obtain ⟨u₁, hu₁, -, huv₁⟩ := exists_below hlo hhi (sub_one_lt v)
  obtain ⟨u₂, hu₂, huv₂, -⟩ := exists_above hlo hhi (lt_add_one v)
  obtain ⟨hfin, -, hix₁, hmode₁⟩ := h u₁ hu₁
  obtain ⟨-, -, hix₂, -⟩ := h u₂ hu₂
  have hix : y.2.getLsbD 4 = true := by
    by_contra hnot
    have h1 := not_not.mp (mt hix₁.mpr hnot)
    have h2 := not_not.mp (mt hix₂.mpr hnot)
    linarith
  have hne : ((real (FloatFmt.fp32.value y.1) : ℚ) : ℝ) ≠ v := fun heq => by
    have hv : DyadicIn lo hi v := ⟨heq ▸ dyadic_real _, hlo, hhi⟩
    obtain ⟨-, -, hixv, -⟩ := h v hv
    exact hixv.mp hix heq
  refine ⟨hfin, ?_, iff_of_true hix hne, ?_⟩
  · change 0 ≤ ((real (FloatFmt.fp32.value y.1) : ℚ) : ℝ) * v
    rcases lt_trichotomy ((real (FloatFmt.fp32.value y.1) : ℚ) : ℝ) 0 with hneg | hzero | hpos
    · refine mul_nonneg_of_nonpos_of_nonpos hneg.le (le_of_around hlo hhi fun u hu => ?_)
      obtain ⟨-, hsign, -, -⟩ := h u hu
      exact nonpos_of_mul_nonneg_right hsign hneg
    · rw [hzero, zero_mul]
    · refine mul_nonneg hpos.le (ge_of_around hlo hhi fun u hu => ?_)
      obtain ⟨-, hsign, -, -⟩ := h u hu
      exact nonneg_of_mul_nonneg_right hsign hpos
  · cases mode with
    | sr => exact hmode₁
    | rn =>
      intro k hk
      obtain ⟨hle, htie⟩ := nearest_of_around hlo hhi fun u hu => ((h u hu).2.2.2 k hk).1
      exact ⟨hle, fun heq hkne => absurd (htie heq) hkne⟩
    | ra =>
      intro k hk
      obtain ⟨hle, htie⟩ := nearest_of_around hlo hhi fun u hu => ((h u hu).2.2.2 k hk).1
      exact ⟨hle, fun heq => (congrArg abs (htie heq)).le⟩
    | rz =>
      refine ⟨abs_ge_of_around hlo hhi fun u hu => (h u hu).2.2.2.1, fun k hk hkv => ?_⟩
      rcases le_total 0 v with h0 | h0
      · exact (h u₂ hu₂).2.2.2.2 k hk (hkv.trans (abs_le_abs_of_nonneg h0 huv₂.le))
      · exact (h u₁ hu₁).2.2.2.2 k hk (hkv.trans (abs_le_abs_of_nonpos h0 huv₁.le))
    | ru => exact ⟨le_of_around hlo hhi fun u hu => (h u hu).2.2.2.1, fun k hk hvk => (h u₁ hu₁).2.2.2.2 k hk (huv₁.le.trans hvk)⟩
    | rd => exact ⟨ge_of_around hlo hhi fun u hu => (h u hu).2.2.2.1, fun k hk hkv => (h u₂ hu₂).2.2.2.2 k hk (hkv.trans huv₂.le)⟩

end Around

/-! ## Exact values (R79) -/

/-- The greatest finite FP32 value. -/
theorem real_maxCode : real (FloatFmt.fp32.value 0x7F7FFFFF) = (2 ^ 24 - 1) * 2 ^ (104 : Int) := by
  have hvalue : FloatFmt.fp32.value 0x7F7FFFFF = .fin false (2 ^ 24 - 1) 104 := by decide +kernel
  rw [hvalue, real]
  norm_num

/-- An exact value that is not above the greatest finite one is rounded once. -/
theorem roundedReal_exact {u : Exact} (hs : u.sticky = false) (hm : u.m ≠ 0) {mode : Rnd} (hmode : mode ≠ .sr) (sat : Bool)
    (htop : |real (.fin u.neg u.m u.e)| ≤ real (FloatFmt.fp32.value 0x7F7FFFFF)) :
    RoundedReal mode ((real (.fin u.neg u.m u.e) : ℚ) : ℝ) (FloatFmt.fp32.round { mode := mode } sat false u) := by
  obtain ⟨hfin, hsign, hix, -, -, hchoice⟩ := (floatRounding.1 .fp32 { mode := mode } sat false u (by decide) hm hs).1 htop
  dsimp only at hsign hix
  refine ⟨hfin, by beta_reduce; exact_mod_cast hsign, by rw [hix]; beta_reduce; norm_cast, ?_⟩
  cases mode with
  | sr => exact absurd rfl hmode
  | _ =>
    dsimp only at hchoice ⊢
    exact_mod_cast hchoice

end Sys2Proof.Machine
end

section
/-! PROOFS. RCP, SQRT and RSQ (R144): the number that each describes, exactly or between two ends, and its rounding. -/

namespace Sys2Proof.Machine

open Sys2Proof.Claims

/-! ## What a magnitude to round describes -/

/-- A real number is the one that a magnitude to round describes: the exact value, or some value strictly between the two ends. -/
def Exact.Describes (x : Exact) (v : ℝ) : Prop :=
  ∃ w : ℝ, v = (if x.neg then -1 else 1) * w ∧
    if x.sticky then x.m * 2 ^ x.e < w ∧ w < (x.m + 1) * 2 ^ x.e else w = x.m * 2 ^ x.e

theorem Dyadic.neg {u : ℝ} (h : Dyadic u) : Dyadic (-u) := by
  obtain ⟨n, k, rfl⟩ := h
  exact ⟨-n, k, by push_cast; ring⟩

variable {x : Exact}

/-- An exact value between the two ends is a magnitude to round of its own. -/
theorem exists_inside {w : ℝ} (hw : Dyadic w) (hlow : x.m * 2 ^ x.e < w) (hhigh : w < (x.m + 1) * 2 ^ x.e) :
    ∃ u : Exact, x.Inside u ∧ ((u.mag : ℚ) : ℝ) = w := by
  obtain ⟨n, k, rfl⟩ := hw
  have hpos : (0 : ℝ) < n * 2 ^ k := lt_of_le_of_lt (by positivity) hlow
  have hn : 0 < n := by
    have := pos_of_mul_pos_left hpos (by positivity)
    exact_mod_cast this
  obtain ⟨j, rfl⟩ := Int.eq_ofNat_of_zero_le hn.le
  have hmag : ((Exact.mag ⟨x.neg, j, k, false⟩ : ℚ) : ℝ) = ((j : Int) : ℝ) * 2 ^ k := by
    unfold Exact.mag
    push_cast
    rfl
  refine ⟨⟨x.neg, j, k, false⟩, ⟨rfl, rfl, ?_, ?_⟩, hmag⟩
  · exact (Rat.cast_lt (K := ℝ)).mp (by push_cast; rwa [hmag])
  · exact (Rat.cast_lt (K := ℝ)).mp (by push_cast; rwa [hmag])

/-- The greatest finite value is a place of every grid of a value below it that has more bits than FP32 holds. -/
theorem high_le_top (hm : 2 ^ 24 ≤ x.m) (h : x.m * 2 ^ x.e < real (FloatFmt.fp32.value 0x7F7FFFFF)) :
    (x.m + 1) * 2 ^ x.e ≤ real (FloatFmt.fp32.value 0x7F7FFFFF) := by
  rw [real_maxCode] at h ⊢
  have hpos : (0 : ℚ) < 2 ^ x.e := by positivity
  have he : x.e ≤ 104 := by
    by_contra hgt
    have hpow : (2 : ℚ) ^ (104 : Int) ≤ 2 ^ x.e := zpow_le_zpow_right₀ one_le_two (by omega)
    have hm' : (2 ^ 24 : ℚ) ≤ x.m := by exact_mod_cast hm
    have h104 : (0 : ℚ) < 2 ^ (104 : Int) := by positivity
    nlinarith
  have htop : ((2 ^ 24 - 1 : ℚ) * 2 ^ (104 : Int)) = ((2 ^ 24 - 1) * 2 ^ (104 - x.e).toNat : Nat) * 2 ^ x.e := by
    have := natCast_mul_zpow_of_le (m := 2 ^ 24 - 1) he
    rw [← this]
    norm_num
  rw [htop] at h ⊢
  have hlt := lt_of_mul_lt_mul_right h hpos.le
  rw [Nat.cast_lt] at hlt
  gcongr
  exact_mod_cast hlt

/-- A magnitude with more bits than FP32 holds, not far below its subnormals and not above its greatest value, is rounded to FP32 as the number
that it describes. -/
theorem roundedReal_of_describes {v : ℝ} (h : x.Describes v) (hm : 2 ^ 24 ≤ x.m) (hl : -150 ≤ leadExp x.m x.e)
    (htop : |v| ≤ ((real (FloatFmt.fp32.value 0x7F7FFFFF) : ℚ) : ℝ)) {mode : Rnd} (hmode : mode ≠ .sr) (sat : Bool) :
    RoundedReal mode v (FloatFmt.fp32.round { mode := mode } sat false x) := by
  obtain ⟨w, rfl, hw⟩ := h
  have hm0 : x.m ≠ 0 := by omega
  cases hs : x.sticky with
  | false =>
    rw [hs, if_neg Bool.false_ne_true] at hw
    have hv : ((real (.fin x.neg x.m x.e) : ℚ) : ℝ) = (if x.neg then -1 else 1) * w := by
      rw [hw]
      cases x.neg <;> simp [real]
    rw [← hv] at htop ⊢
    exact roundedReal_exact hs hm0 hmode sat (by exact_mod_cast htop)
  | true =>
    rw [hs, if_pos rfl] at hw
    obtain ⟨hlow, hhigh⟩ := hw
    have habs : |(if x.neg then -1 else 1) * w| = w := by
      have hw0 : 0 < w := lt_of_le_of_lt (by positivity) hlow
      cases x.neg <;> simp [abs_of_pos hw0]
    have hend := high_le_top hm ((Rat.cast_lt (K := ℝ)).mp (by rw [habs] at htop; push_cast; exact hlow.trans_le htop))
    have hinside : ∀ w' : ℝ, Dyadic w' → x.m * 2 ^ x.e < w' → w' < (x.m + 1) * 2 ^ x.e →
        RoundedReal mode ((if x.neg then -1 else 1) * w') (FloatFmt.fp32.round { mode := mode } sat false x) := fun w' hdyadic hlow' hhigh' => by
      obtain ⟨u, hu, rfl⟩ := exists_inside hdyadic hlow' hhigh'
      have hreal : real (.fin u.neg u.m u.e) = signum u.neg * u.mag := real_fin u
      have hle : |real (.fin u.neg u.m u.e)| ≤ real (FloatFmt.fp32.value 0x7F7FFFFF) := by
        rw [hreal, abs_signum_mul, abs_of_pos hu.mag_pos]
        exact hu.high.le.trans hend
      have hround := roundedReal_exact hu.sticky hu.ne_zero hmode sat hle
      rw [← hu.round_eq (r := { mode := mode }) hs hmode hm hl sat false, hreal, hu.neg] at hround
      have hsign : ((signum x.neg * u.mag : ℚ) : ℝ) = (if x.neg then -1 else 1) * ((u.mag : ℚ) : ℝ) := by cases x.neg <;> simp [signum]
      rwa [hsign] at hround
    cases hneg : x.neg with
    | false =>
      rw [hneg] at hinside
      simp only [Bool.false_eq_true, if_false, one_mul] at hinside ⊢
      exact roundedReal_of_around hlow hhigh fun u hu => hinside u hu.1 hu.2.1 hu.2.2
    | true =>
      rw [hneg] at hinside
      simp only [if_true, neg_one_mul] at hinside ⊢
      refine roundedReal_of_around (neg_lt_neg hhigh) (neg_lt_neg hlow) fun u hu => ?_
      have := hinside (-u) hu.1.neg (lt_neg.mp hu.2.2) (neg_lt.mp hu.2.1)
      rwa [neg_neg] at this

end Sys2Proof.Machine
end

section
/-! PROOFS. RCP, SQRT and RSQ (R144): integer division and root describe 1/x, √x and 1/√x. -/

namespace Sys2Proof.Machine

open Sys2Proof.Claims

/-! ## The integer root -/

theorem rootBits_spec (n k r : Nat) (h : r * r ≤ n) (h' : n < (r + 2 ^ k) * (r + 2 ^ k)) :
    rootBits n k r * rootBits n k r ≤ n ∧ n < (rootBits n k r + 1) * (rootBits n k r + 1) := by
  induction k generalizing r with
  | zero => exact ⟨h, h'⟩
  | succ k ih =>
    rw [rootBits]
    split
    · next hle => exact ih _ hle (by rwa [Nat.add_assoc, ← two_mul, ← pow_succ'])
    · next hlt => exact ih _ h (not_le.mp hlt)

theorem rootFloor_spec (n : Nat) : rootFloor n * rootFloor n ≤ n ∧ n < (rootFloor n + 1) * (rootFloor n + 1) := by
  refine rootBits_spec n _ 0 (by simp) ?_
  rw [Nat.zero_add, ← pow_add]
  exact Nat.lt_log2_self.trans_le (Nat.pow_le_pow_right two_pos (by omega))

/-- The root of a number of at least 2^(2k) is at least 2^k. -/
theorem two_pow_le_rootFloor {n k : Nat} (h : 2 ^ k * 2 ^ k ≤ n) : 2 ^ k ≤ rootFloor n := by
  have hlt := h.trans_lt (rootFloor_spec n).2
  exact Nat.lt_succ_iff.mp (Nat.mul_self_lt_mul_self_iff.mp hlt)

/-! ## Numbers of FP32 -/

/-- The significand and the exponent of an FP32 number. -/
theorem fp32_fin {x : Word} {neg : Bool} {m : Nat} {e : Int} (h : fp32 x = .fin neg m e) : m < 2 ^ 24 ∧ -149 ≤ e ∧ e ≤ 104 := by
  have hfrac := (x.extractLsb' 0 23).isLt
  have hexp := (x.extractLsb' 23 8).isLt
  rw [fp32_eq] at h
  split at h
  · split at h <;> cases h
  · next htop =>
    have htop' : (x.extractLsb' 23 8).toNat ≠ 255 := fun h => htop (BitVec.eq_of_toNat_eq h)
    split at h
    · cases h
      omega
    · next hzero =>
      have hzero' : (x.extractLsb' 23 8).toNat ≠ 0 := fun h => hzero (BitVec.eq_of_toNat_eq h)
      cases h
      omega

theorem real_fin_cast (neg : Bool) (m : Nat) (e : Int) : ((real (.fin neg m e) : ℚ) : ℝ) = (if neg then -1 else 1) * (m * 2 ^ e) := by
  cases neg <;> simp [real]

section Functions

variable {x : Word} {neg : Bool} {m : Nat} {e : Int} (hx : fp32 x = .fin neg m e) (hm : 0 < m)

include hx hm


theorem at_rcp : SpecialFn.rcp.at x = .value { neg := neg, m := 2 ^ 96 / m, e := -96 - e, sticky := 2 ^ 96 % m != 0 } := by
  rw [SpecialFn.at, hx]
  dsimp only
  rw [if_neg (by simpa using hm.ne')]

end Functions

section Roots

variable {x : Word} {m n : Nat} {e : Int} (hx : fp32 x = .fin false m e) (hm : 0 < m) (hn : m * 2 ^ (e % 2).toNat = n)

include hx hm hn

theorem at_sqrt : SpecialFn.sqrt.at x =
    .value { neg := false, m := rootFloor (n * 2 ^ 128), e := (e - (e % 2).toNat) / 2 - 64,
             sticky := rootFloor (n * 2 ^ 128) * rootFloor (n * 2 ^ 128) != n * 2 ^ 128 } := by
  have hbits : m * 2 ^ ((e % 2).toNat + 128) = n * 2 ^ 128 := by rw [← hn, pow_add, mul_assoc]
  rw [SpecialFn.at, hx]
  dsimp only
  rw [if_neg (by simpa using hm.ne'), if_neg Bool.false_ne_true, hbits]

theorem at_rsq : SpecialFn.rsq.at x =
    .value { neg := false, m := rootFloor (2 ^ 256 / n), e := -128 - (e - (e % 2).toNat) / 2,
             sticky := rootFloor (2 ^ 256 / n) * rootFloor (2 ^ 256 / n) * n != 2 ^ 256 } := by
  rw [SpecialFn.at, hx]
  dsimp only
  rw [if_neg (by simpa using hm.ne'), if_neg Bool.false_ne_true, hn]

end Roots

/-! ## What the quotient and the roots describe -/

/-- A quotient of natural numbers describes the real one. -/
theorem describes_quotient (neg : Bool) {n m : Nat} (hm : 0 < m) (e : Int) :
    Exact.Describes { neg := neg, m := n / m, e := e, sticky := n % m != 0 } ((if neg then -1 else 1) * ((n / m : ℝ) * 2 ^ e)) := by
  have hpos : (0 : ℝ) < 2 ^ e := by positivity
  have hm0 : (0 : ℝ) < m := by exact_mod_cast hm
  have hdiv : (n : ℝ) = m * (n / m : Nat) + (n % m : Nat) := by exact_mod_cast (Nat.div_add_mod n m).symm
  have hmod : ((n % m : Nat) : ℝ) < m := by exact_mod_cast Nat.mod_lt n hm
  refine ⟨_, rfl, ?_⟩
  dsimp only
  generalize n / m = q at *
  generalize n % m = rest at *
  split
  · next hs =>
    have hrest : (0 : ℝ) < rest := by
      have : 0 < rest := Nat.pos_of_ne_zero (by simpa using hs)
      exact_mod_cast this
    constructor
    · rw [mul_lt_mul_iff_left₀ hpos, lt_div_iff₀ hm0]
      linarith
    · rw [mul_lt_mul_iff_left₀ hpos, div_lt_iff₀ hm0]
      linarith
  · next hs =>
    obtain rfl : rest = 0 := by simpa using hs
    rw [hdiv, Nat.cast_zero, add_zero, mul_div_cancel_left₀ _ hm0.ne']

/-- A number between the squares of two neighbours has its root between them. -/
theorem describes_root {y : Nat} {t : ℝ} {exact : Bool} (hlow : (y * y : ℝ) ≤ t) (hhigh : t < (y + 1) * (y + 1))
    (hexact : exact = false ↔ (y * y : ℝ) = t) (e : Int) :
    Exact.Describes { neg := false, m := y, e := e, sticky := exact } (√t * 2 ^ e) := by
  have hpos : (0 : ℝ) < 2 ^ e := by positivity
  have hy : (0 : ℝ) ≤ y := Nat.cast_nonneg y
  refine ⟨_, (one_mul _).symm, ?_⟩
  dsimp only
  cases exact with
  | false => rw [if_neg Bool.false_ne_true, ← hexact.mp rfl, Real.sqrt_mul_self hy]
  | true =>
    have hne : (y * y : ℝ) ≠ t := fun h => absurd (hexact.mpr h) (by decide)
    rw [if_pos rfl, mul_lt_mul_iff_left₀ hpos, mul_lt_mul_iff_left₀ hpos]
    exact ⟨Real.lt_sqrt_of_sq_lt (by rw [sq]; exact lt_of_le_of_ne hlow hne), (Real.sqrt_lt' (by linarith)).mpr (by rw [sq]; exact hhigh)⟩

end Sys2Proof.Machine
end

section
/-! PROOFS. RCP, SQRT and RSQ of an ordinary operand are 1/x, √x and 1/√x, rounded once (R144). -/

namespace Sys2Proof.Machine

open Sys2Proof.Claims

/-- A function whose exact value describes a real, with enough digits, gives that real rounded once. -/
theorem roundedReal_fixed {fn : SpecialFn} {x : Word} {y : Exact} {v : ℝ} (hat : fn.at x = .value y) (h : y.Describes v) {k : Nat} (hk : 24 ≤ k)
    (hm : 2 ^ k ≤ y.m) (hl : -150 ≤ k + y.e) (htop : |v| ≤ ((real (FloatFmt.fp32.value 0x7F7FFFFF) : ℚ) : ℝ)) {mode : Rnd} (hmode : mode ≠ .sr)
    (sat : Bool) : RoundedReal mode v (fn.fixed { mode := mode } sat false x) := by
  have hlog : k ≤ y.m.log2 := (Nat.le_log2 (by have := Nat.two_pow_pos k; omega)).mpr hm
  have hlead : -150 ≤ leadExp y.m y.e := by
    unfold leadExp
    omega
  rw [SpecialFn.fixed, hat]
  exact roundedReal_of_describes h ((Nat.pow_le_pow_right two_pos hk).trans hm) hlead htop hmode sat

theorem sqrt_mul_zpow (t : ℝ) (j : Int) : √(t * 2 ^ (2 * j)) = √t * 2 ^ j := by
  have hpos : (0 : ℝ) ≤ 2 ^ j := by positivity
  rw [mul_comm 2 j, zpow_mul, zpow_ofNat, Real.sqrt_mul' t (sq_nonneg _), Real.sqrt_sq hpos]

theorem two_zpow_le_maxCode {j : Int} (hj : j ≤ 127) : (2 : ℝ) ^ j ≤ ((real (FloatFmt.fp32.value 0x7F7FFFFF) : ℚ) : ℝ) := by
  refine (zpow_le_zpow_right₀ one_le_two hj).trans ?_
  rw [real_maxCode]
  norm_num

/-- A positive number with an even exponent: the parity of the exponent goes to the significand. -/
theorem real_even {m n : Nat} {e : Int} (hn : m * 2 ^ (e % 2).toNat = n) :
    ((real (.fin false m e) : ℚ) : ℝ) = n * 2 ^ (2 * ((e - (e % 2).toNat) / 2)) := by
  have hsplit : e = (e % 2).toNat + 2 * ((e - (e % 2).toNat) / 2) := by omega
  rw [← hn, real_fin_cast, if_neg Bool.false_ne_true, one_mul, Nat.cast_mul, Nat.cast_pow, Nat.cast_ofNat, mul_assoc, ← zpow_natCast,
    ← zpow_add₀ two_ne_zero, ← hsplit]

section Functions

variable {x : Word} {neg : Bool} {m : Nat} {e : Int} (hx : fp32 x = .fin neg m e) (hm : 0 < m) {mode : Rnd} (hmode : mode ≠ .sr) (sat : Bool)

include hx hm hmode

theorem rcp_rounded (htop : |(((real (.fin neg m e) : ℚ) : ℝ))⁻¹| ≤ ((real (FloatFmt.fp32.value 0x7F7FFFFF) : ℚ) : ℝ)) :
    RoundedReal mode (((real (.fin neg m e) : ℚ) : ℝ))⁻¹ (SpecialFn.rcp.fixed { mode := mode } sat false x) := by
  obtain ⟨hm24, -, he⟩ := fp32_fin hx
  have hvalue : (((real (.fin neg m e) : ℚ) : ℝ))⁻¹ = (if neg then -1 else 1) * (((2 ^ 96 : Nat) / m : ℝ) * 2 ^ (-96 - e)) := by
    rw [real_fin_cast, mul_inv, mul_inv, zpow_sub₀ two_ne_zero]
    cases neg <;> norm_num <;> ring
  refine roundedReal_fixed (at_rcp hx hm) (hvalue ▸ describes_quotient neg hm (-96 - e)) (k := 72) (by decide) ?_ (by dsimp only; omega) htop hmode sat
  exact (Nat.le_div_iff_mul_le hm).mpr ((Nat.mul_le_mul_left _ hm24.le).trans_eq (by norm_num))

theorem sqrt_rounded (hneg : neg = false) :
    RoundedReal mode √((real (.fin neg m e) : ℚ) : ℝ) (SpecialFn.sqrt.fixed { mode := mode } sat false x) := by
  subst hneg
  obtain ⟨hm24, hlow, hhigh⟩ := fp32_fin hx
  have hn : 0 < m * 2 ^ (e % 2).toNat := Nat.mul_pos hm (Nat.two_pow_pos _)
  generalize hdef : m * 2 ^ (e % 2).toNat = n at hn
  have hat := at_sqrt hx hm hdef
  have hreal := real_even hdef
  have hspec := rootFloor_spec (n * 2 ^ 128)
  have hlarge : 2 ^ 64 ≤ rootFloor (n * 2 ^ 128) :=
    two_pow_le_rootFloor ((by norm_num : 2 ^ 64 * 2 ^ 64 = 1 * 2 ^ 128).trans_le (Nat.mul_le_mul_right _ hn))
  generalize rootFloor (n * 2 ^ 128) = y at hat hspec hlarge
  obtain ⟨hbelow, habove⟩ := hspec
  have hvalue : √((real (.fin false m e) : ℚ) : ℝ) = √(n * 2 ^ 128 : ℝ) * 2 ^ ((e - (e % 2).toNat) / 2 - 64) := by
    have hscale : (2 : ℝ) ^ (2 * 64 : Int) = 2 ^ 128 := by norm_num
    rw [← sqrt_mul_zpow, hreal, mul_sub, zpow_sub₀ two_ne_zero, hscale, mul_assoc, mul_div_cancel₀ _ (by positivity)]
  have htop : |√((real (.fin false m e) : ℚ) : ℝ)| ≤ ((real (FloatFmt.fp32.value 0x7F7FFFFF) : ℚ) : ℝ) := by
    refine le_trans ?_ (two_zpow_le_maxCode (j := 64) (by decide))
    rw [abs_of_nonneg (Real.sqrt_nonneg _), Real.sqrt_le_iff, real_fin_cast, if_neg Bool.false_ne_true, one_mul]
    have hm' : (m : ℝ) ≤ 2 ^ 24 := by exact_mod_cast hm24.le
    refine ⟨by positivity, (mul_le_mul hm' (zpow_le_zpow_right₀ one_le_two hhigh) (by positivity) (by positivity)).trans ?_⟩
    norm_num
  refine roundedReal_fixed hat (hvalue ▸ describes_root ?_ ?_ ?_ _) (k := 64) (by decide) hlarge (by dsimp only; omega) htop hmode sat
  · exact_mod_cast hbelow
  · exact_mod_cast habove
  · rw [bne_eq_false_iff_eq]
    exact_mod_cast Iff.rfl

theorem rsq_rounded (hneg : neg = false) :
    RoundedReal mode (√((real (.fin neg m e) : ℚ) : ℝ))⁻¹ (SpecialFn.rsq.fixed { mode := mode } sat false x) := by
  subst hneg
  obtain ⟨hm24, hlow, hhigh⟩ := fp32_fin hx
  have hodd : (e % 2).toNat ≤ 1 := by omega
  have hn : 0 < m * 2 ^ (e % 2).toNat := Nat.mul_pos hm (Nat.two_pow_pos _)
  have hn25 : m * 2 ^ (e % 2).toNat ≤ 2 ^ 25 := (Nat.mul_le_mul hm24.le (Nat.pow_le_pow_right two_pos hodd)).trans_eq (by norm_num)
  generalize hdef : m * 2 ^ (e % 2).toNat = n at hn hn25
  have hat := at_rsq hx hm hdef
  have hreal := real_even hdef
  have hspec := rootFloor_spec (2 ^ 256 / n)
  have hlarge : 2 ^ 115 ≤ rootFloor (2 ^ 256 / n) := by
    refine two_pow_le_rootFloor ((Nat.le_div_iff_mul_le hn).mpr ((Nat.mul_le_mul_left _ hn25).trans ?_))
    norm_num
  generalize rootFloor (2 ^ 256 / n) = y at hat hspec hlarge
  obtain ⟨hbelow, habove⟩ := hspec
  rw [Nat.le_div_iff_mul_le hn] at hbelow
  rw [Nat.div_lt_iff_lt_mul hn] at habove
  have hn' : (0 : ℝ) < n := by exact_mod_cast hn
  have hvalue : (√((real (.fin false m e) : ℚ) : ℝ))⁻¹ = √(2 ^ 256 / n : ℝ) * 2 ^ (-128 - (e - (e % 2).toNat) / 2) := by
    rw [← sqrt_mul_zpow, ← Real.sqrt_inv, hreal, mul_sub, zpow_sub₀ two_ne_zero, mul_inv]
    congr 1
    norm_num
    ring
  have htop : |(√((real (.fin false m e) : ℚ) : ℝ))⁻¹| ≤ ((real (FloatFmt.fp32.value 0x7F7FFFFF) : ℚ) : ℝ) := by
    refine le_trans ?_ (two_zpow_le_maxCode (j := 75) (by decide))
    rw [← Real.sqrt_inv, abs_of_nonneg (Real.sqrt_nonneg _), Real.sqrt_le_iff, real_fin_cast, if_neg Bool.false_ne_true, one_mul]
    have hm' : (1 : ℝ) ≤ m := by exact_mod_cast hm
    refine ⟨by positivity, inv_le_of_inv_le₀ (by positivity) ?_⟩
    calc (((2 : ℝ) ^ (75 : Int)) ^ 2)⁻¹ ≤ 1 * 2 ^ (-149 : Int) := by norm_num
      _ ≤ m * 2 ^ e := mul_le_mul hm' (zpow_le_zpow_right₀ one_le_two hlow) (by positivity) (by positivity)
  refine roundedReal_fixed hat (hvalue ▸ describes_root ?_ ?_ ?_ _) (k := 115) (by decide) hlarge (by dsimp only; omega) htop hmode sat
  · rw [le_div_iff₀ hn']
    exact_mod_cast hbelow
  · rw [div_lt_iff₀ hn']
    exact_mod_cast habove
  · rw [bne_eq_false_iff_eq, eq_div_iff hn'.ne']
    exact_mod_cast Iff.rfl

end Functions

end Sys2Proof.Machine
end

section
/-! PROOFS. EXP2 of an integer and LOG2 of a power of 2 are exact (R144). -/

namespace Sys2Proof.Machine

open Sys2Proof.Claims

/-! ## Magnitudes that FP32 holds -/

/-- A result that is finite, of the value given, and without a flag. -/
def Exactly (y : Nat × BitVec 5) (q : ℚ) : Prop := Finite (FloatFmt.fp32.value y.1) ∧ real (FloatFmt.fp32.value y.1) = q ∧ y.2 = 0

/-- A significand of 24 bits, between the least subnormal and the greatest binade, is that of a code. -/
theorem exists_code {m : Nat} (hm : m ≠ 0) (hm24 : m < 2 ^ 24) {e : Int} (hlow : -149 ≤ e) (hhigh : leadExp m e ≤ 127) :
    ∃ c ≤ FloatFmt.fp32.maxCode, (m * 2 ^ e : ℚ) = FloatFmt.fp32.mag c := by
  have hlog : m.log2 ≤ 23 := Nat.lt_succ_iff.mp ((Nat.log2_lt hm).mpr hm24)
  -- shift until the significand has 24 bits or the exponent is the least one
  obtain ⟨d, hd⟩ : ∃ d, d = min (23 - m.log2) (e + 149).toNat := ⟨_, rfl⟩
  obtain ⟨j, hj⟩ : ∃ j : Nat, (j : Int) = e - d + 149 := ⟨(e - d + 149).toNat, by omega⟩
  have hlead : (j : Int) + d + m.log2 ≤ 276 := by
    unfold leadExp at hhigh
    omega
  have hj253 : j ≤ 253 ∨ j = 0 := by omega
  have hupper : m * 2 ^ d < 2 ^ 24 := by
    calc m * 2 ^ d < 2 ^ (m.log2 + 1) * 2 ^ d := Nat.mul_lt_mul_of_pos_right Nat.lt_log2_self (Nat.two_pow_pos d)
      _ = 2 ^ (m.log2 + 1 + d) := (pow_add _ _ _).symm
      _ ≤ 2 ^ 24 := Nat.pow_le_pow_right two_pos (by omega)
  have hnormal : 2 ^ 23 ≤ m * 2 ^ d ∨ j = 0 := by
    rcases eq_or_ne j 0 with h | h
    · exact .inr h
    · refine .inl ?_
      calc 2 ^ 23 = 2 ^ m.log2 * 2 ^ d := by rw [← pow_add]; congr 1; omega
        _ ≤ m * 2 ^ d := Nat.mul_le_mul_right _ (Nat.log2_self_le hm)
  refine ⟨j * 2 ^ 23 + m * 2 ^ d, ?_, ?_⟩
  · have hmax : FloatFmt.fp32.maxCode = 253 * 2 ^ 23 + (2 ^ 24 - 1) := by decide
    omega
  · have hmag := FloatFmt.fp32.mag_binade (j := j) hupper.le hnormal
    have hleast : FloatFmt.fp32.minExp = -149 := by decide
    refine Eq.trans ?_ hmag.symm
    rw [hleast, hj, Nat.cast_mul, Nat.cast_pow, Nat.cast_ofNat, mul_assoc, ← zpow_natCast, ← zpow_add₀ two_ne_zero]
    congr 2
    omega

/-- A value that FP32 holds is its own rounding. -/
theorem exactly_round {neg : Bool} {m : Nat} (hm : m ≠ 0) (hm24 : m < 2 ^ 24) {e : Int} (hlow : -149 ≤ e) (hhigh : leadExp m e ≤ 127)
    (r : Rounding) (sat : Bool) : Exactly (FloatFmt.fp32.round r sat false { neg := neg, m := m, e := e }) (real (.fin neg m e)) := by
  obtain ⟨c, hc, hmag⟩ := exists_code hm hm24 hlow hhigh
  have hpick := FloatFmt.fp32.pick_of_eq r neg hmag
  obtain ⟨fl, hround, hfl, -⟩ := FloatFmt.round_code (x := ⟨neg, m, e, false⟩) (a := c) (by decide) r sat hm rfl hmag.ge
    (hmag.trans_lt (FloatFmt.fp32.mag_strictMono (Nat.lt_succ_self c))) (hpick.trans_le hc)
  have hcode : FloatFmt.fp32.round r sat false { neg := neg, m := m, e := e } = (FloatFmt.fp32.signBit neg + c, 0) := by
    rw [hround, hfl hmag]
    exact congrArg (fun n => (FloatFmt.fp32.signBit neg + n, (0 : BitVec 5))) hpick
  rw [hcode]
  refine ⟨?_, ?_, rfl⟩
  · rw [FloatFmt.value_code (by decide) neg hc]
    exact FloatFmt.finite_codeValue neg c
  · rw [FloatFmt.value_code (by decide) neg hc, FloatFmt.real_codeValue, ← hmag, real, mul_assoc]

theorem exactly_zero (neg : Bool) (e : Int) (r : Rounding) (sat : Bool) :
    Exactly (FloatFmt.fp32.round r sat false { neg := neg, m := 0, e := e }) 0 := by
  rw [FloatFmt.round_zero, ← Nat.add_zero (FloatFmt.fp32.signBit neg)]
  have hvalue := FloatFmt.value_code (f := .fp32) (by decide) neg (Nat.zero_le _)
  exact ⟨hvalue ▸ FloatFmt.finite_codeValue neg 0, by rw [hvalue, FloatFmt.real_codeValue, FloatFmt.mag_zero, mul_zero], rfl⟩

theorem Exactly.fixed {fn : SpecialFn} {x : Word} {y : Exact} {r : Rounding} {sat : Bool} {q : ℚ} (hat : fn.at x = .value y)
    (h : Exactly (FloatFmt.fp32.round r sat false y) q) : Exactly (fn.fixed r sat false x) q := by
  rw [SpecialFn.fixed, hat]
  exact h

/-! ## EXP2 of an integer, LOG2 of a power of 2 -/

/-- A number that is an integer, by its sign and its magnitude. -/
theorem int_of_real {neg : Bool} {m : Nat} {e n : Int} (h : real (.fin neg m e) = n) :
    (m * 2 ^ e : ℚ) = n.natAbs ∧ n = if neg then -(n.natAbs : Int) else n.natAbs := by
  have hpos : (0 : ℚ) ≤ m * 2 ^ e := by positivity
  cases neg with
  | false =>
    rw [real, if_neg Bool.false_ne_true, one_mul] at h
    have hn : 0 ≤ n := by exact_mod_cast h ▸ hpos
    have habs : (n.natAbs : Int) = n := Int.natAbs_of_nonneg hn
    exact ⟨by rw [h, ← Int.cast_natCast, habs], by simpa using habs.symm⟩
  | true =>
    rw [real, if_pos rfl, mul_assoc, neg_one_mul] at h
    have hn : n ≤ 0 := by
      have : (n : ℚ) ≤ 0 := by rw [← h]; linarith
      exact_mod_cast this
    have habs : (n.natAbs : Int) = -n := by omega
    refine ⟨?_, by simp [habs]⟩
    rw [← Int.cast_natCast n.natAbs, habs, Int.cast_neg, ← h, neg_neg]

/-- EXP2 of an integer is a power of 2. -/
theorem exp2Value_int {neg : Bool} {m : Nat} (hm : m ≠ 0) {e n : Int} (he : -149 ≤ e) (h : real (.fin neg m e) = n) (hn : n.natAbs < 2 ^ 8) :
    exp2Value neg m e = .value { neg := false, m := 1, e := n } := by
  obtain ⟨hmag, hsign⟩ := int_of_real h
  have hsmall : leadExp m e < 8 := by
    rw [leadExp_lt_iff hm, hmag]
    exact_mod_cast hn
  have hscaled : m * 2 ^ (e + specialBits).toNat = n.natAbs * 2 ^ specialBits := by
    have : (m * 2 ^ (e + specialBits).toNat : ℚ) = n.natAbs * 2 ^ specialBits := by
      rw [← hmag, ← zpow_natCast, ← zpow_natCast, mul_assoc, ← zpow_add₀ two_ne_zero, Int.toNat_of_nonneg]
      unfold specialBits
      omega
    exact_mod_cast this
  rw [exp2Value, if_neg hsmall.not_ge, hscaled]
  dsimp only
  rw [Nat.mul_mod_left, if_pos (beq_self_eq_true 0), Nat.mul_div_cancel _ (Nat.two_pow_pos _), ← hsign]

/-- LOG2 of a power of 2 is its exponent. -/
theorem log2Value_pow {m : Nat} (hm : m ≠ 0) (hm24 : m < 2 ^ 24) {e n : Int} (h : (m * 2 ^ e : ℚ) = 2 ^ n) :
    log2Value m e = .value { neg := decide (n < 0), m := n.natAbs, e := 0 } := by
  have hlog : m.log2 ≤ 23 := Nat.lt_succ_iff.mp ((Nat.log2_lt hm).mpr hm24)
  have hlead : leadExp m e = n :=
    le_antisymm (Int.lt_add_one_iff.mp ((leadExp_lt_iff hm).mpr (h.trans_lt (zpow_lt_zpow_right₀ one_lt_two (Int.lt_succ n)))))
      ((le_leadExp_iff hm).mpr h.ge)
  have hpow : m = 2 ^ m.log2 := by
    have hexp : n = m.log2 + e := by
      rw [← hlead, leadExp, add_comm]
    rw [hexp, zpow_add₀ two_ne_zero, zpow_natCast] at h
    exact_mod_cast mul_right_cancel₀ (by positivity) h
  have hfull : m * 2 ^ (23 - m.log2) = 2 ^ 23 := by
    calc m * 2 ^ (23 - m.log2) = 2 ^ m.log2 * 2 ^ (23 - m.log2) := by rw [← hpow]
      _ = 2 ^ 23 := by rw [← pow_add, Nat.add_sub_cancel' hlog]
  rw [log2Value, hlead, hfull]
  exact if_pos rfl

section Functions

variable {x : Word} {neg : Bool} {m : Nat} {e : Int} (hx : fp32 x = .fin neg m e) (hm : 0 < m) (r : Rounding) (sat : Bool)

include hx hm

theorem exp2_exact {n : Int} (hlow : -149 ≤ n) (hhigh : n ≤ 127) (h : real (.fin neg m e) = n) : Exactly (SpecialFn.exp2.fixed r sat false x) (2 ^ n) := by
  obtain ⟨-, he, -⟩ := fp32_fin hx
  have hat : SpecialFn.exp2.at x = .value { neg := false, m := 1, e := n } := by
    rw [SpecialFn.at, hx]
    dsimp only
    rw [if_neg (by simpa using hm.ne'), exp2Value_int hm.ne' he h (by omega)]
  have hvalue : real (.fin false 1 n) = 2 ^ n := by simp [real]
  have hlead : leadExp 1 n = n := add_zero n
  exact .fixed hat (hvalue ▸ exactly_round one_ne_zero (by decide) hlow (hlead.trans_le hhigh) r sat)

theorem log2_exact {n : Int} (h : real (.fin neg m e) = 2 ^ n) : Exactly (SpecialFn.log2.fixed r sat false x) n := by
  obtain ⟨hm24, hlow, hhigh⟩ := fp32_fin hx
  have hpos : (0 : ℚ) < 2 ^ n := by positivity
  obtain rfl : neg = false := by
    by_contra hneg
    have hle : (0 : ℚ) ≤ m * 2 ^ e := by positivity
    rw [Bool.not_eq_false] at hneg
    rw [hneg, real, if_pos rfl, mul_assoc, neg_one_mul] at h
    linarith
  rw [real, if_neg Bool.false_ne_true, one_mul] at h
  have hat : SpecialFn.log2.at x = .value { neg := decide (n < 0), m := n.natAbs, e := 0 } := by
    rw [SpecialFn.at, hx]
    dsimp only
    rw [if_neg (by simpa using hm.ne'), if_neg Bool.false_ne_true, log2Value_pow hm.ne' hm24 h]
  have hvalue : real (.fin (decide (n < 0)) n.natAbs 0) = n := by simpa using real_natAbs n 0
  have hsmall : n.natAbs < 2 ^ 8 := by
    have hle : -149 ≤ n := by
      have hone : (1 : ℚ) ≤ m := by exact_mod_cast hm
      have hle : (2 : ℚ) ^ e ≤ 2 ^ n := h ▸ le_mul_of_one_le_left (by positivity) hone
      exact hlow.trans ((zpow_le_zpow_iff_right₀ one_lt_two).mp hle)
    have hlt : n < 24 + e := by
      have hlt : (2 : ℚ) ^ n < 2 ^ (24 + e) := by
        rw [← h, zpow_add₀ two_ne_zero]
        exact mul_lt_mul_of_pos_right (by exact_mod_cast hm24) (by positivity)
      exact (zpow_lt_zpow_iff_right₀ one_lt_two).mp hlt
    omega
  refine .fixed hat (hvalue ▸ ?_)
  rcases eq_or_ne n 0 with rfl | hn
  · simpa [real] using exactly_zero false 0 r sat
  · have hne : n.natAbs ≠ 0 := Int.natAbs_ne_zero.mpr hn
    have hlog := (Nat.log2_lt hne).mpr hsmall
    exact exactly_round hne (by omega) (by decide) (by unfold leadExp; omega) r sat

end Functions

end Sys2Proof.Machine
end

section
/-! PROOFS. The values of the special functions (R144, R145), and O16. -/

namespace Sys2Proof.Machine

open Sys2Proof.Claims

/-! ## Stochastic rounding -/

/-- An instruction that does not take every mode is illegal under SR. -/
theorem Mnem.illegal_ne_none_of_sr {m : Mnem} {f : Fields} (hm : m.spec.rnd ≠ .all) (h : f.rnd = .sr) : m.illegal f ≠ none := by
  intro hlegal
  have hrnd := (Mnem.checked_of_illegal_eq_none hlegal).rnd
  cases hspec : m.spec.rnd with
  | none => simp [RndUse.legal, hspec, h] at hrnd
  | nearest => simp [RndUse.legal, hspec, h] at hrnd
  | all => exact hm hspec

/-! ## COS is even -/

/-- The top bit of an encoding is its sign. -/
theorem fp32_flip {x : Word} {neg : Bool} {m : Nat} {e : Int} (h : fp32 x = .fin neg m e) : fp32 (x ^^^ 0x80000000) = .fin (!neg) m e := by
  have hexp : (x ^^^ 0x80000000).extractLsb' 23 8 = x.extractLsb' 23 8 := by
    rw [BitVec.extractLsb'_xor]
    exact BitVec.xor_zero
  have hfrac : (x ^^^ 0x80000000).extractLsb' 0 23 = x.extractLsb' 0 23 := by
    rw [BitVec.extractLsb'_xor]
    exact BitVec.xor_zero
  have hsign : (x ^^^ 0x80000000).getLsbD 31 = !x.getLsbD 31 := by
    rw [BitVec.getLsbD_xor]
    exact Bool.xor_true _
  rw [fp32_eq] at h ⊢
  rw [hexp, hfrac, hsign]
  split at h
  · split at h <;> cases h
  · next htop =>
    rw [if_neg htop]
    split at h
    · next hzero =>
      rw [if_pos hzero]
      cases h
      rfl
    · next hzero =>
      rw [if_neg hzero]
      cases h
      rfl

/-- The sign does not enter the value of COS. -/
theorem cos_at_sign (x y : Word) {neg neg' : Bool} {m : Nat} {e : Int} (hx : fp32 x = .fin neg m e) (hy : fp32 y = .fin neg' m e) :
    SpecialFn.cos.at x = SpecialFn.cos.at y := by
  rw [SpecialFn.at, SpecialFn.at, hx, hy]

theorem cos_even {x : Word} (h : Finite (fp32 x)) (r : Rounding) (sat ftz : Bool) :
    SpecialFn.cos.fixed r sat ftz (x ^^^ 0x80000000) = SpecialFn.cos.fixed r sat ftz x := by
  cases hx : fp32 x with
  | fin neg m e => rw [SpecialFn.fixed, SpecialFn.fixed, cos_at_sign _ _ (fp32_flip hx) hx]
  | inf neg =>
    rw [hx] at h
    exact False.elim h
  | nan sig =>
    rw [hx] at h
    exact False.elim h

/-! ## One value of each of EXP2, LOG2, SIN and COS -/

theorem exp2_half : SpecialFn.exp2.fixed nearest false false 0x3F000000 = (0x3FB504F3, 16) := by decide +kernel

theorem log2_three : SpecialFn.log2.fixed nearest false false 0x40400000 = (0x3FCAE00D, 16) := by decide +kernel

theorem sin_one : SpecialFn.sin.fixed nearest false false 0x3F800000 = (0x3F576AA4, 16) := by decide +kernel

theorem cos_one : SpecialFn.cos.fixed nearest false false 0x3F800000 = (0x3F0A5140, 16) := by decide +kernel

theorem specialValues : SpecialValues := by
  refine ⟨fun x neg m e mode sat hx hm hmode => ?_, fun f m hm h => ?_, fun x r sat ftz h => cos_even h r sat ftz, ?_⟩
  · refine ⟨rcp_rounded hx hm hmode sat, fun hneg => ⟨sqrt_rounded hx hm hmode sat hneg, rsq_rounded hx hm hmode sat hneg⟩,
      fun n hlow hhigh h => exp2_exact hx hm _ sat hlow hhigh h, fun n h => log2_exact hx hm _ sat h⟩
  · have hspec : ∀ m ∈ [Mnem.rcp, .rsq, .sqrt, .exp2, .log2, .sin, .cos, .rcpT, .rsqT, .sqrtT, .exp2T, .log2T, .sinT, .cosT],
        m.spec.rnd ≠ .all := by decide
    exact Mnem.illegal_ne_none_of_sr (hspec m hm) h
  · simp only [List.forall_mem_cons]
    exact ⟨exp2_half, log2_three, sin_one, cos_one, List.forall_mem_nil _⟩

/-- Settles O16: the parts of the statement, each by its theorem. -/
theorem specialFunctions : Obligations.SpecialFunctions :=
  ⟨randomNumbers, specialFunctionsStart, specialOperands, precisionForms, specialValues, functionsComplete⟩

end Sys2Proof.Machine
end

section
/-! PROOFS. Floating-point instructions at issue (R134): what the shared shape comes to, and the flags that the lanes set together. -/

namespace Sys2Proof.Machine

open Sys2Proof.Claims

variable {s : State} {f : Fields} {c : Ctx} {m : Mnem}

/-! ## The shape of an instruction that issues -/

/-- The state in which each active lane has its result as a 32-bit element, and FLAGS the flags of all of them. -/
def lanesWritten (s : State) (c : Ctx) (f : Fields) (r : Nat → Nat × BitVec 5) : State :=
  floats s c f (fun l => BitVec.ofNat 32 (r l).1) (flagsOf c f r)

theorem floatOp_of_issues (h : Issues m f s c) (g : Warp → Nat → Nat × BitVec 5) : floatOp m f s g = .next (lanesWritten s c f (g c.w)) := by
  refine (fixedOp_of_issues h _).trans ?_
  simp only [lanesWritten, floats, flagsOf, List.map_map, List.foldl_map, Function.comp_def]

/-! ## The flags of the lanes together -/

theorem foldl_flags_eq {α : Type} (g : Nat → α × BitVec 5) :
    ((c.active f.guard).lanes.map fun l => (l, g l)).foldl (fun a x => a ||| x.2.2) 0 = flagsOf c f fun l => (0, (g l).2) := by
  simp only [flagsOf, List.foldl_map]

theorem or_iv {a b : BitVec 5} (ha : a = 0 ∨ a = 1) (hb : b = 0 ∨ b = 1) :
    (a ||| b = 0 ∨ a ||| b = 1) ∧ (a ||| b = 1 ↔ a = 1 ∨ b = 1) := by
  rcases ha with rfl | rfl <;> rcases hb with rfl | rfl <;> decide

/-- Flags among which is at most IV. -/
theorem foldl_or_iv {xs : List (BitVec 5)} (hxs : ∀ x ∈ xs, x = 0 ∨ x = 1) {a : BitVec 5} (ha : a = 0 ∨ a = 1) :
    (xs.foldl (fun x y => x ||| y) a = 0 ∨ xs.foldl (fun x y => x ||| y) a = 1) ∧
    (xs.foldl (fun x y => x ||| y) a = 1 ↔ a = 1 ∨ 1 ∈ xs) := by
  induction xs generalizing a with
  | nil => exact ⟨ha, by simp⟩
  | cons x xs ih =>
    obtain ⟨hx, hrest⟩ := List.forall_mem_cons.mp hxs
    obtain ⟨hor01, horone⟩ := or_iv ha hx
    obtain ⟨h01, hone⟩ := ih hrest hor01
    exact ⟨h01, hone.trans (by rw [horone, List.mem_cons, or_assoc, eq_comm (a := x)])⟩

theorem flagsOf_iv (p : Nat → Prop) {r : Nat → Nat × BitVec 5} (h : ∀ l, ((r l).2 = 0 ∨ (r l).2 = 1) ∧ ((r l).2 = 1 ↔ p l)) :
    (flagsOf c f r = 0 ∨ flagsOf c f r = 1) ∧ (flagsOf c f r = 1 ↔ ∃ l, Active c f l ∧ p l) := by
  obtain ⟨h01, hone⟩ := foldl_or_iv (xs := (c.active f.guard).lanes.map fun l => (r l).2) (List.forall_mem_map.mpr fun l _ => (h l).1) (.inl rfl)
  have hmem : (1 : BitVec 5) ∈ (c.active f.guard).lanes.map (fun l => (r l).2) ↔ ∃ l, Active c f l ∧ p l := by
    simp only [List.mem_map, mem_lanes_active, (h _).2]
  exact ⟨h01, hone.trans ((or_iff_right (by decide)).trans hmem)⟩

theorem ivIf_iff (b : Bool) : (ivIf b = 0 ∨ ivIf b = 1) ∧ (ivIf b = 1 ↔ b = true) := by cases b <;> decide

theorem flagsOf_zero {r : Nat → Nat × BitVec 5} (h : ∀ l, (r l).2 = 0) : flagsOf c f r = 0 := by
  refine foldl_or_zero fun x hx => ?_
  obtain ⟨l, -, rfl⟩ := List.mem_map.mp hx
  exact h l

end Sys2Proof.Machine
end

section
/-! PROOFS. FCLASS (R139): the class of an operand, by its fields. -/

namespace Sys2Proof.Machine

open Sys2Proof.Claims

/-- The leading bit of a fraction lies below that of the least normal. -/
theorem leadExp_fraction_lt {x : BitVec 23} (h : x ≠ 0) : leadExp x.toNat (-149) < -126 := by
  have hne : x.toNat ≠ 0 := fun h0 => h (BitVec.eq_of_toNat_eq h0)
  have := (Nat.log2_lt hne).mpr x.isLt
  unfold leadExp
  omega

theorem leadExp_normal (x : BitVec 23) (e : Int) : leadExp (2 ^ 23 + x.toNat) e = e + 23 := by
  have hlog : (2 ^ 23 + x.toNat).log2 = 23 := (Nat.log2_eq_iff (by omega)).mpr ⟨by omega, by have := x.isLt; omega⟩
  rw [leadExp, hlog]
  rfl

/-- The class of an encoding, by its exponent, its fraction and its sign. -/
theorem classBit_eq (x : Word) : classBit x =
    if x.extractLsb' 23 8 = 255 then
      if x.extractLsb' 0 23 = 0 then (if x.getLsbD 31 then 0 else 7) else (if x.getLsbD 22 then 9 else 8)
    else if x.extractLsb' 23 8 = 0 then
      if x.extractLsb' 0 23 = 0 then (if x.getLsbD 31 then 3 else 4) else (if x.getLsbD 31 then 2 else 5)
    else if x.getLsbD 31 then 1 else 6 := by
  rw [classBit, fp32_eq]
  by_cases htop : x.extractLsb' 23 8 = 255
  · rw [if_pos htop, if_pos htop]
    by_cases hfrac : x.extractLsb' 0 23 = 0
    · rw [if_pos hfrac, if_pos hfrac]
    · rw [if_neg hfrac, if_neg hfrac]
      cases x.getLsbD 22 <;> rfl
  rw [if_neg htop, if_neg htop]
  by_cases hleast : x.extractLsb' 23 8 = 0
  · rw [if_pos hleast, if_pos hleast]
    by_cases hfrac : x.extractLsb' 0 23 = 0
    · rw [if_pos hfrac, hfrac]
      rfl
    · have hne : (x.extractLsb' 0 23).toNat ≠ 0 := fun h0 => hfrac (BitVec.eq_of_toNat_eq h0)
      simp only [hfrac, beq_iff_eq, hne, leadExp_fraction_lt hfrac, if_true, if_false]
  · have hpos : (x.extractLsb' 23 8).toNat ≠ 0 := fun h0 => hleast (BitVec.eq_of_toNat_eq h0)
    have hnormal : ¬ leadExp (2 ^ 23 + (x.extractLsb' 0 23).toNat) ((x.extractLsb' 23 8).toNat - 150) < -126 := by
      rw [leadExp_normal]
      omega
    have hne : 2 ^ 23 + (x.extractLsb' 0 23).toNat ≠ 0 := by omega
    simp only [hleast, beq_iff_eq, hne, hnormal, if_false]

theorem exec_fclass {s : State} {f : Fields} {c : Ctx} (h : Issues .fclass f s c) :
    exec (.fclass f) s = .next (floats s c f (fun l => BitVec.ofNat 32 (2 ^ classBit (c.w.elem f.a.toNat l))) 0) := by
  have hexec : exec (.fclass f) s = .next (lanesWritten s c f fun l => (2 ^ classBit (c.w.elem f.a.toNat l), 0)) :=
    show execFclass f s = _ from floatOp_of_issues h _
  rw [hexec, lanesWritten, flagsOf_zero fun _ => rfl]

/-- Settles O13: the class is read off the fields of the encoding, and MOD must be 0. -/
theorem floatClass : Obligations.FloatClass := by
  refine ⟨fun s f c h => ?_, fun f hmod hlegal => ?_, rfl⟩
  · refine ⟨fun l => classBit (c.w.elem f.a.toNat l), ?_, fun l _ => ?_⟩
    · exact exec_fclass h
    · intro x e m neg
      have hclass := classBit_eq x
      have hbelow : e = 0 → ¬ e = 255 := fun h0 h255 => absurd (h0.symm.trans h255) (by decide)
      refine ⟨fun ⟨he, hm⟩ => ?_, fun ⟨he, hm⟩ => ?_, fun ⟨he, hm⟩ => ?_, fun ⟨he, hm⟩ => ?_, fun ⟨htop, hleast⟩ => ?_⟩
      · exact hclass.trans (by rw [if_pos he, if_pos hm])
      · exact hclass.trans (by rw [if_pos he, if_neg hm])
      · exact hclass.trans (by rw [if_neg (hbelow he), if_pos he, if_pos hm])
      · exact hclass.trans (by rw [if_neg (hbelow he), if_pos he, if_neg hm])
      · exact hclass.trans (by rw [if_neg hleast, if_neg htop])
  · have hnone : (f.mod.toNat == 0) = true := (Mnem.checked_of_illegal_eq_none hlegal).mod
    exact hmod (BitVec.eq_of_toNat_eq (by simpa using hnone))

end Sys2Proof.Machine
end

section
/-! PROOFS. FMIN, FMAX and FCMP (R137, R138): the order of FP32 encodings, and IV for a signalling NaN. -/

namespace Sys2Proof.Machine

open Sys2Proof.Claims

variable {s : State} {f : Fields} {c : Ctx} {m : Mnem}

/-- IV alone, for a signalling NaN. -/
theorem compareFlags_iff (a b : Word) :
    (compareFlags a b = 0 ∨ compareFlags a b = 1) ∧ (compareFlags a b = 1 ↔ IsSignalling a ∨ IsSignalling b) := by
  obtain ⟨h01, hone⟩ := ivIf_iff ((fp32 a).isSig || (fp32 b).isSig)
  refine ⟨h01, hone.trans ?_⟩
  rw [isSig_fp32, isSig_fp32, Bool.or_eq_true, decide_eq_true_eq, decide_eq_true_eq]

/-! ## FMIN and FMAX -/

theorem fp32MinMax_flags (less : Bool) (a b : Word) : (fp32MinMax less a b).2 = compareFlags a b := by
  rw [fp32MinMax]
  cases (fp32 a).isNaN <;> cases (fp32 b).isNaN <;> rfl

/-- A NaN gives way to a number, two NaNs to the canonical one, and of two numbers the lesser or the greater is taken. -/
theorem fp32MinMax_cases (less : Bool) (a b : Word) :
    (IsNaN a ∧ IsNaN b → (fp32MinMax less a b).1 = 0x7FC00000) ∧ (IsNaN a ∧ ¬ IsNaN b → (fp32MinMax less a b).1 = b) ∧
    (¬ IsNaN a ∧ IsNaN b → (fp32MinMax less a b).1 = a) ∧ (¬ IsNaN a ∧ ¬ IsNaN b →
      (fp32MinMax less a b).1 = if (if less then order b < order a else order a < order b) then b else a) := by
  rw [fp32MinMax_eq]
  dsimp only
  refine ⟨fun h => if_pos h, fun ⟨ha, hb⟩ => ?_, fun ⟨ha, hb⟩ => ?_, fun ⟨ha, hb⟩ => ?_⟩
  · rw [if_neg fun h => hb h.2, if_pos ha]
  · rw [if_neg fun h => ha h.1, if_neg ha, if_pos hb]
  · rw [if_neg fun h => ha h.1, if_neg ha, if_neg hb]

theorem floatMinMax_of_issues (h : Issues m f s c) (less : Bool) :
    let a := fun l => c.w.elem f.a.toNat l
    let b := fun l => bFloat c.w f l
    ∃ g fl, floatMinMax m f s less = .next (floats s c f g fl) ∧
      (fl = 0 ∨ fl = 1) ∧ (fl = 1 ↔ ∃ l, Active c f l ∧ (IsSignalling (a l) ∨ IsSignalling (b l))) ∧
      ∀ l, g l = (fp32MinMax less (a l) (b l)).1 := by
  intro a b
  obtain ⟨hflags, hiv⟩ := flagsOf_iv (c := c) (f := f) (fun l => IsSignalling (a l) ∨ IsSignalling (b l))
    (r := fun l => ((fp32MinMax less (a l) (b l)).1.toNat, (fp32MinMax less (a l) (b l)).2))
    fun l => by rw [fp32MinMax_flags]; exact compareFlags_iff (a l) (b l)
  exact ⟨_, _, floatOp_of_issues h _, hflags, hiv, fun l => by rw [BitVec.ofNat_toNat, BitVec.setWidth_eq]⟩

theorem floatLeastGreatest : FloatLeastGreatest := by
  intro s f c less i hi h a b
  have hexec : exec i.2 s = floatMinMax i.1 f s less := by subst hi; cases less <;> rfl
  obtain ⟨g, fl, hnext, hflags, hiv, hg⟩ := floatMinMax_of_issues h less
  refine ⟨g, fl, hexec.trans hnext, hflags, hiv, fun l _ => ?_⟩
  rw [hg]
  exact fp32MinMax_cases less (a l) (b l)

/-! ## FCMP -/

theorem fp32Key_eq (x : Word) : fp32Key x = if x.getLsbD 31 then -((x.setWidth 31).toNat : Int) else (x.setWidth 31).toNat := by
  rw [fp32Key, natBit_eq_testBit, BitVec.toNat_setWidth, BitVec.getLsbD]

/-- What the codes of a floating-point comparison test of two numbers. -/
theorem holds_ofSub_ordered {sub : BitVec 4} (h : sub.toNat ≤ 7) (x y : Int) : (Cmp.ofSub sub).holds x y = true ↔
    (sub = 0 ∧ x = y) ∨ (sub = 1 ∧ x ≠ y) ∨ (sub = 2 ∧ x < y) ∨ (sub = 3 ∧ x ≤ y) ∨ (sub = 4 ∧ y < x) ∨ (sub = 5 ∧ y ≤ x) ∨
      sub = 6 := by
  rcases le_or_gt sub.toNat 5 with hint | hfloat
  · have hne : sub ≠ 6 := by rintro rfl; exact absurd hint (by decide)
    rw [holds_ofSub hint, decide_eq_true_eq]
    simp only [hne, or_false]
  · have hsub : sub = 6 ∨ sub = 7 := by revert sub; decide
    rcases hsub with rfl | rfl <;> simp [Cmp.ofSub, Cmp.holds]

/-- What they test where a NaN is among the operands. -/
theorem ofSub_unordered {sub : BitVec 4} (h : sub.toNat ≤ 7) :
    (Cmp.ofSub sub == .ne || Cmp.ofSub sub == .uno) = true ↔ sub = 1 ∨ sub = 7 := by
  revert sub
  decide

theorem holdsFloat_iff {sub : BitVec 4} (h : sub.toNat ≤ 7) (x y : Word) : (Cmp.ofSub sub).holdsFloat x y = true ↔
    if IsNaN x ∨ IsNaN y then sub = 1 ∨ sub = 7 else (Cmp.ofSub sub).holds (fp32Key x) (fp32Key y) = true := by
  rw [Cmp.holdsFloat, isNaN_fp32, isNaN_fp32, ← Bool.decide_or]
  simp only [decide_eq_true_eq]
  split
  · exact ofSub_unordered h
  · rfl

/-- FCMP writes the bits of the active lanes of m[D], and ORs the flags of its lanes into FLAGS. -/
theorem exec_fcmp (h : Issues .fcmp f s c) : ∃ k : LaneMask,
    exec (.fcmp f) s = .next (after s c ((c.w.setMask f.d.toNat k).orFlags
      (flagsOf c f fun l => (0, compareFlags (c.w.elem f.a.toNat l) (bFloat c.w f l))))) ∧
    ∀ l, l < 64 → k.getLsbD l = if (c.active f.guard).getLsbD l then (Cmp.ofSub f.sub).holdsFloat (c.w.elem f.a.toNat l) (bFloat c.w f l)
      else (c.w.m.get f.d.toNat).getLsbD l := by
  obtain ⟨k, hexec, hk⟩ := compareOp_of_issues h fun w l =>
    ((Cmp.ofSub f.sub).holdsFloat (w.elem f.a.toNat l) (bFloat w f l), compareFlags (w.elem f.a.toNat l) (bFloat w f l))
  rw [foldl_flags_eq] at hexec
  exact ⟨k, hexec, hk⟩

theorem floatCompare : FloatCompare := by
  intro s f c h hsub a b v holds
  obtain ⟨k, hexec, hk⟩ := exec_fcmp h
  obtain ⟨hflags, hiv⟩ := flagsOf_iv (c := c) (f := f) (fun l => IsSignalling (a l) ∨ IsSignalling (b l))
    (r := fun l => (0, compareFlags (a l) (b l))) fun l => compareFlags_iff (a l) (b l)
  refine ⟨k, _, hexec, hflags, hiv, fun l hl => ⟨fun he => ?_, fun he => ?_⟩⟩
  · rw [hk l hl, if_neg (by rw [he]; exact Bool.false_ne_true)]
  · rw [hk l hl, if_pos he, holdsFloat_iff hsub, holds_ofSub_ordered hsub, fp32Key_eq, fp32Key_eq]

/-- Settles O12. -/
theorem floatOrder : Obligations.FloatOrder := ⟨floatLeastGreatest, floatCompare⟩

end Sys2Proof.Machine
end

section
/-! PROOFS. Exact sums and products (R75, R79 (e), R88): NaNs, infinities and finite terms. -/

namespace Sys2Proof.Machine

open Sys2Proof.Claims

variable {down : Bool} {p q x : Num} {xs : List Num}

/-! ## What is among the terms -/

theorem Num.isNaN_iff : x.isNaN = true ↔ ∃ k, x = .nan k := by cases x <;> simp [Num.isNaN]

theorem Num.isSig_iff : x.isSig = true ↔ x = .nan true := by cases x <;> simp [Num.isSig]

theorem any_isNaN_iff : xs.any Num.isNaN = true ↔ NaNAmong xs := by
  simp only [List.any_eq_true, Num.isNaN_iff, NaNAmong]
  exact ⟨fun ⟨_, hx, k, hk⟩ => ⟨k, hk ▸ hx⟩, fun ⟨k, hk⟩ => ⟨_, hk, k, rfl⟩⟩

theorem any_isSig_iff : xs.any Num.isSig = true ↔ SignallingAmong xs := by
  simp only [List.any_eq_true, Num.isSig_iff, SignallingAmong, exists_eq_right]

theorem any_eq_inf_iff (s : Bool) : (xs.any fun x => x == .inf s) = true ↔ .inf s ∈ xs := by
  simp only [List.any_eq_true, beq_iff_eq, exists_eq_right]

theorem finite_iff : Finite x ↔ ∃ s m e, x = .fin s m e := by
  cases x with
  | fin s m e => exact iff_of_true trivial ⟨s, m, e, rfl⟩
  | nan k => exact iff_of_false id (by simp)
  | inf s => exact iff_of_false id (by simp)

theorem finite_fin (s : Bool) (m : Nat) (e : Int) : Finite (.fin s m e) := trivial

theorem real_fin_eq_zero_iff {s : Bool} {m : Nat} {e : Int} : real (.fin s m e) = 0 ↔ m = 0 := by
  cases s <;> simp [real, zpow_ne_zero]

/-- An infinity, or a finite number other than zero. -/
def Away (x : Num) : Prop := (∃ s, x = .inf s) ∨ (Finite x ∧ real x ≠ 0)

theorem away_of (h : ¬ Finite x ∨ real x ≠ 0) (hnan : ∀ k, x ≠ .nan k) : Away x := by
  cases x with
  | nan k => exact absurd rfl (hnan k)
  | inf s => exact .inl ⟨s, rfl⟩
  | fin s m e => exact .inr ⟨trivial, h.resolve_left fun hfin => hfin trivial⟩

/-! ## Sums -/

/-- A NaN among the terms: IV for a signalling one, and for infinities of both signs. -/
theorem sumNums_of_nan (h : NaNAmong xs) : (sumNums down xs).1 = .nan false ∧ ((sumNums down xs).2 = 0 ∨ (sumNums down xs).2 = 1) ∧
    ((sumNums down xs).2 = 1 ↔ SignallingAmong xs ∨ (.inf false ∈ xs ∧ .inf true ∈ xs)) := by
  obtain ⟨h01, hone⟩ := ivIf_iff (xs.any Num.isSig || ((xs.any fun x => x == .inf false) && xs.any fun x => x == .inf true))
  rw [sumNums, if_pos (any_isNaN_iff.mpr h)]
  refine ⟨rfl, h01, hone.trans ?_⟩
  rw [Bool.or_eq_true, Bool.and_eq_true, any_isSig_iff, any_eq_inf_iff, any_eq_inf_iff]

theorem sumNums_of_opposite (hnan : ¬ NaNAmong xs) (hpos : .inf false ∈ xs) (hneg : .inf true ∈ xs) : sumNums down xs = (.nan false, 1) := by
  rw [sumNums, if_neg (any_isNaN_iff.not.mpr hnan), (any_eq_inf_iff _).mpr hpos, (any_eq_inf_iff _).mpr hneg]
  rfl

theorem sumNums_of_inf (hnan : ¬ NaNAmong xs) {s : Bool} (hinf : .inf s ∈ xs) (hone : .inf (!s) ∉ xs) : sumNums down xs = (.inf s, 0) := by
  rw [sumNums, if_neg (any_isNaN_iff.not.mpr hnan)]
  cases s with
  | false => rw [(any_eq_inf_iff false).mpr hinf, Bool.eq_false_iff.mpr ((any_eq_inf_iff true).not.mpr hone)]; rfl
  | true => rw [(any_eq_inf_iff true).mpr hinf, Bool.eq_false_iff.mpr ((any_eq_inf_iff false).not.mpr hone)]; rfl

theorem foldl_min_le {es : List Int} {e : Int} : es.foldl min e ≤ e ∧ ∀ x ∈ es, es.foldl min e ≤ x := by
  induction es generalizing e with
  | nil => exact ⟨le_rfl, by simp⟩
  | cons y ys ih =>
    obtain ⟨hle, hall⟩ := ih (e := min e y)
    exact ⟨hle.trans (min_le_left e y), List.forall_mem_cons.mpr ⟨hle.trans (min_le_right e y), hall⟩⟩

/-- No nonzero term has a lesser exponent. -/
theorem leastExp_le_of_mem {s : Bool} {m : Nat} {e : Int} (h : .fin s m e ∈ xs) (hm : m ≠ 0) : leastExp xs ≤ e := by
  have hmem : e ∈ xs.filterMap fun x => match x with | .fin _ m e => if m == 0 then none else some e | _ => none :=
    List.mem_filterMap.mpr ⟨_, h, by simp [hm]⟩
  unfold leastExp
  revert hmem
  generalize (xs.filterMap fun x => match x with | .fin _ m e => if m == 0 then none else some e | _ => none) = es
  intro hmem
  cases es with
  | nil => exact absurd hmem (by simp)
  | cons d ds =>
    obtain ⟨hd, hds⟩ := foldl_min_le (es := ds) (e := d)
    rcases List.mem_cons.mp hmem with rfl | hrest
    · exact hd
    · exact hds e hrest

theorem sum_scaled_mul {g : Int} (hfin : ∀ x ∈ xs, Finite x) (hg : ∀ s m e, .fin s m e ∈ xs → m ≠ 0 → g ≤ e) :
    ((xs.map (Num.scaled g)).sum : ℚ) * 2 ^ g = (xs.map real).sum := by
  induction xs with
  | nil => simp
  | cons x xs ih =>
    obtain ⟨hx, hxs⟩ := List.forall_mem_cons.mp hfin
    obtain ⟨s, m, e, rfl⟩ := finite_iff.mp hx
    have hterm := scaled_mul g s (hg s m e (List.mem_cons_self ..))
    rw [List.map_cons, List.map_cons, List.sum_cons, List.sum_cons, Int.cast_add, add_mul, hterm,
      ih hxs fun s m e h => hg s m e (List.mem_cons_of_mem _ h)]

/-- The sum of finite terms is exact. -/
theorem sumNums_of_finite (h : ∀ x ∈ xs, Finite x) :
    ∃ neg m e, sumNums down xs = (.fin neg m e, 0) ∧ real (.fin neg m e) = (xs.map real).sum := by
  have hnan : ¬ NaNAmong xs := fun ⟨k, hk⟩ => h _ hk
  have hinf : ∀ s, .inf s ∉ xs := fun s hs => h _ hs
  have hreal := sum_scaled_mul h fun s m e hx hm => leastExp_le_of_mem hx hm
  rw [sumNums, if_neg (any_isNaN_iff.not.mpr hnan), Bool.eq_false_iff.mpr ((any_eq_inf_iff false).not.mpr (hinf false)),
    Bool.eq_false_iff.mpr ((any_eq_inf_iff true).not.mpr (hinf true)), ← hreal, List.sum_eq_foldl]
  dsimp only
  generalize (xs.map (Num.scaled (leastExp xs))).foldl (· + ·) 0 = z
  rcases eq_or_ne z 0 with rfl | hz
  · have hzero : ∀ neg, real (.fin neg 0 0) = ((0 : Int) : ℚ) * 2 ^ leastExp xs := fun neg => by simp [real]
    cases xs.all Num.neg
    · cases xs.any Num.neg && down <;> exact ⟨_, _, _, rfl, hzero _⟩
    · exact ⟨_, _, _, rfl, hzero _⟩
  · exact ⟨decide (z < 0), z.natAbs, _, by simp [hz], real_natAbs z _⟩

/-! ## Products -/

theorem mul_of_nan (h : NaNAmong [p, q]) : p.mul q = (.nan false, ivIf (p.isSig || q.isSig)) := by
  obtain ⟨k, hk⟩ := h
  rw [List.mem_pair] at hk
  rcases hk with rfl | rfl
  · cases q <;> rfl
  · cases p <;> rfl

theorem mul_of_infTimesZero (h : InfTimesZero p q) : p.mul q = (.nan false, 1) := by
  obtain ⟨s, ⟨rfl, hfin, hzero⟩ | ⟨rfl, hfin, hzero⟩⟩ := h
  all_goals
    obtain ⟨t, m, e, rfl⟩ := finite_iff.mp hfin
    obtain rfl := real_fin_eq_zero_iff.mp hzero
    rfl

theorem mul_of_inf (h : ((∃ s, p = .inf s) ∧ Away q) ∨ ((∃ s, q = .inf s) ∧ Away p)) : p.mul q = (.inf (negative p != negative q), 0) := by
  have hfin : ∀ (s t : Bool) (m : Nat) (e : Int), real (.fin t m e) ≠ 0 →
      (Num.inf s).mul (.fin t m e) = (.inf (s != t), 0) ∧ (Num.fin t m e).mul (.inf s) = (.inf (s != t), 0) := fun s t m e hne => by
    have hm : m ≠ 0 := fun h0 => hne (real_fin_eq_zero_iff.mpr h0)
    simp [Num.mul, hm]
  rcases h with ⟨⟨s, rfl⟩, ⟨t, rfl⟩ | ⟨hq, hne⟩⟩ | ⟨⟨s, rfl⟩, ⟨t, rfl⟩ | ⟨hp, hne⟩⟩
  · rfl
  · obtain ⟨t, m, e, rfl⟩ := finite_iff.mp hq
    exact (hfin s t m e hne).1
  · rfl
  · obtain ⟨t, m, e, rfl⟩ := finite_iff.mp hp
    rw [(hfin s t m e hne).2, bne_comm]
    rfl

theorem mul_of_finite (hp : Finite p) (hq : Finite q) : ∃ m e, p.mul q = (.fin (negative p != negative q) m e, 0) ∧
    real (.fin (negative p != negative q) m e) = real p * real q := by
  obtain ⟨s, m, d, rfl⟩ := finite_iff.mp hp
  obtain ⟨t, n, e, rfl⟩ := finite_iff.mp hq
  refine ⟨m * n, d + e, rfl, ?_⟩
  cases s <;> cases t <;> simp [real, negative, zpow_add₀] <;> ring

theorem not_nan_of_infTimesZero (h : InfTimesZero p q) : ¬ NaNAmong [p, q] := by
  rintro ⟨k, hk⟩
  obtain ⟨s, ⟨rfl, hfin, -⟩ | ⟨rfl, hfin, -⟩⟩ := h
  all_goals
    obtain ⟨t, m, e, rfl⟩ := finite_iff.mp hfin
    simp at hk

theorem nanAmong_of_signalling (h : SignallingAmong xs) : NaNAmong xs := ⟨true, h⟩

/-- Two numbers are finite, or one is an infinity and the other away from zero, or they have no product. -/
theorem mul_cases (p q : Num) : (Finite p ∧ Finite q) ∨ (((∃ s, p = .inf s) ∧ Away q) ∨ ((∃ s, q = .inf s) ∧ Away p)) ∨
    InfTimesZero p q ∨ NaNAmong [p, q] := by
  have hinf : ∀ (s t : Bool) (m : Nat) (e : Int),
      Away (.fin t m e) ∨ (InfTimesZero (.inf s) (.fin t m e) ∧ InfTimesZero (.fin t m e) (.inf s)) :=
    fun s t m e => by
      by_cases h : real (.fin t m e) = 0
      · exact .inr ⟨⟨s, .inl ⟨rfl, trivial, h⟩⟩, ⟨s, .inr ⟨rfl, trivial, h⟩⟩⟩
      · exact .inl (.inr ⟨trivial, h⟩)
  cases p with
  | nan k => exact .inr (.inr (.inr ⟨k, List.mem_cons_self ..⟩))
  | inf s => cases q with
    | nan k => exact .inr (.inr (.inr ⟨k, by simp⟩))
    | inf t => exact .inr (.inl (.inl ⟨⟨s, rfl⟩, .inl ⟨t, rfl⟩⟩))
    | fin t m e => exact (hinf s t m e).elim (fun h => .inr (.inl (.inl ⟨⟨s, rfl⟩, h⟩))) fun h => .inr (.inr (.inl h.1))
  | fin t m e => cases q with
    | nan k => exact .inr (.inr (.inr ⟨k, by simp⟩))
    | inf s => exact (hinf s t m e).elim (fun h => .inr (.inl (.inr ⟨⟨s, rfl⟩, h⟩))) fun h => .inr (.inr (.inl h.2))
    | fin s n d => exact .inl ⟨trivial, trivial⟩

/-- What a product is where it is no number, and its flag. -/
structure ProductSpec (p q : Num) : Prop where
  quiet : (p.mul q).1 ≠ .nan true
  nan_iff : (p.mul q).1 = .nan false ↔ NaNAmong [p, q] ∨ InfTimesZero p q
  flag : (p.mul q).2 = 0 ∨ (p.mul q).2 = 1
  flag_iff : (p.mul q).2 = 1 ↔ SignallingAmong [p, q] ∨ InfTimesZero p q

theorem productSpec_of_number {y : Num} (hmul : p.mul q = (y, 0)) (hnum : ∀ k, y ≠ .nan k) : ProductSpec p q := by
  have hnan : ¬ NaNAmong [p, q] := fun h => hnum false (congrArg Prod.fst (hmul.symm.trans (mul_of_nan h)))
  have hzero : ¬ InfTimesZero p q := fun h => hnum false (congrArg Prod.fst (hmul.symm.trans (mul_of_infTimesZero h)))
  constructor <;> rw [hmul]
  · exact hnum true
  · exact iff_of_false (hnum false) (not_or.mpr ⟨hnan, hzero⟩)
  · exact .inl rfl
  · exact iff_of_false (show (0 : BitVec 5) ≠ 1 by decide) (not_or.mpr ⟨fun h => hnan (nanAmong_of_signalling h), hzero⟩)

theorem productSpec (p q : Num) : ProductSpec p q := by
  rcases mul_cases p q with ⟨hp, hq⟩ | hinf | hzero | hnan
  · obtain ⟨m, e, hmul, -⟩ := mul_of_finite hp hq
    exact productSpec_of_number hmul fun k => Num.noConfusion
  · exact productSpec_of_number (mul_of_inf hinf) fun k => Num.noConfusion
  · constructor <;> rw [mul_of_infTimesZero hzero]
    · decide
    · exact iff_of_true rfl (.inr hzero)
    · exact .inr rfl
    · exact iff_of_true rfl (.inr hzero)
  · obtain ⟨h01, hone⟩ := ivIf_iff (p.isSig || q.isSig)
    have hsig : (p.isSig || q.isSig) = true ↔ SignallingAmong [p, q] := by rw [← any_isSig_iff]; simp
    constructor <;> rw [mul_of_nan hnan]
    · simp
    · exact iff_of_true rfl (.inl hnan)
    · exact h01
    · exact hone.trans (hsig.trans (or_iff_left fun h => not_nan_of_infTimesZero h hnan).symm)

end Sys2Proof.Machine
end

section
/-! PROOFS. Sums, products and products with an addend as FP32, FP16 and BF16 deliver them (R75, R79, R88, R136). -/

namespace Sys2Proof.Machine

open Sys2Proof.Claims

/-- An exact result delivered in a format, with the flags of its formation. -/
def delivered (fmt : FloatFmt) (r : Rounding) (sat ftz : Bool) (x : Num × BitVec 5) : Nat × BitVec 5 :=
  ((fmt.deliver r sat ftz x.1).1, (fmt.deliver r sat ftz x.1).2 ||| x.2)

/-- A format with infinities that arithmetic delivers in. -/
def Arithmetic (fmt : FloatFmt) : Prop := fmt = .fp32 ∨ fmt = .fp16 ∨ fmt = .bf16

variable {fmt : FloatFmt} {r : Rounding} {sat ftz down : Bool} {p q x : Num} {fl : BitVec 5}

theorem delivered_nan (k : Bool) : delivered fmt r sat ftz (.nan k, fl) = (fmt.nanCode, fl) := Prod.ext rfl BitVec.zero_or

theorem Arithmetic.infCode (h : Arithmetic fmt) : fmt.infCode.getD 0 = fmt.maxCode + 1 := by rcases h with rfl | rfl | rfl <;> rfl

theorem Arithmetic.signBit (h : Arithmetic fmt) (s : Bool) : fmt.signBit s = if s then 2 ^ (fmt.bits - 1) else 0 :=
  fmt.signBit_of_ne (by rcases h with rfl | rfl | rfl <;> decide) s

theorem delivered_inf (h : Arithmetic fmt) (s : Bool) :
    delivered fmt r sat ftz (.inf s, 0) = ((if s then 2 ^ (fmt.bits - 1) else 0) + fmt.maxCode + 1, 0) := by
  rw [delivered, FloatFmt.deliver, h.infCode, h.signBit]
  exact Prod.ext (Nat.add_assoc _ _ _).symm BitVec.or_zero

theorem delivered_fin (s : Bool) (m : Nat) (e : Int) :
    delivered fmt r sat ftz (.fin s m e, 0) = fmt.round r sat ftz { neg := s, m := m, e := e } := Prod.ext rfl BitVec.or_zero

theorem delivered_zero (h : Arithmetic fmt) {s : Bool} {m : Nat} {e : Int} (hzero : real (.fin s m e) = 0) :
    delivered fmt r sat ftz (.fin s m e, 0) = (if s then 2 ^ (fmt.bits - 1) else 0, 0) := by
  rw [delivered_fin, real_fin_eq_zero_iff.mp hzero, FloatFmt.round_zero, h.signBit]

theorem delivered_rounded {v : ℚ} {s : Bool} {m : Nat} {e : Int} (h : real (.fin s m e) = v) :
    Rounded fmt r sat ftz v (delivered fmt r sat ftz (.fin s m e, 0)) := ⟨s, m, e, h, delivered_fin s m e⟩

theorem isNaNWith_delivered {y : Num × BitVec 5} {iv : Prop} (hnan : y.1 = .nan false) (h01 : y.2 = 0 ∨ y.2 = 1) (hiv : y.2 = 1 ↔ iv) :
    IsNaNWith fmt iv (delivered fmt r sat ftz y) := by
  obtain ⟨n, fl⟩ := y
  obtain rfl : n = _ := hnan
  rw [delivered_nan]
  exact ⟨rfl, hiv.mpr, fun h => h01.resolve_right fun h1 => h (hiv.mp h1)⟩

/-! ## Sums of two numbers -/

theorem not_both_inf_of_nan (h : NaNAmong [p, q]) : ¬ (.inf false ∈ [p, q] ∧ .inf true ∈ [p, q]) := by
  obtain ⟨k, hk⟩ := h
  simp only [List.mem_pair] at hk ⊢
  rintro ⟨hpos, hneg⟩
  rcases hk with rfl | rfl
  · exact absurd ((hpos.resolve_left Num.noConfusion).trans (hneg.resolve_left Num.noConfusion).symm) (by decide)
  · exact absurd ((hpos.resolve_right Num.noConfusion).trans (hneg.resolve_right Num.noConfusion).symm) (by decide)

theorem sum_nan (h : NaNAmong [p, q]) : IsNaNWith fmt (SignallingAmong [p, q]) (delivered fmt r sat ftz (sumNums down [p, q])) := by
  obtain ⟨hnan, h01, hiv⟩ := sumNums_of_nan (down := down) h
  exact isNaNWith_delivered hnan h01 (hiv.trans (or_iff_left (not_both_inf_of_nan h)))

theorem sum_rounded (hp : Finite p) (hq : Finite q) :
    Rounded fmt r sat ftz (real p + real q) (delivered fmt r sat ftz (sumNums down [p, q])) := by
  obtain ⟨neg, m, e, hsum, hreal, -⟩ := sumNums_finite (down := down) hp hq
  rw [hsum]
  exact delivered_rounded hreal

/-- An infinity among two terms, with no NaN and no infinity of the other sign. -/
theorem sumNums_inf {s : Bool} (h : (p = .inf s ∧ (q = .inf s ∨ Finite q)) ∨ (q = .inf s ∧ Finite p)) :
    sumNums down [p, q] = (.inf s, 0) := by
  have hregular : ∀ y : Num, y = .inf s ∨ Finite y → (∀ k, .nan k ≠ y) ∧ .inf (!s) ≠ y := fun y hy => by
    rcases hy with rfl | hy
    · simp
    · obtain ⟨t, m, e, rfl⟩ := finite_iff.mp hy
      simp
  have hother : .inf s = p ∨ .inf s = q := h.imp (fun h => h.1.symm) fun h => h.1.symm
  obtain ⟨hpnan, hpinf⟩ := hregular p (h.elim (fun h => .inl h.1) fun h => .inr h.2)
  obtain ⟨hqnan, hqinf⟩ := hregular q (h.elim (fun h => h.2) fun h => .inl h.1)
  exact sumNums_of_inf (fun ⟨k, hk⟩ => (List.mem_pair.mp hk).elim (hpnan k) (hqnan k)) (List.mem_pair.mpr hother)
    fun h => (List.mem_pair.mp h).elim hpinf hqinf

theorem sumNums_opposite {s : Bool} (hp : p = .inf s) (hq : q = .inf (!s)) : sumNums down [p, q] = (.nan false, 1) := by
  subst hp hq
  exact sumNums_of_opposite (fun ⟨k, hk⟩ => by simp at hk) (by cases s <;> simp) (by cases s <;> simp)

theorem sum_zero (hf : Arithmetic fmt) (hp : Finite p) (hq : Finite q) (h0 : real p + real q = 0) :
    delivered fmt r sat ftz (sumNums down [p, q]) =
      (if (if negative p = negative q then negative p else down) then 2 ^ (fmt.bits - 1) else 0, 0) := by
  obtain ⟨neg, m, e, hsum, hreal, hzero⟩ := sumNums_finite (down := down) hp hq
  rw [hsum, delivered_zero hf (hreal.trans h0), (hzero h0).2]

theorem sum_special (hf : Arithmetic fmt) (r : Rounding) (sat ftz down : Bool) (p q : Num) :
    SumSpecial fmt down p q (delivered fmt r sat ftz (sumNums down [p, q])) := by
  refine ⟨fun s h => ?_, fun s hp hq => ?_, fun hp hq h0 => sum_zero hf hp hq h0⟩
  · rw [sumNums_inf h, delivered_inf hf]
  · rw [sumNums_opposite hp hq, delivered_nan]

/-! ## The negated operand of FSUB -/

theorem real_negate (q : Num) : real q.negate = -real q := by
  cases q with
  | nan | inf => simp [Num.negate, real]
  | fin s m e => cases s <;> simp [Num.negate, real]

theorem finite_negate (h : Finite q) : Finite q.negate := by
  obtain ⟨s, m, e, rfl⟩ := finite_iff.mp h
  trivial

theorem negate_eq_nan_iff {k : Bool} : .nan k = q.negate ↔ .nan k = q := by cases q <;> simp [Num.negate]

theorem mem_pair_negate_iff (k : Bool) : .nan k ∈ [p, q.negate] ↔ .nan k ∈ [p, q] := by
  rw [List.mem_pair, List.mem_pair, negate_eq_nan_iff]

theorem difference_nan (h : NaNAmong [p, q]) : IsNaNWith fmt (SignallingAmong [p, q]) (delivered fmt r sat ftz (sumNums down [p, q.negate])) := by
  have hsig : SignallingAmong [p, q.negate] = SignallingAmong [p, q] := propext (mem_pair_negate_iff true)
  exact hsig ▸ sum_nan (h.imp fun k => (mem_pair_negate_iff k).mpr)

theorem difference_rounded (hp : Finite p) (hq : Finite q) :
    Rounded fmt r sat ftz (real p - real q) (delivered fmt r sat ftz (sumNums down [p, q.negate])) := by
  rw [sub_eq_add_neg, ← real_negate]
  exact sum_rounded hp (finite_negate hq)

/-! ## Products -/

theorem product_nan (h : NaNAmong [p, q]) : IsNaNWith fmt (SignallingAmong [p, q]) (delivered fmt r sat ftz (p.mul q)) := by
  have hmul := productSpec p q
  exact isNaNWith_delivered (hmul.nan_iff.mpr (.inl h)) hmul.flag (hmul.flag_iff.trans (or_iff_left fun hzero => not_nan_of_infTimesZero hzero h))

theorem product_rounded (hp : Finite p) (hq : Finite q) : Rounded fmt r sat ftz (real p * real q) (delivered fmt r sat ftz (p.mul q)) := by
  obtain ⟨m, e, hmul, hreal⟩ := mul_of_finite hp hq
  rw [hmul]
  exact delivered_rounded hreal

theorem product_special (hf : Arithmetic fmt) (r : Rounding) (sat ftz : Bool) (p q : Num) :
    ProductSpecial fmt p q (delivered fmt r sat ftz (p.mul q)) := by
  refine ⟨fun s t h => ?_, fun s h => ?_, fun hp hq h0 => ?_⟩
  · have hmul : p.mul q = (.inf (s != t), 0) := by
      rcases h with ⟨rfl, rfl, haway, hnan⟩ | ⟨rfl, rfl, haway, hnan⟩
      · exact mul_of_inf (.inl ⟨⟨s, rfl⟩, away_of haway hnan⟩)
      · rw [mul_of_inf (.inr ⟨⟨s, rfl⟩, away_of haway hnan⟩), bne_comm]
        rfl
    rw [hmul, delivered_inf hf]
  · rw [mul_of_infTimesZero ⟨s, h⟩, delivered_nan]
  · obtain ⟨m, e, hmul, hreal⟩ := mul_of_finite hp hq
    rw [hmul, delivered_zero hf (hreal.trans h0)]

/-! ## Products with an addend -/

theorem dotNums_pair (down : Bool) (p q x : Num) : dotNums down [(p, q)] (some x) =
    ((sumNums down [(p.mul q).1, x]).1, (sumNums down [(p.mul q).1, x]).2 ||| (p.mul q).2) := rfl

theorem fused_nan (h : NaNAmong [p, q, x] ∨ InfTimesZero p q) :
    IsNaNWith fmt (SignallingAmong [p, q, x] ∨ InfTimesZero p q) (delivered fmt r sat ftz (dotNums down [(p, q)] (some x))) := by
  have hmul := productSpec p q
  have hterms : NaNAmong [(p.mul q).1, x] := by
    have hcases : (NaNAmong [p, q] ∨ InfTimesZero p q) ∨ ∃ k, .nan k = x := by
      rcases h with ⟨k, hk⟩ | h
      · simp only [List.mem_cons, List.not_mem_nil, or_false] at hk
        rcases hk with hk | hk | hk
        exacts [.inl (.inl ⟨k, by simp [hk]⟩), .inl (.inl ⟨k, by simp [hk]⟩), .inr ⟨k, hk⟩]
      · exact .inl (.inr h)
    rcases hcases with hprod | ⟨k, rfl⟩
    · exact ⟨false, by simp [hmul.nan_iff.mpr hprod]⟩
    · exact ⟨k, by simp⟩
  have hsig : SignallingAmong [(p.mul q).1, x] ↔ .nan true = x := by simp [SignallingAmong, hmul.quiet.symm]
  have hthree : SignallingAmong [p, q, x] ↔ .nan true = x ∨ SignallingAmong [p, q] := by
    simp only [SignallingAmong, List.mem_cons, List.not_mem_nil, or_false]
    tauto
  obtain ⟨hsum, hsum01, hsumiv⟩ := sumNums_of_nan (down := down) hterms
  obtain ⟨hor01, horiv⟩ := or_iv hsum01 hmul.flag
  rw [dotNums_pair]
  refine isNaNWith_delivered hsum hor01 (horiv.trans ?_)
  rw [hsumiv, or_iff_left (not_both_inf_of_nan hterms), hsig, hmul.flag_iff, hthree, or_assoc]

theorem dotNums_regular {y : Num} (hmul : p.mul q = (y, 0)) : dotNums down [(p, q)] (some x) = sumNums down [y, x] := by
  rw [dotNums_pair, hmul]
  exact Prod.ext rfl BitVec.or_zero

theorem fused_rounded (hp : Finite p) (hq : Finite q) (hx : Finite x) :
    Rounded fmt r sat ftz (real p * real q + real x) (delivered fmt r sat ftz (dotNums down [(p, q)] (some x))) := by
  obtain ⟨m, e, hmul, hreal⟩ := mul_of_finite hp hq
  rw [dotNums_regular hmul, ← hreal]
  exact sum_rounded trivial hx

/-- Two numbers whose sum is zero have different signs, or are zero. -/
theorem negative_ne_of_cancel (hp : Finite p) (hq : Finite q) (hne : real p ≠ 0) (h : real p + real q = 0) : negative p ≠ negative q := by
  obtain ⟨s, m, d, rfl⟩ := finite_iff.mp hp
  obtain ⟨t, n, e, rfl⟩ := finite_iff.mp hq
  rintro (rfl : s = t)
  have hpos : ∀ (k : Nat) (i : Int), (0 : ℚ) ≤ k * 2 ^ i := fun k i => by positivity
  have hm := hpos m d
  have hn := hpos n e
  cases s with
  | false =>
    simp only [real, Bool.false_eq_true, if_false, one_mul] at h hne
    exact hne (by linarith)
  | true =>
    simp only [real, if_true, neg_one_mul] at h hne
    exact hne (by linarith)

theorem fused_special (hf : Arithmetic fmt) (r : Rounding) (sat ftz down : Bool) (p q x : Num) :
    FusedSpecial fmt down p q x (delivered fmt r sat ftz (dotNums down [(p, q)] (some x))) := by
  refine ⟨fun s h => ?_, fun hinf hx => ?_, fun hinf hx => ?_, fun s hp hq hx => ?_, fun hp hq hx h0 hx0 => ?_, fun hp hq hx hne h0 => ?_⟩
  · obtain ⟨hcode, hiv, -⟩ := fused_nan (fmt := fmt) (r := r) (sat := sat) (ftz := ftz) (down := down) (x := x) (.inr ⟨s, h⟩)
    exact Prod.ext hcode (hiv (.inr ⟨s, h⟩))
  · rw [dotNums_regular (mul_of_inf hinf), sumNums_opposite rfl hx, delivered_nan]
  · rw [dotNums_regular (mul_of_inf hinf), sumNums_inf (.inl ⟨rfl, hx⟩), delivered_inf hf]
  · obtain ⟨m, e, hmul, -⟩ := mul_of_finite hp hq
    rw [dotNums_regular hmul, sumNums_inf (.inr ⟨hx, finite_fin _ _ _⟩), delivered_inf hf]
  · obtain ⟨m, e, hmul, hreal⟩ := mul_of_finite hp hq
    have hsum : real (.fin (negative p != negative q) m e) + real x = 0 := by rw [hreal, h0, hx0, add_zero]
    rw [dotNums_regular hmul]
    exact sum_zero hf (finite_fin _ _ _) hx hsum
  · obtain ⟨m, e, hmul, hreal⟩ := mul_of_finite hp hq
    rw [← hreal] at hne h0
    have hsigns := negative_ne_of_cancel (finite_fin _ _ _) hx hne h0
    rw [dotNums_regular hmul, sum_zero hf (finite_fin _ _ _) hx h0, if_neg hsigns]

end Sys2Proof.Machine
end

section
/-! PROOFS. The dot product of four pairs and an addend (R88, R143). -/

namespace Sys2Proof.Machine

open Sys2Proof.Claims

variable {fmt : FloatFmt} {r : Rounding} {sat ftz down : Bool} {p q : Nat → Num} {x : Num}

/-- The four pairs of a dot product. -/
def fourPairs (p q : Nat → Num) : List (Num × Num) := (List.range 4).map fun j => (p j, q j)

/-- The terms of its sum. -/
def dotTerms (p q : Nat → Num) (x : Num) : List Num := ((List.range 4).map fun j => ((p j).mul (q j)).1) ++ [x]

theorem mem_dotTerms {y : Num} : y ∈ dotTerms p q x ↔ (∃ j, j < 4 ∧ ((p j).mul (q j)).1 = y) ∨ y = x := by
  simp only [dotTerms, List.mem_append, List.mem_map, List.mem_range, List.mem_singleton]

theorem dotNums_fourPairs (down : Bool) (p q : Nat → Num) (x : Num) : dotNums down (fourPairs p q) (some x) = ((sumNums down (dotTerms p q x)).1,
    ((List.range 4).map fun j => ((p j).mul (q j)).2).foldl (fun a b => a ||| b) (sumNums down (dotTerms p q x)).2) := by
  simp only [dotNums, fourPairs, dotTerms, List.map_map, List.foldl_map, Function.comp_def]

/-- An infinity of a sign among the terms of R88, as R143 reads them off the operands. -/
def InfiniteTerm (p q : Nat → Num) (x : Num) (t : Bool) : Prop :=
  x = .inf t ∨ ∃ j, j < 4 ∧ ((∃ u, p j = .inf u) ∨ ∃ u, q j = .inf u) ∧ (negative (p j) != negative (q j)) = t

theorem infinite_factor_of_mul {p q : Num} {t : Bool} (h : (p.mul q).1 = .inf t) :
    ((∃ u, p = .inf u) ∨ ∃ u, q = .inf u) ∧ (negative p != negative q) = t := by
  rcases mul_cases p q with ⟨hp, hq⟩ | hinf | hzero | hnan
  · obtain ⟨m, e, hmul, -⟩ := mul_of_finite hp hq
    rw [hmul] at h
    cases h
  · rw [mul_of_inf hinf] at h
    exact ⟨hinf.imp (fun h => h.1) fun h => h.1, Num.inf.inj h⟩
  · rw [mul_of_infTimesZero hzero] at h
    cases h
  · rw [mul_of_nan hnan] at h
    cases h

theorem infiniteTerm_of_mem {t : Bool} (h : .inf t ∈ dotTerms p q x) : InfiniteTerm p q x t :=
  (mem_dotTerms.mp h).elim (fun ⟨j, hj, hmul⟩ => .inr ⟨j, hj, infinite_factor_of_mul hmul⟩) fun h => .inl h.symm

/-- A NaN among the terms makes the sum NaN; IV for a signalling NaN, for infinities of both signs, and for an infinity times a zero. -/
theorem dotNums_nan (h : NaNAmong (dotTerms p q x)) : (dotNums down (fourPairs p q) (some x)).1 = .nan false ∧
    ((dotNums down (fourPairs p q) (some x)).2 = 0 ∨ (dotNums down (fourPairs p q) (some x)).2 = 1) ∧
    ((dotNums down (fourPairs p q) (some x)).2 = 1 ↔ (x = .nan true ∨ (.inf false ∈ dotTerms p q x ∧ .inf true ∈ dotTerms p q x)) ∨
      ∃ j, j < 4 ∧ (SignallingAmong [p j, q j] ∨ InfTimesZero (p j) (q j))) := by
  have hsig : SignallingAmong (dotTerms p q x) ↔ x = .nan true :=
    mem_dotTerms.trans ((or_iff_right fun ⟨j, _, hj⟩ => (productSpec (p j) (q j)).quiet hj).trans eq_comm)
  have hflag : (1 : BitVec 5) ∈ (List.range 4).map (fun j => ((p j).mul (q j)).2) ↔
      ∃ j, j < 4 ∧ (SignallingAmong [p j, q j] ∨ InfTimesZero (p j) (q j)) := by
    simp only [List.mem_map, List.mem_range, (productSpec _ _).flag_iff]
  obtain ⟨hnan, h01, hone⟩ := sumNums_of_nan (down := down) h
  obtain ⟨hor01, horone⟩ := foldl_or_iv (xs := (List.range 4).map fun j => ((p j).mul (q j)).2)
    (List.forall_mem_map.mpr fun j _ => (productSpec (p j) (q j)).flag) h01
  rw [dotNums_fourPairs]
  exact ⟨hnan, hor01, horone.trans (by rw [hone, hsig, hflag])⟩

/-- Where every factor is finite, no product raises a flag, and each is exact. -/
theorem dotNums_finite (h : ∀ j, j < 4 → Finite (p j) ∧ Finite (q j)) :
    dotNums down (fourPairs p q) (some x) = sumNums down (dotTerms p q x) := by
  have hflags : ∀ a : BitVec 5, ((List.range 4).map fun j => ((p j).mul (q j)).2).foldl (fun a b => a ||| b) a = a := fun a => by
    have hzero : ∀ j ∈ List.range 4, ((p j).mul (q j)).2 = 0 := fun j hj => by
      obtain ⟨hp, hq⟩ := h j (List.mem_range.mp hj)
      obtain ⟨m, e, hmul, -⟩ := mul_of_finite hp hq
      rw [hmul]
    rw [List.map_congr_left hzero]
    simp
  rw [dotNums_fourPairs, hflags]

theorem finite_product (h : ∀ j, j < 4 → Finite (p j) ∧ Finite (q j)) {j : Nat} (hj : j < 4) :
    Finite ((p j).mul (q j)).1 ∧ real ((p j).mul (q j)).1 = real (p j) * real (q j) := by
  obtain ⟨hp, hq⟩ := h j hj
  obtain ⟨m, e, hmul, hreal⟩ := mul_of_finite hp hq
  rw [hmul]
  exact ⟨trivial, hreal⟩

theorem dot_rounded (h : ∀ j, j < 4 → Finite (p j) ∧ Finite (q j)) (hx : Finite x) :
    Rounded fmt r sat ftz (((List.range 4).map fun j => real (p j) * real (q j)).sum + real x)
      (delivered fmt r sat ftz (dotNums down (fourPairs p q) (some x))) := by
  have hterms : ∀ y ∈ dotTerms p q x, Finite y := fun y hy => by
    rcases mem_dotTerms.mp hy with ⟨j, hj, rfl⟩ | rfl
    exacts [(finite_product h hj).1, hx]
  have hsum : ((dotTerms p q x).map real).sum = ((List.range 4).map fun j => real (p j) * real (q j)).sum + real x := by
    have hproducts : (List.range 4).map (real ∘ fun j => ((p j).mul (q j)).1) = (List.range 4).map fun j => real (p j) * real (q j) :=
      List.map_congr_left fun j hj => (finite_product h (List.mem_range.mp hj)).2
    rw [dotTerms, List.map_append, List.sum_append, List.map_map, hproducts, List.map_singleton, List.sum_singleton]
  obtain ⟨neg, m, e, heq, hreal⟩ := sumNums_of_finite (down := down) hterms
  rw [dotNums_finite h, heq, ← hsum]
  exact delivered_rounded hreal

theorem dot_inf (hf : Arithmetic fmt) (h : ∀ j, j < 4 → Finite (p j) ∧ Finite (q j)) {t : Bool} (hx : x = .inf t) :
    delivered fmt r sat ftz (dotNums down (fourPairs p q) (some x)) = ((if t then 2 ^ (fmt.bits - 1) else 0) + fmt.maxCode + 1, 0) := by
  have hterm : ∀ y ∈ dotTerms p q x, Finite y ∨ y = .inf t := fun y hy => by
    rcases mem_dotTerms.mp hy with ⟨j, hj, rfl⟩ | rfl
    exacts [.inl (finite_product h hj).1, .inr hx]
  have hnan : ¬ NaNAmong (dotTerms p q x) := fun ⟨k, hk⟩ => (hterm _ hk).elim id Num.noConfusion
  have hone : .inf (!t) ∉ dotTerms p q x := fun ht => (hterm _ ht).elim id fun h => by simp at h
  rw [dotNums_finite h, sumNums_of_inf hnan (mem_dotTerms.mpr (.inr hx.symm)) hone, delivered_inf hf]

/-- An infinity times a zero makes the dot product NaN, with IV. -/
theorem dot_infTimesZero {j : Nat} (hj : j < 4) (h : InfTimesZero (p j) (q j)) :
    delivered fmt r sat ftz (dotNums down (fourPairs p q) (some x)) = (fmt.nanCode, 1) := by
  have hterm : NaNAmong (dotTerms p q x) := ⟨false, mem_dotTerms.mpr (.inl ⟨j, hj, (productSpec _ _).nan_iff.mpr (.inr h)⟩)⟩
  obtain ⟨hnan, h01, hone⟩ := dotNums_nan (down := down) hterm
  obtain ⟨hcode, hiv, -⟩ := isNaNWith_delivered (fmt := fmt) (r := r) (sat := sat) (ftz := ftz) hnan h01 hone
  exact Prod.ext hcode (hiv (.inr ⟨j, hj, .inr h⟩))

/-- A dot product in FP32 with an infinity times a zero, and one of finite factors with an infinite addend. -/
theorem dot_special (r : Rounding) (sat ftz down : Bool) (p q : Nat → Num) (x : Num) :
    let y := delivered .fp32 r sat ftz (dotNums down (fourPairs p q) (some x))
    (∀ j t, j < 4 → (p j = .inf t ∧ Finite (q j) ∧ real (q j) = 0) ∨ (q j = .inf t ∧ Finite (p j) ∧ real (p j) = 0) →
      y.1 = 0x7FC00000 ∧ y.2.getLsbD 0 = true) ∧
    (∀ t, (∀ j, j < 4 → Finite (p j) ∧ Finite (q j)) → x = .inf t → y = (if t then 0xFF800000 else 0x7F800000, 0)) := by
  refine ⟨fun j t hj hzero => ?_, fun t hfin ht => (dot_inf (.inl rfl) hfin ht).trans (by cases t <;> rfl)⟩
  rw [dot_infTimesZero hj ⟨t, hzero⟩]
  exact ⟨rfl, rfl⟩

/-- A NaN operand of a dot product whose factors are no signalling NaNs. -/
theorem dot_nan (hp : ∀ j, p j ≠ .nan true) (hq : ∀ j, q j ≠ .nan true)
    (h : NaNAmong (x :: ((List.range 4).map p ++ (List.range 4).map q))) (hinf : ¬ (InfiniteTerm p q x true ∧ InfiniteTerm p q x false)) :
    IsNaNWith fmt (x = .nan true ∨ ∃ j, j < 4 ∧ InfTimesZero (p j) (q j))
      (delivered fmt r sat ftz (dotNums down (fourPairs p q) (some x))) := by
  have hterm : NaNAmong (dotTerms p q x) := by
    obtain ⟨k, hk⟩ := h
    simp only [List.mem_cons, List.mem_append, List.mem_map, List.mem_range] at hk
    have factor : ∀ j, j < 4 → .nan k ∈ [p j, q j] → NaNAmong (dotTerms p q x) := fun j hj hmem =>
      ⟨false, mem_dotTerms.mpr (.inl ⟨j, hj, (productSpec _ _).nan_iff.mpr (.inl ⟨k, hmem⟩)⟩)⟩
    rcases hk with hk | ⟨j, hj, hk⟩ | ⟨j, hj, hk⟩
    · exact ⟨k, mem_dotTerms.mpr (.inr hk)⟩
    · exact factor j hj (List.mem_pair.mpr (.inl hk.symm))
    · exact factor j hj (List.mem_pair.mpr (.inr hk.symm))
  have hquiet : ∀ j, ¬ SignallingAmong [p j, q j] := fun j hj => (List.mem_pair.mp hj).elim (fun h => hp j h.symm) fun h => hq j h.symm
  have hboth : ¬ (.inf false ∈ dotTerms p q x ∧ .inf true ∈ dotTerms p q x) := fun h =>
    hinf ⟨infiniteTerm_of_mem h.2, infiniteTerm_of_mem h.1⟩
  obtain ⟨hnan, h01, hone⟩ := dotNums_nan (down := down) hterm
  refine isNaNWith_delivered hnan h01 (hone.trans ?_)
  rw [or_iff_left hboth]
  simp only [hquiet, false_or]

theorem value_of_le_maxCode (hf : fmt ≠ .e8m0) {c : Nat} (hc : c ≤ fmt.maxCode) : Finite (fmt.value c) := by
  have hvalue := FloatFmt.value_code hf false hc
  rw [fmt.signBit_false, Nat.zero_add] at hvalue
  rw [hvalue]
  exact FloatFmt.finite_codeValue false c

/-- A byte is no signalling NaN: the formats of 8 bits and less have none, and in the wider ones it is finite. -/
theorem value_byte_ne_signalling (fmt : FloatFmt) (b : BitVec 8) : fmt.value b.toNat ≠ .nan true := by
  have hwide : fmt ≠ .e8m0 → b.toNat ≤ fmt.maxCode → fmt.value b.toNat ≠ .nan true := fun hf hc h => by
    have hfin := value_of_le_maxCode hf hc
    rw [h] at hfin
    exact hfin
  have hb := b.isLt
  cases fmt with
  | fp32 | fp16 | bf16 => exact hwide (by decide) ((Nat.le_of_lt_succ hb).trans (by decide))
  | e4m3 | e5m2 | e2m1 | e8m0 =>
    simp only [FloatFmt.value]
    split_ifs <;> simp

end Sys2Proof.Machine
end

section
/-! PROOFS. The rounding to an integer (R80, R81): the integer that each mode selects for a magnitude. -/

namespace Sys2Proof.Machine

open Sys2Proof.Claims

/-- The integer that a magnitude is rounded to: the one below it, or the next one where the mode picks it by the fraction. -/
def Rounding.integral (r : Rounding) (neg : Bool) (u : ℚ) : Nat :=
  if r.picks neg (⌊u⌋₊ % 2 == 1) (u - ⌊u⌋₊) then ⌊u⌋₊ + 1 else ⌊u⌋₊

/-- A magnitude with its sign. -/
def signed (neg : Bool) (k : Nat) : Int := if neg then -(k : Int) else k

theorem signed_cast (neg : Bool) (k : Nat) : ((signed neg k : Int) : ℚ) = signum neg * k := by cases neg <;> simp [signed, signum]

variable {r : Rounding} {neg : Bool} {u : ℚ}

theorem Rounding.integral_of_nat (r : Rounding) (neg : Bool) (n : Nat) : r.integral neg (n : ℚ) = n := by
  simp [integral, r.picks_zero]

theorem Rounding.le_integral (r : Rounding) (neg : Bool) (u : ℚ) : ⌊u⌋₊ ≤ r.integral neg u := by
  unfold integral
  split <;> omega

theorem Rounding.integral_le (r : Rounding) (neg : Bool) (u : ℚ) : r.integral neg u ≤ ⌊u⌋₊ + 1 := by
  unfold integral
  split <;> omega

/-- Both neighbours differ from a magnitude that is no integer. -/
theorem Rounding.integral_eq_iff : (r.integral neg u : ℚ) = u ↔ u = ⌊u⌋₊ := by
  refine ⟨fun h => ?_, fun h => by rw [h, r.integral_of_nat]⟩
  rw [← h, Nat.floor_natCast]

section Modes

variable (hu : 0 ≤ u)
include hu

/-- RN: the nearest integer, and of two the even one. -/
theorem Rounding.integral_rn (hmode : r.mode = .rn) :
    |u - r.integral neg u| ≤ 1 / 2 ∧ (|u - r.integral neg u| = 1 / 2 → r.integral neg u % 2 = 0) := by
  have hlo := Nat.floor_le hu
  have hhi := Nat.lt_floor_add_one u
  simp only [integral, picks, hmode, Bool.or_eq_true, Bool.and_eq_true, decide_eq_true_eq, beq_iff_eq]
  split
  case isTrue h =>
    have hhalf : 1 / 2 ≤ u - ⌊u⌋₊ := h.elim le_of_lt fun h => h.1.ge
    rw [Nat.cast_succ, abs_of_neg (by linarith)]
    refine ⟨by linarith, fun heq => ?_⟩
    have hodd := (h.resolve_left (by linarith)).2
    omega
  case isFalse h =>
    obtain ⟨hlt, htie⟩ := not_or.mp h
    rw [abs_of_nonneg (by linarith)]
    refine ⟨not_lt.mp hlt, fun heq => ?_⟩
    have heven : ⌊u⌋₊ % 2 ≠ 1 := fun hodd => htie ⟨heq, hodd⟩
    omega

/-- RA: the nearest integer, and of two the greater one. -/
theorem Rounding.integral_ra (hmode : r.mode = .ra) :
    |u - r.integral neg u| ≤ 1 / 2 ∧ (|u - r.integral neg u| = 1 / 2 → u < r.integral neg u) := by
  have hlo := Nat.floor_le hu
  have hhi := Nat.lt_floor_add_one u
  simp only [integral, picks, hmode, decide_eq_true_eq]
  split
  case isTrue h =>
    rw [Nat.cast_succ, abs_of_neg (by linarith)]
    exact ⟨by linarith, fun _ => hhi⟩
  case isFalse h =>
    rw [abs_of_nonneg (by linarith)]
    exact ⟨(not_le.mp h).le, fun heq => absurd heq.ge h⟩

/-- The integer toward zero. -/
theorem Rounding.integral_down (hmode : r.mode = .rz ∨ (r.mode = .ru ∧ neg = true) ∨ (r.mode = .rd ∧ neg = false)) :
    r.integral neg u ≤ u ∧ u < r.integral neg u + 1 := by
  have heq : r.integral neg u = ⌊u⌋₊ := by rcases hmode with h | ⟨h, rfl⟩ | ⟨h, rfl⟩ <;> simp [integral, picks, h]
  rw [heq]
  exact ⟨Nat.floor_le hu, Nat.lt_floor_add_one u⟩

/-- The integer away from zero. -/
theorem Rounding.integral_up (hmode : (r.mode = .ru ∧ neg = false) ∨ (r.mode = .rd ∧ neg = true)) :
    u ≤ r.integral neg u ∧ r.integral neg u < u + 1 := by
  have hlo := Nat.floor_le hu
  have heq : r.integral neg u = if u - ⌊u⌋₊ ≠ 0 then ⌊u⌋₊ + 1 else ⌊u⌋₊ := by
    rcases hmode with ⟨h, rfl⟩ | ⟨h, rfl⟩ <;> simp [integral, picks, h]
  rw [heq]
  split
  case isTrue h =>
    have hne : (⌊u⌋₊ : ℚ) < u := lt_of_le_of_ne hlo fun h' => h (sub_eq_zero.mpr h'.symm)
    rw [Nat.cast_succ]
    exact ⟨(Nat.lt_floor_add_one u).le, by linarith⟩
  case isFalse h =>
    have heq := sub_eq_zero.mp (not_not.mp h)
    exact ⟨heq.le, by linarith⟩

/-- SR: the integer that the draw selects. -/
theorem Rounding.integral_sr (hmode : r.mode = .sr) :
    (r.integral neg u : ℤ) = if (r.draw : ℤ) < ⌊65536 * (u - ⌊u⌋)⌋ then ⌊u⌋ + 1 else ⌊u⌋ := by
  have hfloor : (⌊u⌋₊ : ℤ) = ⌊u⌋ := Int.natCast_floor_eq_floor hu
  have hcast : ((⌊u⌋ : ℤ) : ℚ) = (⌊u⌋₊ : ℚ) := by rw [← hfloor, Int.cast_natCast]
  simp only [integral, picks, hmode, decide_eq_true_eq, hcast]
  split
  · rw [Nat.cast_succ, hfloor]
  · exact hfloor

/-- The integer with its sign is the one that R80 and R81 select. -/
theorem roundsToInt_integral : RoundsToInt r (signum neg * u) (signed neg (r.integral neg u)) := by
  have habs : |((signed neg (r.integral neg u) : Int) : ℚ)| = r.integral neg u := by
    rw [signed_cast, abs_signum_mul, abs_of_nonneg (Nat.cast_nonneg _)]
  have hsame : 0 ≤ signum neg * u * ((signed neg (r.integral neg u) : Int) : ℚ) := by
    rw [signed_cast, signum_mul_mul]
    exact mul_nonneg hu (Nat.cast_nonneg _)
  have hmag : |signum neg * u| = u := by rw [abs_signum_mul, abs_of_nonneg hu]
  unfold RoundsToInt
  split
  case h_1 hmode =>
    rw [signed_cast, abs_signum_mul_sub]
    obtain ⟨hnear, htie⟩ := Rounding.integral_rn (neg := neg) hu hmode
    refine ⟨hnear, fun h => ?_⟩
    have heven := htie h
    unfold signed
    split <;> omega
  case h_2 hmode =>
    obtain ⟨hle, hlt⟩ := Rounding.integral_down (neg := neg) hu (.inl hmode)
    rw [habs, hmag]
    exact ⟨hle, hlt, hsame⟩
  case h_3 hmode =>
    rw [signed_cast]
    cases neg with
    | false => simpa [signum] using Rounding.integral_up hu (.inl ⟨hmode, rfl⟩)
    | true =>
      obtain ⟨hle, hlt⟩ := Rounding.integral_down hu (.inr (.inl ⟨hmode, rfl⟩))
      simp only [signum, if_true, neg_one_mul]
      exact ⟨neg_le_neg hle, by linarith⟩
  case h_4 hmode =>
    rw [signed_cast]
    cases neg with
    | false => simpa [signum] using Rounding.integral_down hu (.inr (.inr ⟨hmode, rfl⟩))
    | true =>
      obtain ⟨hle, hlt⟩ := Rounding.integral_up hu (.inr ⟨hmode, rfl⟩)
      simp only [signum, if_true, neg_one_mul]
      exact ⟨neg_le_neg hle, by linarith⟩
  case h_5 hmode =>
    rw [habs, hmag, signed_cast, abs_signum_mul_sub]
    exact Rounding.integral_ra (neg := neg) hu hmode
  case h_6 hmode =>
    have habs' : |signed neg (r.integral neg u)| = (r.integral neg u : ℤ) := by cases neg <;> simp [signed]
    rw [habs', hmag]
    exact ⟨Rounding.integral_sr hu hmode, hsame⟩

end Modes

variable {x : Exact}

theorem Exact.mag_nonneg (x : Exact) : 0 ≤ x.mag := by unfold Exact.mag; positivity

/-- The rounding of an exact value to the grid of the integers. -/
theorem Exact.toGrid_integers (hs : x.sticky = false) (r : Rounding) : ∃ up, x.toGrid r 0 =
    (r.integral x.neg x.mag, decide (x.mag ≠ ⌊x.mag⌋₊), up) := by
  have h := toGrid_eq (g := 0) r hs (q := ⌊x.mag⌋₊) (by simpa using Nat.floor_le x.mag_nonneg) (by simpa using Nat.lt_floor_add_one x.mag) rfl
  simp only [zpow_zero, div_one, mul_one] at h
  exact ⟨_, h⟩

end Sys2Proof.Machine
end

section
/-! PROOFS. FRND and the conversions between formats and to integers (R83 to R86, R140, R141). -/

namespace Sys2Proof.Machine

open Sys2Proof.Claims

variable {r : Rounding} {neg : Bool} {m : Nat} {e : Int} {w : Word} {x : Num}

/-- The value of a number, by its sign and its magnitude. -/
theorem real_eq_signum (neg : Bool) (m : Nat) (e : Int) : real (.fin neg m e) = signum neg * (m * 2 ^ e) := real_fin ⟨neg, m, e, false⟩

theorem signed_eq_iff {k : Nat} {u : ℚ} : ((signed neg k : Int) : ℚ) = signum neg * u ↔ (k : ℚ) = u := by
  rw [signed_cast, signum_mul_inj]

/-! ## FRND (R140) -/

/-- The sign of an encoding that is no NaN is its top bit. -/
theorem negative_fp32 (h : ∀ k, fp32 w ≠ .nan k) : negative (fp32 w) = true ↔ 2 ^ 31 ≤ w.toNat := by
  have hsign : negative (fp32 w) = w.getLsbD 31 := by
    rw [fp32_eq] at h ⊢
    split at h
    case isTrue htop =>
      rw [if_pos htop]
      split at h
      case isTrue hfrac => rw [if_pos hfrac]; rfl
      case isFalse => exact absurd rfl (h _)
    case isFalse htop =>
      rw [if_neg htop]
      split <;> rfl
  have hmsb : w.getLsbD 31 = w.msb := (BitVec.msb_eq_getLsbD_last w).symm
  rw [hsign, hmsb, BitVec.msb_eq_decide, decide_eq_true_eq]

/-- The encoding of an integer of at most 24 bits. -/
theorem encodeMag_integer {k : Nat} (hk : k < 2 ^ 24) :
    ∃ c ≤ FloatFmt.fp32.maxCode, FloatFmt.fp32.encodeMag k 0 = c ∧ FloatFmt.fp32.mag c = k := by
  rcases eq_or_ne k 0 with rfl | hne
  · exact ⟨0, Nat.zero_le _, rfl, by simp⟩
  · have hlog := (Nat.log2_lt hne).mpr hk
    obtain ⟨c, hc, hmag⟩ := exists_code hne hk (e := 0) (by decide) (by unfold leadExp; omega)
    exact ⟨c, hc, FloatFmt.encodeMag_eq (by decide) (.inl (by decide)) hmag, by rw [← hmag, zpow_zero, mul_one]⟩

/-- The encoding of an integer of at most 24 bits, with its sign, as an element. -/
theorem integer_word (neg : Bool) {k : Nat} (hk : k < 2 ^ 24) :
    let y := (BitVec.ofNat 32 (FloatFmt.fp32.signBit neg + FloatFmt.fp32.encodeMag k 0)).toNat
    real (FloatFmt.fp32.value y) = signed neg k ∧ (2 ^ 31 ≤ y ↔ neg = true) := by
  intro y
  obtain ⟨c, hc, hcode, hmag⟩ := encodeMag_integer hk
  obtain ⟨⟨hlt, -⟩, hreal⟩ := FloatFmt.isFinite_code (f := .fp32) (by decide) neg hc
  have hy : y = FloatFmt.fp32.signBit neg + c := by
    dsimp only [y]
    rw [hcode, BitVec.toNat_ofNat]
    exact Nat.mod_eq_of_lt hlt
  have hc' : c < 2 ^ 31 := FloatFmt.fp32.maxCode_lt (by decide) |>.trans_le' hc
  rw [hy, hreal, hmag, signed_cast]
  refine ⟨rfl, ?_⟩
  cases neg with
  | false => exact iff_of_false (by rw [FloatFmt.signBit_false]; omega) Bool.false_ne_true
  | true => exact iff_of_true (Nat.le_add_right _ c) rfl

theorem roundIntegral_nan {k : Bool} (h : fp32 w = .nan k) :
    IsNaNWith .fp32 (k = true) ((roundIntegral r w).1.toNat, (roundIntegral r w).2) := by
  rw [roundIntegral, h]
  cases k
  · exact ⟨rfl, fun h => absurd h Bool.false_ne_true, fun _ => rfl⟩
  · exact ⟨rfl, fun _ => rfl, fun h => absurd rfl h⟩

theorem roundIntegral_inf {s : Bool} (h : fp32 w = .inf s) : roundIntegral r w = (w, 0) := by rw [roundIntegral, h]

/-- A finite operand becomes the integer that the mode selects, with its own sign; IX marks that it differs. -/
theorem roundIntegral_fin (h : fp32 w = .fin neg m e) : ∃ n : Int, RoundsToInt r (real (fp32 w)) n ∧
    real (FloatFmt.fp32.value (roundIntegral r w).1.toNat) = n ∧ (roundIntegral r w).2 = (if (n : ℚ) = real (fp32 w) then 0 else 16) ∧
    (2 ^ 31 ≤ (roundIntegral r w).1.toNat ↔ neg = true) := by
  obtain ⟨u, hu⟩ : ∃ u : ℚ, u = m * 2 ^ e := ⟨_, rfl⟩
  have hu0 : 0 ≤ u := by rw [hu]; positivity
  have hreal : real (fp32 w) = signum neg * u := by rw [h, hu, real_eq_signum]
  refine ⟨signed neg (r.integral neg u), hreal ▸ roundsToInt_integral hu0, ?_⟩
  rw [hreal]
  simp only [signed_eq_iff]
  by_cases hint : m = 0 ∨ 0 ≤ e
  · have hkeep : roundIntegral r w = (w, 0) := by
      rw [roundIntegral, h]
      exact if_pos (by simpa using hint)
    have hnat : (r.integral neg u : ℚ) = u := by
      obtain ⟨n, hn⟩ : ∃ n : Nat, u = n := by
        rcases hint with rfl | he
        · exact ⟨0, by rw [hu]; simp⟩
        · exact ⟨m * 2 ^ e.toNat, by rw [hu, Nat.cast_mul, natCast_two_pow_toNat he]⟩
      rw [hn, r.integral_of_nat]
    have hsign := negative_fp32 (w := w) fun k hk => by rw [h] at hk; cases hk
    rw [hkeep, if_pos hnat, signed_cast, hnat]
    exact ⟨hreal, rfl, by rw [← hsign, h]; rfl⟩
  · obtain ⟨hm, he⟩ := not_or.mp hint
    obtain ⟨up, hgrid⟩ := Exact.toGrid_integers (x := ⟨neg, m, e, false⟩) rfl r
    have hround : roundIntegral r w = (BitVec.ofNat 32 (FloatFmt.fp32.signBit neg + FloatFmt.fp32.encodeMag (r.integral neg u) 0),
        if u ≠ ⌊u⌋₊ then 16 else 0) := by
      rw [roundIntegral, h]
      refine (if_neg (by simpa using hint)).trans ?_
      rw [hgrid, hu]
      exact Prod.ext rfl (if_congr decide_eq_true_iff rfl rfl)
    have hsmall : r.integral neg u < 2 ^ 24 := by
      have hm24 := (fp32_fin h).1
      have hlt : u < (2 ^ 23 : Nat) := by
        have hm24' : (m : ℚ) < 2 ^ 24 := by exact_mod_cast hm24
        calc u = m * 2 ^ e := hu
          _ ≤ m * 2 ^ (-1 : Int) := mul_le_mul_of_nonneg_left (zpow_le_zpow_right₀ one_le_two (by omega)) (Nat.cast_nonneg m)
          _ < 2 ^ 24 * 2 ^ (-1 : Int) := mul_lt_mul_of_pos_right hm24' (by positivity)
          _ = (2 ^ 23 : Nat) := by norm_num
      have hfloor := (Nat.floor_lt hu0).mpr hlt
      have := r.integral_le neg u
      omega
    obtain ⟨hvalue, hsign⟩ := integer_word neg hsmall
    rw [hround]
    refine ⟨hvalue, ?_, hsign⟩
    simp only [Rounding.integral_eq_iff, ne_eq, ite_not]

/-! ## Conversions to a format (R83, R85, R86) -/

section Convert

variable {fmt : FloatFmt} {sat ftz : Bool}

theorem convert_rounded (hfin : Finite x) (h : fmt ≠ .e8m0 ∨ 0 < real x) : Rounded fmt r sat ftz (real x) (fmt.convert r sat ftz x) := by
  obtain ⟨s, m, e, rfl⟩ := finite_iff.mp hfin
  refine ⟨s, m, e, rfl, ?_⟩
  cases fmt with
  | e8m0 =>
    have hpos := h.resolve_left fun h => h rfl
    have hm : m ≠ 0 := fun h0 => hpos.ne' (real_fin_eq_zero_iff.mpr h0)
    have hs : s = false := by
      by_contra hs
      rw [Bool.not_eq_false] at hs
      have hle : (0 : ℚ) ≤ m * 2 ^ e := by positivity
      rw [hs, real_eq_signum, signum, if_pos rfl] at hpos
      linarith
    simp [FloatFmt.convert, hm, hs]
  | _ => rfl

theorem convert_special (fmt : FloatFmt) (r : Rounding) (sat ftz : Bool) (x : Num) : ConvertSpecial fmt sat x (fmt.convert r sat ftz x) := by
  refine ⟨fun g hx => ?_, fun s hx => ?_, fun hfin h0 => ?_, fun hfin hneg hf => ?_⟩
  · subst hx
    cases fmt with
    | e2m1 => rfl
    | _ => cases g <;> rfl
  · subst hx
    cases fmt with
    | e4m3 => cases sat <;> rfl
    | e2m1 => cases sat <;> rfl
    | e8m0 => cases s <;> cases sat <;> rfl
    | _ => cases s <;> rfl
  · obtain ⟨s, m, e, rfl⟩ := finite_iff.mp hfin
    obtain rfl := real_fin_eq_zero_iff.mp h0
    cases fmt with
    | e8m0 => rfl
    | _ => exact FloatFmt.round_zero _ r sat ftz s e
  · obtain ⟨s, m, e, rfl⟩ := finite_iff.mp hfin
    subst hf
    have hs : s = true := by
      by_contra hs
      rw [Bool.not_eq_true] at hs
      have hle : (0 : ℚ) ≤ m * 2 ^ e := by positivity
      rw [hs, real_eq_signum, signum, if_neg Bool.false_ne_true, one_mul] at hneg
      linarith
    simp [FloatFmt.convert, hs, flagIV]

theorem real_ofInt (v : Int) : real (Num.ofInt v) = v := by simpa [Num.ofInt] using real_natAbs v 0

theorem convert_integer_rounded {v : Int} (h : fmt ≠ .e8m0 ∨ 0 < v) : Rounded fmt r sat ftz v (fmt.convert r sat ftz (Num.ofInt v)) := by
  rw [← real_ofInt v]
  refine convert_rounded (finite_fin _ _ _) (h.imp_right fun hpos => ?_)
  rw [real_ofInt]
  exact_mod_cast hpos

theorem convert_integer_special (fmt : FloatFmt) (r : Rounding) (sat ftz : Bool) (v : Int) :
    (v = 0 → fmt.convert r sat ftz (Num.ofInt v) = if fmt = .e8m0 then (0xFF, 1) else (0, 0)) ∧
    (v < 0 → fmt = .e8m0 → fmt.convert r sat ftz (Num.ofInt v) = (0xFF, 1)) := by
  obtain ⟨-, -, hzero, hneg⟩ := convert_special fmt r sat ftz (Num.ofInt v)
  rw [real_ofInt] at hzero hneg
  refine ⟨?_, fun hlt => hneg (finite_fin _ _ _) (by exact_mod_cast hlt)⟩
  rintro rfl
  exact hzero (finite_fin _ _ _) Int.cast_zero

end Convert

/-! ## Conversions to an integer type (R84, R86) -/

theorem toInteger_nan (c : Nat) (r : Rounding) {k : Bool} (hx : x = .nan k) : toInteger c r x = (0, 1) := by
  subst hx
  rfl

theorem toInteger_inf (c : Nat) (r : Rounding) {t : Bool} (hx : x = .inf t) : toInteger c r x = (if t then low c else high c, 1) := by
  subst hx
  rw [toInteger, intMin_eq, intMax_eq]
  rfl

theorem type_range (c : Nat) : -2 ^ 64 < low c ∧ high c < 2 ^ 64 := by
  have hle : (2 : Int) ^ intBits c ≤ 2 ^ 64 := pow_le_pow_right₀ one_le_two (intBits_le c)
  have hle' : (2 : Int) ^ (intBits c - 1) ≤ 2 ^ 63 := pow_le_pow_right₀ one_le_two (by have := intBits_le c; omega)
  unfold low high
  constructor <;> split <;> omega

theorem clamped_eq_iff {c : Nat} {v : Int} : clamped c v = v ↔ low c ≤ v ∧ v ≤ high c := by
  have := low_le_high c
  unfold clamped
  split_ifs <;> omega

/-- Past every type's range the clamp gives the end of the range. -/
theorem clamped_far {c k : Nat} (hk : 2 ^ 64 ≤ k) (neg : Bool) :
    clamped c (signed neg k) = (if neg then low c else high c) ∧ clamped c (signed neg k) ≠ signed neg k := by
  obtain ⟨hlow, hhigh⟩ := type_range c
  have := low_le_high c
  have hk' : (2 : Int) ^ 64 ≤ k := by exact_mod_cast hk
  unfold clamped signed
  cases neg <;> simp only [Bool.false_eq_true, if_true, if_false] <;> split_ifs <;> omega

/-- What a conversion of a finite value to an integer type gives (R84, R86). -/
def IntegerResult (c : Nat) (r : Rounding) (v : ℚ) (y : Int × BitVec 5) : Prop :=
  ∃ n : Int, RoundsToInt r v n ∧ y.1 = clamped c n ∧ y.2 = if clamped c n ≠ n then 1
    else if (n : ℚ) = v ∨ (c % 2 = 1 ∧ n = 0 ∧ v < 0) then 0 else 16

theorem toInteger_far (hm : m ≠ 0) (hlead : 70 < leadExp m e) (c : Nat) :
    IntegerResult c r (real (.fin neg m e)) (toInteger c r (.fin neg m e)) := by
  obtain ⟨u, hu⟩ : ∃ u : ℚ, u = m * 2 ^ e := ⟨_, rfl⟩
  have hu0 : 0 ≤ u := by rw [hu]; positivity
  have hbig : 2 ^ 64 ≤ r.integral neg u := by
    have hle := (le_leadExp_iff hm).mp (show (64 : Int) ≤ leadExp m e by omega)
    refine le_trans (Nat.le_floor ?_) (r.le_integral neg u)
    rw [hu]
    exact_mod_cast hle
  obtain ⟨hclamp, hne⟩ := clamped_far (c := c) hbig neg
  have hinteger : toInteger c r (.fin neg m e) = (if neg then low c else high c, 1) := by
    rw [toInteger, intMin_eq, intMax_eq]
    exact if_pos (by simp [hm, hlead])
  rw [hinteger, real_eq_signum, ← hu]
  exact ⟨_, roundsToInt_integral hu0, hclamp.symm, (if_pos hne).symm⟩

/-- A value that is not past 2^71 is rounded to an integer and then clamped. -/
theorem toInteger_near (hnear : ¬ (m ≠ 0 ∧ 70 < leadExp m e)) {u : ℚ} (hu : u = m * 2 ^ e) {k : Nat} (hk : k = r.integral neg u) (c : Nat) :
    toInteger c r (.fin neg m e) = if neg = true ∧ k = 0 ∧ c % 2 = 1 then (0, 0)
      else if clamped c (signed neg k) = signed neg k then (signed neg k, if (k : ℚ) = u then 0 else 16) else (clamped c (signed neg k), 1) := by
  obtain ⟨up, hgrid⟩ := Exact.toGrid_integers (x := ⟨neg, m, e, false⟩) rfl r
  have hbad : (if decide ((⟨neg, m, e, false⟩ : Exact).mag ≠ ⌊(⟨neg, m, e, false⟩ : Exact).mag⌋₊) = true then flagIX else 0) =
      if (k : ℚ) = u then 0 else 16 := by
    rw [hk, hu]
    simp only [Rounding.integral_eq_iff, decide_eq_true_eq, ne_eq, ite_not]
    rfl
  have hzero : (neg && k == 0 && !intSigned c) = true ↔ neg = true ∧ k = 0 ∧ c % 2 = 1 := by simp [intSigned, and_assoc]
  have hinteger : r.integral neg (⟨neg, m, e, false⟩ : Exact).mag = k := by rw [hk, hu]; rfl
  rw [toInteger, if_neg (by simpa using hnear), hgrid]
  dsimp only
  rw [hbad, hinteger, intClamp_eq]
  simp only [hzero, beq_iff_eq]
  rfl

theorem zero_in_range (c : Nat) : clamped c 0 = 0 := by
  have hpos : (0 : Int) < 2 ^ (intBits c - 1) := by positivity
  have hpos' : (0 : Int) < 2 ^ intBits c := by positivity
  refine clamped_eq_iff.mpr ?_
  unfold low high
  split <;> omega

theorem toInteger_fin (c : Nat) (r : Rounding) (neg : Bool) (m : Nat) (e : Int) :
    IntegerResult c r (real (.fin neg m e)) (toInteger c r (.fin neg m e)) := by
  by_cases hfar : m ≠ 0 ∧ 70 < leadExp m e
  · exact toInteger_far hfar.1 hfar.2 c
  obtain ⟨u, hu⟩ : ∃ u : ℚ, u = m * 2 ^ e := ⟨_, rfl⟩
  have hu0 : 0 ≤ u := by rw [hu]; positivity
  obtain ⟨k, hk⟩ : ∃ k, k = r.integral neg u := ⟨_, rfl⟩
  rw [toInteger_near hfar hu hk, real_eq_signum, ← hu]
  refine ⟨signed neg k, hk ▸ roundsToInt_integral hu0, ?_⟩
  by_cases hzero : neg = true ∧ k = 0 ∧ c % 2 = 1
  · obtain ⟨rfl, rfl, hodd⟩ := hzero
    have hn : signed true 0 = 0 := rfl
    have hnoflag : ((0 : Int) : ℚ) = signum true * u ∨ (c % 2 = 1 ∧ (0 : Int) = 0 ∧ signum true * u < 0) := by
      simp only [signum, if_true, neg_one_mul, Int.cast_zero]
      exact hu0.eq_or_lt.imp (fun h => by rw [← h, neg_zero]) fun h => ⟨hodd, trivial, neg_neg_of_pos h⟩
    rw [if_pos ⟨rfl, rfl, hodd⟩, hn, zero_in_range, if_neg (not_not.mpr rfl), if_pos hnoflag]
    exact ⟨rfl, rfl⟩
  rw [if_neg hzero]
  by_cases hrange : clamped c (signed neg k) = signed neg k
  · have hexact : ((signed neg k : Int) : ℚ) = signum neg * u ∨ (c % 2 = 1 ∧ signed neg k = 0 ∧ signum neg * u < 0) ↔ (k : ℚ) = u := by
      rw [signed_eq_iff]
      refine or_iff_left fun ⟨hodd, hn, hlt⟩ => hzero ?_
      cases neg with
      | false => exact absurd hlt (by simpa [signum] using hu0)
      | true => exact ⟨rfl, by simpa [signed] using hn, hodd⟩
    rw [if_pos hrange, if_neg (not_not.mpr hrange)]
    exact ⟨hrange.symm, (if_congr hexact rfl rfl).symm⟩
  · rw [if_neg hrange, if_pos hrange]
    exact ⟨rfl, rfl⟩

theorem toInteger_finite (c : Nat) (r : Rounding) (hx : Finite x) : IntegerResult c r (real x) (toInteger c r x) := by
  obtain ⟨neg, m, e, rfl⟩ := finite_iff.mp hx
  exact toInteger_fin c r neg m e

end Sys2Proof.Machine
end

section
/-! PROOFS. The results of the floating-point instructions in an active lane (R134, R136, R140 to R143). -/

namespace Sys2Proof.Machine

open Sys2Proof.Claims

variable {s : State} {f : Fields} {c : Ctx} {m : Mnem} {r : Rounding} {sat ftz : Bool} {w : Word} {x : Num}

/-! ## FP32 arithmetic (R136) -/

/-- An exact result delivered in FP32 at a lane. -/
def delivered32 (f : Fields) (c : Ctx) (l : Nat) (x : Num × BitVec 5) : Nat × BitVec 5 := delivered .fp32 (roundingOf f c.w l) f.sat c.w.ftz x

theorem floatArith_of_issues (h : Issues m f s c) (g : Num → Num → Num → Num × BitVec 5) :
    floatArith m f s g = .next (lanesWritten s c f fun l =>
      delivered32 f c l (g (fp32 (c.w.elem f.a.toNat l)) (fp32 (bFloat c.w f l)) (fp32 (c.w.elem f.c.toNat l)))) :=
  floatOp_of_issues h _

theorem roundsDown_eq (f : Fields) : roundsDown f = decide (f.rnd = .rd) := beq_eq_decide _ _

theorem exec_fadd (h : Issues .fadd f s c) : exec (.fadd f) s = .next (lanesWritten s c f fun l =>
    delivered32 f c l (sumNums (decide (f.rnd = .rd)) [fp32 (c.w.elem f.a.toNat l), fp32 (bFloat c.w f l)])) := by
  change execFadd f s = _
  rw [execFadd, floatArith_of_issues h, roundsDown_eq]

theorem exec_fsub (h : Issues .fsub f s c) : exec (.fsub f) s = .next (lanesWritten s c f fun l =>
    delivered32 f c l (sumNums (decide (f.rnd = .rd)) [fp32 (c.w.elem f.a.toNat l), (fp32 (bFloat c.w f l)).negate])) := by
  change execFsub f s = _
  rw [execFsub, floatArith_of_issues h, roundsDown_eq]

theorem exec_fmul (h : Issues .fmul f s c) : exec (.fmul f) s = .next (lanesWritten s c f fun l =>
    delivered32 f c l ((fp32 (c.w.elem f.a.toNat l)).mul (fp32 (bFloat c.w f l)))) := by
  change execFmul f s = _
  rw [execFmul, floatArith_of_issues h]

theorem exec_ffma (h : Issues .ffma f s c) : exec (.ffma f) s = .next (lanesWritten s c f fun l =>
    delivered32 f c l (dotNums (decide (f.rnd = .rd)) [(fp32 (c.w.elem f.a.toNat l), fp32 (bFloat c.w f l))]
      (some (fp32 (c.w.elem f.c.toNat l))))) := by
  change execFfma f s = _
  rw [execFfma, floatArith_of_issues h, roundsDown_eq]

/-! ## FSCL (R136) -/

/-- A number times a power of 2. -/
def scaleNum (n : Int) (x : Num) : Num :=
  match x with
  | .fin sg m e => if m == 0 then x else .fin sg m (e + n)
  | _ => x

theorem exec_fscl (h : Issues .fscl f s c) : exec (.fscl f) s = .next (lanesWritten s c f fun l =>
    delivered32 f c l (scaleNum (bWord c.w f l).toInt (fp32 (c.w.elem f.a.toNat l)), ivIf (fp32 (c.w.elem f.a.toNat l)).isSig)) :=
  show execFscl f s = _ from floatOp_of_issues h _

theorem scale_nan (n : Int) {k : Bool} (hx : x = .nan k) : IsNaNWith .fp32 (k = true) (delivered .fp32 r sat ftz (scaleNum n x, ivIf x.isSig)) := by
  subst hx
  obtain ⟨h01, hone⟩ := ivIf_iff k
  have hscale : scaleNum n (.nan k) = .nan k := rfl
  rw [hscale, delivered_nan]
  exact ⟨rfl, hone.mpr, fun h => h01.resolve_right fun h1 => h (hone.mp h1)⟩

theorem scale_rounded (n : Int) (hx : Finite x) :
    Rounded .fp32 r sat ftz (real x * 2 ^ n) (delivered .fp32 r sat ftz (scaleNum n x, ivIf x.isSig)) := by
  obtain ⟨sg, m, e, rfl⟩ := finite_iff.mp hx
  rcases eq_or_ne m 0 with rfl | hm
  · exact delivered_rounded (by simp [real])
  · have hscale : scaleNum n (.fin sg m e) = .fin sg m (e + n) := if_neg (by simpa using hm)
    rw [hscale]
    exact delivered_rounded (by rw [real, real, zpow_add₀ two_ne_zero, mul_assoc, mul_assoc, mul_assoc])

theorem not_isNaN_of (h : ∀ k, fp32 w ≠ .nan k) : ¬ IsNaN w := by
  rw [← decide_eq_true_iff (p := IsNaN w), ← isNaN_fp32, Num.isNaN_iff]
  exact fun ⟨k, hk⟩ => h k hk

/-- FTZ does not touch an infinity or a zero. -/
theorem deliver_ftz (h : ¬ Finite x ∨ real x = 0) : FloatFmt.fp32.deliver r sat ftz x = FloatFmt.fp32.deliver r sat false x := by
  cases x with
  | nan | inf => rfl
  | fin sg m e =>
    obtain rfl := real_fin_eq_zero_iff.mp (h.resolve_left fun h => h trivial)
    rw [FloatFmt.deliver, FloatFmt.deliver, FloatFmt.round_zero, FloatFmt.round_zero]

/-- An infinity and a zero are kept as they are. -/
theorem scale_special (n : Int) (h : ¬ Finite (fp32 w) ∨ real (fp32 w) = 0) (hnan : ∀ k, fp32 w ≠ .nan k) :
    delivered .fp32 r sat ftz (scaleNum n (fp32 w), ivIf (fp32 w).isSig) = (w.toNat, 0) := by
  have hscale : scaleNum n (fp32 w) = fp32 w := by
    cases hw : fp32 w with
    | nan | inf => rfl
    | fin sg m e =>
      rw [hw] at h
      obtain rfl := real_fin_eq_zero_iff.mp (h.resolve_left fun h => h trivial)
      rfl
  have hquiet : (fp32 w).isSig = false := Bool.eq_false_iff.mpr fun h => hnan true (Num.isSig_iff.mp h)
  rw [hscale, hquiet, delivered, deliver_ftz h, floatRoundTrip w r sat (not_isNaN_of hnan)]
  exact Prod.ext rfl BitVec.or_zero

/-! ## FRND (R140) -/

theorem exec_frnd (h : Issues .frnd f s c) : exec (.frnd f) s = .next (lanesWritten s c f fun l =>
    ((roundIntegral (roundingOf f c.w l) (c.w.elem f.a.toNat l)).1.toNat, (roundIntegral (roundingOf f c.w l) (c.w.elem f.a.toNat l)).2)) :=
  show execFrnd f s = _ from floatOp_of_issues h _

theorem roundIntegral_value (h : Finite (fp32 w)) : ∃ n : Int, RoundsToInt r (real (fp32 w)) n ∧
    real (FloatFmt.fp32.value (roundIntegral r w).1.toNat) = n ∧ (roundIntegral r w).2 = if (n : ℚ) = real (fp32 w) then 0 else 16 := by
  obtain ⟨sg, m, e, hw⟩ := finite_iff.mp h
  obtain ⟨n, hn, hvalue, hflags, -⟩ := roundIntegral_fin hw
  exact ⟨n, hn, hvalue, hflags⟩

theorem roundIntegral_special (h : ∀ k, fp32 w ≠ .nan k) : (2 ^ 31 ≤ (roundIntegral r w).1.toNat ↔ negative (fp32 w) = true) ∧
    (¬ Finite (fp32 w) → ((roundIntegral r w).1.toNat, (roundIntegral r w).2) = (w.toNat, 0)) := by
  cases hw : fp32 w with
  | nan k => exact absurd hw (h k)
  | inf sg =>
    rw [roundIntegral_inf hw, ← hw]
    exact ⟨(negative_fp32 h).symm, fun _ => rfl⟩
  | fin sg m e =>
    obtain ⟨-, -, -, -, hsign⟩ := roundIntegral_fin (r := r) hw
    exact ⟨hsign, fun h => absurd trivial h⟩

/-! ## Packed instructions (R142) -/

/-- The half of a 32-bit element, as a number of a 16-bit format. -/
def halfOf (fmt : FloatFmt) (w : Word) (j : Nat) : Num := fmt.value (w.extractLsb' (16 * j) 16).toNat

theorem natBits_half (w : Word) (j : Nat) : natBits w.toNat (16 * j + 15) (16 * j) = (w.extractLsb' (16 * j) 16).toNat := by
  rw [BitVec.extractLsb'_toNat, natBits, Nat.add_sub_cancel_left]

/-- The result of half `j` of lane `l`. -/
def packedHalf (f : Fields) (c : Ctx) (g : Num → Num → Num → Num × BitVec 5) (l j : Nat) : Nat × BitVec 5 :=
  let fmt := FloatFmt.ofCode f.typeCode
  delivered fmt (roundingOf f c.w (2 * l + j)) f.sat c.w.ftz
    (g (halfOf fmt (c.w.elem f.a.toNat l) j) (halfOf fmt (bWord c.w f l) j) (halfOf fmt (c.w.elem f.c.toNat l) j))

/-- Two halves in one element. -/
def twoHalves (p : Nat → Nat × BitVec 5) : Nat × BitVec 5 := ((p 0).1 + 65536 * (p 1).1, (p 0).2 ||| (p 1).2)

theorem packedOp_of_issues (h : Issues m f s c) (g : Num → Num → Num → Num × BitVec 5) :
    packedOp m f s g = .next (lanesWritten s c f fun l => twoHalves (packedHalf f c g l)) := by
  refine (floatOp_of_issues h _).trans ?_
  simp only [natBits_half, twoHalves, packedHalf, halfOf, delivered, Nat.reducePow, Nat.mul_comm _ 65536]

theorem exec_pfadd (h : Issues .pfadd f s c) : exec (.pfadd f) s =
    .next (lanesWritten s c f fun l => twoHalves (packedHalf f c (fun a b _ => sumNums (decide (f.rnd = .rd)) [a, b]) l)) := by
  change execPfadd f s = _
  rw [execPfadd, packedOp_of_issues h, roundsDown_eq]

theorem exec_pfmul (h : Issues .pfmul f s c) : exec (.pfmul f) s =
    .next (lanesWritten s c f fun l => twoHalves (packedHalf f c (fun a b _ => a.mul b) l)) := by
  change execPfmul f s = _
  rw [execPfmul, packedOp_of_issues h]

theorem exec_pffma (h : Issues .pffma f s c) : exec (.pffma f) s =
    .next (lanesWritten s c f fun l => twoHalves (packedHalf f c (fun a b x => dotNums (decide (f.rnd = .rd)) [(a, b)] (some x)) l)) := by
  change execPffma f s = _
  rw [execPffma, packedOp_of_issues h, roundsDown_eq]

/-! ## FDOT4 (R143) -/

/-- A byte of a 32-bit element, as a number of a format. -/
def byteOf (fmt : FloatFmt) (w : Word) (j : Nat) : Num := fmt.value (w.extractLsb' (8 * j) 8).toNat

theorem natBits_byte (w : Word) (j : Nat) : natBits w.toNat (8 * j + 7) (8 * j) = (w.extractLsb' (8 * j) 8).toNat := by
  rw [BitVec.extractLsb'_toNat, natBits, Nat.add_sub_cancel_left]

theorem exec_fdot4 (h : Issues .fdot4 f s c) : exec (.fdot4 f) s = .next (lanesWritten s c f fun l =>
    delivered32 f c l (dotNums (decide (f.rnd = .rd)) (fourPairs (byteOf (FloatFmt.ofCode f.srcCode) (c.w.elem f.a.toNat l))
      (byteOf (FloatFmt.ofCode f.srcCode) (c.w.elem f.b.toNat l))) (some (fp32 (c.w.elem f.c.toNat l))))) := by
  refine (show execFdot4 f s = _ from floatOp_of_issues h _).trans ?_
  simp only [natBits_byte]
  rfl

/-! ## Conversions (R141) -/

theorem exec_fcvt (h : Issues .fcvt f s c) : exec (.fcvt f) s = .next (lanesWritten s c f fun l =>
    (FloatFmt.ofCode f.typeCode).convert (roundingOf f c.w l) f.sat c.w.ftz ((FloatFmt.ofCode f.srcCode).value (c.w.elem f.a.toNat l).toNat)) :=
  show execFcvt f s = _ from floatOp_of_issues h _

theorem exec_icvtf (h : Issues .icvtf f s c) : exec (.icvtf f) s = .next (lanesWritten s c f fun l =>
    (FloatFmt.ofCode f.typeCode).convert (roundingOf f c.w l) f.sat c.w.ftz
      (Num.ofInt (typedValue f.srcCode (c.w.rawElem f.srcCode f.a.toNat l)))) := by
  refine (show execIcvtf f s = _ from floatOp_of_issues h _).trans ?_
  simp only [intValue_eq (rawElem_lt _ _ _ _)]

theorem exec_fcvti (h : Issues .fcvti f s c) :
    let r := fun l => toInteger f.typeCode (roundingOf f c.w l) ((FloatFmt.ofCode f.srcCode).value (c.w.elem f.a.toNat l).toNat)
    exec (.fcvti f) s = .next (after s c ((c.w.putElems f.typeCode f.d.toNat
      ((c.active f.guard).lanes.map fun l => (l, bitsOf f.typeCode (r l).1))).orFlags (flagsOf c f fun l => (0, (r l).2)))) := by
  intro r
  refine (show execFcvti f s = _ from fixedOp_of_issues h _).trans ?_
  simp only [foldl_flags_eq, List.map_map, Function.comp_def]
  rfl

end Sys2Proof.Machine
end

section
/-! PROOFS. Floating-point instructions of fixed latency (R79, R82 to R88, R95, R134 to R143): O11. -/

namespace Sys2Proof.Machine

open Sys2Proof.Claims

/-! ## Completion -/

theorem floatInstructionsComplete : FloatInstructionsComplete := by
  intro s f c
  refine ⟨?_, fun h => ⟨_, _, exec_fcvti h⟩, fun h => ?_⟩
  · simp only [List.forall_mem_cons]
    refine ⟨fun h => ⟨_, _, exec_fadd h⟩, fun h => ⟨_, _, exec_fsub h⟩, fun h => ⟨_, _, exec_fmul h⟩, fun h => ⟨_, _, exec_ffma h⟩,
      fun h => ?_, fun h => ?_, fun h => ⟨_, _, exec_fclass h⟩, fun h => ⟨_, _, exec_frnd h⟩, fun h => ⟨_, _, exec_fcvt h⟩,
      fun h => ⟨_, _, exec_icvtf h⟩, fun h => ⟨_, _, exec_fscl h⟩, fun h => ⟨_, _, exec_pfadd h⟩, fun h => ⟨_, _, exec_pfmul h⟩,
      fun h => ⟨_, _, exec_pffma h⟩, fun h => ⟨_, _, exec_fdot4 h⟩, List.forall_mem_nil _⟩
    · obtain ⟨g, fl, hexec, -⟩ := floatMinMax_of_issues h true
      exact ⟨g, fl, hexec⟩
    · obtain ⟨g, fl, hexec, -⟩ := floatMinMax_of_issues h false
      exact ⟨g, fl, hexec⟩
  · obtain ⟨k, hexec, hk⟩ := exec_fcmp h
    exact ⟨k, _, fun l hl he => by rw [hk l hl, if_neg (by rw [he]; exact Bool.false_ne_true)], hexec⟩

/-! ## NaN operands -/

theorem floatNaNOperands : FloatNaNOperands := by
  intro s f c a b x dst byte half writes packed
  have hpacked : ∀ m i g operands fused, (Issues m f s c → exec i s = .next (lanesWritten s c f fun l => twoHalves (packedHalf f c g l))) →
      (∀ r u v z, NaNAmong (operands u v z) → IsNaNWith dst (SignallingAmong (operands u v z) ∨ (fused = true ∧ InfTimesZero u v))
        (delivered dst r f.sat c.w.ftz (g u v z))) → packed m i operands fused :=
    fun m i g operands fused hexec hnan h =>
      ⟨_, hexec h, fun l _ => ⟨packedHalf f c g l, rfl, rfl, fun j _ => hnan _ _ _ _⟩⟩
  refine ⟨?_, fun h => ⟨_, exec_ffma h, fun l _ hnan => fused_nan (.inl hnan)⟩, ?_, fun _ => ⟨?_, ?_, ?_⟩,
    fun h => ⟨_, exec_fdot4 h, fun l _ => ?_⟩⟩
  · simp only [List.forall_mem_cons]
    exact ⟨fun h => ⟨_, exec_fadd h, fun l _ hnan => sum_nan hnan⟩, fun h => ⟨_, exec_fsub h, fun l _ hnan => difference_nan hnan⟩,
      fun h => ⟨_, exec_fmul h, fun l _ hnan => product_nan hnan⟩, List.forall_mem_nil _⟩
  · simp only [List.forall_mem_cons]
    exact ⟨fun h => ⟨_, exec_fscl h, fun l _ k hk => scale_nan _ hk⟩, fun h => ⟨_, exec_frnd h, fun l _ k hk => roundIntegral_nan hk⟩,
      List.forall_mem_nil _⟩
  · exact hpacked _ _ _ (fun u v _ => [u, v]) false exec_pfadd fun r u v z hnan => by simpa using sum_nan hnan
  · exact hpacked _ _ _ (fun u v _ => [u, v]) false exec_pfmul fun r u v z hnan => by simpa using product_nan hnan
  · exact hpacked _ _ _ (fun u v z => [u, v, z]) true exec_pffma fun r u v z hnan => by simpa using fused_nan (.inl hnan)
  · exact dot_nan (fun j => value_byte_ne_signalling _ _) fun j => value_byte_ne_signalling _ _

/-! ## Finite operands -/

theorem floatValues : FloatValues := by
  intro s f c a b x src writes one byte half packed
  have hpacked : ∀ m i three g g', (Issues m f s c → exec i s = .next (lanesWritten s c f fun l => twoHalves (packedHalf f c g' l))) →
      (∀ fmt r u v z, Claims.Finite u → Claims.Finite v → (three = true → Claims.Finite z) →
        Rounded fmt r f.sat c.w.ftz (g (real u) (real v) (real z)) (delivered fmt r f.sat c.w.ftz (g' u v z))) → packed m i three g :=
    fun m i three g g' hexec hround h => ⟨_, hexec h, fun l _ => ⟨packedHalf f c g' l, rfl, rfl, fun j _ => hround _ _ _ _ _⟩⟩
  refine ⟨fun h => ⟨_, exec_fadd h, fun l _ => sum_rounded⟩, fun h => ⟨_, exec_fsub h, fun l _ => difference_rounded⟩,
    fun h => ⟨_, exec_fmul h, fun l _ => product_rounded⟩, fun h => ⟨_, exec_ffma h, fun l _ => fused_rounded⟩,
    fun h => ⟨_, exec_fscl h, fun l _ => scale_rounded _⟩, fun h => ⟨_, exec_fdot4 h, fun l _ => dot_rounded⟩,
    hpacked _ _ _ (fun a b _ => a + b) _ exec_pfadd fun fmt r u v z hu hv _ => sum_rounded hu hv,
    hpacked _ _ _ (fun a b _ => a * b) _ exec_pfmul fun fmt r u v z hu hv _ => product_rounded hu hv,
    hpacked _ _ _ (fun a b x => a * b + x) _ exec_pffma fun fmt r u v z hu hv hz => fused_rounded hu hv (hz rfl),
    fun h => ⟨_, exec_fcvt h, fun l _ => convert_rounded⟩, fun h => ⟨_, exec_icvtf h, fun l _ => convert_integer_rounded⟩,
    fun h => ⟨_, exec_frnd h, fun l _ => roundIntegral_value⟩, fun h => ⟨_, exec_fcvti h, fun l _ => toInteger_finite _ _⟩⟩

/-! ## Infinities and zeros -/

theorem floatSpecials : FloatSpecials := by
  intro s f c a b x src dst down writes byte half packed sixteen
  have hpacked : ∀ m i g g', (Issues m f s c → exec i s = .next (lanesWritten s c f fun l => twoHalves (packedHalf f c g' l))) →
      (∀ r u v z, g u v z (delivered dst r f.sat c.w.ftz (g' u v z))) → packed m i g :=
    fun m i g g' hexec hspecial h => ⟨_, hexec h, fun l _ => ⟨packedHalf f c g' l, rfl, rfl, fun j _ => hspecial _ _ _ _⟩⟩
  have h32 : Arithmetic .fp32 := .inl rfl
  refine ⟨fun h => ⟨_, exec_fadd h, fun l _ => sum_special h32 _ _ _ _ _ _⟩,
    fun h => ⟨_, exec_fsub h, fun l _ => sum_special h32 _ _ _ _ _ _⟩,
    fun h => ⟨_, exec_fmul h, fun l _ => product_special h32 _ _ _ _ _⟩,
    fun h => ⟨_, exec_ffma h, fun l _ => fused_special h32 _ _ _ _ _ _ _⟩,
    fun h => ⟨_, exec_fscl h, fun l _ => scale_special _⟩, fun h => ⟨_, exec_frnd h, fun l _ => roundIntegral_special⟩, fun h16 => ?_,
    fun h => ⟨_, exec_fdot4 h, fun l _ => dot_special _ _ _ _ _ _ _⟩, fun h => ⟨_, exec_fcvt h, fun l _ => convert_special _ _ _ _ _⟩,
    fun h => ⟨_, exec_icvtf h, fun l _ => convert_integer_special _ _ _ _ _⟩,
    fun h => ⟨_, exec_fcvti h, fun l _ => ⟨fun k => toInteger_nan _ _, fun t => toInteger_inf _ _⟩⟩⟩
  have harith : Arithmetic dst := .inr h16
  exact ⟨hpacked _ _ _ _ exec_pfadd fun r u v z => sum_special harith _ _ _ _ _ _,
    hpacked _ _ _ _ exec_pfmul fun r u v z => product_special harith _ _ _ _ _,
    hpacked _ _ _ _ exec_pffma fun r u v z => fused_special harith _ _ _ _ _ _ _⟩

/-- Settles O11: completion, NaN operands, finite operands, and infinities and zeros, each by its theorem. -/
theorem floatResults : Obligations.FloatResults := ⟨floatInstructionsComplete, floatNaNOperands, floatValues, floatSpecials⟩

end Sys2Proof.Machine
end

section
/-! PROOFS. The blocks and warps that a change of the state leaves (R11), and what starting an instruction of variable latency comes to (R27, R64). -/

namespace Sys2Proof.Machine

open Sys2Proof.Claims

variable {s : State} {f : Fields} {c : Ctx} {m : Mnem} {y y' : Sys} {r q : WarpRef} {b : Block}

/-! ## A warp changed -/

theorem Block.warp_setWarp_same (b : Block) (n : Nat) {g : Warp → Warp} (hg : ∀ w, (g w).rank = w.rank) : (b.setWarp n g).warp n = (b.warp n).map g :=
  find_updateWhere_same _ g (fun w hw => by rwa [hg w]) b.warps

theorem Block.warp_setWarp_other (b : Block) {n k : Nat} {g : Warp → Warp} (hg : ∀ w, (g w).rank = w.rank) (h : k ≠ n) :
    (b.setWarp n g).warp k = b.warp k :=
  find_updateWhere_other _ _ g (fun w hw => by
    have hn : w.rank = n := by simpa using hw
    simp [hg w, hn, h.symm]) b.warps

theorem Sys.block_setWarp_same (y : Sys) (r : WarpRef) (g : Warp → Warp) :
    (y.setWarp r g).block r.block = (y.block r.block).map fun b => b.setWarp r.rank g :=
  Sys.block_setBlock_same y r.block _ fun _ => rfl

theorem Sys.block_setWarp_other (y : Sys) (r : WarpRef) (g : Warp → Warp) {i : Nat} (h : i ≠ r.block) : (y.setWarp r g).block i = y.block i :=
  Sys.block_setBlock_other y r.block i _ (fun _ => rfl) h

theorem Sys.warp_setWarp_same (y : Sys) (r : WarpRef) {g : Warp → Warp} (hg : ∀ w, (g w).rank = w.rank) :
    (y.setWarp r g).warp r = (y.warp r).map g := by
  rw [Sys.warp, Sys.warp, Sys.block_setWarp_same]
  cases y.block r.block with
  | none => rfl
  | some b => exact b.warp_setWarp_same r.rank hg

theorem Sys.warp_setWarp_other (y : Sys) {g : Warp → Warp} (hg : ∀ w, (g w).rank = w.rank) (h : q ≠ r) : (y.setWarp r g).warp q = y.warp q := by
  rw [Sys.warp, Sys.warp]
  by_cases hb : q.block = r.block
  · have hrank : q.rank ≠ r.rank := fun he => h (by cases q; cases r; simp_all)
    rw [hb, Sys.block_setWarp_same]
    cases y.block r.block with
    | none => rfl
    | some b => exact b.warp_setWarp_other hg hrank
  · rw [Sys.block_setWarp_other y r g hb]

theorem Sys.setWarp_setWarp (y : Sys) (r : WarpRef) {g k : Warp → Warp} (hg : ∀ w, (g w).rank = w.rank) :
    (y.setWarp r g).setWarp r k = y.setWarp r fun w => k (g w) := by
  simp only [Sys.setWarp, Sys.setBlock]
  rw [updateWhere_updateWhere (p := fun b : Block => b.id == r.block) (g := fun b => b.setWarp r.rank g) fun b hb => hb]
  simp only [Block.setWarp_setWarp _ _ hg]

theorem Sys.block_congr (h : y'.blocks = y.blocks) (i : Nat) : y'.block i = y.block i := by rw [Sys.block, Sys.block, h]

theorem Sys.warp_congr (h : ∀ i, y'.block i = y.block i) (q : WarpRef) : y'.warp q = y.warp q := by rw [Sys.warp, Sys.warp, h]

/-- A change of a block that keeps its warps leaves every warp. -/
theorem Sys.warp_setBlock (y : Sys) (i : Nat) {g : Block → Block} (hid : ∀ b, (g b).id = b.id) (hwarps : ∀ b, (g b).warps = b.warps) (q : WarpRef) :
    (y.setBlock i g).warp q = y.warp q := by
  rw [Sys.warp, Sys.warp]
  rcases eq_or_ne q.block i with rfl | h
  · rw [Sys.block_setBlock_same y _ g hid]
    cases y.block q.block with
    | none => rfl
    | some b => simp [Block.warp, hwarps]
  · rw [Sys.block_setBlock_other y i _ g hid h]

theorem Sys.warp_of_issuing (h : s.sys.issuing = some c) : s.sys.warp c.ref = some c.w := by
  obtain ⟨-, hb, hw⟩ := Sys.issuing_some h
  rw [Sys.warp, hb, Option.bind_some, hw]

theorem Ctx.block_id (h : s.sys.issuing = some c) : c.b.id = c.ref.block := by
  obtain ⟨-, hb, -⟩ := Sys.issuing_some h
  simpa using List.find?_some hb

/-! ## An instruction of variable latency started -/

@[simp] theorem Sys.setWarp_words (y : Sys) (r : WarpRef) (g : Warp → Warp) : (y.setWarp r g).words = y.words := rfl

/-- The state with its next number used. -/
def Sys.counted (y : Sys) : Sys := { y with fresh := y.fresh + 1 }

@[simp] theorem Sys.counted_words (y : Sys) : y.counted.words = y.words := rfl
@[simp] theorem Sys.counted_warp (y : Sys) (q : WarpRef) : y.counted.warp q = y.warp q := rfl

theorem Sys.addOp_eq (y : Sys) (c : Ctx) (m : Mnem) (fl : Option Nat) (acq : Bool) (body : OpBody) :
    y.addOp c m fl acq body = y.counted.setWarp c.ref fun w =>
      ({ w with ops := w.ops ++ [{ id := y.fresh, slot := c.z, flag := fl, path := m.path, body := body,
                                   acq := if acq then some c.slot.mask else none }] } : Warp).setSlot c.z
        fun z => { z with serialOp := if z.serial then some y.fresh else none } := rfl

/-- An operation that starts is an access added, without an acquire, and passed. -/
theorem Sys.startOp_eq (y : Sys) (c : Ctx) (m : Mnem) (fl : Option Nat) (body : OpBody) :
    y.startOp c m fl body = (y.addOp c m fl false body).passOp c := by
  rw [Sys.passOp, Sys.addOp_eq, Sys.setWarp_setWarp _ _ (by simp)]
  simp only [Warp.setSlot_setSlot]
  rfl

theorem setSlot_passed {v : Warp} (h : (v.slot c.z).pc = c.slot.pc) :
    v.setSlot c.z (fun z => { z.step s.sys.words with issued := z.issued + 1 }) =
      v.setSlot c.z fun z => { z with pc := nextPc s c, left := z.left - 1, resume := none, hold := .none, issued := z.issued + 1 } :=
  Warp.setSlot_congr _ _ (by simp [PcSlot.step, nextPc, Pc.plus, h])

theorem withOp_slot (acq : Bool) (body : OpBody) : ((withOp s c m acq body).slot c.z).pc = c.slot.pc := by
  obtain ⟨r, z, b, w⟩ := c
  cases z <;> rfl

section Starts

variable (hc : s.sys.issuing = some c) (hwarp : ∀ q, y.warp q = s.sys.warp q) (hfresh : y.fresh = s.sys.fresh)

include hwarp

theorem warp_addOp_other (acq : Bool) (body : OpBody) (hq : q ≠ c.ref) : (y.addOp c m (flagOf m c) acq body).warp q = s.sys.warp q := by
  rw [Sys.addOp_eq, Sys.warp_setWarp_other _ (by simp) hq, Sys.counted_warp, hwarp]

include hc hfresh

theorem warp_addOp_own (acq : Bool) (body : OpBody) : (y.addOp c m (flagOf m c) acq body).warp c.ref = some (withOp s c m acq body) := by
  rw [Sys.addOp_eq, Sys.warp_setWarp_same _ _ (by simp), Sys.counted_warp, hwarp, Sys.warp_of_issuing hc, hfresh]
  rfl

/-- From a state with the warps of `s`, its next number and its words, an access that starts is `Started`. -/
theorem started_addOp (hwords : y.words = s.sys.words) (acq : Bool) (body : OpBody) :
    Started s { phys := s.phys, sys := (y.addOp c m (flagOf m c) acq body).passOp c } c m acq body := by
  refine ⟨rfl, fun q hq => ?_, ?_⟩
  · exact (Sys.warp_setWarp_other _ (by simp) hq).trans (warp_addOp_other hwarp acq body hq)
  · have hown := warp_addOp_own (m := m) hc hwarp hfresh acq body
    rw [Sys.passOp, Sys.warp_setWarp_same _ _ (by simp), hown, Sys.addOp_eq, Sys.setWarp_words, Sys.counted_words, hwords]
    exact congrArg some (setSlot_passed (withOp_slot acq body))

theorem started_startOp (hwords : y.words = s.sys.words) (body : OpBody) :
    Started s { phys := s.phys, sys := y.startOp c m (flagOf m c) body } c m false body := by
  rw [Sys.startOp_eq]
  exact started_addOp hc hwarp hfresh hwords false body

end Starts

end Sys2Proof.Machine
end

section
/-! PROOFS. Sets of numbers that a list of members builds (R9): what is in them, and that their order is one. -/

namespace Sys2Proof.NatSet

variable {s : NatSet} {k j : Nat} {xs ys : List Nat}

theorem mem_add : j ∈ NatSet.add s k ↔ j = k ∨ j ∈ s := by
  induction s with
  | nil => simp [NatSet.add]
  | cons i rest ih =>
    unfold NatSet.add
    split
    · simp
    · split
      · next h => simp [h]
      · simp [ih, or_left_comm]

theorem pairwise_add (h : s.Pairwise (· < ·)) : (NatSet.add s k).Pairwise (· < ·) := by
  induction s with
  | nil => simp [NatSet.add]
  | cons i rest ih =>
    obtain ⟨hi, hrest⟩ := List.pairwise_cons.mp h
    unfold NatSet.add
    split
    · next hk => exact List.pairwise_cons.mpr ⟨List.forall_mem_cons.mpr ⟨hk, fun j hj => hk.trans (hi j hj)⟩, h⟩
    · split
      · exact h
      · refine List.pairwise_cons.mpr ⟨fun j hj => ?_, ih hrest⟩
        obtain rfl | hj := mem_add.mp hj
        · omega
        · exact hi j hj

theorem mem_foldl_add : j ∈ xs.foldl NatSet.add s ↔ j ∈ s ∨ j ∈ xs := by
  induction xs generalizing s with
  | nil => simp
  | cons x xs ih => rw [List.foldl_cons, ih, mem_add, List.mem_cons, or_assoc, or_left_comm]

theorem pairwise_foldl_add (h : s.Pairwise (· < ·)) : (xs.foldl NatSet.add s).Pairwise (· < ·) :=
  List.foldlRecOn xs _ h fun _ hs _ _ => pairwise_add hs

/-- Lists with the same members build the same set. -/
theorem foldl_add_congr (h : ∀ j, j ∈ xs ↔ j ∈ ys) : xs.foldl NatSet.add [] = ys.foldl NatSet.add [] :=
  List.Pairwise.eq_of_mem_iff (pairwise_foldl_add .nil) (pairwise_foldl_add .nil) fun j => by simp [mem_foldl_add, h]

end Sys2Proof.NatSet
end

section
/-! PROOFS. The partition of the active lanes (R152, R153): the lanes that commit, the pages, and the fault of the others. -/

namespace Sys2Proof.Machine

open Sys2Proof.Claims

variable {p : Phys} {y : Sys} {c : Ctx} {sp : Space} {size : Nat} {e : LaneMask} {addr : Nat → Nat}

/-! ## The lanes of a mask, ascending -/

theorem LaneMask.pairwise_lanes (e : LaneMask) : (LaneMask.lanes e).Pairwise (· < ·) := List.pairwise_lt_range.filter _

theorem LaneMask.lanes_ne_nil (h : e ≠ 0) : LaneMask.lanes e ≠ [] := by
  obtain ⟨l, -, hl⟩ := LaneMask.exists_least h
  exact List.ne_nil_of_mem hl

/-- The first of rising numbers that passes a test is the least that does. -/
theorem find?_eq_some_of_least {xs : List Nat} {q : Nat → Bool} {l : Nat} (hxs : xs.Pairwise (· < ·)) (hl : l ∈ xs) (hq : q l = true)
    (hleast : ∀ j ∈ xs, j < l → q j = false) : xs.find? q = some l := by
  induction xs with
  | nil => cases hl
  | cons x xs ih =>
    obtain ⟨hx, hxs'⟩ := List.pairwise_cons.mp hxs
    obtain rfl | hmem := List.mem_cons.mp hl
    · exact List.find?_cons_of_pos hq
    · rw [List.find?_cons_of_neg (by simp [hleast x List.mem_cons_self (hx l hmem)])]
      exact ih hxs' hmem fun j hj => hleast j (List.mem_cons_of_mem x hj)

/-! ## The fate of a lane -/

/-- What becomes of one lane's access: its target, or its cause (R152, R153). -/
def laneFate (p : Phys) (y : Sys) (c : Ctx) (sp : Space) (size : Nat) (addr : Nat → Nat) (l : Nat) : Except Cause Nat :=
  if addr l % size != 0 then .error .misaligned
  else match laneTarget p y c sp size l (addr l) with
    | some t => .ok t
    | none => .error sp.cause

/-- The partition of lanes of known fates. -/
def partsOf (sp : Space) (xs : List (Nat × Nat × Except Cause Nat)) : Parts :=
  let ok := xs.filterMap fun x => match x.2.2 with | .ok t => some (x.1, t) | .error _ => none
  let bad := xs.filterMap fun x => match x.2.2 with | .ok _ => none | .error k => some (x.1, x.2.1, k)
  let pages := match sp with
    | .tsp => xs.foldl (fun ps x => match x.2.2 with | .ok _ => NatSet.add ps (x.2.1 / 65536) | .error _ => ps) []
    | _ => []
  let badPages := match sp with
    | .tsp => bad.foldl (fun ps x => if x.2.2 == .misaligned then ps else NatSet.add ps (x.2.1 / 65536)) []
    | _ => []
  let cause := if bad.any fun x => x.2.2 == .misaligned then Cause.misaligned else sp.cause
  let fault := (bad.find? fun x => x.2.2 == cause).map fun x =>
    { cause := cause, resume := LaneMask.ofLanes (bad.map Prod.fst), addr := x.2.1 : TrapInfo }
  { ok := ok, pages := pages, badPages := badPages, fault := fault }

theorem partitionLanes_eq : partitionLanes p y c sp size e addr = partsOf sp (e.lanes.map fun l => (l, addr l, laneFate p y c sp size addr l)) := by
  have hfate : (fun l => if addr l % size != 0 then (l, addr l, Except.error Cause.misaligned) else
      match laneTarget p y c sp size l (addr l) with
      | some t => (l, addr l, Except.ok t)
      | none => (l, addr l, Except.error sp.cause)) = fun l => (l, addr l, laneFate p y c sp size addr l) := by
    funext l
    unfold laneFate
    split
    · rfl
    · split <;> rfl
  rw [← hfate]
  rfl

/-! ## The parts of the partition -/

section Parts

variable {lanes : List Nat} {fate : Nat → Except Cause Nat}

/-- The lane's access commits. -/
def commits (fate : Nat → Except Cause Nat) (l : Nat) : Bool := match fate l with | .ok _ => true | .error _ => false

theorem commits_of_ok {l t : Nat} (h : fate l = .ok t) : commits fate l = true := by rw [commits, h]

theorem commits_of_error {l : Nat} {k : Cause} (h : fate l = .error k) : commits fate l = false := by rw [commits, h]

theorem partsOf_ok {target : Nat → Nat} (h : ∀ l ∈ lanes, ∀ t, fate l = .ok t → t = target l) :
    (partsOf sp (lanes.map fun l => (l, addr l, fate l))).ok = (lanes.filter (commits fate)).map fun l => (l, target l) := by
  have hone : ∀ l ∈ lanes, (match fate l with | .ok t => some (l, t) | .error _ => none) =
      if commits fate l then some (l, target l) else none := fun l hl => by
    cases hf : fate l with
    | ok t => rw [commits_of_ok hf, h l hl t hf]; rfl
    | error k => rw [commits_of_error hf]; rfl
  show (lanes.map _).filterMap _ = _
  rw [List.filterMap_map, ← List.filterMap_eq_map, List.filterMap_filter]
  exact List.filterMap_congr hone

/-- A lane that fails, with its address and its cause. -/
def failure (addr : Nat → Nat) (fate : Nat → Except Cause Nat) (l : Nat) : Option (Nat × Nat × Cause) :=
  match fate l with | .ok _ => none | .error k => some (l, addr l, k)

/-- The lanes that fail. -/
def failures (lanes : List Nat) (addr : Nat → Nat) (fate : Nat → Except Cause Nat) : List (Nat × Nat × Cause) :=
  lanes.filterMap (failure addr fate)

theorem failure_eq_some_iff {l : Nat} {x : Nat × Nat × Cause} : failure addr fate l = some x ↔ x.1 = l ∧ x.2.1 = addr l ∧ fate l = .error x.2.2 := by
  obtain ⟨j, a, k⟩ := x
  unfold failure
  cases fate l <;> simp [eq_comm]

theorem mem_failures {x : Nat × Nat × Cause} : x ∈ failures lanes addr fate ↔ x.1 ∈ lanes ∧ x.2.1 = addr x.1 ∧ fate x.1 = .error x.2.2 := by
  simp only [failures, List.mem_filterMap, failure_eq_some_iff]
  constructor
  · rintro ⟨l, hl, rfl, h⟩
    exact ⟨hl, h⟩
  · rintro ⟨hl, h⟩
    exact ⟨x.1, hl, rfl, h⟩

theorem map_fst_failures : (failures lanes addr fate).map Prod.fst = lanes.filter fun l => !commits fate l := by
  have hone : ∀ l ∈ lanes, (failure addr fate l).map Prod.fst = if !commits fate l then some l else none := fun l _ => by
    unfold failure commits
    cases fate l <;> rfl
  rw [failures, List.map_filterMap, List.filterMap_congr hone, ← List.filterMap_eq_filter]
  rfl

theorem partsOf_bad : (lanes.map fun l => (l, addr l, fate l)).filterMap
    (fun x => match x.2.2 with | .ok _ => none | .error k => some (x.1, x.2.1, k)) = failures lanes addr fate := by
  rw [List.filterMap_map]
  rfl

theorem mem_foldl_addIf {α : Type} (q : α → Bool) (k : α → Nat) (xs : List α) (ps : NatSet) {j : Nat} :
    j ∈ xs.foldl (fun ps x => if q x then NatSet.add ps (k x) else ps) ps ↔ j ∈ ps ∨ ∃ x ∈ xs, q x = true ∧ j = k x := by
  induction xs generalizing ps with
  | nil => simp
  | cons x xs ih =>
    rw [List.foldl_cons, ih, List.exists_mem_cons_iff]
    cases hx : q x
    · simp
    · simp [NatSet.mem_add, or_assoc, or_left_comm]

/-- The window pages of a partition, translated or not, are those of the aligned lanes (R238, R239). -/
theorem mem_pages {j : Nat} : j ∈ (partsOf .tsp (lanes.map fun l => (l, addr l, fate l))).pages ++
      (partsOf .tsp (lanes.map fun l => (l, addr l, fate l))).badPages ↔
    ∃ l ∈ lanes, fate l ≠ .error .misaligned ∧ j = addr l / 65536 := by
  have hpages : (partsOf .tsp (lanes.map fun l => (l, addr l, fate l))).pages =
      lanes.foldl (fun ps l => if commits fate l then NatSet.add ps (addr l / 65536) else ps) [] := by
    show (lanes.map _).foldl _ _ = _
    rw [List.foldl_map]
    congr 1
    funext ps l
    unfold commits
    cases fate l <;> rfl
  have hbad : (partsOf .tsp (lanes.map fun l => (l, addr l, fate l))).badPages = (failures lanes addr fate).foldl
      (fun ps x => if x.2.2 != .misaligned then NatSet.add ps (x.2.1 / 65536) else ps) [] := by
    show ((lanes.map _).filterMap _).foldl _ _ = _
    rw [partsOf_bad]
    congr 1
    funext ps x
    cases hx : x.2.2 == Cause.misaligned <;> simp [bne, hx]
  rw [List.mem_append, hpages, hbad, mem_foldl_addIf, mem_foldl_addIf]
  constructor
  · rintro ((h | ⟨l, hl, hq, rfl⟩) | (h | ⟨x, hx, hq, rfl⟩))
    · cases h
    · exact ⟨l, hl, fun hf => by rw [commits_of_error hf] at hq; exact Bool.noConfusion hq, rfl⟩
    · cases h
    · obtain ⟨hl, ha, hf⟩ := mem_failures.mp hx
      exact ⟨x.1, hl, by simpa [hf] using hq, by rw [ha]⟩
  · rintro ⟨l, hl, hne, rfl⟩
    cases hf : fate l with
    | ok t => exact .inl (.inr ⟨l, hl, commits_of_ok hf, rfl⟩)
    | error k =>
      refine .inr (.inr ⟨(l, addr l, k), mem_failures.mpr ⟨hl, rfl, hf⟩, ?_, rfl⟩)
      rw [hf] at hne
      simpa using hne

theorem pages_of_ne_tsp (h : sp ≠ .tsp) (xs : List (Nat × Nat × Except Cause Nat)) : (partsOf sp xs).pages ++ (partsOf sp xs).badPages = [] := by
  cases sp with
  | tsp => exact absurd rfl h
  | bsm => rfl
  | priv => rfl

theorem partsOf_fault_none (h : ∀ l ∈ lanes, commits fate l = true) : (partsOf sp (lanes.map fun l => (l, addr l, fate l))).fault = none := by
  have hnone : failures lanes addr fate = [] := List.eq_nil_iff_forall_not_mem.mpr fun x hx => by
    obtain ⟨hl, -, hf⟩ := mem_failures.mp hx
    exact Bool.false_ne_true ((commits_of_error hf).symm.trans (h _ hl))
  simp only [partsOf, partsOf_bad, hnone]
  rfl

/-- The fault of a partition: MISALIGNED if a lane is misaligned, else the cause of the space, at the least lane that has the cause (R153). -/
theorem partsOf_fault {l : Nat} {k : Cause} (hsorted : lanes.Pairwise (· < ·)) (hl : l ∈ lanes) (hk : fate l = .error k)
    (hcause : ∀ j ∈ lanes, ∀ k', fate j = .error k' → k' = .misaligned ∨ k' = sp.cause)
    (hfirst : k = .misaligned ∨ ∀ j ∈ lanes, fate j ≠ .error .misaligned) (hleast : ∀ j ∈ lanes, j < l → fate j ≠ .error k) :
    (partsOf sp (lanes.map fun l => (l, addr l, fate l))).fault =
      some { cause := k, resume := LaneMask.ofLanes (lanes.filter fun l => !commits fate l), addr := addr l } := by
  have hmem : (l, addr l, k) ∈ failures lanes addr fate := mem_failures.mpr ⟨hl, rfl, hk⟩
  have hchoice : (if (failures lanes addr fate).any fun x => x.2.2 == .misaligned then Cause.misaligned else sp.cause) = k := by
    obtain rfl | hnone := hfirst
    · exact if_pos (List.any_eq_true.mpr ⟨(l, addr l, .misaligned), hmem, rfl⟩)
    · have hno : ((failures lanes addr fate).any fun x => x.2.2 == .misaligned) = false := List.any_eq_false.mpr fun x hx hmis => by
        obtain ⟨hj, -, hf⟩ := mem_failures.mp hx
        exact hnone _ hj (by rw [hf, beq_iff_eq.mp hmis])
      rw [hno, if_neg Bool.false_ne_true]
      exact ((hcause l hl k hk).resolve_left fun h => hnone l hl (h ▸ hk)).symm
  have hfind : (failures lanes addr fate).find? (fun x => x.2.2 == k) = some (l, addr l, k) := by
    have hfate : ∀ j, (failure addr fate j).any (fun x => x.2.2 == k) = true ↔ fate j = .error k := fun j => by
      unfold failure
      cases fate j <;> simp
    rw [failures, List.find?_filterMap, find?_eq_some_of_least hsorted hl ((hfate l).mpr hk) fun j hj hlt =>
      Bool.eq_false_iff.mpr fun h => hleast j hj hlt ((hfate j).mp h)]
    exact failure_eq_some_iff.mpr ⟨rfl, rfl, hk⟩
  simp only [partsOf, partsOf_bad, hchoice, hfind, map_fst_failures, Option.map_some]

end Parts

/-! ## The fates under the rules of R152 and R153 -/

section Fates

variable {l t : Nat} {k : Cause}

theorem Space.cause_ne_misaligned (sp : Space) : sp.cause ≠ .misaligned := by cases sp <;> decide

theorem laneFate_misaligned_iff : laneFate p y c sp size addr l = .error .misaligned ↔ addr l % size ≠ 0 := by
  have hne := sp.cause_ne_misaligned
  unfold laneFate
  split
  · next h => simpa using h
  · next h => cases laneTarget p y c sp size l (addr l) <;> simp_all

theorem laneFate_ok_iff : laneFate p y c sp size addr l = .ok t ↔ addr l % size = 0 ∧ laneTarget p y c sp size l (addr l) = some t := by
  unfold laneFate
  split
  · next h => simp_all
  · next h => cases laneTarget p y c sp size l (addr l) <;> simp_all

theorem laneFate_range_iff : laneFate p y c sp size addr l = .error sp.cause ↔ addr l % size = 0 ∧ laneTarget p y c sp size l (addr l) = none := by
  have hne := sp.cause_ne_misaligned.symm
  unfold laneFate
  split
  · next h => simp_all
  · next h => cases laneTarget p y c sp size l (addr l) <;> simp_all

theorem laneFate_cause (h : laneFate p y c sp size addr l = .error k) : k = .misaligned ∨ k = sp.cause := by
  by_cases halign : addr l % size = 0
  · cases ht : laneTarget p y c sp size l (addr l) with
    | none => exact .inr (Except.error.inj (h.symm.trans (laneFate_range_iff.mpr ⟨halign, ht⟩)))
    | some t => exact nomatch h.symm.trans (laneFate_ok_iff.mpr ⟨halign, ht⟩)
  · exact .inl (Except.error.inj (h.symm.trans (laneFate_misaligned_iff.mpr halign)))

end Fates

/-! ## The room in the miss queue (R239) -/

theorem missRoom_congr {ps qs : List Nat} (h : ∀ j, j ∈ ps ↔ j ∈ qs) (k : CoreRef) (asid : Nat) : missRoom y k asid ps = missRoom y k asid qs := by
  rw [missRoom, missRoom, NatSet.foldl_add_congr h]

/-- A partition finds room when its aligned lanes do; outside the window none is needed. -/
theorem missRoom_partition (y' : Sys) (k : CoreRef) (asid : Nat) : missRoom y' k asid
      ((partitionLanes p y c sp size e addr).pages ++ (partitionLanes p y c sp size e addr).badPages) = true ↔
    sp ≠ .tsp ∨ missRoom y' k asid ((e.lanes.filter fun l => addr l % size == 0).map fun l => addr l / 65536) = true := by
  by_cases hsp : sp = .tsp
  · subst hsp
    have hpages : ∀ j, j ∈ (partitionLanes p y c .tsp size e addr).pages ++ (partitionLanes p y c .tsp size e addr).badPages ↔
        j ∈ (e.lanes.filter fun l => addr l % size == 0).map fun l => addr l / 65536 := fun j => by
      rw [partitionLanes_eq]
      refine mem_pages.trans ?_
      simp only [List.mem_map, List.mem_filter, ne_eq, laneFate_misaligned_iff, not_not, beq_iff_eq, and_assoc, eq_comm (a := j)]
    rw [missRoom_congr hpages, or_iff_right (not_not.mpr rfl)]
  · rw [partitionLanes_eq, pages_of_ne_tsp hsp]
    exact iff_of_true rfl (.inl hsp)

end Sys2Proof.Machine
end

section
/-! PROOFS. Loads, stores and atomics at issue (R149 to R153, R156, R158, R159, R161): one shape, its waits, its start and its fault. -/

namespace Sys2Proof.Machine

open Sys2Proof.Claims

variable {s : State} {f : Fields} {c : Ctx} {m : Mnem} {y : Sys}

/-! ## The shape of an access by lanes -/

/-- What a load, a store or an atomic brings to the shape that they share. -/
structure Access where
  sp : Space
  size : Nat
  addr : Ctx → Nat → Nat
  /-- what is outstanding, by the committing lanes and their window pages -/
  body : Ctx → List (Nat × Nat) → List Nat → OpBody
  /-- whether the committing lanes set EFFECT (R171) -/
  effect : Ctx → List (Nat × Nat) → Bool
  /-- whether a waiting store holds it back (R158) -/
  overlaps : Ctx → List (Nat × Nat) → Bool

/-- A load (R149, R150). -/
def loadAccess (f : Fields) (sp : Space) (addr : Warp → Nat → Nat) : Access where
  sp := sp
  size := accessSize f
  addr c := addr c.w
  body _ ok pages := .load sp (loadSize f) f.d.toNat ok pages
  effect _ _ := false
  overlaps _ _ := false

/-- A store (R149, R171). -/
def storeAccess (f : Fields) (sp : Space) (addr : Warp → Nat → Nat) : Access where
  sp := sp
  size := accessSize f
  addr c := addr c.w
  body c ok pages := .store sp (accessSize f) (ok.map fun x => (x.1, x.2, storeData c.w f x.1)) pages
  effect c ok := sp == .tsp && ok.any fun x => !c.b.inDrawer (addr c.w x.1) || !c.b.inDrawer (addr c.w x.1 + accessSize f - 1)
  overlaps _ _ := false

/-- An atomic (R158, R161, R171). -/
def atomicAccess (f : Fields) (op : AtomicOp) (lane : Warp → Nat → DWord × DWord) : Access where
  sp := if f.x then .tsp else .bsm
  size := if f.w64 then 8 else 4
  addr c l := (c.w.elem f.a.toNat l).toNat
  body c ok pages := .atomic op (if f.x then .tsp else .bsm) f.w64 f.d.toNat
    (ok.map fun x => { lane := x.1, addr := x.2, b := (lane c.w x.1).1, c := (lane c.w x.1).2 }) pages
  effect _ ok := !ok.isEmpty
  overlaps c ok := storesOverlap c.w (if f.x then .tsp else .bsm) (if f.w64 then 8 else 4) ok

variable {a : Access}

/-- The partition of the lanes of an access that issues. -/
def Access.parts (a : Access) (s : State) (c : Ctx) (e : LaneMask) : Parts := partitionLanes s.phys s.sys c a.sp a.size e (a.addr c)

/-- The access of the active lanes, once no `.rel` waits. -/
def Access.go (a : Access) (m : Mnem) (f : Fields) {o : Phys} (t : Tx o) (c : Ctx) (e : LaneMask) (flag : Option Nat) : Tx o :=
  let parts := partitionLanes t.phys t.sys c a.sp a.size e (a.addr c)
  if a.overlaps c parts.ok then t.map fun y => y.hold c .overlappingStore
  else t.withRoom c a.sp a.size parts ((t.map fun y => y.setEffect c.b.id (a.effect c parts.ok)).accessLanes c m f flag parts fun ok =>
    a.body c ok parts.pages)

/-- An access by lanes. -/
def Access.op (a : Access) (m : Mnem) (f : Fields) (s : State) : Host.Outcome State Fault Refusal :=
  memoryOp m f s fun _ t c e flag => a.go m f t c e flag

/-! ## What holds it, and an empty active set -/

theorem Warp.drained_iff {w : Warp} : w.drained = true ↔ ∀ x ∈ w.ops, x.path = none ∧ x.isStore = false := by
  simp [Warp.drained]

theorem mayRelease_iff : MayRelease c f ↔ (releases f && !c.w.drained) = false := by
  rw [MayRelease, ← Warp.drained_iff, releases]
  cases c.w.drained <;> simp

section Issues

variable (h : Issues m f s c)

include h

theorem memoryOp_empty (he : c.active f.guard = 0) (k : (o : Phys) → Tx o → Ctx → LaneMask → Option Nat → Tx o) :
    memoryOp m f s k = .next { s with sys := s.sys.completedOp c id } := by
  rw [memoryOp, issue_of_issues h, if_pos (beq_iff_eq.mpr he)]
  rfl

theorem memoryOp_release (he : c.active f.guard ≠ 0) (hr : ¬ MayRelease c f) (k : (o : Phys) → Tx o → Ctx → LaneMask → Option Nat → Tx o) :
    memoryOp m f s k = .next (waiting s c .release) := by
  rw [memoryOp, issue_of_issues h, if_neg (by simpa using he), if_pos (by simpa using mt mayRelease_iff.mpr hr)]
  rfl

theorem memoryOp_go (he : c.active f.guard ≠ 0) (hr : MayRelease c f) (k : (o : Phys) → Tx o → Ctx → LaneMask → Option Nat → Tx o) :
    memoryOp m f s k = .next (k s.phys (Tx.start s) c (c.active f.guard) (flagOf m c)).state := by
  rw [memoryOp, issue_of_issues h, if_neg (by simpa using he), if_neg (by simpa using mayRelease_iff.mp hr)]
  rfl

end Issues

/-! ## What starting an access leaves of the state -/

/-- Nothing but the caches, the miss queue and the error log differs between two states of the machine (R238, R239). -/
structure Translated (y y' : Sys) : Prop where
  blocks : y'.blocks = y.blocks
  fresh : y'.fresh = y.fresh
  words : y'.words = y.words

theorem translated_setTower (y : Sys) (i : Nat) (g : Tower → Tower) : Translated y (y.setTower i g) := ⟨rfl, rfl, rfl⟩

theorem translated_fillWindow (p : Phys) (y : Sys) (k : CoreRef) (asid page : Nat) : Translated y (fillWindow p y k asid page) := by
  unfold fillWindow
  split
  · exact ⟨rfl, rfl, rfl⟩
  · split
    · unfold queueWalk
      split
      exacts [⟨rfl, rfl, rfl⟩, translated_setTower _ _ _]
    · unfold Sys.noteWindow
      split <;> split <;> exact ⟨by simp, by simp, by simp⟩

theorem translated_fillPages (p : Phys) (y : Sys) (c : Ctx) (pages : List Nat) : Translated y (fillPages p y c pages) :=
  List.foldlRecOn pages _ ⟨rfl, rfl, rfl⟩ fun _ h page _ =>
    have h' := translated_fillWindow p _ c.b.coreRef c.b.asid page
    ⟨h'.blocks.trans h.blocks, h'.fresh.trans h.fresh, h'.words.trans h.words⟩

theorem Sys.warp_setEffect (y : Sys) (i : Nat) (on : Bool) (q : WarpRef) : (y.setEffect i on).warp q = y.warp q := by
  cases on with
  | false => rfl
  | true => exact y.warp_setBlock i (g := fun b => { b with effect := true }) (fun _ => rfl) (fun _ => rfl) q

theorem Sys.effect_setEffect (y : Sys) (i : Nat) (on : Bool) : ((y.setEffect i on).block i).map Block.effect = (y.block i).map fun b => b.effect || on := by
  cases on with
  | false => simp [Sys.setEffect]
  | true =>
    rw [Sys.setEffect, if_pos rfl, Sys.block_setBlock_same y i (fun b => { b with effect := true }) fun _ => rfl, Option.map_map]
    simp [Function.comp_def]

theorem Sys.effect_setWarp (y : Sys) (r : WarpRef) (g : Warp → Warp) :
    ((y.setWarp r g).block r.block).map Block.effect = (y.block r.block).map Block.effect := by
  rw [Sys.block_setWarp_same, Option.map_map]
  rfl

/-- The state from which an access adds its instruction: its effect set, and its window pages translated. -/
def Access.before (a : Access) (s : State) (c : Ctx) (e : LaneMask) : Sys :=
  fillPages s.phys (s.sys.setEffect c.b.id (a.effect c (a.parts s c e).ok)) c ((a.parts s c e).pages ++ (a.parts s c e).badPages)

section Before

variable (hc : s.sys.issuing = some c) (e : LaneMask)

theorem Access.before_warp (a : Access) (s : State) (c : Ctx) (e : LaneMask) (q : WarpRef) : (a.before s c e).warp q = s.sys.warp q :=
  (Sys.warp_congr (Sys.block_congr (translated_fillPages _ _ _ _).blocks) q).trans (Sys.warp_setEffect _ _ _ q)

theorem Access.before_fresh (a : Access) (s : State) (c : Ctx) (e : LaneMask) : (a.before s c e).fresh = s.sys.fresh := by
  refine (translated_fillPages _ _ _ _).fresh.trans ?_
  unfold Sys.setEffect
  split <;> rfl

theorem Access.before_words (a : Access) (s : State) (c : Ctx) (e : LaneMask) : (a.before s c e).words = s.sys.words := by
  refine (translated_fillPages _ _ _ _).words.trans ?_
  unfold Sys.setEffect
  split <;> rfl

include hc

theorem Access.before_effect (a : Access) : ((a.before s c e).block c.ref.block).map Block.effect = some (c.b.effect || a.effect c (a.parts s c e).ok) := by
  obtain ⟨-, hb, -⟩ := Sys.issuing_some hc
  rw [Access.before, Sys.block_congr (translated_fillPages _ _ _ _).blocks, Ctx.block_id hc, Sys.effect_setEffect, hb]
  rfl

end Before

/-! ## The access of the active lanes -/

section Outcome

variable (h : Issues m f s c) (he : c.active f.guard ≠ 0) (hr : MayRelease c f)

include h he hr

variable (hover : a.overlaps c (a.parts s c (c.active f.guard)).ok = false)

include hover

theorem Access.op_eq : a.op m f s = .next (Tx.withRoom (Tx.start s) c a.sp a.size (a.parts s c (c.active f.guard))
    (((Tx.start s).map fun y => y.setEffect c.b.id (a.effect c (a.parts s c (c.active f.guard)).ok)).accessLanes c m f (flagOf m c)
      (a.parts s c (c.active f.guard)) fun ok => a.body c ok (a.parts s c (c.active f.guard)).pages)).state := by
  rw [Access.op, memoryOp_go h he hr]
  exact congrArg (fun t => Host.Outcome.next (Tx.state t)) (if_neg (Bool.eq_false_iff.mp hover))

theorem Access.op_translation (hroom : missRoom s.sys c.b.coreRef c.b.asid
      ((a.parts s c (c.active f.guard)).pages ++ (a.parts s c (c.active f.guard)).badPages) = false) :
    a.op m f s = .next (waiting s c .translation) := by
  rw [Access.op_eq h he hr hover, Tx.withRoom, Tx.start_sys, hroom]
  rfl

variable (hroom : missRoom s.sys c.b.coreRef c.b.asid
  ((a.parts s c (c.active f.guard)).pages ++ (a.parts s c (c.active f.guard)).badPages) = true)

include hroom

theorem Access.op_operands (hagain : awaitsOperands s.phys s.sys c.b c.w.ops
      ((a.parts s c (c.active f.guard)).ok.map fun x => (a.sp, x.2, a.size)) = true) :
    a.op m f s = .next (waiting s c .restoredMma) := by
  rw [Access.op_eq h he hr hover, Tx.withRoom, Tx.start_sys, Tx.start_phys, hroom, hagain]
  rfl

variable (hagain : awaitsOperands s.phys s.sys c.b c.w.ops ((a.parts s c (c.active f.guard)).ok.map fun x => (a.sp, x.2, a.size)) = false)

include hagain

/-- The access of lanes that all commit starts. -/
theorem Access.op_starts (hnone : (a.parts s c (c.active f.guard)).fault = none) (hok : (a.parts s c (c.active f.guard)).ok ≠ []) :
    ∃ t, a.op m f s = .next t ∧
      Started s t c m (f.orderCode % 2 == 1) (a.body c (a.parts s c (c.active f.guard)).ok (a.parts s c (c.active f.guard)).pages) ∧
      (t.sys.block c.ref.block).map Block.effect = some (c.b.effect || a.effect c (a.parts s c (c.active f.guard)).ok) := by
  have hstate : a.op m f s = .next { phys := s.phys, sys := ((a.before s c (c.active f.guard)).addOp c m (flagOf m c) (acquires f)
      (a.body c (a.parts s c (c.active f.guard)).ok (a.parts s c (c.active f.guard)).pages)).passOp c } := by
    rw [Access.op_eq h he hr hover, Tx.withRoom, Tx.start_sys, Tx.start_phys, hroom, hagain, Tx.accessLanes, hnone, List.isEmpty_eq_false_iff.mpr hok]
    rfl
  refine ⟨_, hstate, started_addOp h.1 (a.before_warp s c _) (a.before_fresh s c _) (a.before_words s c _) _ _, ?_⟩
  rw [Sys.passOp, Sys.effect_setWarp, Sys.addOp_eq, Sys.effect_setWarp]
  exact a.before_effect h.1 _

/-- Where some lanes fail, the others start and the instruction traps (R153). -/
theorem Access.op_faults {i : TrapInfo} (hsome : (a.parts s c (c.active f.guard)).fault = some i) : ∃ t, a.op m f s = raised t c i ∧ t.phys = s.phys ∧
    (∀ q, q ≠ c.ref → t.sys.warp q = s.sys.warp q) ∧
    ((a.parts s c (c.active f.guard)).ok = [] → t.sys.warp c.ref = some c.w) ∧
    ((a.parts s c (c.active f.guard)).ok ≠ [] → t.sys.warp c.ref = some (withOp s c m (f.orderCode % 2 == 1)
      (a.body c (a.parts s c (c.active f.guard)).ok (a.parts s c (c.active f.guard)).pages))) := by
  have hwarp := a.before_warp s c (c.active f.guard)
  by_cases hok : (a.parts s c (c.active f.guard)).ok = []
  · refine ⟨{ phys := s.phys, sys := a.before s c (c.active f.guard) }, ?_, rfl, fun q _ => hwarp q,
      fun _ => (hwarp _).trans (Sys.warp_of_issuing h.1), fun hne => absurd hok hne⟩
    rw [Access.op_eq h he hr hover, Tx.withRoom, Tx.start_sys, Tx.start_phys, hroom, hagain, Tx.accessLanes, hsome, List.isEmpty_iff.mpr hok]
    rfl
  · refine ⟨{ phys := s.phys, sys := ((a.before s c (c.active f.guard)).addOp c m (flagOf m c) (acquires f)
        (a.body c (a.parts s c (c.active f.guard)).ok (a.parts s c (c.active f.guard)).pages)) }, ?_, rfl,
      fun q hq => warp_addOp_other hwarp _ _ hq, fun hnil => absurd hnil hok,
      fun _ => warp_addOp_own h.1 hwarp (a.before_fresh s c _) _ _⟩
    rw [Access.op_eq h he hr hover, Tx.withRoom, Tx.start_sys, Tx.start_phys, hroom, hagain, Tx.accessLanes, hsome, List.isEmpty_eq_false_iff.mpr hok]
    rfl

end Outcome

end Sys2Proof.Machine
end

section
/-! PROOFS. LocalAccessesStart (O23): loads, stores, atomics and LDPERM at issue, by the laws of `Access`. -/

namespace Sys2Proof.Machine

open Sys2Proof.Claims

variable {s : State} {f : Fields} {c : Ctx} {m : Mnem} {a : Access} {sp : Space} {i : Instr}

/-! ## Targets, overlaps and operands -/

theorem laneTarget_eq_none_iff {p : Phys} {y : Sys} {size l x : Nat} : laneTarget p y c sp size l x = none ↔ match sp with
    | .bsm => c.b.bsmBytes < x + size
    | .priv => c.b.hdr.lpriv < x + size
    | .tsp => translateWindow p y c.b.coreRef c.b.asid x = none := by
  cases sp <;> simp [laneTarget]

/-- The target of a lane in range, by its space (R152). -/
theorem laneTarget_of_inRange {p : Phys} {y : Sys} {size l x t : Nat}
    (h : match sp with
      | .bsm => t = x
      | .priv => t = 512 * l + x
      | .tsp => translateWindow p y c.b.coreRef c.b.asid x = some t)
    (hne : laneTarget p y c sp size l x ≠ none) : laneTarget p y c sp size l x = some t := by
  cases sp with
  | bsm => subst h; simpa [laneTarget] using hne
  | priv => subst h; simpa [laneTarget] using hne
  | tsp => exact h

theorem storesOverlap_iff {n : Nat} {targets : List (Nat × Nat)} : storesOverlap c.w sp n targets = true ↔ ∃ x ∈ targets, Overlaps c sp x.2 n := by
  have hstores : ∀ els, els ∈ storesOf c.w.ops sp ↔
      ∃ x ∈ c.w.ops, ∃ k lanes pages, x.body = .store sp k lanes pages ∧ storeElems k lanes = els := fun els => by
    rw [storesOf, List.mem_filterMap]
    refine exists_congr fun x => and_congr_right fun _ => ?_
    cases x.body <;> simp [and_assoc]
  simp only [storesOverlap, List.any_eq_true, hstores, Overlaps, rangesMeet, Bool.and_eq_true, decide_eq_true_eq]
  constructor
  · rintro ⟨els, ⟨x, hx, k, lanes, pages, hbody, rfl⟩, u, hu, y, hy, hmeet⟩
    obtain ⟨v, hv, rfl⟩ := List.mem_map.mp hu
    exact ⟨y, hy, x, hx, k, lanes, pages, hbody, v, hv, hmeet⟩
  · rintro ⟨y, hy, x, hx, k, lanes, pages, hbody, v, hv, hmeet⟩
    exact ⟨_, ⟨x, hx, k, lanes, pages, hbody, rfl⟩, _, List.mem_map_of_mem hv, y, hy, hmeet⟩

theorem awaitsOperands_eq_false_iff {p : Phys} {y : Sys} {b : Block} {ops : List Op} {xs : List (Space × Nat × Nat)} :
    awaitsOperands p y b ops xs = false ↔ ∀ x ∈ xs, awaitsOperands p y b ops [x] = false := by
  simp only [awaitsOperands, List.any_eq_false, List.any_cons, List.any_nil, Bool.or_false, Bool.not_eq_true]
  exact ⟨fun h x hx u hu => h u hu x hx, fun h u hu x hx => h x hx u hu⟩

theorem accessSize_pos (f : Fields) : 0 < accessSize f := by
  unfold accessSize
  split
  · split <;> decide
  all_goals decide

theorem Block.inDrawer_range {b : Block} {x n : Nat} (hn : 0 < n) :
    (!b.inDrawer x || !b.inDrawer (x + n - 1)) = true ↔ ¬ (b.drawer ≤ x ∧ x + n ≤ b.drawer + b.drawerSize) := by
  simp only [Block.inDrawer, Bool.or_eq_true, Bool.not_eq_true', Bool.and_eq_false_iff, decide_eq_false_iff_not]
  omega

/-! ## An access whose lanes all commit -/

section Commit

variable {target : Nat → Nat} (hfate : ∀ l, Active c f l → laneFate s.phys s.sys c a.sp a.size (a.addr c) l = .ok (target l))

include hfate

theorem Access.parts_ok : (a.parts s c (c.active f.guard)).ok = (c.active f.guard).lanes.map fun l => (l, target l) := by
  rw [Access.parts, partitionLanes_eq, partsOf_ok (target := target) fun l hl t ht => ?_, List.filter_eq_self.mpr fun l hl => ?_]
  · exact commits_of_ok (hfate l (mem_lanes_active.mp hl))
  · exact Except.ok.inj (ht.symm.trans (hfate l (mem_lanes_active.mp hl)))

theorem Access.parts_fault : (a.parts s c (c.active f.guard)).fault = none := by
  rw [Access.parts, partitionLanes_eq]
  exact partsOf_fault_none fun l hl => commits_of_ok (hfate l (mem_lanes_active.mp hl))

theorem Access.room_iff : missRoom s.sys c.b.coreRef c.b.asid
      ((a.parts s c (c.active f.guard)).pages ++ (a.parts s c (c.active f.guard)).badPages) = true ↔
    a.sp ≠ .tsp ∨ missRoom s.sys c.b.coreRef c.b.asid ((c.active f.guard).lanes.map fun l => a.addr c l / 65536) = true := by
  rw [Access.parts, missRoom_partition, List.filter_eq_self.mpr fun l hl => ?_]
  obtain ⟨halign, -⟩ := laneFate_ok_iff.mp (hfate l (mem_lanes_active.mp hl))
  exact beq_iff_eq.mpr halign

/-- An access whose active lanes all commit: it waits for the miss queue, then for the MMAs, then starts. -/
theorem Access.commits_all (h : Issues m f s c) (he : c.active f.guard ≠ 0) (hr : MayRelease c f) (hover : ∀ ok, a.overlaps c ok = false) :
    let room := a.sp ≠ .tsp ∨ missRoom s.sys c.b.coreRef c.b.asid ((c.active f.guard).lanes.map fun l => a.addr c l / 65536) = true
    let again := awaitsOperands s.phys s.sys c.b c.w.ops ((c.active f.guard).lanes.map fun l => (a.sp, target l, a.size))
    let ok := (c.active f.guard).lanes.map fun l => (l, target l)
    (¬ room → a.op m f s = .next (waiting s c .translation)) ∧
    (room → again = true → a.op m f s = .next (waiting s c .restoredMma)) ∧
    (room → again = false → ∃ t pages, a.op m f s = .next t ∧ Started s t c m (f.orderCode % 2 == 1) (a.body c ok pages) ∧
      (t.sys.block c.ref.block).map Block.effect = some (c.b.effect || a.effect c ok)) := by
  have hok := Access.parts_ok hfate
  have hroom := Access.room_iff hfate
  have hagain : (a.parts s c (c.active f.guard)).ok.map (fun x => (a.sp, x.2, a.size)) = (c.active f.guard).lanes.map fun l => (a.sp, target l, a.size) := by
    rw [hok, List.map_map]
    rfl
  refine ⟨fun hno => ?_, fun hyes hwait => ?_, fun hyes hgo => ?_⟩
  · exact Access.op_translation h he hr (hover _) (Bool.eq_false_iff.mpr (mt hroom.mp hno))
  · exact Access.op_operands h he hr (hover _) (hroom.mpr hyes) (hagain ▸ hwait)
  · have hne : (a.parts s c (c.active f.guard)).ok ≠ [] := by
      rw [hok]
      exact mt List.map_eq_nil_iff.mp (LaneMask.lanes_ne_nil he)
    obtain ⟨t, ht, hstarted, heffect⟩ := Access.op_starts h he hr (hover _) (hroom.mpr hyes) (hagain ▸ hgo) (Access.parts_fault hfate) hne
    rw [hok] at hstarted heffect
    exact ⟨t, _, ht, hstarted, heffect⟩

end Commit

/-- The effect bit after an access, when the one that it sets is known. -/
theorem effect_iff {o : Option Bool} {old new : Bool} {P : Prop} (h : o = some (old || new)) (hnew : new = true ↔ P) :
    o = some true ↔ old = true ∨ P := by
  rw [h, Option.some_inj, Bool.or_eq_true, hnew]

theorem storeAccess_effect_tsp {addr : Warp → Nat → Nat} {target : Nat → Nat} :
    (storeAccess f .tsp addr).effect c ((c.active f.guard).lanes.map fun l => (l, target l)) = true ↔
      ∃ l, Active c f l ∧ ¬ (c.b.drawer ≤ addr c.w l ∧ addr c.w l + accessSize f ≤ c.b.drawer + c.b.drawerSize) := by
  simp only [storeAccess, beq_self_eq_true, Bool.true_and, List.any_map, List.any_eq_true, Function.comp_apply, mem_lanes_active,
    Block.inDrawer_range (accessSize_pos f)]

end Sys2Proof.Machine
end

section
/-! PROOFS. LocalAccessesStart (O23), its three parts. -/

namespace Sys2Proof.Machine

open Sys2Proof.Claims

variable {s : State} {f : Fields} {c : Ctx} {m : Mnem} {a : Access} {sp : Space} {i : Instr}

/-! ## AccessesStart -/

/-- The access of a load or a store. -/
def localAccess (store : Bool) (f : Fields) (sp : Space) (addr : Warp → Nat → Nat) : Access :=
  if store then storeAccess f sp addr else loadAccess f sp addr

theorem localAccess_sp (store : Bool) (addr : Warp → Nat → Nat) : (localAccess store f sp addr).sp = sp := by cases store <;> rfl

theorem localAccess_size (store : Bool) (addr : Warp → Nat → Nat) : (localAccess store f sp addr).size = accessSize f := by cases store <;> rfl

theorem localAccess_addr (store : Bool) (addr : Warp → Nat → Nat) : (localAccess store f sp addr).addr c = addr c.w := by cases store <;> rfl

theorem localAccess_overlaps (store : Bool) (addr : Warp → Nat → Nat) (ok : List (Nat × Nat)) :
    (localAccess store f sp addr).overlaps c ok = false := by cases store <;> rfl

theorem localAccess_body (store : Bool) (addr : Warp → Nat → Nat) (ok : List (Nat × Nat)) (pages : List Nat) :
    (localAccess store f sp addr).body c ok pages = accessBody store c f sp ok pages := by cases store <;> rfl

/-- Only a store into the window sets EFFECT, for a lane that stores outside the own drawer (R171). -/
theorem localAccess_effect (store : Bool) (addr : Warp → Nat → Nat) (target : Nat → Nat) :
    (localAccess store f sp addr).effect c ((c.active f.guard).lanes.map fun l => (l, target l)) = true ↔
      (store = true ∧ sp = .tsp) ∧ ∃ l, Active c f l ∧ ¬ (c.b.drawer ≤ addr c.w l ∧ addr c.w l + accessSize f ≤ c.b.drawer + c.b.drawerSize) := by
  cases store with
  | false => exact iff_of_false Bool.false_ne_true fun h => Bool.false_ne_true h.1.1
  | true =>
    by_cases hsp : sp = .tsp
    · subst hsp
      exact storeAccess_effect_tsp.trans (and_iff_right ⟨rfl, rfl⟩).symm
    · refine iff_of_false (fun h => hsp ?_) fun h => hsp h.1.2
      exact beq_iff_eq.mp (Bool.and_eq_true _ _ ▸ h : (sp == .tsp) = true ∧ _).1

/-- A load or store (R149 to R153): with no active lane it completes, `.rel` holds it, and lanes that all commit start. -/
theorem localAccess_start (m : Mnem) (i : Instr) (sp : Space) (store : Bool) (addr : Warp → Nat → Nat) (target : Nat → Nat)
    (hexec : exec i s = (localAccess store f sp addr).op m f s)
    (hstt : m = .stt ↔ store = true ∧ sp = .tsp) (h : Issues m f s c) :
    (c.active f.guard = 0 → exec i s = .next { s with sys := s.sys.completedOp c id }) ∧
    (c.active f.guard ≠ 0 → ¬ MayRelease c f → exec i s = .next (waiting s c .release)) ∧
    (c.active f.guard ≠ 0 → MayRelease c f →
      (∀ l, Active c f l → addr c.w l % accessSize f = 0 ∧ laneTarget s.phys s.sys c sp (accessSize f) l (addr c.w l) = some (target l)) →
      let room := sp ≠ .tsp ∨ missRoom s.sys c.b.coreRef c.b.asid ((c.active f.guard).lanes.map fun l => addr c.w l / 65536) = true
      let again := awaitsOperands s.phys s.sys c.b c.w.ops ((c.active f.guard).lanes.map fun l => (sp, target l, accessSize f))
      (¬ room → exec i s = .next (waiting s c .translation)) ∧
      (room → again = true → exec i s = .next (waiting s c .restoredMma)) ∧
      (room → again = false → ∃ t pages, exec i s = .next t ∧
        Started s t c m (f.orderCode % 2 == 1) (accessBody store c f sp ((c.active f.guard).lanes.map fun l => (l, target l)) pages) ∧
        ((t.sys.block c.ref.block).map Block.effect = some true ↔ c.b.effect = true ∨ (m = .stt ∧
          ∃ l, Active c f l ∧ ¬ (c.b.drawer ≤ addr c.w l ∧ addr c.w l + accessSize f ≤ c.b.drawer + c.b.drawerSize))))) := by
  rw [hexec]
  refine ⟨fun he => memoryOp_empty h he _, fun he hr => memoryOp_release h he hr _, fun he hr hlanes => ?_⟩
  have hstart := Access.commits_all (a := localAccess store f sp addr) (target := target)
    (fun l hl => by
      rw [localAccess_sp, localAccess_size, localAccess_addr]
      exact laneFate_ok_iff.mpr (hlanes l hl)) h he hr (localAccess_overlaps store addr)
  rw [localAccess_sp, localAccess_size, localAccess_addr] at hstart
  obtain ⟨hroom, hagain, hgo⟩ := hstart
  refine ⟨hroom, hagain, fun hyes hno => ?_⟩
  obtain ⟨t, pages, ht, hstarted, heffect⟩ := hgo hyes hno
  rw [localAccess_body] at hstarted
  exact ⟨t, pages, ht, hstarted, effect_iff heffect ((localAccess_effect store addr target).trans (and_congr_left' hstt.symm))⟩

theorem laneTarget_bsm_of {p : Phys} {y : Sys} {size l x t : Nat} (h : t = x ∧ x + size ≤ c.b.bsmBytes) : laneTarget p y c .bsm size l x = some t := by
  rw [laneTarget, if_pos h.2, h.1]

theorem laneTarget_priv_of {p : Phys} {y : Sys} {size l x t : Nat} (h : t = 512 * l + x ∧ x + size ≤ c.b.hdr.lpriv) :
    laneTarget p y c .priv size l x = some t := by
  rw [laneTarget, if_pos h.2, h.1]


theorem accessesStart : AccessesStart := by
  intro s f c i target hi h
  simp only [List.mem_cons, List.not_mem_nil, or_false] at hi
  rcases hi with rfl | rfl | rfl | rfl | rfl | rfl
  · obtain ⟨hempty, hrel, hgo⟩ := localAccess_start .ldb (.ldb f) .bsm false (fun w => baseAddress w f) target rfl (by decide) h
    exact ⟨hempty, hrel, fun he hr hl => hgo he hr fun l ha => ⟨(hl l ha).1, laneTarget_bsm_of (hl l ha).2⟩⟩
  · obtain ⟨hempty, hrel, hgo⟩ := localAccess_start .stb (.stb f) .bsm true (fun w => baseAddress w f) target rfl (by decide) h
    exact ⟨hempty, hrel, fun he hr hl => hgo he hr fun l ha => ⟨(hl l ha).1, laneTarget_bsm_of (hl l ha).2⟩⟩
  · obtain ⟨hempty, hrel, hgo⟩ := localAccess_start .ldl (.ldl f) .priv false (fun w => baseAddress w f) target rfl (by decide) h
    exact ⟨hempty, hrel, fun he hr hl => hgo he hr fun l ha => ⟨(hl l ha).1, laneTarget_priv_of (hl l ha).2⟩⟩
  · obtain ⟨hempty, hrel, hgo⟩ := localAccess_start .stl (.stl f) .priv true (fun w => baseAddress w f) target rfl (by decide) h
    exact ⟨hempty, hrel, fun he hr hl => hgo he hr fun l ha => ⟨(hl l ha).1, laneTarget_priv_of (hl l ha).2⟩⟩
  · exact localAccess_start .ldt (.ldt f) .tsp false (fun w => rowAddress w f) target rfl (by decide) h
  · exact localAccess_start .stt (.stt f) .tsp true (fun w => rowAddress w f) target rfl (by decide) h

end Sys2Proof.Machine
end

section
/-! PROOFS. LocalAccessesStart (O23): the lanes that fail (R153), and LDPERM (R126, R221 (b)). -/

namespace Sys2Proof.Machine

open Sys2Proof.Claims

variable {s : State} {f : Fields} {c : Ctx} {m : Mnem} {a : Access}

/-! ## AccessFaults -/

section Faults

variable {far : Nat → Prop} {target : Nat → Nat}
  (hfar : ∀ l, Active c f l → (laneTarget s.phys s.sys c a.sp a.size l (a.addr c l) = none ↔ far l))
  (htarget : ∀ l, Active c f l → ¬ a.addr c l % a.size ≠ 0 → ¬ far l → laneTarget s.phys s.sys c a.sp a.size l (a.addr c l) = some (target l))

include hfar htarget

theorem Access.commits_iff {l : Nat} (hl : Active c f l) :
    commits (laneFate s.phys s.sys c a.sp a.size (a.addr c)) l = true ↔ ¬ (a.addr c l % a.size ≠ 0 ∨ far l) := by
  by_cases hodd : a.addr c l % a.size ≠ 0
  · rw [commits_of_error (laneFate_misaligned_iff.mpr hodd)]
    exact iff_of_false Bool.false_ne_true fun h => h (.inl hodd)
  · by_cases hf : far l
    · rw [commits_of_error (laneFate_range_iff.mpr ⟨not_not.mp hodd, (hfar l hl).mpr hf⟩)]
      exact iff_of_false Bool.false_ne_true fun h => h (.inr hf)
    · rw [commits_of_ok (laneFate_ok_iff.mpr ⟨not_not.mp hodd, htarget l hl hodd hf⟩)]
      exact iff_of_true rfl fun h => h.elim hodd hf

theorem Access.parts_ok_eq : (a.parts s c (c.active f.guard)).ok =
    ((c.active f.guard).lanes.filter (commits (laneFate s.phys s.sys c a.sp a.size (a.addr c)))).map fun l => (l, target l) := by
  rw [Access.parts, partitionLanes_eq]
  refine partsOf_ok fun l hl t ht => ?_
  have hact := mem_lanes_active.mp hl
  obtain ⟨halign, hsome⟩ := laneFate_ok_iff.mp ht
  have hnear : ¬ far l := fun hf => nomatch hsome.symm.trans ((hfar l hact).mpr hf)
  exact Option.some.inj (hsome.symm.trans (htarget l hact (not_not.mpr halign) hnear))

theorem Access.mem_parts_ok {x : Nat × Nat} (hx : x ∈ (a.parts s c (c.active f.guard)).ok) :
    ∃ l, (Active c f l ∧ ¬ a.addr c l % a.size ≠ 0 ∧ ¬ far l) ∧ x = (l, target l) := by
  rw [Access.parts_ok_eq hfar htarget] at hx
  obtain ⟨l, hl, rfl⟩ := List.mem_map.mp hx
  obtain ⟨hmem, hcommits⟩ := List.mem_filter.mp hl
  have hact := mem_lanes_active.mp hmem
  exact ⟨l, ⟨hact, not_or.mp ((Access.commits_iff hfar htarget hact).mp hcommits)⟩, rfl⟩

omit htarget in
/-- The fault of the partition, at the least lane that has its cause. -/
theorem Access.parts_fault_some {bad : Nat} (hbad : Active c f bad)
    (hfirst : (a.addr c bad % a.size ≠ 0 ∧ ∀ l, Active c f l → l < bad → ¬ a.addr c l % a.size ≠ 0) ∨
      (far bad ∧ ∀ l, Active c f l → ¬ a.addr c l % a.size ≠ 0 ∧ (l < bad → ¬ far l))) :
    (a.parts s c (c.active f.guard)).fault = some
      { cause := if a.addr c bad % a.size ≠ 0 then .misaligned else a.sp.cause, addr := a.addr c bad,
        resume := LaneMask.ofLanes ((c.active f.guard).lanes.filter fun l => !commits (laneFate s.phys s.sys c a.sp a.size (a.addr c)) l) } := by
  have hmem := mem_lanes_active.mpr hbad
  have hcause : ∀ j ∈ (c.active f.guard).lanes, ∀ k, laneFate s.phys s.sys c a.sp a.size (a.addr c) j = .error k → k = .misaligned ∨ k = a.sp.cause :=
    fun j _ k hk => laneFate_cause hk
  rw [Access.parts, partitionLanes_eq]
  obtain ⟨hodd, hleast⟩ | ⟨hf, hall⟩ := hfirst
  · rw [if_pos hodd]
    exact partsOf_fault (LaneMask.pairwise_lanes _) hmem (laneFate_misaligned_iff.mpr hodd) hcause (.inl rfl) fun j hj hlt hk =>
      hleast j (mem_lanes_active.mp hj) hlt (laneFate_misaligned_iff.mp hk)
  · rw [if_neg (hall bad hbad).1]
    have hrange := laneFate_range_iff.mpr ⟨not_not.mp (hall bad hbad).1, (hfar bad hbad).mpr hf⟩
    refine partsOf_fault (LaneMask.pairwise_lanes _) hmem hrange hcause (.inr fun j hj hk => ?_) fun j hj hlt hk => ?_
    · exact (hall j (mem_lanes_active.mp hj)).1 (laneFate_misaligned_iff.mp hk)
    · have hact := mem_lanes_active.mp hj
      exact (hall j hact).2 hlt ((hfar j hact).mp (laneFate_range_iff.mp hk).2)

/-- An access of which some lanes fail (R153): they resume, the access traps at the least lane of the cause, and the others start. -/
theorem Access.faults {bad : Nat} (h : Issues m f s c) (hr : MayRelease c f)
    (hover : ∀ ok, (∀ x ∈ ok, ∃ l, (Active c f l ∧ ¬ a.addr c l % a.size ≠ 0 ∧ ¬ far l) ∧ x = (l, target l)) → a.overlaps c ok = false)
    (hagain : ∀ l, Active c f l → ¬ a.addr c l % a.size ≠ 0 → ¬ far l → awaitsOperands s.phys s.sys c.b c.w.ops [(a.sp, target l, a.size)] = false)
    (hroom : a.sp = .tsp → missRoom s.sys c.b.coreRef c.b.asid
      (((c.active f.guard).lanes.filter fun l => a.addr c l % a.size == 0).map fun l => a.addr c l / 65536) = true)
    (hbad : Active c f bad)
    (hfirst : (a.addr c bad % a.size ≠ 0 ∧ ∀ l, Active c f l → l < bad → ¬ a.addr c l % a.size ≠ 0) ∨
      (far bad ∧ ∀ l, Active c f l → ¬ a.addr c l % a.size ≠ 0 ∧ (l < bad → ¬ far l))) :
    ∃ (resume : LaneMask) (t : State), (∀ l, l < 64 → (resume.getLsbD l = true ↔ Active c f l ∧ (a.addr c l % a.size ≠ 0 ∨ far l))) ∧
      a.op m f s = raised t c { cause := if a.addr c bad % a.size ≠ 0 then .misaligned else a.sp.cause, resume := resume, addr := a.addr c bad } ∧
      t.phys = s.phys ∧ (∀ q, q ≠ c.ref → t.sys.warp q = s.sys.warp q) ∧
      let ok := ((c.active f.guard).lanes.filter fun l => !resume.getLsbD l).map fun l => (l, target l)
      (ok = [] → t.sys.warp c.ref = some c.w) ∧
      (ok ≠ [] → ∃ pages, t.sys.warp c.ref = some (withOp s c m (f.orderCode % 2 == 1) (a.body c ok pages))) := by
  have he : c.active f.guard ≠ 0 := fun h0 => by
    obtain ⟨-, hbit⟩ := hbad
    rw [h0] at hbit
    simp at hbit
  have hmem := fun x => Access.mem_parts_ok hfar htarget (x := x)
  have hwait : awaitsOperands s.phys s.sys c.b c.w.ops ((a.parts s c (c.active f.guard)).ok.map fun x => (a.sp, x.2, a.size)) = false :=
    awaitsOperands_eq_false_iff.mpr fun x hx => by
      obtain ⟨y, hy, rfl⟩ := List.mem_map.mp hx
      obtain ⟨l, ⟨hact, halign, hnear⟩, rfl⟩ := hmem y hy
      exact hagain l hact halign hnear
  have hmiss : missRoom s.sys c.b.coreRef c.b.asid ((a.parts s c (c.active f.guard)).pages ++ (a.parts s c (c.active f.guard)).badPages) = true :=
    (missRoom_partition _ _ _).mpr ((em (a.sp = .tsp)).symm.imp_right hroom)
  obtain ⟨t, hop, hphys, hother, hnil, hcons⟩ := Access.op_faults h he hr (hover _ hmem) hmiss hwait
    (Access.parts_fault_some hfar hbad hfirst)
  let fate := laneFate s.phys s.sys c a.sp a.size (a.addr c)
  have hresume : ∀ l, l < 64 → ((LaneMask.ofLanes ((c.active f.guard).lanes.filter fun l => !commits fate l)).getLsbD l = true ↔
      Active c f l ∧ (a.addr c l % a.size ≠ 0 ∨ far l)) := fun l hl => by
    rw [LaneMask.getLsbD_ofLanes _ hl, decide_eq_true_eq, List.mem_filter, mem_lanes_active]
    refine and_congr_right fun hact => ?_
    rw [Bool.not_eq_true', ← Bool.not_eq_true, Access.commits_iff hfar htarget hact, not_not]
  have hok : (a.parts s c (c.active f.guard)).ok = ((c.active f.guard).lanes.filter fun l =>
      !(LaneMask.ofLanes ((c.active f.guard).lanes.filter fun l => !commits fate l)).getLsbD l).map fun l => (l, target l) := by
    rw [Access.parts_ok_eq hfar htarget]
    refine congrArg (List.map _) (List.filter_congr fun l hl => ?_)
    have hact := mem_lanes_active.mp hl
    rw [Bool.eq_iff_iff, Bool.not_eq_true', ← Bool.not_eq_true, hresume l hact.1, Access.commits_iff hfar htarget hact, and_iff_right hact]
  rw [hok] at hnil hcons
  exact ⟨_, t, hresume, hop, hphys, hother, hnil, fun hne => ⟨_, hcons hne⟩⟩

end Faults

/-! ## The failing lanes of each instruction -/

/-- The range rule of a space fails for an access (R152). -/
def OutOfRange (s : State) (c : Ctx) (sp : Space) (size x : Nat) : Prop :=
  match sp with
  | .bsm => c.b.bsmBytes < x + size
  | .priv => c.b.hdr.lpriv < x + size
  | .tsp => translateWindow s.phys s.sys c.b.coreRef c.b.asid x = none

/-- The target of an address in range (R152). -/
def IsTarget (s : State) (c : Ctx) (sp : Space) (l x t : Nat) : Prop :=
  match sp with
  | .bsm => t = x
  | .priv => t = 512 * l + x
  | .tsp => translateWindow s.phys s.sys c.b.coreRef c.b.asid x = some t

/-- What starts for the lanes that commit: a load or a store of them, or an atomic. -/
def StartedBody (m : Mnem) (c : Ctx) (f : Fields) (sp : Space) (ok : List (Nat × Nat)) (body : OpBody) : Prop :=
  (m ∉ [Mnem.atom, .atomc, .atomf] → ∃ pages, body = accessBody (m ∈ [Mnem.stb, .stl, .stt]) c f sp ok pages) ∧
  (m ∈ [Mnem.atom, .atomc, .atomf] → ∃ op lanes pages, body = .atomic op sp f.w64 f.d.toNat lanes pages ∧ lanes.map (fun y => (y.lane, y.addr)) = ok)

section Instructions

variable {sp : Space} {size : Nat} {addr target : Nat → Nat} {bad : Nat}
  (hsize : a.size = size) (hsp : a.sp = sp) (haddr : a.addr c = addr)
  (h : Issues m f s c) (hr : MayRelease c f)
  (htarget : ∀ l, Active c f l → ¬ addr l % size ≠ 0 → ¬ OutOfRange s c sp size (addr l) → IsTarget s c sp l (addr l) (target l))
  (hover : ∀ ok, (∀ x ∈ ok, ∃ l, (Active c f l ∧ ¬ addr l % size ≠ 0 ∧ ¬ OutOfRange s c sp size (addr l)) ∧ x = (l, target l)) →
    a.overlaps c ok = false)
  (hagain : ∀ l, Active c f l → ¬ addr l % size ≠ 0 → ¬ OutOfRange s c sp size (addr l) →
    awaitsOperands s.phys s.sys c.b c.w.ops [(sp, target l, size)] = false)
  (hroom : sp = .tsp → missRoom s.sys c.b.coreRef c.b.asid
    (((c.active f.guard).lanes.filter fun l => addr l % size == 0).map fun l => addr l / 65536) = true)
  (hbad : Active c f bad)
  (hfirst : (addr bad % size ≠ 0 ∧ ∀ l, Active c f l → l < bad → ¬ addr l % size ≠ 0) ∨
    (OutOfRange s c sp size (addr bad) ∧ ∀ l, Active c f l → ¬ addr l % size ≠ 0 ∧ (l < bad → ¬ OutOfRange s c sp size (addr l))))

  (hbody : ∀ ok pages, StartedBody m c f sp ok (a.body c ok pages)) {o : Host.Outcome State Fault Refusal} (ho : o = a.op m f s)

include hsize hsp haddr h hr htarget hover hagain hroom hbad hfirst hbody ho

theorem Access.faults_outOfRange :
    ∃ (resume : LaneMask) (t : State), (∀ l, l < 64 → (resume.getLsbD l = true ↔ Active c f l ∧ (addr l % size ≠ 0 ∨ OutOfRange s c sp size (addr l)))) ∧
      o = raised t c { cause := if addr bad % size ≠ 0 then .misaligned else sp.cause, resume := resume, addr := addr bad } ∧
      t.phys = s.phys ∧ (∀ q, q ≠ c.ref → t.sys.warp q = s.sys.warp q) ∧
      let ok := ((c.active f.guard).lanes.filter fun l => !resume.getLsbD l).map fun l => (l, target l)
      (ok = [] → t.sys.warp c.ref = some c.w) ∧
      (ok ≠ [] → ∃ body, t.sys.warp c.ref = some (withOp s c m (f.orderCode % 2 == 1) body) ∧ StartedBody m c f sp ok body) := by
  subst hsize hsp haddr ho
  have hfar : ∀ l, Active c f l → (laneTarget s.phys s.sys c a.sp a.size l (a.addr c l) = none ↔ OutOfRange s c a.sp a.size (a.addr c l)) :=
    fun l _ => laneTarget_eq_none_iff
  obtain ⟨resume, t, hresume, hop, hphys, hother, hnil, hcons⟩ := Access.faults hfar
    (fun l hl hodd hf => laneTarget_of_inRange (htarget l hl hodd hf) (mt (hfar l hl).mp hf)) h hr hover hagain hroom hbad hfirst
  refine ⟨resume, t, hresume, hop, hphys, hother, hnil, fun hne => ?_⟩
  obtain ⟨pages, hwarp⟩ := hcons hne
  exact ⟨_, hwarp, hbody _ pages⟩

end Instructions

theorem atomicAccess_overlaps {op : AtomicOp} {lane : Warp → Nat → DWord × DWord} {ok : List (Nat × Nat)} {P : Nat → Prop} {target : Nat → Nat}
    {sp : Space} (hsp : (if f.x then .tsp else .bsm) = sp) (hP : ∀ l, P l → ¬ Overlaps c sp (target l) (if f.w64 then 8 else 4))
    (hok : ∀ x ∈ ok, ∃ l, P l ∧ x = (l, target l)) :
    (atomicAccess f op lane).overlaps c ok = false := by
  subst hsp
  refine Bool.eq_false_iff.mpr fun hover => ?_
  obtain ⟨x, hx, hmeet⟩ := storesOverlap_iff.mp hover
  obtain ⟨l, hl, rfl⟩ := hok x hx
  exact hP l hl hmeet

theorem startedBody_load {m : Mnem} {sp : Space} {addr : Warp → Nat → Nat} (hm : m ∉ [Mnem.atom, .atomc, .atomf] ∧ m ∉ [Mnem.stb, .stl, .stt])
    (ok : List (Nat × Nat)) (pages : List Nat) : StartedBody m c f sp ok ((loadAccess f sp addr).body c ok pages) :=
  ⟨fun _ => ⟨pages, by rw [decide_eq_false hm.2]; rfl⟩, fun h => absurd h hm.1⟩

theorem startedBody_store {m : Mnem} {sp : Space} {addr : Warp → Nat → Nat} (hm : m ∉ [Mnem.atom, .atomc, .atomf] ∧ m ∈ [Mnem.stb, .stl, .stt])
    (ok : List (Nat × Nat)) (pages : List Nat) : StartedBody m c f sp ok ((storeAccess f sp addr).body c ok pages) :=
  ⟨fun _ => ⟨pages, by rw [decide_eq_true hm.2]; rfl⟩, fun h => absurd h hm.1⟩

theorem startedBody_atomic {m : Mnem} {op : AtomicOp} {lane : Warp → Nat → DWord × DWord} {sp : Space}
    (hsp : (if f.x then .tsp else .bsm) = sp) (hm : m ∈ [Mnem.atom, .atomc, .atomf]) (ok : List (Nat × Nat)) (pages : List Nat) :
    StartedBody m c f sp ok ((atomicAccess f op lane).body c ok pages) := by
  subst hsp
  refine ⟨fun h => absurd hm h, fun _ => ⟨op, _, pages, rfl, ?_⟩⟩
  rw [List.map_map]
  exact List.map_id ok

/-- The operands of ATOM: a register, or an immediate sign-extended to the element. -/
def atomLane (f : Fields) (w : Warp) (l : Nat) : DWord × DWord :=
  (if f.imm then BitVec.ofNat 64 (widened f .sign (if f.w64 then 64 else 32)) else widePair w f f.b.toNat l, 0)

/-- The operands of ATOMC. -/
def atomcLane (f : Fields) (w : Warp) (l : Nat) : DWord × DWord := (widePair w f f.b.toNat l, widePair w f f.c.toNat l)

/-- The operands of ATOMF. -/
def atomfLane (f : Fields) (w : Warp) (l : Nat) : DWord × DWord := ((bFloat w f l).setWidth 64, 0)

theorem exec_atom_eq (f : Fields) (s : State) : exec (.atom f) s = (atomicAccess f (atomOp f.sub) (atomLane f)).op .atom f s := rfl

theorem exec_atomc_eq (f : Fields) (s : State) : exec (.atomc f) s = (atomicAccess f .cas (atomcLane f)).op .atomc f s := rfl

theorem exec_atomf_eq (f : Fields) (s : State) : exec (.atomf f) s = (atomicAccess f (atomfOp f.sub) (atomfLane f)).op .atomf f s := rfl

theorem accessFaults : AccessFaults := by
  intro s f c i bad target here hi h hr e atomic size addr odd far cause htarget hover hagain hroom hbad hfirst
  have hsp : (if f.x then Space.tsp else .bsm) = here := rfl
  clear_value here
  simp only [List.mem_cons, List.not_mem_nil, or_false] at hi
  rcases hi with rfl | rfl | rfl | rfl | rfl | rfl | rfl | rfl | rfl
  · exact Access.faults_outOfRange (a := loadAccess f .bsm fun w => baseAddress w f) rfl rfl rfl h hr htarget (fun _ _ => rfl) hagain hroom hbad hfirst
      (startedBody_load (m := .ldb) (by decide)) rfl
  · exact Access.faults_outOfRange (a := storeAccess f .bsm fun w => baseAddress w f) rfl rfl rfl h hr htarget (fun _ _ => rfl) hagain hroom hbad hfirst
      (startedBody_store (m := .stb) (by decide)) rfl
  · exact Access.faults_outOfRange (a := loadAccess f .priv fun w => baseAddress w f) rfl rfl rfl h hr htarget (fun _ _ => rfl) hagain hroom hbad hfirst
      (startedBody_load (m := .ldl) (by decide)) rfl
  · exact Access.faults_outOfRange (a := storeAccess f .priv fun w => baseAddress w f) rfl rfl rfl h hr htarget (fun _ _ => rfl) hagain hroom hbad hfirst
      (startedBody_store (m := .stl) (by decide)) rfl
  · exact Access.faults_outOfRange (a := loadAccess f .tsp fun w => rowAddress w f) rfl rfl rfl h hr htarget (fun _ _ => rfl) hagain hroom hbad hfirst
      (startedBody_load (m := .ldt) (by decide)) rfl
  · exact Access.faults_outOfRange (a := storeAccess f .tsp fun w => rowAddress w f) rfl rfl rfl h hr htarget (fun _ _ => rfl) hagain hroom hbad hfirst
      (startedBody_store (m := .stt) (by decide)) rfl
  · have hm : Mnem.atom ∈ [Mnem.atom, .atomc, .atomf] := by decide
    cases here <;> exact Access.faults_outOfRange (a := atomicAccess f (atomOp f.sub) (atomLane f)) rfl hsp rfl h hr htarget
      (fun ok hok => atomicAccess_overlaps hsp (fun l hl => hover hm l hl.1 hl.2.1 hl.2.2) hok) hagain hroom hbad hfirst
      (startedBody_atomic hsp hm) (exec_atom_eq f s)
  · have hm : Mnem.atomc ∈ [Mnem.atom, .atomc, .atomf] := by decide
    cases here <;> exact Access.faults_outOfRange (a := atomicAccess f .cas (atomcLane f)) rfl hsp rfl h hr htarget
      (fun ok hok => atomicAccess_overlaps hsp (fun l hl => hover hm l hl.1 hl.2.1 hl.2.2) hok) hagain hroom hbad hfirst
      (startedBody_atomic hsp hm) (exec_atomc_eq f s)
  · have hm : Mnem.atomf ∈ [Mnem.atom, .atomc, .atomf] := by decide
    cases here <;> exact Access.faults_outOfRange (a := atomicAccess f (atomfOp f.sub) (atomfLane f)) rfl hsp rfl h hr htarget
      (fun ok hok => atomicAccess_overlaps hsp (fun l hl => hover hm l hl.1 hl.2.1 hl.2.2) hok) hagain hroom hbad hfirst
      (startedBody_atomic hsp hm) (exec_atomf_eq f s)

end Sys2Proof.Machine
end

section
/-! PROOFS. LocalAccessesStart (O23): LDPERM (R126, R221 (b)), and the statement. -/

namespace Sys2Proof.Machine

open Sys2Proof.Claims

variable {s : State} {f : Fields} {c : Ctx}

/-! ## PermLoadStarts -/

/-- An earlier access of the warp touches the bytes and is no store (R221 (b)). -/
theorem earlier_iff {ops : List Op} {sp : Space} {x n : Nat} :
    (ops.any fun o => !o.writes && [(sp, x, n)].any fun y => o.touches y.1 y.2.1 y.2.2) = true ↔
      ∃ o ∈ ops, o.writes = false ∧ o.touches sp x n = true := by
  simp

theorem execLdperm_of_issues (h : Issues .ldperm f s c) :
    let a := (c.w.scalar f.a.toNat).toNat + (immUnsigned f).toNat
    let trap := fun (k : Cause) => ({ cause := k, resume := c.active f.guard, addr := a } : TrapInfo)
    exec (.ldperm f) s = .next (
      if (List.range 48).any fun i => decide (a + i < c.b.bsmBytes) && (loadView s.phys c.b c.w c.w.ops .bsm (a + i) 1).2 then
        (Tx.start s).raise c.ref c.z (trap .poison) false
      else if a % 8 != 0 then (Tx.start s).raise c.ref c.z (trap .misaligned) false
      else if c.b.bsmBytes < a + 48 then (Tx.start s).raise c.ref c.z (trap .bsmRange) false
      else (Tx.start s).unlessHeld c (readsHeld s.phys s.sys c.b c.w.ops [(.bsm, a, 48)])
        ((Tx.start s).map fun y => y.startOp c .ldperm (flagOf .ldperm c)
          (.loadPerm (BitVec.ofNat 384 (loadView s.phys c.b c.w c.w.ops .bsm a 48).1)))).state := by
  rw [toNat_immUnsigned]
  exact issue_of_issues h _

theorem permLoadStarts : PermLoadStarts := by
  intro s f c h a poisoned trap earlier
  have hexec := execLdperm_of_issues h
  have hbad : ((List.range 48).any fun i => decide (a + i < c.b.bsmBytes) && (loadView s.phys c.b c.w c.w.ops .bsm (a + i) 1).2) = true ↔ poisoned := by
    simp [poisoned]
  have hearlier := earlier_iff (ops := c.w.ops) (sp := .bsm) (x := a) (n := 48)
  refine ⟨fun hp => ?_, fun hp ha => ?_, fun hp ha hr => ?_, fun hp ha hr he => ?_, fun hp ha hr he hw => ?_, fun hp ha hr he hw => ?_⟩
  · rw [hexec, if_pos (hbad.mpr hp)]
    rfl
  all_goals rw [hexec, if_neg (mt hbad.mp hp)]
  · rw [if_pos (bne_iff_ne.mpr ha)]
    rfl
  all_goals rw [if_neg (by simpa using ha)]
  · rw [if_pos hr]
    rfl
  all_goals rw [if_neg (not_lt.mpr hr), readsHeld]
  · rw [if_pos (hearlier.mpr he)]
    rfl
  all_goals rw [if_neg (mt hearlier.mp he)]
  · rw [if_pos hw]
    rfl
  · rw [if_neg (Bool.eq_false_iff.mp hw)]
    exact ⟨_, rfl, started_startOp h.1 (fun _ => rfl) rfl rfl _⟩

/-- Settles O23, by its three parts: the start, the failing lanes, and LDPERM. -/
theorem localAccessesStart : Obligations.LocalAccessesStart := ⟨accessesStart, accessFaults, permLoadStarts⟩

end Sys2Proof.Machine
end

section
/-! PROOFS. The Atomic Engine on a 32-bit word (R161): the model compares the operand as the instruction keeps it, 64 bits wide, and the
statement compares its low word. The two differ on an operand with high bits, which no instruction of 32 bits keeps and which the statement
does not exclude. -/

namespace Sys2Proof.Machine

open Sys2Proof.Claims

/-- An INC of the BSM's word at 0 whose operand is 2^32. -/
def wideInc : Op :=
  { id := 1, slot := .A, flag := none, path := some .atom,
    body := .atomic .inc .bsm false 0 [{ lane := 0, addr := 0, b := 0x100000000, c := 0 }] [] }

/-- A warp whose one outstanding instruction is the INC. -/
def incWarp : Warp := { rank := 0, ops := [wideInc] }

/-- The block of the warp; its BSM reads zero. -/
def incBlock : Block := { id := 0, tower := 0, core := 0, warps := [incWarp] }

/-- The state in which the Atomic Engine of core 0 is to take the INC. -/
def incState : State := { phys := {}, sys := { blocks := [incBlock], towers := [{ cores := [{}] }] } }

/-- The word at 0 of the first block's BSM. -/
def firstWord (o : Host.Outcome State Fault Refusal) : Option Word :=
  match o with
  | .next t => (t.sys.block 0).map fun b => bsmWord b 0
  | _ => none

theorem incBlock_calm : Calm incBlock := by
  simp [Calm, Still, incBlock, incWarp, wideInc]

/-- The model adds 1: it does not find 2^32 below the old word. -/
theorem firstWord_incState : firstWord (exec (.atomicEngineAccept ⟨0, 0⟩) incState) = some 1 := by decide

theorem not_atomicsPerformed : ¬ AtomicsPerformed := by
  rintro ⟨-, hperformed, -⟩
  obtain ⟨-, hgo⟩ := hperformed incState ⟨0, 0⟩ ⟨0, 0⟩ incBlock incWarp wideInc .inc 0 _ []
    ⟨rfl, rfl, incBlock_calm⟩ rfl (by decide) rfl rfl rfl
  obtain ⟨t, b', v, fl, hexec, -, hblock, -, -, -, hword⟩ := hgo (by decide)
  obtain ⟨-, hnew⟩ := hword (by decide) (by decide) (by decide)
  have hone := firstWord_incState
  rw [hexec, firstWord, hblock] at hone
  exact absurd ((Option.some.inj hone).symm.trans hnew) (by decide)

/-- Refutes O25: an INC of a 32-bit word that reads 0, by an operand of 2^32, leaves 1, and `AtomicsPerformed` says that it leaves 0. -/
theorem not_atomics : ¬ Obligations.Atomics := fun h => not_atomicsPerformed h.2

end Sys2Proof.Machine
end

section
/-! PROOFS. What a completion lets go on (R167, R169): the law of a generation of BSYNC, and the completion of an instruction in a block in which
nothing waits. -/

namespace Sys2Proof.Machine

open Sys2Proof.Claims

variable {p : Phys} {y y' : Sys} {b : Block} {w : Warp} {r : WarpRef} {i : Nat}

/-! ## The generations of a block (R169) -/

/-- The warps of a block with their arrivals noted (R169 (a)). -/
def Block.notedWarps (b : Block) : List Warp := b.warps.map fun w => { w with arrived := w.arrived || w.atSync }

/-- Do the noted warps end a generation? -/
def generationOver (ws : List Warp) : Bool :=
  (ws.all fun w => w.arrived || w.exited) && ((ws.any fun w => w.arrived) && !ws.any fun w => w.ops.any Op.holdsRelease)

/-- The block in its next generation (R169 (c)). -/
def Block.nextGeneration (p : Phys) (y : Sys) (b : Block) : Block :=
  { b with warps := b.notedWarps.map fun w => w.passSync fun z => wordsAt p y b (w.slot z).pc, generation := b.generation + 1 }

/-- The generation of a block ends (R169, R223). -/
def GenerationEnds (b : Block) : Prop :=
  (∀ w ∈ b.warps, (w.arrived = true ∨ w.atSync = true) ∨ w.exited = true) ∧ (∃ w ∈ b.warps, w.arrived = true ∨ w.atSync = true) ∧
    ∀ w ∈ b.warps, ∀ x ∈ w.ops, x.holdsRelease = false

theorem generationOver_iff : generationOver b.notedWarps = true ↔ GenerationEnds b := by
  have hexited : ∀ w : Warp, ({ w with arrived := w.arrived || w.atSync } : Warp).exited = w.exited := fun _ => rfl
  simp only [Block.notedWarps, generationOver, GenerationEnds, List.all_map, List.any_map, Bool.and_eq_true, List.all_eq_true, List.any_eq_true,
    Bool.not_eq_true', Bool.eq_false_iff, Function.comp_def, Bool.or_eq_true, hexited, ne_eq, not_exists, not_and]

theorem syncBlock_eq (hb : y.block i = some b) : syncBlock p y i = y.setBlock i fun k =>
    { k with
      warps := if generationOver b.notedWarps then b.notedWarps.map fun w => w.passSync fun z => wordsAt p y b (w.slot z).pc else b.notedWarps
      generation := if generationOver b.notedWarps then k.generation + 1 else k.generation } := by
  unfold syncBlock
  rw [hb]
  rfl

theorem block_syncBlock_ends (hb : y.block i = some b) (h : GenerationEnds b) : (syncBlock p y i).block i = some (b.nextGeneration p y) := by
  rw [syncBlock_eq hb, generationOver_iff.mpr h, Sys.block_setBlock_same, hb]
  · rfl
  · exact fun _ => rfl

theorem block_syncBlock_waits (hb : y.block i = some b) (h : ¬ GenerationEnds b) : (syncBlock p y i).block i = some { b with warps := b.notedWarps } := by
  rw [syncBlock_eq hb, Bool.eq_false_iff.mpr (mt generationOver_iff.mp h), Sys.block_setBlock_same, hb]
  · rfl
  · exact fun _ => rfl

theorem block_syncBlock_other {j : Nat} (h : j ≠ i) : (syncBlock p y i).block j = y.block j := by
  unfold syncBlock
  split
  · rfl
  · exact Sys.block_setBlock_other y i j _ (fun _ => rfl) h

theorem syncBlock_towers : (syncBlock p y i).towers = y.towers := by
  unfold syncBlock
  split <;> rfl

/-! ## What no completion lets go on -/

/-- The blocks and the towers are the same in two states. -/
structure SameBlocks (y y' : Sys) : Prop where
  block : ∀ i, y'.block i = y.block i
  towers : y'.towers = y.towers

theorem SameBlocks.warp (h : SameBlocks y y') (q : WarpRef) : y'.warp q = y.warp q := Sys.warp_congr h.block q

/-- A warp of a still block. -/
structure StillWarp (w : Warp) : Prop where
  trapA : w.slotA.trap = none
  trapB : w.slotB.trap = none
  arrived : w.arrived = false
  holdA : w.slotA.hold ≠ .bsync
  holdB : w.slotB.hold ≠ .bsync

theorem still_iff : Still b ↔ ∀ w ∈ b.warps, StillWarp w := by
  refine ⟨fun h w hw => ?_, fun h w hw => ?_⟩
  · obtain ⟨hA, hB, harrived, hholdA, hholdB⟩ := h w hw
    exact ⟨hA, hB, harrived, hholdA, hholdB⟩
  · obtain ⟨hA, hB, harrived, hholdA, hholdB⟩ := h w hw
    exact ⟨hA, hB, harrived, hholdA, hholdB⟩

theorem StillWarp.atSync (h : StillWarp w) : w.atSync = false := by
  have hA := h.holdA
  have hB := h.holdB
  cases hvA : w.slotA.valid <;> cases hvB : w.slotB.valid <;> simp [Warp.atSync, hvA, hvB, hA, hB]

/-- A still block passes no BSYNC. -/
theorem sameBlocks_syncBlock (hb : y.block i = some b) (h : Still b) : SameBlocks y (syncBlock p y i) := by
  have hstill := still_iff.mp h
  have hsame : b.notedWarps = b.warps := by
    conv_rhs => rw [← List.map_id b.warps]
    refine List.map_congr_left fun w hw => ?_
    rw [(hstill w hw).atSync, (hstill w hw).arrived]
    exact congrArg (fun a => { w with arrived := a }) (hstill w hw).arrived.symm
  have hno : ¬ GenerationEnds b := fun ⟨_, ⟨w, hw, hthere⟩, _⟩ => by
    rw [(hstill w hw).arrived, (hstill w hw).atSync] at hthere
    simp at hthere
  refine ⟨fun j => ?_, syncBlock_towers⟩
  by_cases hj : j = i
  · rw [hj, block_syncBlock_waits hb hno, hsame, hb]
  · exact block_syncBlock_other hj

/-- A still block in which arrivals have been performed: no trap is entered, and no generation ends. -/
theorem after_of_still {o : Phys} {t : Tx o} (hb : (t.sys.flushArrivals r).block r.block = some b) (hw : b.warp r.rank = some w) (h : Still b) :
    (t.after r).phys = t.phys ∧ SameBlocks (t.sys.flushArrivals r) (t.after r).sys := by
  have hstill : StillWarp w := still_iff.mp h w (List.mem_of_find?_eq_some hw)
  have hsame : SameBlocks (t.sys.flushArrivals r) (t.upd fun p s => syncBlock p (s.flushArrivals r) r.block).sys := sameBlocks_syncBlock hb h
  have hwarp : (t.upd fun p s => syncBlock p (s.flushArrivals r) r.block).sys.warp r = some w := by
    rw [hsame.warp, Sys.warp, hb]
    exact hw
  rw [Tx.after, trapEntry_of_noTrap (z := .A) hwarp hstill.trapA, trapEntry_of_noTrap (z := .B) hwarp hstill.trapB]
  exact ⟨rfl, hsame⟩

theorem flushArrivals_of_calm (hb : y.block r.block = some b) (hw : b.warp r.rank = some w) (h : Calm b) : y.flushArrivals r = y := by
  rw [Sys.flushArrivals, Sys.warp, hb, Option.bind_some, hw]
  dsimp only
  rw [readyArrivals_eq_nil (h.2 w (List.mem_of_find?_eq_some hw))]
  rfl

theorem warp_setWarp_dropOp (hw : b.warp r.rank = some w) {g : Warp → Warp} (hg : ∀ w, SameSlots w (g w)) (id : Nat) :
    (b.setWarp r.rank fun w => (g w).dropOp id).warp r.rank = some (finished (g w) id) := by
  rw [b.warp_setWarp_same r.rank fun w => (Warp.dropOp_rank _ _).trans (hg w).rank, hw]
  rfl

/-- A completion in a calm block writes its effect on the warp and frees the instruction, and nothing else goes on. -/
theorem finish_of_calm {o : Phys} {t : Tx o} (hb : t.sys.block r.block = some b) (hw : b.warp r.rank = some w) (h : Calm b) (id : Nat)
    {g : Warp → Warp} (hg : ∀ w, SameSlots w (g w)) :
    (t.finish r id g).phys = t.phys ∧ SameBlocks (t.sys.setWarp r fun w => (g w).dropOp id) (t.finish r id g).sys := by
  have hb' : (t.sys.setWarp r fun w => (g w).dropOp id).block r.block = some (b.setWarp r.rank fun w => (g w).dropOp id) := by
    rw [Sys.block_setWarp_same, hb]
    rfl
  have hw' := warp_setWarp_dropOp hw hg id
  have hcalm := calm_setWarp h r.rank fun w hw => hw.dropOp (hg w) id
  have hflush := flushArrivals_of_calm hb' hw' hcalm
  have hafter := after_of_still (t := t.map fun y => y.setWarp r fun w => (g w).dropOp id) ((congrArg (fun y : Sys => y.block r.block) hflush).trans hb')
    hw' hcalm.1
  rw [Tx.map_sys, hflush] at hafter
  exact hafter

end Sys2Proof.Machine
end

section
/-! PROOFS. The order of the contributions to an accumulation slot and its sum (R164, R165). -/

namespace Sys2Proof

variable {α β : Type} {lt : α → α → Bool} {x : α} {xs ys : List α}

/-! ## Sorting by insertion -/

theorem insertBy_perm (lt : α → α → Bool) (x : α) (xs : List α) : (insertBy lt x xs).Perm (x :: xs) := by
  induction xs with
  | nil => exact .rfl
  | cons y ys ih =>
    unfold insertBy
    split
    · exact .rfl
    · exact (ih.cons y).trans (.swap x y ys)

theorem sortBy_concat (lt : α → α → Bool) (x : α) (xs : List α) : sortBy lt (xs ++ [x]) = insertBy lt x (sortBy lt xs) := by
  simp [sortBy]

theorem sortBy_perm (lt : α → α → Bool) (xs : List α) : (sortBy lt xs).Perm xs := by
  induction xs using List.reverseRecOn with
  | nil => exact .rfl
  | append_singleton xs x ih =>
    rw [sortBy_concat]
    exact (insertBy_perm lt x _).trans ((ih.cons x).trans (List.perm_append_singleton x xs).symm)

theorem insertBy_eq_concat (h : ∀ y ∈ xs, lt x y = false) : insertBy lt x xs = xs ++ [x] := by
  induction xs with
  | nil => rfl
  | cons y ys ih =>
    obtain ⟨hy, hys⟩ := List.forall_mem_cons.mp h
    rw [insertBy, hy, if_neg Bool.false_ne_true, ih hys, List.cons_append]

section Keys

variable [LinearOrder β] {k : α → β} (hlt : ∀ a b, lt a b = true ↔ k a < k b)

include hlt

theorem pairwise_insertBy (x : α) (h : xs.Pairwise fun a b => k a ≤ k b) : (insertBy lt x xs).Pairwise fun a b => k a ≤ k b := by
  induction xs with
  | nil => exact List.pairwise_singleton _ _
  | cons y ys ih =>
    obtain ⟨hy, hys⟩ := List.pairwise_cons.mp h
    unfold insertBy
    split
    · next hxy =>
      have hle := ((hlt x y).mp hxy).le
      exact List.pairwise_cons.mpr ⟨List.forall_mem_cons.mpr ⟨hle, fun z hz => hle.trans (hy z hz)⟩, h⟩
    · next hxy =>
      refine List.pairwise_cons.mpr ⟨fun z hz => ?_, ih hys⟩
      obtain rfl | hz := List.mem_cons.mp ((insertBy_perm lt x ys).mem_iff.mp hz)
      · exact not_lt.mp fun h => hxy ((hlt z y).mpr h)
      · exact hy z hz

theorem pairwise_sortBy (xs : List α) : (sortBy lt xs).Pairwise fun a b => k a ≤ k b :=
  List.foldlRecOn xs _ .nil fun _ h x _ => pairwise_insertBy hlt x h

/-- Elements of different keys are sorted into one order, however they stand. -/
theorem sortBy_eq_of_perm (h : xs.Perm ys) (hnodup : (xs.map k).Nodup) : sortBy lt xs = sortBy lt ys := by
  refine List.Perm.eq_of_pairwise (fun a b ha hb hab hba => ?_) (pairwise_sortBy hlt xs) (pairwise_sortBy hlt ys)
    ((sortBy_perm lt xs).trans (h.trans (sortBy_perm lt ys).symm))
  have ha' : a ∈ xs := (sortBy_perm lt xs).mem_iff.mp ha
  have hb' : b ∈ xs := h.mem_iff.mpr ((sortBy_perm lt ys).mem_iff.mp hb)
  exact List.inj_on_of_nodup_map hnodup ha' hb' (le_antisymm hab hba)

end Keys

end Sys2Proof

namespace Sys2Proof.Machine

open Sys2Proof.Claims

/-! ## The sum of a slot (R165) -/

/-- The key of a contribution: node, stage, rank and lane (R164). -/
def Contribution.key (x : Contribution) : ℕ ×ₗ ℕ ×ₗ ℕ ×ₗ ℕ := toLex (x.node, toLex (x.stage, toLex (x.rank, x.lane)))

theorem contributionBefore_iff (a b : Contribution) : contributionBefore a b = true ↔ a.key < b.key := by
  simp only [contributionBefore, Contribution.key, Prod.Lex.toLex_lt_toLex, bne_iff_ne, ne_eq]
  split_ifs <;> simp_all

theorem slotSum_of_perm {xs ys : List Contribution} (h : xs.Perm ys) (hnodup : (xs.map fun x => (x.node, x.stage, x.rank, x.lane)).Nodup) :
    slotSum xs = slotSum ys := by
  have hkeys : (xs.map Contribution.key).Nodup := by
    have hmap : xs.map Contribution.key = (xs.map fun x => (x.node, x.stage, x.rank, x.lane)).map
        fun k => toLex (k.1, toLex (k.2.1, toLex k.2.2)) := by simp [Contribution.key]
    rw [hmap]
    exact hnodup.map fun a b hab => by simpa [Prod.ext_iff] using hab
  rw [slotSum, slotSum, sortBy_eq_of_perm contributionBefore_iff h hkeys]

/-- A contribution behind every other is added last. -/
theorem slotSum_concat {xs : List Contribution} {x : Contribution} (h : ∀ y ∈ xs, contributionBefore y x = true) : slotSum (xs ++ [x]) =
    BitVec.ofNat 32 (FloatFmt.fp32.deliver nearest false false (sumNums false [fp32 (slotSum xs), fp32 x.value]).1).1 := by
  have hlast : ∀ y ∈ sortBy contributionBefore xs, contributionBefore x y = false := fun y hy => by
    have hy' := (contributionBefore_iff y x).mp (h y ((sortBy_perm _ xs).mem_iff.mp hy))
    exact Bool.eq_false_iff.mpr fun hxy => lt_asymm hy' ((contributionBefore_iff x y).mp hxy)
  rw [slotSum, sortBy_concat, insertBy_eq_concat hlast, List.foldl_concat]
  rfl

end Sys2Proof.Machine
end

section
/-! PROOFS. Towers and cores changed in place, and the walk of a window page, which changes no core (R239). -/

namespace Sys2Proof

variable {α : Type} {xs : List α} {i j : Nat} {g : α → α}

/-! ## A list changed at one place -/

theorem getD_map_zipIdx_same (h : i < xs.length) (d : α) : ((xs.zipIdx.map fun x => if x.2 == i then g x.1 else x.1).getD i d) = g (xs.getD i d) := by
  simp [List.getD, List.getElem?_eq_getElem h]

theorem getD_map_zipIdx_other (h : j ≠ i) (d : α) : (xs.zipIdx.map fun x => if x.2 == i then g x.1 else x.1).getD j d = xs.getD j d := by
  cases hx : xs[j]? <;> simp [List.getD, hx, h]

theorem updateWhere_append_cons {p : α → Bool} {ys zs : List α} {x : α} (hx : p x = true) (h : ∀ y ∈ ys ++ zs, p y = false) :
    updateWhere p g (ys ++ x :: zs) = ys ++ g x :: zs := by
  have hkeep : ∀ l : List α, (∀ y ∈ l, p y = false) → updateWhere p g l = l := fun l hl => by
    rw [updateWhere]
    conv_rhs => rw [← List.map_id l]
    exact List.map_congr_left fun y hy => by simp [hl y hy]
  rw [updateWhere, List.map_append, List.map_cons, if_pos hx]
  exact congrArg₂ (· ++ g x :: ·) (hkeep ys fun y hy => h y (List.mem_append_left _ hy)) (hkeep zs fun y hy => h y (List.mem_append_right _ hy))

end Sys2Proof

namespace Sys2Proof.Machine

variable {y : Sys} {k : CoreRef} {i : Nat}

/-! ## Towers and cores -/

@[simp] theorem Sys.setTower_length (y : Sys) (i : Nat) (g : Tower → Tower) : (y.setTower i g).towers.length = y.towers.length := by
  simp [Sys.setTower]

theorem Sys.tower_setTower_same (h : i < y.towers.length) (g : Tower → Tower) : (y.setTower i g).tower i = g (y.tower i) :=
  getD_map_zipIdx_same h _

theorem Sys.tower_setTower_other {j : Nat} (h : j ≠ i) (g : Tower → Tower) : (y.setTower i g).tower j = y.tower j :=
  getD_map_zipIdx_other h _

theorem Sys.core_setCore_same (ht : k.tower < y.towers.length) (hk : k.core < (y.tower k.tower).cores.length) (g : Core → Core) :
    (y.setCore k g).core k = g (y.core k) := by
  rw [Sys.core, Sys.setCore, Sys.tower_setTower_same ht]
  exact getD_map_zipIdx_same hk _

theorem Sys.core_congr {y' : Sys} (h : y'.towers = y.towers) (k : CoreRef) : y'.core k = y.core k := by
  rw [Sys.core, Sys.core, Sys.tower, Sys.tower, h]

theorem Sys.tower_congr {y' : Sys} (h : y'.towers = y.towers) (i : Nat) : y'.tower i = y.tower i := by
  rw [Sys.tower, Sys.tower, h]

/-! ## The walk of a window page -/

/-- The cores are the same in two states, and as many towers are there. -/
structure SameCores (y y' : Sys) : Prop where
  length : y'.towers.length = y.towers.length
  cores : ∀ i, (y'.tower i).cores = (y.tower i).cores

theorem sameCores_of_towers {y' : Sys} (h : y'.towers = y.towers) : SameCores y y' :=
  ⟨congrArg List.length h, fun i => congrArg Tower.cores (Sys.tower_congr h i)⟩

theorem SameCores.core {y' : Sys} (h : SameCores y y') (k : CoreRef) : y'.core k = y.core k := by
  rw [Sys.core, Sys.core, h.cores]

theorem sameCores_setTower {g : Tower → Tower} (hg : ∀ t, (g t).cores = t.cores) : SameCores y (y.setTower i g) := by
  refine ⟨Sys.setTower_length _ _ _, fun j => ?_⟩
  by_cases hj : j = i
  · subst hj
    by_cases hlt : j < y.towers.length
    · rw [Sys.tower_setTower_same hlt, hg]
    · have hlt' : ¬ j < (y.setTower j g).towers.length := by rwa [Sys.setTower_length]
      rw [Sys.tower, Sys.tower, List.getD_eq_default _ _ (not_lt.mp hlt), List.getD_eq_default _ _ (not_lt.mp hlt')]
  · rw [Sys.tower_setTower_other hj]

theorem sameCores_fillWindow (p : Phys) (y : Sys) (k : CoreRef) (asid page : Nat) : SameCores y (fillWindow p y k asid page) := by
  unfold fillWindow
  split
  · exact sameCores_of_towers rfl
  · split
    · unfold queueWalk
      split
      exacts [sameCores_of_towers rfl, sameCores_setTower fun _ => rfl]
    · unfold Sys.noteWindow
      split <;> split <;> exact sameCores_of_towers (by simp)

end Sys2Proof.Machine
end

section
/-! PROOFS. AccumulationSlots (O26): ACCOPEN and AFADDO at issue (R163, R164). -/

namespace Sys2Proof.Machine

open Sys2Proof.Claims

variable {s : State} {f : Fields} {c : Ctx}

/-! ## The open slots of a core -/

theorem Core.accSlot_isSome_iff {k : Core} {n : Nat} : (k.accSlot n).isSome = true ↔ ∃ x ∈ k.accSlots, x.number = n := by
  simp [Core.accSlot]

theorem Core.accSlot_eq_none_iff {k : Core} {n : Nat} : k.accSlot n = none ↔ ∀ x ∈ k.accSlots, x.number ≠ n := by
  simp [Core.accSlot]

theorem Core.accSlot_of_split {k : Core} {n : Nat} {x : AccSlot} {before later : List AccSlot} (h : k.accSlots = before ++ x :: later)
    (hx : x.number = n) (hne : ∀ y ∈ before ++ later, y.number ≠ n) : k.accSlot n = some x := by
  rw [Core.accSlot, h, List.find?_append, List.find?_eq_none.mpr fun y hy => by simpa using hne y (List.mem_append_left _ hy), Option.none_or,
    List.find?_cons_of_pos (by simpa using hx)]

/-- A core with contributions counted as received by a slot (R164). -/
def Core.receive (n count : Nat) (k : Core) : Core :=
  { k with accSlots := updateWhere (fun x => x.number == n) (fun x => { x with received := x.received + count }) k.accSlots }

/-- A core with one more slot open (R163). -/
def Core.openSlot (x : AccSlot) (k : Core) : Core := { k with accSlots := k.accSlots ++ [x] }

/-! ## ACCOPEN -/

/-- What completes at its issue changes its warp alike in states that agree on the warps and the words. -/
theorem Sys.warp_completedOp_congr {y y' : Sys} (hwarp : ∀ q, y'.warp q = y.warp q) (hwords : y'.words = y.words) (q : WarpRef) :
    (y'.completedOp c id).warp q = (y.completedOp c id).warp q := by
  unfold Sys.completedOp
  rw [hwords]
  by_cases hq : q = c.ref
  · rw [hq, Sys.warp_setWarp_same _ _ (by simp), Sys.warp_setWarp_same _ _ (by simp), hwarp]
  · rw [Sys.warp_setWarp_other _ (by simp) hq, Sys.warp_setWarp_other _ (by simp) hq, hwarp]

/-- ACCOPEN of an aligned address in a mapped window page (R163). -/
theorem execAccopen_of_issues (h : Issues .accopen f s c) (ha : (c.w.scalar f.a.toNat).toNat % 4 = 0)
    (ht : (translateWindow s.phys s.sys c.b.coreRef c.b.asid (c.w.scalar f.a.toNat).toNat).isSome = true) :
    let n := f.d.toNat
    let a := (c.w.scalar f.a.toNat).toNat
    let count := (scalarB c.w f (immUnsigned f)).toNat
    let core := s.sys.core c.b.coreRef
    exec (.accopen f) s = .next (
      if (core.accSlot n).isSome || count == 0 || decide (4096 < count) then
        (Tx.start s).raise c.ref c.z { cause := .accSlot, resume := c.active f.guard, addr := n } false
      else if 4096 < (core.accSlots.map AccSlot.count).sum + count then (Tx.start s).map fun y => y.hold c .accRoom
      else (Tx.start s).upd fun p y => ((fillWindow p y c.b.coreRef c.b.asid (a / 65536)).setCore c.b.coreRef
        (Core.openSlot { number := n, addr := a, asid := c.b.asid, count := count, block := c.b.id, barrier := f.c.toNat })).completedOp c id).state := by
  obtain ⟨pa, hpa⟩ := Option.isSome_iff_exists.mp ht
  refine (issue_of_issues h _).trans ?_
  rw [← show bScalar c.w f .zero = scalarB c.w f (immUnsigned f) from bScalar_eq c.w f .zero]
  simp only [Tx.start_phys, Tx.start_sys, hpa, ha, bne_self_eq_false, Bool.false_eq_true, if_false]
  rfl

/-! ## AFADDO -/

theorem execAfaddo_of_issues (h : Issues .afaddo f s c) (he : c.active f.guard ≠ 0) (hr : MayRelease c f) :
    let n := f.d.toNat
    let trap : TrapInfo := { cause := .accSlot, resume := c.active f.guard, addr := n }
    exec (.afaddo f) s = .next (match (s.sys.core c.b.coreRef).accSlot n with
      | none => (Tx.start s).raise c.ref c.z trap false
      | some x =>
        if x.count < x.received + (c.active f.guard).lanes.length then (Tx.start s).raise c.ref c.z trap false
        else (Tx.start s).map fun y => ((y.setEffect c.b.id true).setCore c.b.coreRef
          (Core.receive n (c.active f.guard).lanes.length)).startOp c .afaddo (flagOf .afaddo c)
            (.contribute n ((c.active f.guard).lanes.map fun l => (l, c.w.elem f.a.toNat l)))).state :=
  memoryOp_go h he hr _

/-- A contribution that its slot expects starts, counts as received, and sets EFFECT (R164, R171). -/
theorem afaddo_starts (h : Issues .afaddo f s c) (he : c.active f.guard ≠ 0) (hr : MayRelease c f) {x : AccSlot} {before later : List AccSlot}
    (hslots : (s.sys.core c.b.coreRef).accSlots = before ++ x :: later) (hx : x.number = f.d.toNat)
    (hne : ∀ y ∈ before ++ later, y.number ≠ f.d.toNat) (hroom : x.received + (c.active f.guard).lanes.length ≤ x.count)
    (htower : c.b.tower < s.sys.towers.length) (hcore : c.b.core < (s.sys.tower c.b.tower).cores.length) :
    ∃ t, exec (.afaddo f) s = .next t ∧
      Started s t c .afaddo false (.contribute f.d.toNat ((c.active f.guard).lanes.map fun l => (l, c.w.elem f.a.toNat l))) ∧
      (t.sys.block c.ref.block).map Block.effect = some true ∧
      (t.sys.core c.b.coreRef).accSlots = before ++ { x with received := x.received + (c.active f.guard).lanes.length } :: later := by
  have hexec := execAfaddo_of_issues h he hr
  dsimp only at hexec
  rw [Core.accSlot_of_split hslots hx hne] at hexec
  dsimp only at hexec
  rw [if_neg (not_lt.mpr hroom)] at hexec
  have hwarp : ∀ q, (s.sys.setEffect c.b.id true).warp q = s.sys.warp q := s.sys.warp_setEffect _ _
  refine ⟨_, hexec, started_startOp h.1 hwarp rfl rfl _, ?_, ?_⟩
  · obtain ⟨-, hb, -⟩ := Sys.issuing_some h.1
    show ((((s.sys.setEffect c.b.id true).setCore _ _).startOp _ _ _ _).block _).map _ = _
    rw [Sys.startOp_eq, Sys.passOp, Sys.effect_setWarp, Sys.addOp_eq, Sys.effect_setWarp]
    refine Eq.trans (b := ((s.sys.setEffect c.b.id true).block c.b.id).map Block.effect) ?_ ?_
    · rw [Ctx.block_id h.1]
      rfl
    · rw [Sys.effect_setEffect, Ctx.block_id h.1, hb]
      simp
  · have hcore' := Sys.core_setCore_same (y := s.sys.setEffect c.b.id true) (k := c.b.coreRef) htower hcore
      (Core.receive f.d.toNat (c.active f.guard).lanes.length)
    refine (congrArg Core.accSlots ((Sys.core_congr rfl c.b.coreRef).trans hcore')).trans ?_
    show updateWhere _ _ (s.sys.core c.b.coreRef).accSlots = _
    rw [hslots]
    exact updateWhere_append_cons (by simpa using hx) fun y hy => by simpa using hne y hy

theorem accumulationStarts : AccumulationStarts := by
  intro s f c e n k a count used here bad
  refine ⟨fun h ha ht => ?_, fun h he hr => ⟨fun hnone => ?_, fun x before later hslots hx hne => ⟨fun hfull => ?_, fun hroom hhere => ?_⟩⟩⟩
  · have hexec := execAccopen_of_issues h ha ht
    dsimp only at hexec
    have hbad : ((k.accSlot n).isSome || count == 0 || decide (4096 < count)) = true ↔ (∃ x ∈ k.accSlots, x.number = n) ∨ count = 0 ∨ 4096 < count := by
      simp [Core.accSlot_isSome_iff, or_assoc]
    refine ⟨fun hclosed => ?_, fun hfree hpos hle hfull => ?_, fun hfree hpos hroom hhere => ?_⟩
    · rw [hexec, if_pos (hbad.mpr hclosed)]
      rfl
    · have hgood : ¬ ((∃ x ∈ k.accSlots, x.number = n) ∨ count = 0 ∨ 4096 < count) := by
        rintro (⟨x, hx, hn⟩ | h0 | hlt)
        exacts [hfree x hx hn, hpos.ne' h0, hlt.not_ge hle]
      rw [hexec, if_neg (mt hbad.mp hgood), if_pos hfull]
      rfl
    · have hgood : ¬ ((∃ x ∈ k.accSlots, x.number = n) ∨ count = 0 ∨ 4096 < count) := by
        rintro (⟨x, hx, hn⟩ | h0 | hlt)
        exacts [hfree x hx hn, hpos.ne' h0, hlt.not_ge (le_trans (Nat.le_add_left _ _) hroom)]
      rw [if_neg (mt hbad.mp hgood), if_neg (not_lt.mpr hroom)] at hexec
      have hfill := translated_fillWindow s.phys s.sys c.b.coreRef c.b.asid (a / 65536)
      have hcores := sameCores_fillWindow s.phys s.sys c.b.coreRef c.b.asid (a / 65536)
      refine ⟨_, hexec, rfl, ?_, fun r => ?_⟩
      · have hcore' := Sys.core_setCore_same (y := fillWindow s.phys s.sys c.b.coreRef c.b.asid (a / 65536)) (k := c.b.coreRef)
          (hcores.length ▸ hhere.1) ((hcores.cores c.b.tower).symm ▸ hhere.2)
          (Core.openSlot { number := n, addr := a, asid := c.b.asid, count := count, block := c.b.id, barrier := f.c.toNat })
        refine (congrArg Core.accSlots ((Sys.core_congr rfl c.b.coreRef).trans hcore')).trans ?_
        rw [hcores.core]
        rfl
      · exact Sys.warp_completedOp_congr (Sys.warp_congr (Sys.block_congr hfill.blocks)) hfill.words r
  · have hexec := execAfaddo_of_issues h he hr
    dsimp only at hexec
    rw [hexec, Core.accSlot_eq_none_iff.mpr hnone]
    rfl
  · have hexec := execAfaddo_of_issues h he hr
    dsimp only at hexec
    rw [Core.accSlot_of_split hslots hx hne] at hexec
    dsimp only at hexec
    rw [hexec, if_pos hfull]
    rfl
  · exact afaddo_starts h he hr hslots hx hne hroom hhere.1 hhere.2

end Sys2Proof.Machine
end

section
/-! PROOFS. AccumulationSlots (O26): contributions reach their slot (R164), and the sum is stored (R165). -/

namespace Sys2Proof.Machine

open Sys2Proof.Claims

variable {s : State} {y y' : Sys} {k : CoreRef} {r : WarpRef} {b : Block} {w : Warp} {x : Op}

/-! ## Contributions accepted -/

/-- The blocks of two states have the same warps. -/
def SameWarps (y y' : Sys) : Prop := ∀ i, (y'.block i).map Block.warps = (y.block i).map Block.warps

theorem sameWarps_of_blocks (h : y'.blocks = y.blocks) : SameWarps y y' := fun i => by rw [Sys.block_congr h]

theorem SameWarps.trans {y'' : Sys} (h : SameWarps y y') (h' : SameWarps y' y'') : SameWarps y y'' := fun i => (h' i).trans (h i)

theorem sameWarps_setBlock {i : Nat} {g : Block → Block} (hid : ∀ b, (g b).id = b.id) (hwarps : ∀ b, (g b).warps = b.warps) :
    SameWarps y (y.setBlock i g) := fun j => by
  by_cases hj : j = i
  · rw [hj, Sys.block_setBlock_same y i g hid, Option.map_map]
    exact congrArg (fun h => (y.block i).map h) (funext hwarps)
  · rw [Sys.block_setBlock_other y i j g hid hj]

theorem SameWarps.block (h : SameWarps y y') {i : Nat} (hb : y.block i = some b) : ∃ b', y'.block i = some b' ∧ b'.warps = b.warps := by
  have hmap := h i
  rw [hb, Option.map_some, Option.map_eq_some_iff] at hmap
  exact hmap

theorem calm_of_warps {b' : Block} (h : b'.warps = b.warps) (hcalm : Calm b) : Calm b' := by
  rw [calm_iff] at hcalm ⊢
  rwa [h]

theorem Sys.setCore_length (y : Sys) (k : CoreRef) (g : Core → Core) : (y.setCore k g).towers.length = y.towers.length := Sys.setTower_length _ _ _

theorem Sys.setCore_cores_length (ht : k.tower < y.towers.length) (g : Core → Core) :
    ((y.setCore k g).tower k.tower).cores.length = (y.tower k.tower).cores.length := by
  rw [Sys.setCore, Sys.tower_setTower_same ht]
  simp

theorem sameCores_mapTowers {g : Tower → Tower} (hg : ∀ t, (g t).cores = t.cores) : SameCores y { y with towers := y.towers.map g } := by
  refine ⟨List.length_map _, fun i => ?_⟩
  cases h : y.towers[i]? <;> simp [Sys.tower, List.getD, h, hg]

theorem sameCores_mapBlock (y : Sys) (i : Nat) (g : Block → Block) : SameCores y (y.mapBlock i g) := by
  have h := sameCores_mapTowers (y := y.setBlock i g)
    (g := fun t => { t with saved := updateWhere (fun x => x.block.id == i) (fun x => { x with block := g x.block }) t.saved }) fun _ => rfl
  exact ⟨h.length, h.cores⟩

theorem block_mapBlock {i : Nat} {g : Block → Block} (j : Nat) : (y.mapBlock i g).block j = (y.setBlock i g).block j := rfl

/-- A contribution with its key (R164). -/
def contributionOf (b : Block) (rank : Nat) (v : Nat × Word) : Contribution :=
  { node := b.node.toNat, stage := b.stage, rank := rank, lane := v.1, value := v.2 }

/-- The contributions of a warp in a slot. -/
def AccSlot.accept (b : Block) (rank : Nat) (values : List (Nat × Word)) (a : AccSlot) : AccSlot :=
  { a with values := a.values ++ values.map (contributionOf b rank) }

theorem Sys.acceptContributions_of_open {n rank : Nat} {values : List (Nat × Word)} {a : AccSlot}
    (h : (y.core b.coreRef).accSlots.find? (fun a => a.number == n) = some a) : y.acceptContributions b rank n values =
      ((y.setAccSlot b.coreRef n (AccSlot.accept b rank values)).mapBlock a.block fun b => { b with effect := true }).setBlock b.id
        fun b => { b with usedSlots := NatSet.add b.usedSlots n } := by
  rw [Sys.acceptContributions, h]
  rfl

theorem sameWarps_acceptContributions {n rank : Nat} {values : List (Nat × Word)} : SameWarps y (y.acceptContributions b rank n values) := by
  cases h : (y.core b.coreRef).accSlots.find? fun a => a.number == n with
  | none =>
    rw [Sys.acceptContributions, h]
    exact sameWarps_of_blocks rfl
  | some a =>
    rw [Sys.acceptContributions_of_open h]
    have hopener : SameWarps (y.setAccSlot b.coreRef n (AccSlot.accept b rank values))
        ((y.setAccSlot b.coreRef n (AccSlot.accept b rank values)).mapBlock a.block fun b => { b with effect := true }) :=
      sameWarps_setBlock (g := fun b => { b with effect := true }) (fun _ => rfl) fun _ => rfl
    exact (SameWarps.trans (sameWarps_of_blocks rfl) hopener).trans (sameWarps_setBlock (fun _ => rfl) fun _ => rfl)

theorem accSlots_acceptContributions {n rank : Nat} {values : List (Nat × Word)} (ht : b.coreRef.tower < y.towers.length)
    (hk : b.coreRef.core < (y.tower b.coreRef.tower).cores.length) : ((y.acceptContributions b rank n values).core b.coreRef).accSlots =
      (y.core b.coreRef).accSlots.map fun a => if a.number = n then AccSlot.accept b rank values a else a := by
  cases h : (y.core b.coreRef).accSlots.find? fun a => a.number == n with
  | none =>
    rw [Sys.acceptContributions, h]
    conv_lhs => rw [← List.map_id (y.core b.coreRef).accSlots]
    exact List.map_congr_left fun a ha => (if_neg (by simpa using List.find?_eq_none.mp h a ha)).symm
  | some a =>
    rw [Sys.acceptContributions_of_open h, Sys.core_congr (Sys.setBlock_towers _ _ _), (sameCores_mapBlock _ _ _).core, Sys.setAccSlot,
      Sys.core_setCore_same ht hk]
    exact List.map_congr_left fun a _ => by simp

/-! ## The engine takes contributions -/

section Performed

variable {o : Phys} {t : Tx o} {n : Nat} {values : List (Nat × Word)} (id : Nat)

/-- Contributions accepted and their AFADDO finished, in a calm block. -/
theorem contributions_finish (hb : t.sys.block r.block = some b) (hw : b.warp r.rank = some w) (hcalm : Calm b) :
    let u := (t.map fun y => y.acceptContributions b r.rank n values).finish r id fun w => w
    u.phys = t.phys ∧ u.sys.warp r = some (finished w id) ∧ u.sys.towers = (t.sys.acceptContributions b r.rank n values).towers := by
  obtain ⟨b', hb', hwarps⟩ := (sameWarps_acceptContributions (b := b) (n := n) (rank := r.rank) (values := values)).block hb
  have hw' : b'.warp r.rank = some w := by
    rw [Block.warp, hwarps]
    exact hw
  obtain ⟨hphys, hsame⟩ := finish_of_calm (t := t.map fun y => y.acceptContributions b r.rank n values) (r := r) hb' hw'
    (calm_of_warps hwarps hcalm) id SameSlots.refl
  refine ⟨hphys, ?_, hsame.towers⟩
  rw [hsame.warp, Sys.warp_setWarp_same _ _ fun w => Warp.dropOp_rank w id, Tx.map_sys, Sys.warp, hb', Option.bind_some, hw']
  rfl

end Performed

/-- The engine of a core has taken no instruction further, and has performed one in this cycle. -/
def Core.accepted (now : Nat) (k : Core) : Core := { k with taking := none, newLines := [], acceptedAt := some now }

/-- The engine of a core has taken an instruction that needs no line, and goes on to perform it. -/
def Sys.engineTakes (y : Sys) (k : CoreRef) (r : WarpRef) (id : Nat) : Sys :=
  (y.setCore k fun q => { q with taking := some (r, id) }).setCore k (Core.accepted (y.tower k.tower).clock.toNat)

theorem Sys.accSlots_engineTakes (ht : k.tower < y.towers.length) (hk : k.core < (y.tower k.tower).cores.length) (r : WarpRef) (id : Nat) :
    ((y.engineTakes k r id).core k).accSlots = (y.core k).accSlots := by
  rw [Sys.engineTakes, Sys.core_setCore_same (by rwa [Sys.setCore_length]) (by rwa [Sys.setCore_cores_length ht]), Sys.core_setCore_same ht hk]
  rfl

theorem Sys.engineTakes_inRange (ht : k.tower < y.towers.length) (hk : k.core < (y.tower k.tower).cores.length) (r : WarpRef) (id : Nat) :
    k.tower < (y.engineTakes k r id).towers.length ∧ k.core < ((y.engineTakes k r id).tower k.tower).cores.length := by
  rw [Sys.engineTakes, Sys.setCore_length, Sys.setCore_length, Sys.setCore_cores_length (by rwa [Sys.setCore_length]), Sys.setCore_cores_length ht]
  exact ⟨ht, hk⟩

theorem execAtomicEngineAccept_contribute {n : Nat} {values : List (Nat × Word)} (hnext : s.sys.nextAtomic k = some (r, x)) (hbody : x.body = .contribute n values)
    (hb : s.sys.block r.block = some b) (hnow : (s.sys.core k).acceptedAt ≠ some (s.sys.tower k.tower).clock.toNat) :
    exec (.atomicEngineAccept k) s = .next ((((Tx.start s).map fun y => y.engineTakes k r x.id).map fun y =>
      y.acceptContributions b r.rank n values).finish r x.id fun w => w).state := by
  have hlines : x.lines = [] := by rw [Op.lines, hbody]
  have hbytes : x.scratchpadBytes = 0 := by rw [Op.scratchpadBytes, hbody]
  have hwait : ((s.sys.core k).acceptedAt == some (s.sys.tower k.tower).clock.toNat) = false := beq_eq_false_iff_ne.mpr hnow
  have hperform : ∀ {o : Phys} (t : Tx o), t.sys.block r.block = some b → t.performAtomic r x =
      (t.map fun y => y.acceptContributions b r.rank n values).finish r x.id fun w => w := fun t ht => by
    rw [Tx.performAtomic, hbody]
    dsimp only
    rw [ht]
  change execAtomicEngineAccept k s = _
  unfold execAtomicEngineAccept work
  dsimp only
  rw [Tx.start_sys, hwait, if_neg Bool.false_ne_true, hnext]
  dsimp only
  rw [hlines, hbytes, Sys.claimLines]
  dsimp only
  rw [show (!true || !(s.sys.setCore k fun q => { q with taking := some (r, x.id) }).mayMove k 0) = false from rfl, if_neg Bool.false_ne_true,
    hperform _ hb]
  rfl

/-- AFADDO is performed: its contributions reach their slot with the key of their node, stage, rank and lane (R164). -/
theorem contributions_reach {n : Nat} {values : List (Nat × Word)} (h : Resident s r b w) (hcore : b.coreRef = k)
    (hnext : s.sys.nextAtomic k = some (r, x)) (hbody : x.body = .contribute n values) (ht : k.tower < s.sys.towers.length)
    (hk : k.core < (s.sys.tower k.tower).cores.length) (hnow : (s.sys.core k).acceptedAt ≠ some (s.sys.tower k.tower).clock.toNat) :
    ∃ t, exec (.atomicEngineAccept k) s = .next t ∧ t.phys = s.phys ∧ t.sys.warp r = some (finished w x.id) ∧
      (t.sys.core k).accSlots = (s.sys.core k).accSlots.map fun a => if a.number = n then AccSlot.accept b r.rank values a else a := by
  obtain ⟨hb, hw, hcalm⟩ := h
  have hb' : (s.sys.engineTakes k r x.id).block r.block = some b := hb
  obtain ⟨ht', hk'⟩ := Sys.engineTakes_inRange ht hk r x.id
  have hslots := accSlots_acceptContributions (y := s.sys.engineTakes k r x.id) (b := b) (n := n) (rank := r.rank) (values := values)
    (by rwa [hcore]) (by rwa [hcore])
  rw [hcore, Sys.accSlots_engineTakes ht hk] at hslots
  have hexec := execAtomicEngineAccept_contribute hnext hbody hb hnow
  have hfinish := contributions_finish (t := (Tx.start s).map fun y => y.engineTakes k r x.id) (n := n) (values := values) x.id hb' hw hcalm
  generalize (((Tx.start s).map fun y => y.engineTakes k r x.id).map fun y => y.acceptContributions b r.rank n values).finish r x.id
    (fun w => w) = u at hexec hfinish
  obtain ⟨hphys, hwarp, htowers⟩ := hfinish
  exact ⟨_, hexec, hphys, hwarp, (congrArg Core.accSlots (Sys.core_congr htowers k)).trans hslots⟩

end Sys2Proof.Machine
end

section
/-! PROOFS. AccumulationSlots (O26): the sum of a slot is stored, its barrier arrived on, and the slot closed (R165); and the statement. -/

namespace Sys2Proof.Machine

open Sys2Proof.Claims

variable {s : State} {y : Sys} {k : CoreRef} {b : Block} {i n : Nat}

/-! ## Barriers of a block -/

/-- A barrier of a block after one has been changed. -/
theorem Block.barrier_setBarrier (b : Block) (m : Nat) (g : Barrier → Barrier) (h : n < 10) :
    (b.setBarrier m g).barrier n = if n = m then g (b.barrier n) else b.barrier n := by
  show ((List.range 10).map fun i => if i == m then g (b.barrier i) else b.barrier i).getD n {} = _
  simp [List.getD, h]

/-! ## A slot that closes -/

theorem Sys.block_mapBlocks {g : Block → Block} (hg : ∀ b, (g b).id = b.id) : ({ y with blocks := y.blocks.map g } : Sys).block i = (y.block i).map g := by
  show (y.blocks.map g).find? _ = _
  rw [List.find?_map]
  exact congrArg (Option.map g) (congrArg (fun q => y.blocks.find? q) (funext fun b => by simp [hg]))

/-- What a closing slot changes of a block: its users, and the contributions that no longer reach it. -/
def Block.closeSlot (k : CoreRef) (n : Nat) (b : Block) : Block :=
  let b1 := if b.coreRef == k then { b with usedSlots := NatSet.del b.usedSlots n } else b
  if b1.coreRef == k then { b1 with warps := b1.warps.map fun w => w.dropContributions n } else b1

theorem Block.closeSlot_id (b : Block) : (b.closeSlot k n).id = b.id := by
  cases h : b.coreRef == k <;> simp [Block.closeSlot, h, apply_ite Block.id]

theorem Block.closeSlot_barriers (b : Block) : (b.closeSlot k n).barriers = b.barriers := by
  cases h : b.coreRef == k <;> simp [Block.closeSlot, h, apply_ite Block.barriers]

/-- A core without a slot. -/
def Core.dropSlot (n : Nat) (k : Core) : Core := { k with accSlots := k.accSlots.filter fun x => x.number != n }

theorem Sys.block_closeSlot : (y.closeSlot k n).block i = (y.block i).map (Block.closeSlot k n) := by
  have h := Sys.block_mapBlocks (y := y) (i := i) (g := Block.closeSlot k n) Block.closeSlot_id
  have hblocks : (y.closeSlot k n).blocks = y.blocks.map (Block.closeSlot k n) := by
    show (y.blocks.map _).map _ = _
    rw [List.map_map]
    rfl
  rw [← h]
  exact Sys.block_congr hblocks i

theorem Sys.accSlots_closeSlot (ht : k.tower < y.towers.length) (hk : k.core < (y.tower k.tower).cores.length) :
    ((y.closeSlot k n).core k).accSlots = (y.core k).accSlots.filter fun x => x.number != n := by
  have hcores : SameCores (y.setCore k (Core.dropSlot n)) ((y.setCore k (Core.dropSlot n)).forgetSlot k n) := by
    have h := sameCores_mapTowers (y := y.setCore k (Core.dropSlot n)) (g := fun t => { t with saved := t.saved.map fun x =>
      { x with block := if x.block.coreRef == k then { x.block with usedSlots := NatSet.del x.block.usedSlots n } else x.block } }) fun _ => rfl
    exact ⟨h.length, h.cores⟩
  have hcore := hcores.core k
  rw [Sys.core_setCore_same ht hk] at hcore
  exact congrArg Core.accSlots hcore

theorem filter_number_of_split {a : AccSlot} {before later : List AccSlot} (hne : ∀ y ∈ before ++ later, y.number ≠ a.number) :
    (before ++ a :: later).filter (fun x => x.number != a.number) = before ++ later := by
  have hkeep : ∀ l : List AccSlot, (∀ y ∈ l, y.number ≠ a.number) → l.filter (fun x => x.number != a.number) = l := fun l hl =>
    List.filter_eq_self.mpr fun y hy => bne_iff_ne.mpr (hl y hy)
  rw [List.filter_append, List.filter_cons_of_neg (by simp), hkeep before fun y hy => hne y (List.mem_append_left _ hy),
    hkeep later fun y hy => hne y (List.mem_append_right _ hy)]

/-! ## The sum is done -/

/-- A block with one more arrival at a barrier (R165, R167). -/
def Block.arriveOnce (bar : Nat) (b : Block) : Block := b.setBarrier bar fun x => x.arrive 1

theorem execAccSlotSumDone_of_full {a : AccSlot} {pa : Nat} (hfind : (s.sys.core k).accSlot a.number = some a) (hfull : a.values.length = a.count)
    (ht : translateWindow s.phys s.sys k a.asid a.addr = some pa) : exec (.accSlotSumDone k a.number) s =
      .next (((Tx.start s).storeNum pa 4 (slotSum a.values).toNat).map fun y =>
        (y.mapBlock a.block (Block.arriveOnce a.barrier)).closeSlot k a.number).state := by
  rw [Core.accSlot] at hfind
  change execAccSlotSumDone k a.number s = _
  unfold execAccSlotSumDone work
  dsimp only
  rw [Tx.start_sys, Tx.start_phys, hfind]
  dsimp only
  rw [hfull, bne_self_eq_false, if_neg Bool.false_ne_true, ht]
  rfl

theorem Tx.store_sys {o : Phys} (t : Tx o) (pa : Nat) (bs : List Byte) : (t.store pa bs).sys = t.sys := by
  have hlift : ∀ u (t : Tx o), (t.liftUnit pa bs.length u).sys = t.sys := fun u t => by
    unfold Tx.liftUnit
    split <;> simp
  have hput : ∀ j (t : Tx o), (t.putByte pa bs j).sys = t.sys := fun j t => by
    unfold Tx.putByte
    split <;> simp
  rw [Tx.store_eq]
  refine (List.foldlRecOn (motive := fun u => u.sys = t.sys) _ _ ?_ fun u hu j _ => (hput j u).trans hu)
  exact List.foldlRecOn (motive := fun u => u.sys = t.sys) _ _ rfl fun u hu j _ => (hlift j u).trans hu

theorem slotSum_stored {a : AccSlot} {before later : List AccSlot} {pa : Nat} (hslots : (s.sys.core k).accSlots = before ++ a :: later)
    (hne : ∀ y ∈ before ++ later, y.number ≠ a.number) (hfull : a.values.length = a.count)
    (htr : translateWindow s.phys s.sys k a.asid a.addr = some pa) (hpoison : s.phys.poison = []) (ht : k.tower < s.sys.towers.length)
    (hk : k.core < (s.sys.tower k.tower).cores.length) (hb : s.sys.block a.block = some b) (hbar : a.barrier < 10) :
    ∃ t b', exec (.accSlotSumDone k a.number) s = .next t ∧ t.phys.num pa 4 = (slotSum a.values).toNat ∧
      (∀ q, q < pa ∨ pa + 4 ≤ q → t.phys.byte q = s.phys.byte q) ∧ (t.sys.core k).accSlots = before ++ later ∧
      t.sys.block a.block = some b' ∧ b'.barrier a.barrier = (b.barrier a.barrier).arrive 1 := by
  have hfind := Core.accSlot_of_split hslots rfl hne
  have hexec := execAccSlotSumDone_of_full hfind hfull htr
  have hsys : ((Tx.start s).storeNum pa 4 (slotSum a.values).toNat).sys = s.sys := Tx.store_sys _ _ _
  have hcores := sameCores_mapBlock s.sys a.block (Block.arriveOnce a.barrier)
  have hblock : ((s.sys.mapBlock a.block (Block.arriveOnce a.barrier)).closeSlot k a.number).block a.block =
      some (Block.closeSlot k a.number (b.arriveOnce a.barrier)) := by
    rw [Sys.block_closeSlot, block_mapBlock, Sys.block_setBlock_same _ _ (Block.arriveOnce a.barrier) fun _ => rfl, hb]
    rfl
  have haccs : (((s.sys.mapBlock a.block (Block.arriveOnce a.barrier)).closeSlot k a.number).core k).accSlots = before ++ later := by
    rw [Sys.accSlots_closeSlot (hcores.length.symm ▸ ht) ((hcores.cores k.tower).symm ▸ hk), hcores.core, hslots, filter_number_of_split hne]
  have hnum : ((Tx.start s).storeNum pa 4 (slotSum a.values).toNat).phys.num pa 4 = (slotSum a.values).toNat := by
    refine (Tx.storeNum_num _ _ _ _ (List.any_eq_false.mpr fun i _ => ?_)).trans (Nat.mod_eq_of_lt (slotSum a.values).isLt)
    simp [Phys.poisoned, NatSet.has, hpoison]
  have hbyte : ∀ q, q < pa ∨ pa + 4 ≤ q → ((Tx.start s).storeNum pa 4 (slotSum a.values).toNat).phys.byte q = s.phys.byte q := fun q hq =>
    Tx.store_byte_outside _ _ _ (by rwa [natToBytes_length])
  have hbarrier : (Block.closeSlot k a.number (b.arriveOnce a.barrier)).barrier a.barrier = (b.barrier a.barrier).arrive 1 := by
    rw [Block.barrier, Block.closeSlot_barriers]
    exact (b.barrier_setBarrier a.barrier _ hbar).trans (if_pos rfl)
  generalize (Tx.start s).storeNum pa 4 (slotSum a.values).toNat = t at hexec hsys hnum hbyte
  rw [← hsys] at hblock haccs
  refine ⟨_, _, hexec, ?_, ?_, haccs, hblock, hbarrier⟩
  · rwa [Tx.state_phys, Tx.map_phys]
  · rwa [Tx.state_phys, Tx.map_phys]

theorem accumulationSums : AccumulationSums := by
  refine ⟨fun s k r b w x n values h _ hcore hnext hbody ht hk hnow => ?_, fun xs ys => slotSum_of_perm, fun xs x => slotSum_concat, by decide,
    fun s k a before later pa b => slotSum_stored⟩
  exact contributions_reach h hcore hnext hbody ht hk hnow

/-- Settles O26: the instructions at issue, and the sum of a slot. -/
theorem accumulationSlots : Obligations.AccumulationSlots := ⟨accumulationStarts, accumulationSums⟩

end Sys2Proof.Machine
end

section
/-! PROOFS. Synchronisation (O27): FENCE, WAITC and BWAIT (R160, R168, R170, R185). -/

namespace Sys2Proof.Machine

open Sys2Proof.Claims

variable {s : State} {f : Fields} {c : Ctx}

/-! ## The conditions that they wait for -/

theorem Sys.warpCards_iff {y : Sys} : y.warpCards c = true ↔
    (∃ x ∈ (y.core c.b.coreRef).cards, x.block = c.b.id ∧ x.rank = c.w.rank) ∨ ∃ q, (y.core c.b.coreRef).kick = some q ∧ q.warp = c.ref := by
  cases h : (y.core c.b.coreRef).kick <;> simp [Sys.warpCards, h]

theorem waitPath_eq {sub : BitVec 4} (h : sub.toNat ≤ 4) : waitPath sub = [Path.ldb, .ldt, .ldl, .atom, .mma].getD sub.toNat .mma := by
  obtain h0 | h0 | h0 | h0 | h0 : sub.toNat = 0 ∨ sub.toNat = 1 ∨ sub.toNat = 2 ∨ sub.toNat = 3 ∨ sub.toNat = 4 := by omega
  all_goals
    rw [waitPath, h0]
    rfl

/-! ## At issue -/

theorem execFence_of_issues (h : Issues .fence f s c) : exec (.fence f) s =
    .next (if !c.w.drained || (4 ≤ f.scopeCode && s.sys.warpCards c) then waiting s c .fence else after s c c.w) := by
  refine (issue_of_issues h _).trans (congrArg Host.Outcome.next ?_)
  dsimp only [Tx.map, Tx.state, Tx.start]
  split <;> rfl

theorem execWaitc_of_issues (h : Issues .waitc f s c) : exec (.waitc f) s =
    .next (if (scalarB c.w f (immUnsigned f)).toNat < c.w.inFlight (waitPath f.sub) then waiting s c .waitc else after s c c.w) := by
  refine (issue_of_issues h _).trans (congrArg Host.Outcome.next ?_)
  rw [← show bScalar c.w f .zero = scalarB c.w f (immUnsigned f) from bScalar_eq c.w f .zero]
  dsimp only [Tx.map, Tx.state, Tx.start]
  split <;> rfl

theorem execBwait_of_issues (h : Issues .bwait f s c) : exec (.bwait f) s =
    if (c.b.barrier f.d.toNat).count != 0 then .next (waiting s c .bwait)
    else if (c.b.barrier f.d.toNat).under then raised s c { cause := .barUnderflow, resume := c.active f.guard, addr := f.d.toNat }
    else .next (after s c c.w) := by
  refine (issue_of_issues h _).trans ?_
  dsimp only
  split
  · rfl
  · split <;> rfl

theorem fencesAndWaits : FencesAndWaits := by
  intro s f c drained k cards path b
  have hdrained : c.w.drained = true ↔ drained := Warp.drained_iff
  have hcards : s.sys.warpCards c = true ↔ cards := Sys.warpCards_iff
  have hfence : (!c.w.drained || (4 ≤ f.scopeCode && s.sys.warpCards c)) = true ↔ ¬ drained ∨ (4 ≤ f.scopeCode ∧ cards) := by
    rw [Bool.or_eq_true, Bool.not_eq_true', ← Bool.not_eq_true, hdrained, Bool.and_eq_true, hcards, decide_eq_true_eq]
  refine ⟨fun h hd hc => ?_, fun h hw => ?_, fun h hsub => ?_, fun h => ⟨fun hcount => ?_, fun hcount hunder => ?_, fun hcount hunder => ?_⟩⟩
  · rw [execFence_of_issues h, if_neg]
    exact fun hw => (hfence.mp hw).elim (absurd hd) fun hwait => hc hwait.1 hwait.2
  · rw [execFence_of_issues h, if_pos (hfence.mpr hw)]
  · rw [execWaitc_of_issues h, waitPath_eq hsub]
    exact ⟨fun hle => congrArg _ (if_neg (not_lt.mpr hle)), fun hlt => congrArg _ (if_pos hlt)⟩
  all_goals rw [execBwait_of_issues h]
  · exact if_pos (bne_iff_ne.mpr hcount)
  all_goals rw [if_neg (by simpa using hcount)]
  · exact if_pos hunder
  · exact if_neg (by simpa using hunder)

end Sys2Proof.Machine
end

section
/-! PROOFS. Synchronisation (O27): BARSET and BARARR (R166, R167), and the completion of a load (R156), which both it and O24 use. -/

namespace Sys2Proof.Machine

open Sys2Proof.Claims

variable {s : State} {f : Fields} {c : Ctx} {y : Sys} {r : WarpRef} {b : Block} {w v : Warp} {x : Op}

/-! ## Arrivals that are performed -/

theorem readyArrivals_nonaccess {xs : List Op} {a : Op} {k n : Nat} (h : ∀ x ∈ xs, x.isAccess = false ∧ ∀ k m, x.body ≠ .arrive k m)
    (ha : a.body = .arrive k n) : readyArrivals (xs ++ [a]) = [(k, n, a.id)] := by
  induction xs with
  | nil => rw [List.nil_append, readyArrivals, ha, readyArrivals]
  | cons x xs ih =>
    obtain ⟨hx, hxs⟩ := List.forall_mem_cons.mp h
    rw [List.cons_append, readyArrivals]
    split
    · next k m heq => exact absurd heq (hx.2 k m)
    · rw [hx.1, if_neg Bool.false_ne_true, ih hxs]

theorem readyArrivals_access {xs : List Op} (h : x.isAccess = true) (hbody : ∀ k m, x.body ≠ .arrive k m) : readyArrivals (x :: xs) = [] := by
  rw [readyArrivals]
  split
  · next k m heq => exact absurd heq (hbody k m)
  · rw [if_pos h]

theorem flushArrivals_of_none (hw : y.warp r = some w) (h : readyArrivals w.ops = []) : y.flushArrivals r = y := by
  rw [Sys.flushArrivals, hw]
  dsimp only
  rw [h]
  rfl

theorem flushArrivals_of_one {k n i : Nat} (hw : y.warp r = some w) (h : readyArrivals w.ops = [(k, n, i)]) :
    y.flushArrivals r = (y.arriveAt r.block k n).setWarp r fun w => w.dropOp i := by
  rw [Sys.flushArrivals, hw]
  dsimp only
  rw [h]
  rfl

/-- A block after an arrival of one of its warps. -/
def Block.arrived (rank k n i : Nat) (b : Block) : Block := (b.setBarrier k fun x => x.arrive n).setWarp rank fun w => w.dropOp i

theorem block_arriveAt_setWarp {k n i : Nat} (hb : y.block r.block = some b) :
    ((y.arriveAt r.block k n).setWarp r fun w => w.dropOp i).block r.block = some (b.arrived r.rank k n i) := by
  rw [Sys.block_setWarp_same, Sys.arriveAt, Sys.block_setBlock_same _ _ (fun b => b.setBarrier k fun x => x.arrive n) fun _ => rfl, hb]
  rfl

theorem Block.warp_arrived {rank k n i : Nat} (hw : b.warp rank = some w) : (b.arrived rank k n i).warp rank = some (w.dropOp i) := by
  rw [Block.arrived, Block.warp_setWarp_same _ _ fun w => Warp.dropOp_rank w i]
  exact congrArg (Option.map _) hw

theorem Block.barrier_arrived {rank k n i j : Nat} (hj : j < 10) : (b.arrived rank k n i).barrier j =
    if j ≠ k then b.barrier j
    else if (b.barrier k).count.toNat < n then { count := 0, under := true }
    else { count := BitVec.ofNat 32 ((b.barrier k).count.toNat - n), under := (b.barrier k).under } := by
  have hset := b.barrier_setBarrier k (fun x => x.arrive n) hj
  refine hset.trans ?_
  by_cases hjk : j = k
  · rw [if_pos hjk, if_neg (not_not.mpr hjk), hjk]
    rfl
  · rw [if_neg hjk, if_pos hjk]

/-- A count of a word is subtracted, or goes under (R167). -/
theorem arrive_toNat (q : Barrier) (n : Word) : (if q.count.toNat < n.toNat then { count := 0, under := true }
      else { count := BitVec.ofNat 32 (q.count.toNat - n.toNat), under := q.under } : Barrier) =
    if q.count.ult n then { count := 0, under := true } else { count := q.count - n, under := q.under } := by
  by_cases h : q.count.toNat < n.toNat
  · rw [if_pos h, if_pos (by simpa [BitVec.ult] using h)]
  · rw [if_neg h, if_neg (by simpa [BitVec.ult] using h)]
    congr 1
    apply BitVec.eq_of_toNat_eq
    rw [BitVec.toNat_ofNat, BitVec.toNat_sub_of_le (BitVec.le_def.mpr (not_lt.mp h)), Nat.mod_eq_of_lt]
    exact lt_of_le_of_lt (Nat.sub_le _ _) q.count.isLt

/-! ## BARSET and BARARR at issue -/

/-- A block with a barrier set to a count (R166). -/
def Block.resetBarrier (k : Nat) (n : Word) (b : Block) : Block := b.setBarrier k fun _ => { count := n, under := false }

theorem execBarset_of_issues (h : Issues .barset f s c) : exec (.barset f) s = .next { s with
    sys := (s.sys.setBlock c.b.id (Block.resetBarrier f.d.toNat ((scalarB c.w f (immUnsigned f)).setWidth 32))).setWarp c.ref
      (fun w => w.setSlot c.z fun z => z.step s.sys.words) } := by
  rw [← show bScalar c.w f .zero = scalarB c.w f (immUnsigned f) from bScalar_eq c.w f .zero]
  exact issue_of_issues h _

theorem barset_sets (h : Issues .barset f s c) : ∃ t b', exec (.barset f) s = .next t ∧ t.phys = s.phys ∧ t.sys.block c.ref.block = some b' ∧
    (∀ k, k < 10 → b'.barrier k = if k = f.d.toNat then { count := (scalarB c.w f (immUnsigned f)).setWidth 32, under := false } else c.b.barrier k) ∧
    b'.warp c.ref.rank = (after s c c.w).sys.warp c.ref := by
  obtain ⟨-, hb, hw⟩ := Sys.issuing_some h.1
  obtain ⟨n, hn⟩ : ∃ n : Word, n = (scalarB c.w f (immUnsigned f)).setWidth 32 := ⟨_, rfl⟩
  have hexec := execBarset_of_issues h
  rw [← hn] at hexec ⊢
  refine ⟨_, (c.b.resetBarrier f.d.toNat n).setWarp c.ref.rank fun w => w.setSlot c.z fun z => z.step s.sys.words, hexec, rfl, ?_, fun k hk => ?_, ?_⟩
  · dsimp only
    rw [Sys.block_setWarp_same, Ctx.block_id h.1, Sys.block_setBlock_same _ _ (Block.resetBarrier f.d.toNat n) fun _ => rfl, hb]
    rfl
  · exact c.b.barrier_setBarrier f.d.toNat (fun _ => { count := n, under := false }) hk
  · rw [warp_after h.1 rfl, Block.warp_setWarp_same _ _ (by simp)]
    exact congrArg (Option.map _) hw

/-- The state in which an arrival of the issuing warp is outstanding, and its slot at the next instruction. -/
def Sys.addArrival (y : Sys) (c : Ctx) (bar n : Nat) : Sys :=
  y.counted.setWarp c.ref fun w =>
    ({ w with ops := w.ops ++ [{ id := y.fresh, slot := c.z, flag := none, path := none, body := .arrive bar n }] } : Warp).setSlot c.z
      fun z => z.step y.words

theorem execBararr_of_issues (h : Issues .bararr f s c) : exec (.bararr f) s = .next { s with
    sys := (s.sys.addArrival c f.d.toNat ((scalarB c.w f (immUnsigned f)).setWidth 32 : Word).toNat).flushArrivals c.ref } := by
  rw [← show bScalar c.w f .zero = scalarB c.w f (immUnsigned f) from bScalar_eq c.w f .zero]
  exact issue_of_issues h _

/-- The issuing warp with an arrival outstanding, its slot at the next instruction. -/
def withArrival (s : State) (c : Ctx) (bar n : Nat) : Warp :=
  ({ c.w with ops := c.w.ops ++ [{ id := s.sys.fresh, slot := c.z, flag := none, path := none, body := .arrive bar n }] } : Warp).setSlot c.z
    fun z => z.step s.sys.words

theorem withArrival_ops (bar n : Nat) : (withArrival s c bar n).ops =
    c.w.ops ++ [{ id := s.sys.fresh, slot := c.z, flag := none, path := none, body := .arrive bar n }] := by simp [withArrival]

theorem block_addArrival (hc : s.sys.issuing = some c) (bar n : Nat) : ∃ b', (s.sys.addArrival c bar n).block c.ref.block = some b' ∧
    b'.barriers = c.b.barriers ∧ b'.warp c.ref.rank = some (withArrival s c bar n) := by
  obtain ⟨-, hb, hw⟩ := Sys.issuing_some hc
  refine ⟨_, (Sys.block_setWarp_same _ _ _).trans (congrArg (Option.map _) hb), rfl, ?_⟩
  rw [Block.warp_setWarp_same _ _ (by simp), hw]
  rfl

theorem Sys.warp_eq (hb : y.block r.block = some b) : y.warp r = b.warp r.rank := by rw [Sys.warp, hb, Option.bind_some]

/-- BARARR with no earlier access outstanding arrives at once (R167). -/
theorem bararr_arrives (h : Issues .bararr f s c) (hops : ∀ x ∈ c.w.ops, x.path = none ∧ x.isStore = false ∧ ∀ k m, x.body ≠ .arrive k m) :
    let n : Word := (scalarB c.w f (immUnsigned f)).setWidth 32
    ∃ t b', exec (.bararr f) s = .next t ∧ t.phys = s.phys ∧ t.sys.block c.ref.block = some b' ∧
      (∀ k, k < 10 → b'.barrier k = if k ≠ f.d.toNat then c.b.barrier k
        else if (c.b.barrier k).count.ult n then { count := 0, under := true }
        else { count := (c.b.barrier k).count - n, under := (c.b.barrier k).under }) ∧
      ∃ v, b'.warp c.ref.rank = some v ∧ v.slot c.z = { c.slot with pc := nextPc s c, left := c.slot.left - 1, resume := none, hold := .none } := by
  intro n
  obtain ⟨b1, hb1, hbarriers, hw1⟩ := block_addArrival h.1 f.d.toNat n.toNat
  have hready : readyArrivals (withArrival s c f.d.toNat n.toNat).ops = [(f.d.toNat, n.toNat, s.sys.fresh)] := by
    rw [withArrival_ops]
    refine readyArrivals_nonaccess (fun x hx => ?_) rfl
    obtain ⟨hpath, hstore, hbody⟩ := hops x hx
    exact ⟨by rw [Op.isAccess, hpath, hstore]; rfl, hbody⟩
  have hexec := execBararr_of_issues h
  rw [flushArrivals_of_one ((Sys.warp_eq hb1).trans hw1) hready] at hexec
  refine ⟨_, _, hexec, rfl, block_arriveAt_setWarp hb1, fun k hk => ?_, _, Block.warp_arrived hw1, ?_⟩
  · rw [Block.barrier_arrived hk, Block.barrier, Block.barrier, hbarriers]
    by_cases hkd : k = f.d.toNat
    · subst hkd
      rw [if_neg (not_not.mpr rfl), if_neg (not_not.mpr rfl)]
      exact arrive_toNat _ n
    · rw [if_pos hkd, if_pos hkd]
      rfl
  · obtain ⟨r, z, b, w⟩ := c
    cases z <;> rfl

/-- BARARR behind an access is outstanding, and arrives nowhere yet (R167). -/
theorem bararr_waits (h : Issues .bararr f s c) {x : Op} {rest : List Op} (hops : c.w.ops = x :: rest) (hx : x.path ≠ none ∨ x.isStore = true)
    (hbody : ∀ k m, x.body ≠ .arrive k m) :
    let n : Word := (scalarB c.w f (immUnsigned f)).setWidth 32
    ∃ t, exec (.bararr f) s = .next t ∧ t.phys = s.phys ∧ (t.sys.block c.ref.block).map Block.barriers = some c.b.barriers ∧
      t.sys.warp c.ref = some (Warp.setSlot
        { c.w with ops := c.w.ops ++ [{ id := s.sys.fresh, slot := c.z, flag := none, path := none, body := .arrive f.d.toNat n.toNat }] }
        c.z fun z => { z with pc := nextPc s c, left := z.left - 1, resume := none, hold := .none }) := by
  intro n
  obtain ⟨b1, hb1, hbarriers, hw1⟩ := block_addArrival h.1 f.d.toNat n.toNat
  have haccess : x.isAccess = true := by
    rw [Op.isAccess, Bool.or_eq_true, Option.isSome_iff_ne_none]
    exact hx
  have hready : readyArrivals (withArrival s c f.d.toNat n.toNat).ops = [] := by
    rw [withArrival_ops, hops, List.cons_append]
    exact readyArrivals_access haccess hbody
  have hexec := execBararr_of_issues h
  have hwarp := (Sys.warp_eq hb1).trans hw1
  rw [flushArrivals_of_none hwarp hready] at hexec
  refine ⟨_, hexec, rfl, ?_, hwarp.trans (congrArg some ?_)⟩
  · show ((s.sys.addArrival c f.d.toNat n.toNat).block c.ref.block).map _ = _
    rw [hb1, Option.map_some, hbarriers]
  · obtain ⟨r, z, b, w⟩ := c
    cases z <;> rfl

/-! ## The completion of a load -/

theorem sameSlots_putLoaded (w : Warp) (dst l : Nat) (wide : Bool) (z : DWord) (bad : Bool) : SameSlots w (w.putLoaded dst l wide z bad) := by
  cases bad <;> cases wide <;> exact ⟨rfl, rfl, rfl, rfl, rfl⟩

/-- The elements of a load as its warp sees them. -/
def loadedValues (p : Phys) (y : Sys) (b : Block) (w : Warp) (id : Nat) (sp : Space) (n : Nat) (lanes : List (Nat × Nat)) : List (Nat × Nat × Bool) :=
  lanes.map fun x => (x.1, loadedElement p y b w id sp n x)

/-- A warp with the elements of a load. -/
def Warp.putValues (dst : Nat) (z : LoadSize) (vals : List (Nat × Nat × Bool)) (w : Warp) : Warp :=
  vals.foldl (fun w v => w.putLoaded dst v.1 (z == .pair) (widenLoad z v.2.1) v.2.2) w

theorem sameSlots_putValues (dst : Nat) (z : LoadSize) (vals : List (Nat × Nat × Bool)) (w : Warp) : SameSlots w (w.putValues dst z vals) :=
  sameSlots_foldl (fun w _ => sameSlots_putLoaded w _ _ _ _ _) w vals

theorem Tx.eccFinding_clean {o : Phys} (t : Tx o) (u : EccUnit) : t.eccFinding u .clean = t := by
  unfold Tx.eccFinding
  dsimp only
  split <;> rfl

/-- The free bytes of a state taken up to a point. -/
def Sys.takeFree (n : Nat) (y : Sys) : Sys := { y with free := n }

/-- A load that may move its bytes completes: it writes what its warp sees, and a block after its TAKE consumes free bytes. -/
theorem loadCompletion {sp : Space} {z : LoadSize} {dst : Nat} {lanes : List (Nat × Nat)} {pages : List Nat} (hb : s.sys.block r.block = some b)
    (hw : b.warp r.rank = some w) (hx : w.op x.id = some x) (hheld : w.heldBack x = false) (hbody : x.body = .load sp z dst lanes pages)
    (hmove : s.sys.mayMove b.coreRef x.scratchpadBytes = true) (hmoved : s.sys.moved b.coreRef x.scratchpadBytes = s.sys) :
    ∃ free, exec (.loadStoreCompletion r x.id .clean) s = .next (((Tx.start s).map (Sys.takeFree free)).finish r x.id
      (Warp.putValues dst z (loadedValues s.phys s.sys b w x.id sp z.bytes lanes))).state := by
  have hwarp : s.sys.warp r = some w := (Sys.warp_eq hb).trans hw
  have hstart : ((Tx.start s).map fun y => y.moved b.coreRef x.scratchpadBytes) = Tx.start s := by
    rw [Tx.map, Tx.start_sys, hmoved]
    rfl
  refine ⟨if b.handedBack s.sys then s.sys.free + 512 else s.sys.free, ?_⟩
  change execLoadStoreCompletion r x.id .clean s = _
  unfold execLoadStoreCompletion work
  dsimp only
  rw [Tx.start_sys, hwarp]
  dsimp only
  rw [hx]
  dsimp only
  rw [hheld, hb, Option.map_some, Option.getD_some, hmove, hbody, Bool.not_true, Bool.or_false,
    if_neg Bool.false_ne_true]
  cases lanes with
  | nil =>
    simp only [hstart, Tx.start_sys, hb, hwarp]
    split <;> rfl
  | cons l ls =>
    simp only [hstart, Tx.eccFinding_clean, Tx.start_sys, hb, hwarp]
    split <;> rfl

/-! ## An arrival behind the last access -/

theorem StillWarp.dropOp (h : StillWarp w) (hs : SameSlots w v) (id : Nat) : StillWarp (v.dropOp id) where
  trapA := by rw [Warp.dropOp_slotA, hs.slotA, h.trapA]
  trapB := by rw [Warp.dropOp_slotB, hs.slotB, h.trapB]
  arrived := by rw [Warp.dropOp_arrived, hs.arrived, h.arrived]
  holdA := by rw [Warp.dropOp_slotA, hs.slotA]; exact h.holdA
  holdB := by rw [Warp.dropOp_slotB, hs.slotB]; exact h.holdB

theorem still_setWarp (h : Still b) (n : Nat) {g : Warp → Warp} (hg : ∀ w, StillWarp w → StillWarp (g w)) : Still (b.setWarp n g) := by
  rw [still_iff] at h ⊢
  intro w hw
  obtain ⟨y, hy, rfl⟩ := List.mem_map.mp hw
  dsimp only
  split
  exacts [hg y (h y hy), h y hy]

theorem still_arrived (h : Still b) (rank k n i : Nat) : Still (b.arrived rank k n i) :=
  still_setWarp (b := b.setBarrier k fun x => x.arrive n) h rank fun w hw => hw.dropOp (.refl w) i

/-- A completion that leaves an arrival at the front of its warp's outstanding instructions performs it. -/
theorem finish_of_arrival {o : Phys} {t : Tx o} (hb : t.sys.block r.block = some b) (hw : b.warp r.rank = some w) (h : Still b) {id k n i : Nat}
    {g : Warp → Warp} (hg : ∀ w, SameSlots w (g w)) (hready : readyArrivals (finished (g w) id).ops = [(k, n, i)]) :
    (t.finish r id g).sys.block r.block = some ((b.setWarp r.rank fun w => (g w).dropOp id).arrived r.rank k n i) := by
  have hb' : (t.sys.setWarp r fun w => (g w).dropOp id).block r.block = some (b.setWarp r.rank fun w => (g w).dropOp id) := by
    rw [Sys.block_setWarp_same, hb]
    rfl
  have hw' := warp_setWarp_dropOp hw hg id
  have hflush := flushArrivals_of_one ((Sys.warp_eq hb').trans hw') hready
  have hblock := (congrArg (fun y : Sys => y.block r.block) hflush).trans (block_arriveAt_setWarp hb')
  have hstill := still_arrived (still_setWarp h r.rank fun w hw => hw.dropOp (hg w) id) r.rank k n i
  obtain ⟨-, hsame⟩ := after_of_still (t := t.map fun y => y.setWarp r fun w => (g w).dropOp id) hblock (Block.warp_arrived hw') hstill
  exact (hsame.block r.block).trans hblock

/-- The last access in front of an arrival completes, a load of the BSM: the arrival is performed (R167). -/
theorem arrives_behind_load {y : Op} {k m : Nat} (hb : s.sys.block r.block = some b) (hw : b.warp r.rank = some w) (hstill : Still b)
    (hops : w.ops = [x, y]) (hid : x.id ≠ y.id) (hbody : y.body = .arrive k m) (hload : ∃ size dst lanes pages, x.body = .load .bsm size dst lanes pages) :
    ∃ t b', exec (.loadStoreCompletion r x.id .clean) s = .next t ∧ t.sys.block r.block = some b' ∧
      (∀ n, n < 10 → b'.barrier n = if n ≠ k then b.barrier n
        else if (b.barrier k).count.toNat < m then { count := 0, under := true }
        else { count := BitVec.ofNat 32 ((b.barrier k).count.toNat - m), under := (b.barrier k).under }) ∧
      (b'.warp r.rank).map Warp.ops = some [] := by
  obtain ⟨size, dst, lanes, pages, hx⟩ := hload
  have hfind : w.op x.id = some x := by simp [Warp.op, hops]
  have hheld : w.heldBack x = false := by simp [Warp.heldBack, Warp.earlier, hops]
  have hbytes : x.scratchpadBytes = 0 := by cases size <;> simp [Op.scratchpadBytes, hx]
  obtain ⟨free, hexec⟩ := loadCompletion hb hw hfind hheld hx (by rw [hbytes]; rfl) (by rw [hbytes]; rfl)
  generalize loadedValues s.phys s.sys b w x.id .bsm size.bytes lanes = vals at hexec
  have hleft : (finished (w.putValues dst size vals) x.id).ops = [y] := by
    simp [finished, (sameSlots_putValues dst size vals w).ops, hops, hid.symm]
  have hready : readyArrivals (finished (w.putValues dst size vals) x.id).ops = [(k, m, y.id)] := by
    rw [hleft]
    exact readyArrivals_nonaccess (xs := []) (by simp) hbody
  have hblock := finish_of_arrival (t := (Tx.start s).map (Sys.takeFree free)) hb hw hstill (sameSlots_putValues dst size vals) hready
  refine ⟨_, _, hexec, hblock, fun n hn => Block.barrier_arrived hn, ?_⟩
  rw [Block.warp_arrived (warp_setWarp_dropOp hw (sameSlots_putValues dst size vals) x.id), Option.map_some, Warp.dropOp_ops, hleft]
  simp

theorem barriers : Barriers := by
  constructor
  · intro s f c _
    exact ⟨barset_sets, bararr_arrives, fun h ⟨x, rest, hops, hx, hbody⟩ => bararr_waits h hops hx hbody⟩
  · intro s r b w x y k m hb hw hstill hops hid hbody _ hload
    exact arrives_behind_load hb hw hstill hops hid hbody hload

end Sys2Proof.Machine
end

section
/-! PROOFS. Synchronisation (O27): BSYNC (R169, R222 (c), R223), and the statement. -/

namespace Sys2Proof.Machine

open Sys2Proof.Claims

variable {s : State} {f : Fields} {c : Ctx} {w u : Warp} {p : Phys} {y : Sys}

/-! ## Warps by their ranks -/

theorem warp_of_nodup {b : Block} (hnodup : (b.warps.map Warp.rank).Nodup) {g : Warp → Warp} (hg : ∀ w, (g w).rank = w.rank) (hw : w ∈ b.warps) :
    (b.warps.map g).find? (fun v => v.rank == w.rank) = some (g w) := by
  rw [List.find?_map, Option.map_eq_some_iff]
  refine ⟨w, ?_, rfl⟩
  cases hfind : b.warps.find? ((fun v => v.rank == w.rank) ∘ g) with
  | none => exact absurd (by simp [hg]) (List.find?_eq_none.mp hfind w hw)
  | some v =>
    have hrank : v.rank = w.rank := by simpa [hg] using List.find?_some hfind
    rw [List.inj_on_of_nodup_map hnodup (List.mem_of_find?_eq_some hfind) hw hrank]

/-! ## The warp that waits at BSYNC -/

/-- A warp whose slot, that of the context, waits at BSYNC. -/
def Ctx.atBsync (c : Ctx) (w : Warp) : Warp := w.setSlot c.z fun z => { z with hold := .bsync }

/-- A warp of the block once the issuing slot waits at BSYNC. -/
def Ctx.orAtBsync (c : Ctx) (w : Warp) : Warp := if w.rank == c.ref.rank then c.atBsync w else w

/-- The block once the issuing slot waits at BSYNC. -/
def Ctx.bsyncBlock (c : Ctx) : Block := { c.b with warps := c.b.warps.map c.orAtBsync }

theorem Ctx.orAtBsync_own (h : w.rank = c.ref.rank) : c.orAtBsync w = c.atBsync w := if_pos (beq_iff_eq.mpr h)

theorem Ctx.orAtBsync_other (h : w.rank ≠ c.ref.rank) : c.orAtBsync w = w := if_neg (by simpa using h)

theorem Ctx.orAtBsync_rank (c : Ctx) (w : Warp) : (c.orAtBsync w).rank = w.rank := by
  unfold Ctx.orAtBsync
  split
  · exact Warp.setSlot_rank _ _ _
  · rfl

theorem Ctx.orAtBsync_ops (c : Ctx) (w : Warp) : (c.orAtBsync w).ops = w.ops := by
  unfold Ctx.orAtBsync
  split
  · exact Warp.setSlot_ops _ _ _
  · rfl

/-- Each slot of a warp of the block: that of the issuing slot waits, the others are as before. -/
theorem Ctx.orAtBsync_slot (c : Ctx) (w : Warp) (z : SlotId) :
    (c.orAtBsync w).slot z = if w.rank = c.ref.rank ∧ z = c.z then { w.slot z with hold := .bsync } else w.slot z := by
  by_cases hr : w.rank = c.ref.rank
  · rw [Ctx.orAtBsync_own hr, Ctx.atBsync]
    by_cases hz : z = c.z
    · rw [if_pos ⟨hr, hz⟩, hz, Warp.slot_setSlot_same]
    · have hother : z = otherSlot c.z := by cases hcz : c.z <;> cases z <;> simp_all [otherSlot]
      rw [if_neg fun h => hz h.2, hother, Warp.slot_setSlot_other]
  · rw [Ctx.orAtBsync_other hr, if_neg fun h => hr h.1]

theorem Ctx.atSync_atBsync (h : (w.slot c.z).valid = true) : (c.atBsync w).atSync = true ↔
    ((w.slot (otherSlot c.z)).valid = false ∨ (w.slot (otherSlot c.z)).hold = .bsync) ∧ ∀ x ∈ w.ops, x.isStore = false := by
  obtain ⟨r, z, b, v⟩ := c
  cases z with
  | A =>
    have hA : w.slotA.valid = true := h
    simp [Ctx.atBsync, Warp.atSync, Warp.usc, Warp.setSlot, Warp.slot, otherSlot, hA]
  | B =>
    have hB : w.slotB.valid = true := h
    simp [Ctx.atBsync, Warp.atSync, Warp.usc, Warp.setSlot, Warp.slot, otherSlot, hB]

theorem Ctx.exited_atBsync (h : (w.slot c.z).valid = true) : (c.atBsync w).exited = false := by
  obtain ⟨r, z, b, v⟩ := c
  cases z with
  | A =>
    have hA : w.slotA.valid = true := h
    simp [Ctx.atBsync, Warp.exited, Warp.setSlot, hA]
  | B =>
    have hB : w.slotB.valid = true := h
    simp [Ctx.atBsync, Warp.exited, Warp.setSlot, hB]

/-- The generation ends with the BSYNC of the issuing slot: its warp arrives, the others have arrived or exited, and their accesses are
performed. -/
theorem generationEnds_bsync (hc : s.sys.issuing = some c) (hnodup : (c.b.warps.map Warp.rank).Nodup) (hvalid : c.slot.valid = true) :
    GenerationEnds c.bsyncBlock ↔
      (c.w.arrived = true ∨ ((c.w.slot (otherSlot c.z)).valid = false ∨ (c.w.slot (otherSlot c.z)).hold = .bsync) ∧ ∀ x ∈ c.w.ops, x.isStore = false) ∧
      (∀ w ∈ c.b.warps, w.rank ≠ c.w.rank → w.arrived = true ∨ w.atSync = true ∨ w.exited = true) ∧
      ∀ w ∈ c.b.warps, ∀ x ∈ w.ops, x.holdsRelease = false := by
  obtain ⟨-, -, hw⟩ := Sys.issuing_some hc
  have hmem : c.w ∈ c.b.warps := List.mem_of_find?_eq_some hw
  have hrank := Ctx.rank_eq hc
  have hown : ∀ w ∈ c.b.warps, w.rank = c.w.rank → w = c.w := fun w hw' h => List.inj_on_of_nodup_map hnodup hw' hmem h
  have harrived : (c.orAtBsync c.w).arrived = c.w.arrived := by
    rw [Ctx.orAtBsync_own hrank]
    exact Warp.setSlot_arrived _ _ _
  have hsync := Ctx.atSync_atBsync (c := c) (w := c.w) hvalid
  have hexited := Ctx.exited_atBsync (c := c) (w := c.w) hvalid
  rw [← Ctx.orAtBsync_own hrank] at hsync hexited
  simp only [GenerationEnds, Ctx.bsyncBlock, List.forall_mem_map, Ctx.orAtBsync_ops]
  constructor
  · rintro ⟨hall, -, hperformed⟩
    refine ⟨?_, fun w hw' hne => ?_, hperformed⟩
    · have hmine := hall c.w hmem
      rw [harrived, hsync, hexited] at hmine
      exact hmine.resolve_right Bool.false_ne_true
    · have hother := hall w hw'
      rw [Ctx.orAtBsync_other (hrank ▸ hne)] at hother
      exact or_assoc.mp hother
  · rintro ⟨hmine, hothers, hperformed⟩
    have hthere : (c.orAtBsync c.w).arrived = true ∨ (c.orAtBsync c.w).atSync = true := by
      rw [harrived, hsync]
      exact hmine
    refine ⟨fun w hw' => ?_, ⟨_, List.mem_map_of_mem hmem, hthere⟩, hperformed⟩
    by_cases hw0 : w.rank = c.w.rank
    · rw [hown w hw' hw0]
      exact .inl hthere
    · rw [Ctx.orAtBsync_other (hrank ▸ hw0)]
      exact or_assoc.mpr (hothers w hw' hw0)

/-! ## The slots of the next generation -/

theorem Warp.slot_passSync (w : Warp) (words : SlotId → Nat) (z : SlotId) :
    (w.passSync words).slot z = if (w.slot z).valid && (w.slot z).hold == .bsync then (w.slot z).step (words z) else w.slot z := by
  cases z <;> rfl

theorem Warp.passSync_rank (w : Warp) (words : SlotId → Nat) : (w.passSync words).rank = w.rank :=
  (Warp.setSlot_rank _ _ _).trans (Warp.setSlot_rank _ _ _)

/-- A warp of the block with its arrival noted. -/
def Ctx.noted (c : Ctx) (w : Warp) : Warp := { c.orAtBsync w with arrived := (c.orAtBsync w).arrived || (c.orAtBsync w).atSync }

theorem Ctx.noted_slot (c : Ctx) (w : Warp) (z : SlotId) : (c.noted w).slot z = (c.orAtBsync w).slot z := by cases z <;> rfl

theorem Ctx.bsyncBlock_notedWarps (c : Ctx) : c.bsyncBlock.notedWarps = c.b.warps.map c.noted := by
  show (c.b.warps.map c.orAtBsync).map _ = _
  rw [List.map_map]
  rfl

/-- A warp of the block in its next generation. -/
def Ctx.passed (c : Ctx) (p : Phys) (y : Sys) (w : Warp) : Warp :=
  (c.noted w).passSync fun z => wordsAt p y c.bsyncBlock ((c.noted w).slot z).pc

theorem Ctx.passed_rank (c : Ctx) (p : Phys) (y : Sys) (w : Warp) : (c.passed p y w).rank = w.rank := by
  rw [Ctx.passed, Warp.passSync_rank]
  exact c.orAtBsync_rank w

theorem Ctx.nextGeneration_warps (c : Ctx) (p : Phys) (y : Sys) : (c.bsyncBlock.nextGeneration p y).warps = c.b.warps.map (c.passed p y) := by
  show c.bsyncBlock.notedWarps.map _ = _
  rw [Ctx.bsyncBlock_notedWarps, List.map_map]
  rfl

theorem codeWord_bsync (t : Pc) : codeWord s.phys (s.sys.hold c .bsync) c.bsyncBlock t = codeWord s.phys s.sys c.b t := rfl

/-- A slot that waits goes on past its BSYNC; every other slot stays. -/
theorem Ctx.slot_passed (c : Ctx) (w : Warp) (z : SlotId) :
    let q := (c.orAtBsync w).slot z
    (q.valid = false ∨ q.hold ≠ .bsync → (c.passed s.phys (s.sys.hold c .bsync) w).slot z = q) ∧
    ∀ h : Word, codeWord s.phys s.sys c.b q.pc = some h → h.extractLsb' 0 2 ≠ 3 → q.valid = true → q.hold = .bsync →
      (c.passed s.phys (s.sys.hold c .bsync) w).slot z =
        { q with pc := q.pc + (h.extractLsb' 0 2).setWidth 50 + 1, left := q.left - 1, resume := none, hold := .none } := by
  intro q
  have hslot : (c.passed s.phys (s.sys.hold c .bsync) w).slot z =
      if q.valid && q.hold == .bsync then q.step (wordsAt s.phys (s.sys.hold c .bsync) c.bsyncBlock q.pc) else q := by
    rw [Ctx.passed, Warp.slot_passSync, Ctx.noted_slot]
  refine ⟨fun hstay => ?_, fun h hcode hlen hvalid hhold => ?_⟩
  · rw [hslot, if_neg]
    rcases hstay with hv | hh
    · simp [hv]
    · simp [hh]
  · rw [hslot, if_pos (by simp [hvalid, hhold]), wordsAt_eq ((codeWord_bsync q.pc).trans hcode), if_neg hlen]
    have hpc : q.pc.plus ((h.extractLsb' 0 2).toNat + 1) = q.pc + (h.extractLsb' 0 2).setWidth 50 + 1 := by
      rw [Pc.plus, BitVec.ofNat_add, BitVec.ofNat_toNat, ← BitVec.add_assoc]
      rfl
    rw [PcSlot.step, hpc]

/-! ## BSYNC at issue -/

theorem execBsync_of_issues (h : Issues .bsync f s c) : exec (.bsync f) s =
    .next { s with sys := syncBlock s.phys (s.sys.hold c .bsync) c.b.id } := issue_of_issues h _

theorem block_hold_bsync (hc : s.sys.issuing = some c) : (s.sys.hold c .bsync).block c.b.id = some c.bsyncBlock := by
  obtain ⟨-, hb, -⟩ := Sys.issuing_some hc
  rw [Ctx.block_id hc, Sys.hold, Sys.block_setWarp_same, hb]
  rfl

/-- A block's arrivals noted, and its generation (R169). -/
theorem syncBlock_law {b : Block} (hb : y.block b.id = some b) : ∃ b', (syncBlock p y b.id).block b.id = some b' ∧
    (GenerationEnds b → b'.generation = b.generation + 1) ∧ (¬ GenerationEnds b → b' = { b with warps := b.notedWarps }) := by
  by_cases hends : GenerationEnds b
  · exact ⟨_, block_syncBlock_ends hb hends, fun _ => rfl, fun h => absurd hends h⟩
  · exact ⟨_, block_syncBlock_waits hb hends, fun h => absurd h hends, fun _ => rfl⟩

theorem blockSync : BlockSync := by
  refine ⟨fun s b hb => syncBlock_law hb, ?_⟩
  intro s f c h hnodup hvalid alone others performed before
  have hends := generationEnds_bsync h.1 hnodup hvalid
  have hblock := block_hold_bsync h.1
  have hrank := Ctx.rank_eq h.1
  have hid := Ctx.block_id h.1
  have hexec := execBsync_of_issues h
  rw [hid] at hexec hblock
  constructor
  · intro halone hothers hperformed
    have hnext := block_syncBlock_ends (p := s.phys) hblock (hends.mpr ⟨.inr halone, hothers, hperformed⟩)
    refine ⟨_, _, hexec, rfl, hnext, rfl, fun w hw => ⟨c.passed s.phys (s.sys.hold c .bsync) w, ?_, rfl, fun z => ?_⟩⟩
    · rw [Block.warp, Ctx.nextGeneration_warps]
      exact warp_of_nodup hnodup (c.passed_rank _ _) hw
    · have hslot := c.slot_passed (s := s) w z
      rw [c.orAtBsync_slot, ← hrank] at hslot
      exact hslot
  · intro hwait
    have hnot : ¬ GenerationEnds c.bsyncBlock := fun h' => by
      obtain ⟨hmine, hothers, hperformed⟩ := hends.mp h'
      obtain hno | ⟨harrived, hno | ⟨w, hw, hne, h1, h2, h3⟩⟩ := hwait
      · exact hno hperformed
      · exact hno (hmine.resolve_left (by simp [harrived]))
      · simpa [h1, h2, h3] using hothers w hw hne
    have hstay := block_syncBlock_waits (p := s.phys) hblock hnot
    obtain ⟨-, -, hw⟩ := Sys.issuing_some h.1
    have hnoted : (c.b.warps.map c.noted).find? (fun v => v.rank == c.ref.rank) = some (c.noted c.w) := by
      rw [← hrank]
      exact warp_of_nodup hnodup c.orAtBsync_rank (List.mem_of_find?_eq_some hw)
    rw [Ctx.bsyncBlock_notedWarps] at hstay
    refine ⟨_, _, _, hexec, rfl, hstay, rfl, hnoted, ?_⟩
    rw [Ctx.noted_slot, Ctx.orAtBsync_slot, if_pos ⟨hrank, rfl⟩]
    rfl

/-- Settles O27, by its three parts. -/
theorem synchronisation : Obligations.Synchronisation := ⟨fencesAndWaits, barriers, blockSync⟩

end Sys2Proof.Machine
end

section
/-! PROOFS. LocalAccessesComplete (O24): the loads and LDPERM (R150, R154, R156, R204). -/

namespace Sys2Proof.Machine

open Sys2Proof.Claims

variable {s : State} {r : WarpRef} {b : Block} {w v u : Warp} {x : Op} {dst k l : Nat} {z : LoadSize}

/-! ## One element -/

theorem sameElem_poisonElem {n t : Nat} (h : elemKey k l ≠ elemKey n t) : SameElem w (w.poisonElem n t) k l :=
  ⟨Sparse.get_put_other w.v _ _ 0 h, NatSet.has_add_other w.vPoison _ _ h⟩

theorem Warp.elemPoisoned_poisonElem_same (w : Warp) (n l : Nat) : (w.poisonElem n l).elemPoisoned n l = true := NatSet.has_add_same _ _

/-- The registers that a load writes. -/
def LoadFoot (dst : Nat) (z : LoadSize) (k : Nat) : Prop := k = dst ∨ (z = .pair ∧ k = dst + 1)

/-- What a load leaves of an element: poison in every register that it would write, or the value by its size. -/
def LoadedElem (dst : Nat) (z : LoadSize) (v : Warp) (x : Nat × Nat × Bool) : Prop :=
  (x.2.2 = true → v.elemPoisoned dst x.1 = true ∧ (z = .pair → v.elemPoisoned (dst + 1) x.1 = true)) ∧
  (x.2.2 = false → v.elemPoisoned dst x.1 = false ∧ (z = .pair → v.pair dst x.1 = widenLoad z x.2.1) ∧
    (z ≠ .pair → v.elem dst x.1 = (widenLoad z x.2.1).setWidth 32))

/-- One element of a load put. -/
def Warp.putValue (dst : Nat) (z : LoadSize) (w : Warp) (x : Nat × Nat × Bool) : Warp :=
  w.putLoaded dst x.1 (z == .pair) (widenLoad z x.2.1) x.2.2

theorem elemKey_ne_next (n l : Nat) : elemKey n l ≠ elemKey (n + 1) l := by unfold elemKey; omega

theorem sameElem_putValue (w : Warp) (x : Nat × Nat × Bool) (k l : Nat) (hl : l < 64) (hx : x.1 < 64) (h : ¬ (LoadFoot dst z k ∧ l = x.1)) :
    SameElem w (w.putValue dst z x) k l := by
  obtain ⟨j, val, bad⟩ := x
  have hkey : ∀ i, LoadFoot dst z i → elemKey k l ≠ elemKey i j := fun i hi heq => by
    obtain ⟨rfl, rfl⟩ := (elemKey_inj hl hx).mp heq
    exact h ⟨hi, rfl⟩
  have hlow := hkey dst (.inl rfl)
  by_cases hz : z = .pair
  · have hhigh := hkey (dst + 1) (.inr ⟨hz, rfl⟩)
    subst hz
    cases bad with
    | true => exact (sameElem_poisonElem hlow).trans (sameElem_poisonElem hhigh)
    | false => exact (sameElem_setElem _ hlow).trans (sameElem_setElem _ hhigh)
  · have hwide : (z == LoadSize.pair) = false := beq_eq_false_iff_ne.mpr hz
    rw [Warp.putValue, hwide]
    cases bad with
    | true => exact sameElem_poisonElem hlow
    | false => exact sameElem_setElem _ hlow

theorem loadedElem_putValue (w : Warp) (x : Nat × Nat × Bool) : LoadedElem dst z (w.putValue dst z x) x := by
  obtain ⟨j, val, bad⟩ := x
  by_cases hz : z = .pair
  · subst hz
    cases bad with
    | true =>
      refine ⟨fun _ => ⟨?_, fun _ => Warp.elemPoisoned_poisonElem_same _ _ _⟩, fun h => nomatch h⟩
      exact (sameElem_poisonElem (elemKey_ne_next dst j)).2.trans (Warp.elemPoisoned_poisonElem_same _ _ _)
    | false =>
      refine ⟨fun h => (nomatch h), fun _ => ⟨?_, fun _ => pair_setPair _ _ _ _, fun h => absurd rfl h⟩⟩
      exact (sameElem_setElem _ (elemKey_ne_next dst j)).2.trans (Warp.elemPoisoned_setElem_same _ _ _ _)
  · have hwide : (z == LoadSize.pair) = false := beq_eq_false_iff_ne.mpr hz
    rw [Warp.putValue, hwide]
    cases bad with
    | true => exact ⟨fun _ => ⟨Warp.elemPoisoned_poisonElem_same _ _ _, fun h => absurd h hz⟩, fun h => nomatch h⟩
    | false =>
      exact ⟨fun h => (nomatch h), fun _ => ⟨Warp.elemPoisoned_setElem_same _ _ _ _, fun h => absurd h hz, fun _ => Warp.elem_setElem_same _ _ _ _⟩⟩

theorem LoadedElem.of_same {x : Nat × Nat × Bool} (hsame : ∀ k, LoadFoot dst z k → SameElem w v k x.1) (h : LoadedElem dst z w x) :
    LoadedElem dst z v x := by
  obtain ⟨hbad, hgood⟩ := h
  obtain ⟨helem, hpoison⟩ := hsame dst (.inl rfl)
  have hhigh := fun hz => hsame (dst + 1) (.inr ⟨hz, rfl⟩)
  refine ⟨fun hx => ⟨hpoison.trans (hbad hx).1, fun hz => (hhigh hz).2.trans ((hbad hx).2 hz)⟩,
    fun hx => ⟨hpoison.trans (hgood hx).1, fun hz => ?_, fun hz => helem.trans ((hgood hx).2.2 hz)⟩⟩
  rw [Warp.pair, helem, (hhigh hz).1]
  exact (hgood hx).2.1 hz

/-! ## The elements of a load -/

/-- The rest of a warp stays when its elements are put. -/
theorem putValues_eq (vals : List (Nat × Nat × Bool)) (w : Warp) : ∃ a p q, w.putValues dst z vals = { w with v := a, vPoison := p, vUnloaded := q } := by
  refine List.foldlRecOn (motive := fun u : Warp => ∃ a p q, u = { w with v := a, vPoison := p, vUnloaded := q }) vals _ ⟨w.v, w.vPoison, w.vUnloaded, rfl⟩ ?_
  rintro _ ⟨a, p, q, rfl⟩ x _
  obtain ⟨j, val, bad⟩ := x
  cases hz : z == LoadSize.pair <;> cases bad <;> exact ⟨_, _, _, rfl⟩

theorem loadedElem_putValues {vals : List (Nat × Nat × Bool)} (hnodup : (vals.map Prod.fst).Nodup) (hlanes : ∀ x ∈ vals, x.1 < 64) :
    ∀ x ∈ vals, LoadedElem dst z (w.putValues dst z vals) x :=
  written_foldl sameElem_putValue loadedElem_putValue (fun _ _ _ => LoadedElem.of_same) w vals hnodup hlanes

theorem sameElem_putValues {vals : List (Nat × Nat × Bool)} (hlanes : ∀ x ∈ vals, x.1 < 64) (hl : l < 64)
    (h : ¬ (LoadFoot dst z k ∧ l ∈ vals.map Prod.fst)) : SameElem w (w.putValues dst z vals) k l :=
  sameElem_foldl sameElem_putValue w vals hlanes hl h

/-! ## The values by their sizes -/

theorem widenLoad_unsigned (hz : z = .word ∨ z = .n8 ∨ z = .n16) (n : Nat) : (widenLoad z n).setWidth 32 = BitVec.ofNat 32 n := by
  have hofNat : (BitVec.ofNat 64 n).setWidth 32 = BitVec.ofNat 32 n := BitVec.setWidth_ofNat_of_le (by decide) n
  obtain rfl | rfl | rfl := hz <;> exact hofNat

theorem setWidth_setWidth_word (a : Word) : (a.setWidth 64).setWidth 32 = a := by
  rw [BitVec.setWidth_setWidth_of_le _ (by decide), BitVec.setWidth_eq]

theorem widenLoad_i8 (n : Nat) : (widenLoad .i8 n).setWidth 32 = (BitVec.ofNat 8 n).signExtend 32 := by
  rw [widenLoad, setWidth_setWidth_word, signedNat_eq_toInt, BitVec.signExtend]

theorem widenLoad_i16 (n : Nat) : (widenLoad .i16 n).setWidth 32 = (BitVec.ofNat 16 n).signExtend 32 := by
  rw [widenLoad, setWidth_setWidth_word, signedNat_eq_toInt, BitVec.signExtend]

/-! ## The completions -/

/-- A core without a byte budget moves any bytes, and counts none (R294). -/
theorem mayMove_of_unlimited {y : Sys} {c : CoreRef} (h : (y.rolledCore c).budget = 0) (n : Nat) : y.mayMove c n = true ∧ y.moved c n = y := by
  constructor
  · simp [Sys.mayMove, h]
  · simp [Sys.moved, h]

theorem sameSlots_perm (bits : BitVec 384) (w : Warp) : SameSlots w { w with perm := bits } := ⟨rfl, rfl, rfl, rfl, rfl⟩

theorem finish_warp_other {o : Phys} {t : Tx o} {q : WarpRef} {id : Nat} {g : Warp → Warp} (hsame : SameBlocks (t.sys.setWarp r fun w => (g w).dropOp id) (t.finish r id g).sys)
    (hg : ∀ w, SameSlots w (g w)) (hq : q ≠ r) : (t.finish r id g).sys.warp q = t.sys.warp q :=
  (hsame.warp q).trans (Sys.warp_setWarp_other _ (fun w => (Warp.dropOp_rank _ _).trans (hg w).rank) hq)

theorem finish_warp_own {o : Phys} {t : Tx o} {id : Nat} {g : Warp → Warp} (hsame : SameBlocks (t.sys.setWarp r fun w => (g w).dropOp id) (t.finish r id g).sys)
    (hg : ∀ w, SameSlots w (g w)) (hw : t.sys.warp r = some w) : (t.finish r id g).sys.warp r = some (finished (g w) id) := by
  rw [hsame.warp, Sys.warp_setWarp_same _ _ fun w => (Warp.dropOp_rank _ _).trans (hg w).rank, hw]
  rfl

/-- What the claim says of one element that a load has put, whether its bytes come from memory or are free. -/
theorem loadedElem_value {sp : Space} {y : Nat × Nat} (h : LoadedElem dst z v (y.1, loadedElement s.phys s.sys b w x.id sp z.bytes y)) :
    let q := loadView s.phys b w (w.earlier x.id) sp y.2 z.bytes
    let given := sp = .tsp ∧ b.gaveUp s.phys s.sys y.2 z.bytes = true
    (given → v.elemPoisoned dst y.1 = false) ∧
    (¬ given → q.2 = true → v.elemPoisoned dst y.1 = true ∧ (z = .pair → v.elemPoisoned (dst + 1) y.1 = true)) ∧
    (¬ given → q.2 = false → v.elemPoisoned dst y.1 = false ∧ (z = .pair → v.pair dst y.1 = BitVec.ofNat 64 q.1) ∧
      (z = .word ∨ z = .n8 ∨ z = .n16 → v.elem dst y.1 = BitVec.ofNat 32 q.1) ∧
      (z = .i8 → v.elem dst y.1 = (BitVec.ofNat 8 q.1).signExtend 32) ∧
      (z = .i16 → v.elem dst y.1 = (BitVec.ofNat 16 q.1).signExtend 32)) := by
  intro q given
  have hgiven : (sp == .tsp && b.gaveUp s.phys s.sys y.2 z.bytes) = true ↔ given := by simp [given]
  obtain ⟨hbad, hgood⟩ := h
  refine ⟨fun hg => (hgood ?_).1, fun hg hq => hbad ?_, fun hg hq => ?_⟩
  · rw [loadedElement, if_pos (hgiven.mpr hg)]
  · rw [loadedElement, if_neg (mt hgiven.mp hg)]
    exact hq
  · have hval : loadedElement s.phys s.sys b w x.id sp z.bytes y = q := by rw [loadedElement, if_neg (mt hgiven.mp hg)]
    rw [hval] at hgood
    obtain ⟨hclean, hpair, helem⟩ := hgood hq
    refine ⟨hclean, fun hz => (hpair hz).trans (by rw [hz]; rfl), fun hz => ?_, fun hz => ?_, fun hz => ?_⟩
    · exact (helem (by rcases hz with rfl | rfl | rfl <;> decide)).trans (widenLoad_unsigned hz _)
    · subst hz
      exact (helem (by decide)).trans (widenLoad_i8 _)
    · subst hz
      exact (helem (by decide)).trans (widenLoad_i16 _)

/-- The completion of a load writes its elements and frees its instruction, and leaves everything else. -/
theorem load_completes {sp : Space} {lanes : List (Nat × Nat)} {pages : List Nat} (h : Resident s r b w) (hx : w.op x.id = some x)
    (hheld : w.heldBack x = false) (hbudget : (s.sys.rolledCore b.coreRef).budget = 0) (hbody : x.body = .load sp z dst lanes pages) :
    ∃ t, exec (.loadStoreCompletion r x.id .clean) s = .next t ∧ t.phys = s.phys ∧
      t.sys.warp r = some (finished (w.putValues dst z (loadedValues s.phys s.sys b w x.id sp z.bytes lanes)) x.id) ∧
      ∀ q, q ≠ r → t.sys.warp q = s.sys.warp q := by
  obtain ⟨hb, hw, hcalm⟩ := h
  obtain ⟨hmove, hmoved⟩ := mayMove_of_unlimited hbudget x.scratchpadBytes
  obtain ⟨free, hexec⟩ := loadCompletion hb hw hx hheld hbody hmove hmoved
  generalize loadedValues s.phys s.sys b w x.id sp z.bytes lanes = vals at hexec
  have hg := sameSlots_putValues dst z vals
  obtain ⟨hphys, hsame⟩ := finish_of_calm (t := (Tx.start s).map (Sys.takeFree free)) hb hw hcalm x.id hg
  exact ⟨_, hexec, hphys, finish_warp_own hsame hg ((Sys.warp_eq hb).trans hw), fun q hq => finish_warp_other hsame hg hq⟩

theorem perm_completes {bits : BitVec 384} (h : Resident s r b w) (hx : w.op x.id = some x) (hheld : w.heldBack x = false)
    (hbudget : (s.sys.rolledCore b.coreRef).budget = 0) (hbody : x.body = .loadPerm bits) :
    ∃ t, exec (.loadStoreCompletion r x.id .clean) s = .next t ∧ t.phys = s.phys ∧ (∀ q, q ≠ r → t.sys.warp q = s.sys.warp q) ∧
      t.sys.warp r = some { finished w x.id with perm := bits } := by
  obtain ⟨hb, hw, hcalm⟩ := h
  obtain ⟨hmove, -⟩ := mayMove_of_unlimited hbudget x.scratchpadBytes
  have hwarp : s.sys.warp r = some w := (Sys.warp_eq hb).trans hw
  have hexec : exec (.loadStoreCompletion r x.id .clean) s = .next ((Tx.start s).finish r x.id fun w => { w with perm := bits }).state := by
    change execLoadStoreCompletion r x.id .clean s = _
    unfold execLoadStoreCompletion work
    dsimp only
    rw [Tx.start_sys, hwarp]
    dsimp only
    rw [hx]
    dsimp only
    rw [hheld, hb, Option.map_some, Option.getD_some, hmove, hbody, Bool.not_true, Bool.or_false, if_neg Bool.false_ne_true]
  have hg := sameSlots_perm bits
  obtain ⟨hphys, hsame⟩ := finish_of_calm (t := Tx.start s) hb hw hcalm x.id hg
  exact ⟨_, hexec, hphys, fun q hq => finish_warp_other hsame hg hq, finish_warp_own hsame hg hwarp⟩

theorem loadsComplete : LoadsComplete := by
  intro s r b w x h hx hheld hbudget
  refine ⟨fun sp z dst lanes pages hbody hnodup hlanes => ?_, fun bits hbody => perm_completes h hx hheld hbudget hbody⟩
  obtain ⟨t, hexec, hphys, hown, hother⟩ := load_completes h hx hheld hbudget hbody
  obtain ⟨vals, hvals⟩ : ∃ vals, vals = loadedValues s.phys s.sys b w x.id sp z.bytes lanes := ⟨_, rfl⟩
  have hfst : vals.map Prod.fst = lanes.map Prod.fst := by
    rw [hvals, loadedValues, List.map_map]
    rfl
  have hvalid : ∀ y ∈ vals, y.1 < 64 := fun y hy => by
    obtain ⟨q, hq, hqy⟩ := List.mem_map.mp (hfst ▸ List.mem_map_of_mem hy)
    exact hqy ▸ hlanes q hq
  rw [← hvals] at hown
  refine ⟨t, _, hexec, hphys, hown, hother, ?_, fun y hy => ?_, fun n l hl hno => ?_⟩
  · obtain ⟨a, p, q, heq⟩ := putValues_eq (dst := dst) (z := z) vals w
    rw [heq]
    rfl
  · have hmem : (y.1, loadedElement s.phys s.sys b w x.id sp z.bytes y) ∈ vals := hvals ▸ List.mem_map_of_mem hy
    exact loadedElem_value (loadedElem_putValues (hfst.symm ▸ hnodup) hvalid _ hmem)
  · exact sameElem_putValues hvalid hl (by rwa [hfst])

end Sys2Proof.Machine
end

section
/-! PROOFS. A store performed at its home where no unit is poisoned (R154, R157, R221): it leaves in every byte that it covers the last element's, and
every other byte of every space as it was. -/

namespace Sys2Proof.Machine

open Sys2Proof.Claims

variable {o : Phys} {t t' t'' : Tx o} {r : WarpRef} {b b' b'' : Block} {w w' w'' : Warp} {sp : Space} {els : List Elem} {base a : Nat}

/-! ## Consecutive cells written -/

/-- The cells of consecutive addresses. -/
def cellsAt (base n : Nat) (g : Nat → Byte) : List (Nat × Byte) := (List.range n).map fun i => (base + i, g i)

theorem cellsAt_succ (base n : Nat) (g : Nat → Byte) : cellsAt base (n + 1) g = cellsAt base n g ++ [(base + n, g n)] := by
  simp [cellsAt, List.range_succ]

theorem get_putAll_cellsAt (m : Sparse 8) (base n : Nat) (g : Nat → Byte) (a : Nat) :
    (Sparse.putAll m (cellsAt base n g)).get a = if base ≤ a ∧ a < base + n then g (a - base) else m.get a := by
  induction n with
  | zero => rw [if_neg (by omega)]; rfl
  | succ n ih =>
    have hput : Sparse.putAll m (cellsAt base (n + 1) g) = (Sparse.putAll m (cellsAt base n g)).put (base + n) (g n) := by
      rw [cellsAt_succ, Sparse.putAll, List.foldl_concat]
      rfl
    rw [hput]
    by_cases ha : a = base + n
    · rw [ha, Sparse.get_put_same, if_pos (by omega), Nat.add_sub_cancel_left]
    · rw [Sparse.get_put_other _ _ _ _ ha, ih]
      exact if_congr (by omega) rfl rfl

theorem byte_foldl_cellsAt (t : Tx o) (base n : Nat) (g : Nat → Byte) (a : Nat) :
    ((cellsAt base n g).foldl (fun t x => t.byte x.1 x.2) t).phys.byte a = if base ≤ a ∧ a < base + n then g (a - base) else t.phys.byte a := by
  induction n with
  | zero => rw [if_neg (by omega)]; rfl
  | succ n ih =>
    rw [cellsAt_succ, List.foldl_concat]
    by_cases ha : a = base + n
    · rw [ha, Tx.byte_phys_byte_same, if_pos (by omega), Nat.add_sub_cancel_left]
    · rw [Tx.byte_phys_byte_other _ _ ha, ih]
      exact if_congr (by omega) rfl rfl

theorem foldl_byte_keeps (t : Tx o) (cells : List (Nat × Byte)) : (cells.foldl (fun t x => t.byte x.1 x.2) t).sys = t.sys ∧
    (cells.foldl (fun t x => t.byte x.1 x.2) t).phys.poison = t.phys.poison :=
  List.foldlRecOn (motive := fun u : Tx o => u.sys = t.sys ∧ u.phys.poison = t.phys.poison) cells _ ⟨rfl, rfl⟩ fun _ h _ _ => h

/-! ## The home of a store, unpoisoned -/

/-- The block and the warp of a store, where no unit is poisoned. -/
structure Home (t : Tx o) (r : WarpRef) (b : Block) (w : Warp) : Prop where
  block : t.sys.block r.block = some b
  warp : b.warp r.rank = some w
  memory : t.phys.poison = []
  bsm : b.bsmPoison = []
  priv : w.privPoison = []

/-- Between two states, the bytes of a space that satisfy a condition have changed by a rule, and nothing else that a store may not touch. -/
structure Stores (t : Tx o) (b : Block) (w : Warp) (t' : Tx o) (b' : Block) (w' : Warp) (r : WarpRef) (sp : Space) (P : Nat → Prop)
    (g : Nat → Byte → Byte) : Prop where
  home : Home t' r b' w'
  inside : ∀ a, P a → spaceByte t'.phys b' w' sp a = g a (spaceByte t.phys b w sp a)
  outside : ∀ sp' a, ¬ (sp' = sp ∧ P a) → spaceByte t'.phys b' w' sp' a = spaceByte t.phys b w sp' a
  rest : w' = { w with priv := w'.priv }
  calm : Calm b → Calm b'
  others : ∀ q, q ≠ r → t'.sys.warp q = t.sys.warp q

theorem Home.unpoisoned (h : Home t r b w) (sp : Space) (base : Nat) : spaceBad t.phys b w sp base = false := by
  cases sp
  · exact congrArg (NatSet.has · base) h.bsm
  · exact congrArg (NatSet.has · base) h.memory
  · exact congrArg (NatSet.has · base) h.priv

/-! ## One unit -/

/-- The byte that elements leave at an address. -/
def storedAt (els : List Elem) (a : Nat) (old : Byte) : Byte := els.foldl (fun v e => (elemByte e a).getD v) old

/-- One unit of a store performed. -/
def Tx.storeUnit (r : WarpRef) (sp : Space) (els : List Elem) (t : Tx o) (base : Nat) : Tx o :=
  match t.sys.block r.block, t.sys.warp r with
  | some b, some w => t.putUnit r sp base (unitAfter base sp.unit (unitView t.phys b w [] sp base) els)
  | _, _ => t

theorem perform_eq (t : Tx o) (r : WarpRef) (sp : Space) (els : List Elem) :
    t.perform r sp els = (unitBases sp.unit els).foldl (Tx.storeUnit r sp els) t := rfl

/-- The cells of one unit after a store. -/
def unitCells (p : Phys) (b : Block) (w : Warp) (sp : Space) (els : List Elem) (base : Nat) : List (Nat × Byte) :=
  cellsAt base sp.unit fun i => storedAt els (base + i) (spaceByte p b w sp (base + i))

theorem unitAfter_unpoisoned (h : Home t r b w) (sp : Space) (els : List Elem) (base : Nat) :
    unitAfter base sp.unit (unitView t.phys b w [] sp base) els =
      ((List.range sp.unit).map fun i => storedAt els (base + i) (spaceByte t.phys b w sp (base + i)), false) := by
  have hview : unitView t.phys b w [] sp base = ((List.range sp.unit).map fun i => spaceByte t.phys b w sp (base + i), false) := by
    rw [unitView, h.unpoisoned]
    rfl
  rw [hview, unitAfter, Bool.false_and, if_neg Bool.false_ne_true]
  congr 1
  refine List.ext_getElem (by simp) fun i hi hi' => ?_
  have hlt : i < sp.unit := by simpa using hi
  simp [storedAt, List.getD, hlt]

/-- A block with cells of its BSM written, and the poison of their unit lifted. -/
def Block.putCells (cells : List (Nat × Byte)) (base : Nat) (b : Block) : Block :=
  { b with bsm := Sparse.putAll b.bsm cells, bsmPoison := NatSet.del b.bsmPoison base }

/-- A warp with cells of its lane memory written, and the poison of their unit lifted. -/
def Warp.putCells (cells : List (Nat × Byte)) (base : Nat) (w : Warp) : Warp :=
  { w with priv := Sparse.putAll w.priv cells, privPoison := NatSet.del w.privPoison base }

theorem storeUnit_eq (h : Home t r b w) (sp : Space) (els : List Elem) (base : Nat) : t.storeUnit r sp els base =
    match sp with
    | .bsm => t.map fun s => s.setBlock r.block (Block.putCells (unitCells t.phys b w .bsm els base) base)
    | .priv => t.map fun s => s.setWarp r (Warp.putCells (unitCells t.phys b w .priv els base) base)
    | .tsp => ((unitCells t.phys b w .tsp els base).foldl (fun t x => t.byte x.1 x.2) t).mark base false := by
  have hcells : ∀ g : Nat → Byte, ((List.range sp.unit).map g).zipIdx.map (fun x => (base + x.2, x.1)) = cellsAt base sp.unit g := fun g => by
    refine List.ext_getElem (by simp [cellsAt]) fun i _ _ => by simp [cellsAt]
  rw [Tx.storeUnit, h.block, (Sys.warp_eq h.block).trans h.warp]
  dsimp only
  rw [unitAfter_unpoisoned h]
  unfold Tx.putUnit
  dsimp only
  rw [hcells]
  cases sp <;> rfl

/-- The addresses of a unit. -/
def InUnit (sp : Space) (base a : Nat) : Prop := base ≤ a ∧ a < base + sp.unit

section Unit

variable {p : Phys} (m : Sparse 8)

theorem get_unitCells_inside (ha : InUnit sp base a) :
    (Sparse.putAll m (unitCells p b w sp els base)).get a = storedAt els a (spaceByte p b w sp a) := by
  rw [unitCells, get_putAll_cellsAt]
  refine (if_pos ha).trans ?_
  rw [Nat.add_sub_cancel' ha.1]

theorem get_unitCells_outside (ha : ¬ InUnit sp base a) : (Sparse.putAll m (unitCells p b w sp els base)).get a = m.get a := by
  rw [unitCells, get_putAll_cellsAt]
  exact if_neg ha

end Unit

theorem CalmWarp.putCells (h : CalmWarp w) (cells : List (Nat × Byte)) (base : Nat) : CalmWarp (w.putCells cells base) :=
  ⟨h.trapA, h.trapB, h.arrived, h.holdA, h.holdB, h.noArrival⟩

/-- One unit of a store: its bytes are written at their home, and nothing else changes. -/
theorem storeUnit_stores (h : Home t r b w) (sp : Space) (els : List Elem) (base : Nat) : ∃ b' w',
    Stores t b w (t.storeUnit r sp els base) b' w' r sp (InUnit sp base) (storedAt els) := by
  rw [storeUnit_eq h]
  cases sp with
  | bsm =>
    dsimp only
    generalize hcells : unitCells t.phys b w .bsm els base = cells
    have hblock : (t.sys.setBlock r.block (Block.putCells cells base)).block r.block = some (b.putCells cells base) := by
      rw [Sys.block_setBlock_same _ _ (Block.putCells cells base) fun _ => rfl, h.block]
      rfl
    refine ⟨b.putCells cells base, w, ⟨hblock, h.warp, h.memory, congrArg (NatSet.del · base) h.bsm, h.priv⟩,
      fun a ha => hcells ▸ get_unitCells_inside b.bsm ha, fun sp' a ha => ?_, rfl, calm_of_warps rfl, fun q _ => ?_⟩
    · cases sp' with
      | bsm => exact hcells ▸ get_unitCells_outside b.bsm fun hin => ha ⟨rfl, hin⟩
      | priv => rfl
      | tsp => rfl
    · exact Sys.warp_setBlock _ _ (g := Block.putCells cells base) (fun _ => rfl) (fun _ => rfl) q
  | priv =>
    dsimp only
    generalize hcells : unitCells t.phys b w .priv els base = cells
    have hrank : ∀ w : Warp, (w.putCells cells base).rank = w.rank := fun _ => rfl
    have hblock : (t.sys.setWarp r (Warp.putCells cells base)).block r.block = some (b.setWarp r.rank (Warp.putCells cells base)) := by
      rw [Sys.block_setWarp_same, h.block]
      rfl
    have hwarp : (b.setWarp r.rank (Warp.putCells cells base)).warp r.rank = some (w.putCells cells base) := by
      rw [Block.warp_setWarp_same _ _ hrank, h.warp]
      rfl
    have hpriv : (w.putCells cells base).privPoison = [] := congrArg (NatSet.del · base) h.priv
    refine ⟨b.setWarp r.rank (Warp.putCells cells base), w.putCells cells base, ⟨hblock, hwarp, h.memory, h.bsm, hpriv⟩,
      fun a ha => hcells ▸ get_unitCells_inside w.priv ha, fun sp' a ha => ?_, ?_, fun hcalm => ?_, fun q hq => ?_⟩
    · cases sp' with
      | priv => exact hcells ▸ get_unitCells_outside w.priv fun hin => ha ⟨rfl, hin⟩
      | bsm => rfl
      | tsp => rfl
    · rw [Warp.putCells, h.priv]
      rfl
    · exact calm_setWarp hcalm r.rank fun w hw => hw.putCells cells base
    · exact Sys.warp_setWarp_other _ hrank hq
  | tsp =>
    dsimp only
    obtain ⟨hsys, hpoison⟩ := foldl_byte_keeps t (unitCells t.phys b w .tsp els base)
    have hbyte := fun a => byte_foldl_cellsAt t base Space.tsp.unit (fun i => storedAt els (base + i) (spaceByte t.phys b w .tsp (base + i))) a
    refine ⟨b, w, ⟨?_, h.warp, ?_, h.bsm, h.priv⟩, fun a ha => ?_, fun sp' a ha => ?_, rfl, id, fun q _ => ?_⟩
    · rw [Tx.mark_sys, hsys, h.block]
    · rw [Tx.mark_false_poison, hpoison, h.memory]
      rfl
    · refine (hbyte a).trans ((if_pos ha).trans ?_)
      rw [Nat.add_sub_cancel' ha.1]
    · cases sp' with
      | tsp => exact (hbyte a).trans (if_neg fun hin => ha ⟨rfl, hin⟩)
      | bsm => rfl
      | priv => rfl
    · rw [Tx.mark_sys, hsys]

/-! ## All units -/

theorem Stores.trans {P Q : Nat → Prop} {g : Nat → Byte → Byte} (h : Stores t b w t' b' w' r sp P g) (h' : Stores t' b' w' t'' b'' w'' r sp Q g)
    (hdisjoint : ∀ a, P a → ¬ Q a) : Stores t b w t'' b'' w'' r sp (fun a => P a ∨ Q a) g where
  home := h'.home
  inside a ha := by
    by_cases hp : P a
    · rw [h'.outside sp a fun hq => hdisjoint a hp hq.2, h.inside a hp]
    · rw [h'.inside a (ha.resolve_left hp), h.outside sp a fun hq => hp hq.2]
  outside sp' a ha := (h'.outside sp' a fun hq => ha ⟨hq.1, .inr hq.2⟩).trans (h.outside sp' a fun hp => ha ⟨hp.1, .inl hp.2⟩)
  rest := by rw [h'.rest, h.rest]
  calm := h'.calm ∘ h.calm
  others q hq := (h'.others q hq).trans (h.others q hq)

theorem Stores.congr {P Q : Nat → Prop} {g : Nat → Byte → Byte} (h : Stores t b w t' b' w' r sp P g) (hPQ : ∀ a, P a ↔ Q a) :
    Stores t b w t' b' w' r sp Q g where
  home := h.home
  inside a ha := h.inside a ((hPQ a).mpr ha)
  outside sp' a ha := h.outside sp' a fun hp => ha ⟨hp.1, (hPQ a).mp hp.2⟩
  rest := h.rest
  calm := h.calm
  others := h.others

theorem stores_nothing (h : Home t r b w) (g : Nat → Byte → Byte) : Stores t b w t b w r sp (fun _ => False) g where
  home := h
  inside _ ha := ha.elim
  outside _ _ _ := rfl
  rest := rfl
  calm := id
  others _ _ := rfl

/-- Units of different bases, one after another. -/
theorem storeUnits_stores (us : List Nat) (h : Home t r b w) (hunits : us.Pairwise fun u v => ∀ a, InUnit sp u a → ¬ InUnit sp v a) : ∃ b' w',
    Stores t b w (us.foldl (Tx.storeUnit r sp els) t) b' w' r sp (fun a => ∃ u ∈ us, InUnit sp u a) (storedAt els) := by
  induction us generalizing t b w with
  | nil => exact ⟨b, w, (stores_nothing h _).congr fun a => by simp⟩
  | cons u us ih =>
    obtain ⟨hu, hus⟩ := List.pairwise_cons.mp hunits
    obtain ⟨b1, w1, h1⟩ := storeUnit_stores h sp els u
    obtain ⟨b2, w2, h2⟩ := ih h1.home hus
    refine ⟨b2, w2, (h1.trans h2 fun a ha ⟨v, hv, hva⟩ => hu v hv a ha hva).congr fun a => ?_⟩
    rw [List.exists_mem_cons_iff]

/-! ## The units that elements touch -/

theorem mem_foldl_addAll {α : Type} (f : α → List Nat) (xs : List α) (ps : NatSet) {j : Nat} :
    j ∈ xs.foldl (fun ps x => (f x).foldl NatSet.add ps) ps ↔ j ∈ ps ∨ ∃ x ∈ xs, j ∈ f x := by
  induction xs generalizing ps with
  | nil => simp
  | cons x xs ih => rw [List.foldl_cons, ih, NatSet.mem_foldl_add, List.exists_mem_cons_iff, or_assoc]

/-- The bases of the units of an element. -/
def basesOf (size : Nat) (e : Elem) : List Nat := (List.range e.2.1).map fun i => e.1 + i - (e.1 + i) % size

theorem unitBases_eq (size : Nat) (els : List Elem) : unitBases size els = els.foldl (fun ps e => (basesOf size e).foldl NatSet.add ps) [] := by
  simp only [unitBases, basesOf, List.foldl_map]

theorem pairwise_unitBases (size : Nat) (els : List Elem) : (unitBases size els).Pairwise (· < ·) := by
  rw [unitBases_eq]
  exact List.foldlRecOn els _ .nil fun _ hs _ _ => NatSet.pairwise_foldl_add hs

theorem mem_unitBases {size : Nat} {j : Nat} : j ∈ unitBases size els ↔ ∃ e ∈ els, ∃ i < e.2.1, j = e.1 + i - (e.1 + i) % size := by
  rw [unitBases_eq, mem_foldl_addAll]
  simp [basesOf, eq_comm (a := j)]

/-- A unit of an aligned base holds the bytes of that base. -/
theorem inUnit_iff (h : base % sp.unit = 0) : InUnit sp base a ↔ a - a % sp.unit = base := by
  have hpos : 0 < sp.unit := by cases sp <;> decide
  obtain ⟨q, rfl⟩ := Nat.dvd_of_mod_eq_zero h
  have hdiv := Nat.div_add_mod a sp.unit
  have hlt := Nat.mod_lt a hpos
  rw [InUnit, show a - a % sp.unit = sp.unit * (a / sp.unit) by omega, Nat.mul_right_inj hpos.ne']
  constructor
  · rintro ⟨hle, hlt'⟩
    exact Nat.div_eq_of_lt_le (Nat.mul_comm _ _ ▸ hle) (by rwa [Nat.succ_mul, Nat.mul_comm])
  · rintro rfl
    omega

theorem unitBases_aligned {u : Nat} (h : u ∈ unitBases sp.unit els) : u % sp.unit = 0 := by
  obtain ⟨e, -, i, -, rfl⟩ := mem_unitBases.mp h
  exact Nat.sub_mod_eq_zero_of_mod_eq (Nat.mod_mod _ _).symm

/-- Elements leave a byte that none of them covers. -/
theorem storedAt_uncovered (h : ∀ e ∈ els, ¬ (e.1 ≤ a ∧ a < e.1 + e.2.1)) (old : Byte) : storedAt els a old = old := by
  induction els with
  | nil => rfl
  | cons e es ih =>
    obtain ⟨he, hes⟩ := List.forall_mem_cons.mp h
    have hnone : elemByte e a = none := if_neg (by simpa using he)
    rw [storedAt, List.foldl_cons, hnone]
    exact ih hes

/-- A store performed where no unit is poisoned. -/
theorem perform_stores (h : Home t r b w) (sp : Space) (els : List Elem) : ∃ b' w',
    Stores t b w (t.perform r sp els) b' w' r sp (fun a => ∃ u ∈ unitBases sp.unit els, InUnit sp u a) (storedAt els) := by
  rw [perform_eq]
  refine storeUnits_stores _ h (List.Pairwise.imp_of_mem ?_ (pairwise_unitBases _ _))
  intro u v hu hv hlt a hau hav
  rw [inUnit_iff (unitBases_aligned hu)] at hau
  rw [inUnit_iff (unitBases_aligned hv)] at hav
  omega

/-- Every byte of the space after a store: the last element's that covers it, or as before. -/
theorem Stores.byte (h : Stores t b w t' b' w' r sp (fun a => ∃ u ∈ unitBases sp.unit els, InUnit sp u a) (storedAt els)) (a : Nat) :
    spaceByte t'.phys b' w' sp a = storedAt els a (spaceByte t.phys b w sp a) := by
  by_cases ha : ∃ u ∈ unitBases sp.unit els, InUnit sp u a
  · exact h.inside a ha
  · rw [h.outside sp a fun hin => ha hin.2, storedAt_uncovered]
    rintro e he ⟨hle, hlt⟩
    have hmem : a - a % sp.unit ∈ unitBases sp.unit els :=
      mem_unitBases.mpr ⟨e, he, a - e.1, by omega, by rw [Nat.add_sub_cancel' hle]⟩
    exact ha ⟨_, hmem, (inUnit_iff (unitBases_aligned hmem)).mpr rfl⟩

/-- The bytes of the lanes of a store. -/
theorem storedAt_storeElems (n : Nat) (lanes : List (Nat × Nat × DWord)) (a : Nat) (old : Byte) :
    storedAt (storeElems n lanes) a old = storedByte n lanes a old := by
  have hlane : ∀ (v : Byte) (x : Nat × Nat × DWord), (elemByte (x.2.1, n, x.2.2) a).getD v =
      if x.2.1 ≤ a ∧ a < x.2.1 + n then x.2.2.extractLsb' (8 * (a - x.2.1)) 8 else v := fun v x => by
    rw [elemByte]
    by_cases h : x.2.1 ≤ a ∧ a < x.2.1 + n <;> simp [h]
  rw [storedAt, storeElems, List.foldl_map, storedByte]
  simp only [hlane]

end Sys2Proof.Machine
end

section
/-! PROOFS. LocalAccessesComplete (O24): the stores (R29, R156, R157, R194, R221, R227), and the statement. -/

namespace Sys2Proof.Machine

open Sys2Proof.Claims

variable {s : State} {r : WarpRef} {b : Block} {w : Warp} {x : Op} {sp : Space} {n : Nat} {lanes : List (Nat × Nat × DWord)} {pages : List Nat}

/-! ## The entries in front of one that is performed -/

theorem CalmWarp.passStores (h : CalmWarp w) (id : Nat) : CalmWarp (w.passStores id) where
  trapA := h.trapA
  trapB := h.trapB
  arrived := h.arrived
  holdA := h.holdA
  holdB := h.holdB
  noArrival y hy := by
    obtain ⟨u, hu, rfl⟩ := List.mem_map.mp hy
    split
    exacts [h.noArrival u hu, h.noArrival u hu]

/-! ## A store performed and finished -/

theorem Stores.space {o : Phys} {t t' : Tx o} {b' : Block} {w' : Warp} {els : List Elem}
    (h : Stores t b w t' b' w' r sp (fun a => ∃ u ∈ unitBases sp.unit els, InUnit sp u a) (storedAt els)) (sp' : Space) (a : Nat) :
    spaceByte t'.phys b' w' sp' a = if sp = sp' then storedAt els a (spaceByte t.phys b w sp' a) else spaceByte t.phys b w sp' a := by
  by_cases hsp : sp = sp'
  · rw [if_pos hsp, ← hsp, h.byte]
  · rw [if_neg hsp, h.outside sp' a fun hin => hsp hin.1.symm]

/-- A store performed at its home, and its entry freed: the outcome that `StoresComplete` states. -/
theorem store_finishes {o : Phys} {t : Tx o} (h : Home t r b w) (hcalm : Calm b) (id : Nat) (sp : Space) (n : Nat) (lanes : List (Nat × Nat × DWord)) :
    let u := (t.perform r sp (storeElems n lanes)).finish r id fun w => w
    ∃ b' v, u.sys.block r.block = some b' ∧ b'.warp r.rank = some v ∧ v = { finished w id with priv := v.priv } ∧
      (∀ q, q ≠ r → u.sys.warp q = t.sys.warp q) ∧
      (∀ a, u.phys.byte a = if sp = .tsp then storedByte n lanes a (t.phys.byte a) else t.phys.byte a) ∧
      (∀ a, b'.bsm.get a = if sp = .bsm then storedByte n lanes a (b.bsm.get a) else b.bsm.get a) ∧
      (∀ a, v.priv.get a = if sp = .priv then storedByte n lanes a (w.priv.get a) else w.priv.get a) ∧
      (∀ a, u.phys.poisoned a = false) ∧ b'.bsmPoison = [] ∧ v.privPoison = [] := by
  obtain ⟨b1, w1, h1⟩ := perform_stores h sp (storeElems n lanes)
  obtain ⟨hphys, hsame⟩ := finish_of_calm h1.home.block h1.home.warp (h1.calm hcalm) id (g := fun w => w) SameSlots.refl
  have hspace := h1.space
  simp only [storedAt_storeElems] at hspace
  have hblock := (hsame.block r.block).trans ((Sys.block_setWarp_same _ _ _).trans (congrArg (Option.map _) h1.home.block))
  intro u
  refine ⟨_, finished w1 id, hblock, warp_setWarp_dropOp h1.home.warp SameSlots.refl id, ?_, fun q hq => ?_, fun a => ?_, hspace .bsm, hspace .priv,
    fun a => ?_, h1.home.bsm, h1.home.priv⟩
  · rw [h1.rest]
    rfl
  · exact (finish_warp_other hsame SameSlots.refl hq).trans (h1.others q hq)
  · rw [hphys]
    exact hspace .tsp a
  · rw [hphys, Phys.poisoned, h1.home.memory]
    rfl

/-! ## The two completions of a store -/

theorem localStore_exec (h : Resident s r b w) (hx : w.op x.id = some x) (hheld : w.heldBack x = false)
    (hbudget : (s.sys.rolledCore b.coreRef).budget = 0) (hbody : x.body = .store .priv n lanes pages) :
    exec (.loadStoreCompletion r x.id .clean) s = .next (((Tx.start s).perform r .priv (storeElems n lanes)).finish r x.id fun w => w).state := by
  obtain ⟨hb, hw, -⟩ := h
  obtain ⟨hmove, -⟩ := mayMove_of_unlimited hbudget x.scratchpadBytes
  change execLoadStoreCompletion r x.id .clean s = _
  unfold execLoadStoreCompletion work
  dsimp only
  rw [Tx.start_sys, (Sys.warp_eq hb).trans hw]
  dsimp only
  rw [hx]
  dsimp only
  rw [hheld, hb, Option.map_some, Option.getD_some, hmove, hbody, Bool.not_true, Bool.or_false, if_neg Bool.false_ne_true]

/-- What holds an entry of the store buffer back, once its turn has come (R194, R222 (e), R227). -/
theorem storeEntry_exec (h : Resident s r b w) (hx : w.op x.id = some x) (hheld : w.heldBack x = false) (hturn : w.drainTurn x.id = true)
    (hbudget : (s.sys.rolledCore b.coreRef).budget = 0) (hbody : x.body = .store sp n lanes pages) (hsp : sp ≠ .priv) :
    exec (.storeBufferEntryPerformed r x.id) s = .next (
      if b.stopping && w.keepsOrder x || awaitsOperands s.phys s.sys b (w.earlier x.id) (lanes.map fun y => (sp, y.2.1, n)) then Tx.start s
      else (((Tx.start s).map fun y => y.setWarp r fun w => w.passStores x.id).perform r sp (storeElems n lanes)).finish r x.id fun w => w).state := by
  obtain ⟨hb, hw, -⟩ := h
  obtain ⟨-, hmoved⟩ := mayMove_of_unlimited hbudget x.scratchpadBytes
  have hwarp : s.sys.warp r = some w := (Sys.warp_eq hb).trans hw
  have hstore : x.isStore = true := by
    rw [Op.isStore, hbody]
    exact bne_iff_ne.mpr hsp
  have hstopped : s.sys.storeStopped r x = (b.stopping && w.keepsOrder x) := by rw [Sys.storeStopped, hb, hwarp]
  have hawaits : storeAwaits s.phys s.sys r w x = awaitsOperands s.phys s.sys b (w.earlier x.id) (lanes.map fun y => (sp, y.2.1, n)) := by
    rw [storeAwaits, hb, Op.ranges, hbody]
  change execStoreBufferEntryPerformed r x.id s = _
  unfold execStoreBufferEntryPerformed work
  dsimp only
  rw [Tx.start_sys, Tx.start_phys, hwarp]
  dsimp only
  rw [hx]
  dsimp only
  rw [hheld, hturn, hstore, hstopped, hawaits, hbody, hb, Option.map_some, Option.getD_some]
  simp only [Bool.not_true, Bool.or_false, Bool.false_or, Tx.map, Tx.start_sys, hmoved]

theorem storesComplete : StoresComplete := by
  intro s r b w x sp n lanes pages h hx hheld hbody hturn hmemory hbsm hpriv hbudget stopped again
  have hwaits : (b.stopping && w.keepsOrder x || awaitsOperands s.phys s.sys b (w.earlier x.id) (lanes.map fun y => (sp, y.2.1, n))) = true ↔
      stopped ∨ again := by rw [Bool.or_eq_true, Bool.and_eq_true]
  have hhome : Home (Tx.start s) r b w := ⟨h.1, h.2.1, hmemory, hbsm, hpriv⟩
  refine ⟨fun hsp hwait => ?_, fun hgo => ?_⟩
  · rw [storeEntry_exec h hx hheld hturn hbudget hbody hsp, if_pos (hwaits.mpr hwait)]
    rfl
  · by_cases hsp : sp = .priv
    · subst hsp
      obtain ⟨b', v, hout⟩ := store_finishes hhome h.2.2 x.id .priv n lanes
      exact ⟨_, b', v, localStore_exec h hx hheld hbudget hbody, hout⟩
    · have hno := hgo.resolve_left hsp
      have hpassed : Home ((Tx.start s).map fun y => y.setWarp r fun w => w.passStores x.id) r (b.setWarp r.rank fun w => w.passStores x.id)
          (w.passStores x.id) := by
        obtain ⟨hb, hw, -⟩ := h
        refine ⟨?_, ?_, hmemory, hbsm, hpriv⟩
        · rw [Tx.map_sys, Tx.start_sys, Sys.block_setWarp_same, hb]
          rfl
        · rw [Block.warp_setWarp_same _ _ (g := fun w => w.passStores x.id) fun _ => rfl, hw]
          rfl
      have hcalm := calm_setWarp h.2.2 r.rank fun w hw => hw.passStores x.id
      obtain ⟨b', v, hblock, hv, hrest, hother, hbytes⟩ := store_finishes hpassed hcalm x.id sp n lanes
      have hexec := storeEntry_exec h hx hheld hturn hbudget hbody hsp
      rw [if_neg (mt hwaits.mp hno)] at hexec
      rw [if_neg hsp, if_neg hsp]
      exact ⟨_, b', v, hexec, hblock, hv, hrest, fun q hq => (hother q hq).trans (Sys.warp_setWarp_other _ (fun _ => rfl) hq), hbytes⟩

/-- Settles O24: the loads and LDPERM, and the stores. -/
theorem localAccessesComplete : Obligations.LocalAccessesComplete := ⟨loadsComplete, storesComplete⟩

end Sys2Proof.Machine
end
